-- ==== Sys2Proof/Word.lean ====
section
/-! DEFINITION. The word types of the register map and of memory (R8, R531), and nothing else: every helper
over them is in Machine/Bits.lean. -/

namespace Sys2Proof

/-- A byte of near SRAM, GDDR7, table memory, ring memory or flash (R8). -/
abbrev Byte := BitVec 8

/-- A 32-bit register (R531). -/
abbrev Word := BitVec 32

/-- A 64-bit quantity: fabric time (R37), a generator's state (R227). -/
abbrev DWord := BitVec 64

end Sys2Proof
end

