-- ==== Sys2Proof/Syntax.lean ====
section
/-! DEFINITION. The commands, entries and events of the package: one constructor per row of the opcode table. A
physical happening that a row names (a reading, a frame received, an outcome) stands as an operand. -/

namespace Sys2Proof

/-- Who sends a register transaction: firmware, or the control node through the management mailbox (R23, R535). -/
inductive Master where
  | firmware
  | mailbox
  deriving DecidableEq, Repr

/-- A frame of a fabric-mode link (R347): its header fields, the type-specific header as a number whose bit 0 is header
bit 128, and its payload. An ENC frame is held with its payload in the clear (log entry 8). -/
structure Frame where
  type : Nat
  vc : Nat := 0
  enc : Bool := false
  src : Nat := 0
  dst : Nat := 0
  tslot : Nat := 0
  seq : Nat := 0
  daddr : Nat := 0
  dsp : Nat := 0
  tspec : Nat := 0
  payload : List Byte := []
  deriving DecidableEq, Repr

/-- How one attempt at an extent of a load or far transfer ends: its bytes arrive, the frame fails its FCS or ICRC, or
the storage target reports an error (R289). -/
inductive ExtentEnd where
  | good (bytes : List Byte)
  | bad
  | targetError
  deriving DecidableEq, Repr

/-- A memory whose words carry a code (R253, R259, R505). -/
inductive CodedMemory where
  | nearSram
  | gddr7
  | table
  deriving DecidableEq, Repr

/-- An error that has arisen in a memory: the slice, granule, or entry of table memory, by number, and whether its code
cannot correct it. -/
structure Upset where
  kind : CodedMemory
  place : Nat
  hard : Bool
  deriving DecidableEq, Repr

/-- What the headstock reads in one control loop (R416, R462, R471, R507, R508): the power of each rail in W, none
for a rail that does not answer, and each rail's estimate; the estimate of each partition in W, and its dynamic part; the hottest and mean
junction of each die in °C; the hottest device of each M-die and its channel; each C-die's smallest critical-path
margin with its monitor and slowest oscillator with its monitor; for each partition rail the on-die reading less the
code voltage in units of 0.1 mV and whether its sense pair reads a negative differential; the diode voltage in
mV; the on-die ECC outcomes that the devices of an M-die report (R256); and the errors that have arisen in memories since the
last loop. -/
structure LoopReadings where
  rails : List (Option Nat)
  railEst : List Nat
  partEst : List Nat
  partDyn : List Nat
  tj : List (Nat × Nat)
  mem : List (Nat × Nat)
  margin : List (Nat × Nat)
  osc : List (Nat × Nat)
  sense : List (Int × Bool)
  diode : Nat
  devEcc : List (Nat × Nat) := []
  upsets : List Upset := []
  deriving DecidableEq, Repr

/-- How link training ended (R345): usable receive lanes and lane map with polarity, whether the link's own pattern or
patterns of two far links were found, the far package, link and mode where the peer exchange agreed, and the one-way
delay in 1/16 ns. -/
structure Training where
  lanes : Nat
  laneMap : Nat
  crossed : Bool
  peer : Option (Nat × Nat × Nat)
  delay : Nat
  deriving DecidableEq, Repr

/-- How a frame reaches a receiver, with the codewords corrected under it: good; failing its CRC; across uncorrectable codewords, of
which at least one; or stomped (R352, R354). -/
inductive Arrival where
  | good (corrected : Nat)
  | crc (corrected : Nat)
  | fec (corrected lost : Nat)
  | stomped (corrected : Nat)
  deriving DecidableEq, Repr


/-- What arrives of a port frame beside its content (R400, R401): SEQ, ENC, whether its GCM tag verifies and whether
its CRC does. -/
structure PortHead where
  seq : Nat
  enc : Bool
  tagOk : Bool := true
  crcOk : Bool := true
  deriving DecidableEq, Repr

/-- What a step of bring-up finds at its end (R345, R399, R424, R489, R490): the 8 KiB of the PUF as read, as a number (step 2); the
dies whose belt lane or mesh training failed (steps 5 and 6), and of each edge between two C-dies that failed one of the two (step 6);
the memory mode and, of each M-die, the channels that trained (step 7); how each link trained and which lanes of the port are dark
(step 8). -/
structure StepEnd where
  puf : Nat := 0
  failed : List Nat := []
  edges : List Nat := []
  clamshell : Bool := false
  channels : List Nat := []
  links : List Training := []
  portDark : Nat := 0
  deriving DecidableEq, Repr

/-- The cycles of the turn that ends in one cluster, as the first three rules of R394 take them, and the rest; and of them those
that entries waited on jumps (R232) and the sampler on full rings (R162). -/
structure Charge where
  cl : Nat
  stretched : Nat := 0
  busy : Nat := 0
  paced : Nat := 0
  rest : Nat := 0
  jumpWait : Nat := 0
  ringWait : Nat := 0
  deriving DecidableEq, Repr

/-- A time frame (R39, R359): the sender's tick count at its first symbol and its hop depth, its turnaround in 1/16 ns, and the
stamp of the last time frame it received on the link, of which 32 bits travel. -/
structure TimeFrame where
  stamp : Nat
  depth : Nat
  turnaround : Nat := 0
  echo : Nat := 0
  deriving DecidableEq, Repr

/-- A MAC frame that a storage-mode link receives (R363, R364): its length, destination MAC address and VLAN tag, UDP port,
destination IP address, whether it is a RoCE v2 packet of a kind that the engines support, its queue pair, whether its FCS and
ICRC are good, and the codewords corrected and uncorrectable under it. -/
structure StorageFrame where
  len : Nat
  mac : Nat
  vlan : Option Nat := none
  udp : Nat := 4791
  ip : Nat
  supported : Bool := true
  qpn : Nat
  good : Bool := true
  corrected : Nat := 0
  lost : Nat := 0
  deriving DecidableEq, Repr

/-- A program slot that was ready and did not issue for a number of cycles (R54). -/
structure Contender where
  slot : Nat
  cycles : Nat
  deriving DecidableEq, Repr

/-- A time frame and the phase of its arrival in 1/16 ns (R39). -/
structure TimeReply where
  frame : TimeFrame
  phase : Nat
  deriving DecidableEq, Repr

/-- The times t₂ and t₃ of a time exchange, in ticks (R411). -/
structure ExchangeTimes where
  t2 : Nat
  t3 : Nat
  deriving DecidableEq, Repr

/-- What a control frame says of credits, the flits freed by virtual channel, and, since the last one, the cycles in which ready
frames waited for credits, the control frames that this end has sent, and the codewords corrected and uncorrectable in which no frame
with a SEQ lay (R355, R365). -/
structure CreditReport where
  freed : List Nat := []
  stall : Nat := 0
  sent : Nat := 0
  corrected : Nat := 0
  lost : Nat := 0
  deriving DecidableEq, Repr

/-- Units of 2 MiB that the sanding engine of an M-die has written (R268). -/
structure SandRun where
  window : Nat
  units : Nat
  deriving DecidableEq, Repr

/-- An attempt at a frame on a die's belt lane (R25). -/
structure BeltAttempt where
  die : Nat
  attempt : Nat
  deriving DecidableEq, Repr

/-- The rows of the opcode table. Clusters are numbered 9 · C-die + cluster. -/
inductive Instr where
  /-- A PASS entry streams activation row blocks against weight tiles on the core's matrix array in the visit
      order given (R108). -/
  | pass (cl p : Nat)
  /-- A pass's last outputs drain through the output stage into FMT_D and its counts are added to the numeric
      record (R114). -/
  | passComplete (f : Nat)
  /-- An MVEC entry loads its vectors and applies the weight stream on the matrix-vector path in canonical
      order (R135). -/
  | mvec (cl p : Nat)
  /-- An MVEC finishes its final tree additions and conversions and writes its last outputs (R137). -/
  | mvecComplete (f : Nat)
  /-- VEC 0x00 with ROWLEN 0 converts source A into the destination format (R175). -/
  | convert (cl p : Nat)
  /-- VEC 0x00 with non-zero ROWLEN transposes A through the skew unit and converts it (R178). -/
  | skewConversion (cl p : Nat)
  /-- VEC 0x01 writes A + B element by element (R177). -/
  | add (cl p : Nat)
  /-- VEC 0x02 writes A × B element by element (R177). -/
  | multiply (cl p : Nat)
  /-- VEC 0x03 writes the fused A × B + C (R177). -/
  | multiplyAdd (cl p : Nat)
  /-- VEC 0x04 writes A × IMM (R177). -/
  | multiplyImmediate (cl p : Nat)
  /-- VEC 0x05 writes the maximum of each row (R177). -/
  | rowMaximum (cl p : Nat)
  /-- VEC 0x06 writes the canonical sum of each row (R177). -/
  | rowSum (cl p : Nat)
  /-- VEC 0x07 writes exp of A (R569). -/
  | exp (cl p : Nat)
  /-- VEC 0x08 writes ln of A (R569). -/
  | ln (cl p : Nat)
  /-- VEC 0x09 writes 1/√A (R569). -/
  | reciprocalSquareRoot (cl p : Nat)
  /-- VEC 0x0A writes the softmax of each row (R177). -/
  | softmax (cl p : Nat)
  /-- VEC 0x0B writes RMS-normalised rows times gains (R576). -/
  | rmsNormalisation (cl p : Nat)
  /-- VEC 0x0C writes layer-normalised rows with gains and offsets (R576). -/
  | layerNormalisation (cl p : Nat)
  /-- VEC 0x0D writes each row's target log-probability and log-sum-exp (R179). -/
  | logProbability (cl p : Nat)
  /-- VEC 0x0E writes SiLU of A (R576). -/
  | silu (cl p : Nat)
  /-- VEC 0x0F writes GELU of A (R576). -/
  | gelu (cl p : Nat)
  /-- VEC 0x10 updates the SH16 moments in place from the gradient with stochastic rounding (R182). -/
  | moment (cl p : Nat)
  /-- VEC 0x11 updates the SH16 master in place from the moments (R183). -/
  | master (cl p : Nat)
  /-- VEC 0x12 quantises K or V rows into a KV page form (R143). -/
  | cacheRule (cl p : Nat)
  /-- VEC 0x13 keeps elements whose draws fall below the threshold and scales them (R180). -/
  | dropout (cl p : Nat)
  /-- VEC 0x14 with ROWLEN 0 fills DST with normal values by the knot table (R236). -/
  | normalFillTable (cl p : Nat)
  /-- VEC 0x14 with ROWLEN 1 fills DST with normal values by the two-draw transform (R237). -/
  | normalFillTransform (cl p : Nat)
  /-- VEC 0x15 fills DST with uniform values scaled by IMM (R235). -/
  | uniformFill (cl p : Nat)
  /-- A VEC finishes writing its last group (R177). -/
  | vecComplete (f : Nat)
  /-- ATTN step 0 appends the new K and V rows and writes the score matrix (R146). -/
  | attnScores (cl p : Nat)
  /-- ATTN step 1 normalises each score row in place (R147). -/
  | attnNormalise (cl p : Nat)
  /-- ATTN step 2 multiplies the normalised rows by V on the array or the matrix-vector path (R148). -/
  | attnValues (cl p : Nat)
  /-- An ATTN step finishes and counts its widened pages (R150). -/
  | attnComplete (f : Nat)
  /-- A SAMPLE entry turns rows of logits into tokens and log-probabilities (R159). -/
  | sample (cl p : Nat)
  /-- A SAMPLE completes once every token record has been accepted by its ring, closing the family step (R162). -/
  | sampleComplete (f : Nat)
  /-- A MOVE entry transfers bytes between near SRAM, GDDR7 and table memory through the transfer queue (R574). -/
  | move (cl p : Nat)
  /-- A MOVE with SPILL 1 towards GDDR7 quantises and compresses an activation into a spill image (R191). -/
  | activationSpill (cl p : Nat)
  /-- A MOVE with SPILL 1 from GDDR7 expands a spill image into near SRAM (R193). -/
  | spillExpand (cl p : Nat)
  /-- A MOVE's last byte reaches its destination and its token is posted (R52). -/
  | moveComplete (f : Nat)
  /-- XCHG mode 0 sends rows to the endpoints and rows its route list names (R386). -/
  | exchangeFixed (cl p : Nat)
  /-- XCHG mode 1 routes each row to its top-K experts and writes the dispatch record and receipt tables (R387). -/
  | dispatch (cl p : Nat)
  /-- XCHG mode 2 sends expert results back to their senders (R388). -/
  | returnRows (cl p : Nat)
  /-- XCHG mode 3 forms each row's weighted sum of expert results locally (R389). -/
  | combine (cl p : Nat)
  /-- An XCHG completes at the sender when every frame has been acknowledged (R391). -/
  | xchgComplete (f : Nat)
  /-- A REDUCE with CANON 0 joins its bucket and reduces around the ring in group order (R378). -/
  | reduceThroughput (cl p : Nat)
  /-- A REDUCE with CANON 1 sends WA48 partials to each shard owner for canonical combination (R380). -/
  | reduceOrdered (cl p : Nat)
  /-- A REDUCE with FSYNC 1 circulates the live flags twice and writes their OR into the synced copies (R382). -/
  | flagSync (cl p : Nat)
  /-- A REDUCE completes when its shard is written and its frames acknowledged, posting its token (R383). -/
  | reduceComplete (f : Nat)
  /-- A GATHER fetches shard images from its source list and widens them into near SRAM (R294). -/
  | gather (cl p : Nat)
  /-- A GATHER completes 24 cycles after its last byte and stamp check, posting its token (R297). -/
  | gatherComplete (f : Nat)
  /-- A WAIT_TURN holds its program until the named turn begins (R66). -/
  | waitTurn (cl p : Nat)
  /-- A WAIT_TOKEN holds its program until its counter reaches TARGET, then subtracts TARGET (R68). -/
  | waitToken (cl p : Nat)
  /-- A WAIT_TOKEN not complete by turn u + TIMEOUT + 1 halts its program in state 8 (R68). -/
  | tokenTimeout (cl p : Nat)
  /-- A GATE reads a flag copy and skips SKIP entries when it is set (R70). -/
  | gate (cl p : Nat)
  /-- A HINT announces a heavy phase and pre-arms the regulators if its lead is in range (R72). -/
  | hint (cl p : Nat)
  /-- A MARK writes a 128-byte record of time, issue count and idle counters (R73). -/
  | mark (cl p : Nat)
  /-- A JUMP sets the program's next entry to TARGET (R51). -/
  | jump (cl p : Nat)
  /-- An END ends its program and clears its ENABLE, optionally posting program end (R50). -/
  | endEntry (cl p : Nat)
  /-- A passed-over program's ageing counter reaches AGE_INTERVAL and its effective priority rises one level (R54). -/
  | priorityAgeing (cl : Nat) (p : Contender)
  /-- A write to HALT halts the named programs at their next entry boundary (R57). -/
  | halt (m : Master) (cl v : Nat)
  /-- The turn strobe reaches a die and the five boundary actions run in order (R46). -/
  | turnBoundary (mask : Nat) (charges : List Charge)
  /-- The alarm turn begins, ALARM is set and the fabric-time alarm notice is posted (R44). -/
  | fabricTimeAlarm
  /-- A parked entry whose expiry turn has begun is freed and EXPIRED posted (R334). -/
  | parkedSessionExpiry (e : Nat)
  /-- A write of GO to COMMIT makes the page's commit outstanding for the next boundary (R539). -/
  | commitGo (m : Master) (page : Nat)
  /-- A write of ARM to COMMIT latches COMMIT_TURN and arms the commit for that turn (R539). -/
  | commitArm (m : Master) (page : Nat)
  /-- A write of DISARM to COMMIT withdraws the outstanding commit (R539). -/
  | commitDisarm (m : Master) (page : Nat)
  /-- A write to a register with no behaviour of its own updates its shadow or value per its access code (R11). -/
  | registerWrite (m : Master) (addr v : Nat)
  /-- A read of a low word latches its high word for that master (R544). -/
  | lowWordRead (m : Master) (addr : Nat)
  /-- Writing 1 to CTRL.ERR_CLR clears ERR_COUNT (R534). -/
  | errClr (m : Master) (page : Nat)
  /-- A W1C write to EVENT clears faceplate event bits and updates SUM_ALERT (R536). -/
  | eventClear (m : Master) (page v : Nat)
  /-- A commit changing ENABLE from 0 to 1 starts the program at START with a new base turn (R50). -/
  | programEnable (cl : Nat)
  /-- A commit clearing ENABLE halts the program at its next entry boundary (R50). -/
  | programDisable (cl : Nat)
  /-- A commit of TBL_CTRL with GO starts a copy of entries from GDDR7 into table memory (R58). -/
  | tableCopy (cl : Nat)
  /-- A table copy completes, GO clears in the live mirror and table loaded is posted (R48). -/
  | tableLoaded (cl : Nat)
  /-- A commit of the partition page changes partition ownership and grouping when the partitions are quiet (R30). -/
  | ownershipChange
  /-- A commit changing FT_ROLE clears ACQUIRED and the package takes time in its new role (R499). -/
  | roleChange
  /-- A commit of LS_CTRL with LOAD sets σ, σ_step and the clean count and writes the loss-scale lines (R220). -/
  | lossScaleLoad (cl : Nat)
  /-- A write to RS_GO starts a check draw from the random stream page values (R240). -/
  | checkDraw (m : Master) (cl : Nat)
  /-- The check draw finishes, RS_OUT holds the draw and DONE is set (R240). -/
  | checkDrawDone (cl : Nat)
  /-- A write to CNT_CLEAR clears the attention and sampler counters (R165). -/
  | cntClear (m : Master) (cl : Nat)
  /-- A write to NS_CLEAR clears the near SRAM error counters (R254). -/
  | nsClear (m : Master) (d : Nat)
  /-- A write to MEM_CLEAR clears the memory page counters (R277). -/
  | memClear (m : Master) (w : Nat)
  /-- A write to QM_CLEAR clears the queue page counters (R339). -/
  | qmClear (m : Master)
  /-- A write to PE_CLEAR clears the page engine counters (R340). -/
  | peClear (m : Master)
  /-- A write to LINK_CLEAR clears the link page counters (R365). -/
  | linkClear (m : Master) (l : Nat)
  /-- A write to IDLE_CLEAR clears the cluster idle and busy counters (R395). -/
  | idleClear (m : Master) (cl : Nat)
  /-- A write to PWR_CLEAR clears PWR_HINTS, PWR_MARKS and AGE_ALARMS (R485). -/
  | pwrClear (m : Master)
  /-- A write to DIE_CLEAR clears the die power counters (R487). -/
  | dieClear (m : Master) (d : Nat)
  /-- A write to PORT_CLEAR clears the port page counters (R412). -/
  | portClear (m : Master)
  /-- A write of LINK_KEY words places link-key bytes in the staging store (R439). -/
  | linkKeyWrite (m : Master) (j v : Nat)
  /-- Every 976,563 turns the package idle page is updated with sums over all clusters (R395). -/
  | packageIdleUpdate
  /-- A time frame arrives on a fabric-mode link and a follower steers on its parent's stamp (R39). -/
  | timeFrame (l : Nat) (f : TimeFrame) (a : Arrival) (phase : Nat) (step : Bool) (rate : Int)
  /-- Every 1,024 turns a running link measures its one-way delay again (R39). -/
  | delayRemeasure (l : Nat) (r : TimeReply)
  /-- The offset has stayed within ±2 ns for 16 consecutive turns or exchanges and ACQUIRED is set (R40). -/
  | acquired
  /-- The parent link goes down or exchanges are missed for 16 loops and fabric time enters holdover (R42). -/
  | holdover
  /-- The control node's answer to a time frame arrives and the master or stand-alone package steers (R411). -/
  | timeExchange (h : PortHead) (tag : Nat) (t : ExchangeTimes) (rate : Int)
  /-- The control node answers no exchange for 1 s during bring-up and time not acquired is posted (R498). -/
  | timeNotAcquired
  /-- REFCLK is absent for 1 µs and the clocks switch to the holdover oscillator (R509). -/
  | refclkLost
  /-- REFCLK has been present for 1 ms and the generators relock (R509). -/
  | refclkReturn
  /-- A belt frame fails its CRC and is sent again (R25). -/
  | beltCrcRetry (b : BeltAttempt)
  /-- A belt frame fails a fourth time, the lane is declared down and a catch is raised (R25). -/
  | beltLaneDown (d : Nat)
  /-- Space returns to a full event queue and an event overflow record with the loss count is queued (R25). -/
  | eventOverflow (d : Nat)
  /-- Every 1 ms the headstock reads telemetry and rails, recomputes the ceiling and applies the power rules
      (R465). -/
  | controlLoop (r : LoopReadings)
  /-- A regulator fails to answer for 3 loops and its estimate times 1.25 replaces its reading (R464). -/
  | measurementLost (j : Nat)
  /-- The estimate differs from measured power by over 25 % for 1,000 loops and DISAGREE is set (R463). -/
  | powerEstimateDisagrees
  /-- AGE_PERIOD hours of powered time pass and firmware runs an ageing re-plan (R456). -/
  | periodicReplan
  /-- A droop detector fires and the die's clock period doubles (R469). -/
  | droop (d : Nat)
  /-- The rail stays above threshold for 32 doubled cycles and the period returns to normal (R469). -/
  | droopRecovery (d n : Nat)
  /-- The last rail acknowledges its voltage step and the faster point may take effect (R455). -/
  | vstepAck (p : Nat)
  /-- VSTEP_ACK has not risen in 100 µs and the voltage is set by VOUT_COMMAND (R418). -/
  | regulatorStepTimeout (p : Nat)
  /-- A hardware comparator trips at 118 °C, data-plane clocks stop and THERMTRIP_N falls (R473). -/
  | thermalTrip (d : Nat)
  /-- A commit of PS_CTRL with GO begins entry to Idle, Nap or Rest, or is refused (R476). -/
  | powerStateEntry
  /-- Entry to a power state completes and any latched wake is replayed (R481). -/
  | entryComplete
  /-- A falling edge on WAKE_N is a wake source in Idle, Nap and Rest (R420). -/
  | wakeNFall
  /-- The detector sees 8 periods of the wake pattern on a link or the port and wakes the package (R478). -/
  | wakePattern (l : Nat)
  /-- The wake time before an armed enabling commit is reached and the headstock begins a wake (R480). -/
  | armedCommitWake (page : Nat)
  /-- A wake stage raises its ready signal and the next stage begins (R479). -/
  | wakeStageReady
  /-- A wake stage misses twice its budget on its second attempt and a catch is raised (R479). -/
  | wakeStalled
  /-- PWRGOOD rises and bring-up begins (R488). -/
  | pwrgoodRise
  /-- PWRGOOD falls and the device stops at once as at power-off (R420). -/
  | pwrgoodFall
  /-- RESET_N is held low and the device returns to the start of bring-up (R420). -/
  | resetNAssert
  /-- RESET_N is released and bring-up restarts at step 2 (R491). -/
  | resetNRelease
  /-- A bring-up step meets its end condition and the next step begins (R488). -/
  | bringUpStepEnd (x : StepEnd)
  /-- Sanding of every window is done after time acquisition and ready is posted (R488). -/
  | ready
  /-- A recovery chunk frame writes image bytes into flash at its offset (R494). -/
  | recoveryChunk (h : PortHead) (tag off total : Nat) (bytes : List Byte)
  /-- A recovery commit frame has the ROM verify the image and continue or fail (R494). -/
  | recoveryCommit (h : PortHead) (tag off total : Nat)
  /-- A recovery status frame is answered with the status and expected offset (R493). -/
  | recoveryStatus (h : PortHead) (tag : Nat)
  /-- A GDDR7 access failing its data CRC is repeated, and after the fifth failure the channel retrains (R257). -/
  | gddr7CrcRetry (a n attempt : Nat) (write : Bool)
  /-- A GDDR7 channel's retraining ends, succeeding or marking the channel failed (R258). -/
  | retrainingComplete (w k : Nat) (ok : Bool)
  /-- A corrected near-SRAM slice is written back when its bank's write port is free (R253). -/
  | correctionWriteBack (a : Nat)
  /-- A commit of SAND_CTRL with GO queues a range for sanding (R268). -/
  | sandQueue (w : Nat)
  /-- SAND_AGE turns pass with ranges queued and the sanding level rises by one (R270). -/
  | sandAgeing (w : Nat)
  /-- The last granule of a range is written and sanded is posted (R269). -/
  | sanded (r : SandRun)
  /-- A commit of MEM_CATCH changes the catch share and queues returned space for sanding (R274). -/
  | catchShareChange (w : Nat)
  /-- A C-die finishes a tag sweep, releasing any held epoch advance (R250). -/
  | tagSweepComplete (d k : Nat)
  /-- A producer doorbell advances a command queue's producer index or is refused (R404). -/
  | producerDoorbell (h : PortHead) (tag n q : Nat)
  /-- A consumer doorbell releases records of a token ring or event queue or is refused (R404). -/
  | consumerDoorbell (h : PortHead) (tag n q : Nat)
  /-- The queue manager fetches commands from a command-queue mirror over the port (R311). -/
  | hostReadRequest (n : Nat)
  /-- The control node's read response arrives with the requested data (R402). -/
  | hostReadResponse (h : PortHead) (tag : Nat) (bytes : List Byte)
  /-- A host read is unanswered twice for 100 µs and the fetch or STORE ends unread (R402). -/
  | hostReadTimeout (tag : Nat)
  /-- The P-die sends ring records to the control node's mirror in a host write frame (R405). -/
  | hostWrite (n : Nat)
  /-- Ring slots free and records waiting in the pending store are posted in order (R312). -/
  | pendingRecordPost (n : Nat)
  /-- The ADMIT command admits a request, binds its ring, pins versions and creates its lists (R317). -/
  | admitReq (q : Nat)
  /-- The CANCEL command cancels a request as its state allows (R338). -/
  | cancel (q : Nat)
  /-- The PAUSE command parks a request's session in the far tier (R332). -/
  | pause (q : Nat)
  /-- The RESUME command restores a parked request into a family (R333). -/
  | resume (q : Nat)
  /-- The DROP_PARKED command frees a parked entry at once (R334). -/
  | dropParked (q : Nat)
  /-- The PREFIX_DEF command turns written lists into a read-only learned prefix (R328). -/
  | prefixDef (q : Nat)
  /-- The PREFIX_DROP command marks a prefix retiring (R329). -/
  | prefixDrop (q : Nat)
  /-- The FAMILY_DEF command creates a family's batch sets (R320). -/
  | familyDef (q : Nat)
  /-- The FAMILY_DROP command removes a family (R313). -/
  | familyDrop (q : Nat)
  /-- The last extent of a session image is written, frames become evictable and PAUSED or PREEMPTED is posted
      (R332). -/
  | sessionParked (e : Nat)
  /-- A RESUME without frames retries at a turn boundary (R333). -/
  | resumeRetry (e : Nat)
  /-- A session image is read back, versions pinned and RESUMED posted (R333). -/
  | restoreComplete (e : Nat) (bad : Option Nat) (bytes : List Byte)
  /-- A commit with BLK_CTRL.PUB publishes a new base blank version or is refused (R279). -/
  | publish
  /-- A commit with BLK_CTRL.APUB publishes a new adapter version (R285). -/
  | adapterPublish
  /-- A write of BLK_UNHOLD[0] clears the model's HOLD (R281). -/
  | unhold (m : Master)
  /-- A write of BLK_UNHOLD[1] clears AHOLD of the selected adapter (R285). -/
  | unholdAdapter (m : Master)
  /-- The LOAD mailbox request starts loading a descriptor list from storage into GDDR7 (R288). -/
  | load (h : PortHead) (tag list n : Nat)
  /-- A loaded extent completes, or fails and is read again (R289). -/
  | loadExtent (n off : Nat) (x : ExtentEnd)
  /-- A commit of SW_CTRL with GO starts the switch plan on an M-die (R298). -/
  | switchPlanStart (w : Nat)
  /-- The M-die takes the next switch descriptor and converts masters into pieces and images (R300). -/
  | switchDescriptor (w : Nat)
  /-- A write to SW_ABORT stops the plan at the next descriptor boundary (R304). -/
  | swAbort (m : Master) (w : Nat)
  /-- The deadline turn passes with the plan unfinished and switch overrun is posted (R304). -/
  | switchOverrun (w : Nat)
  /-- A switch piece arrives at its package and is written to near SRAM with its token (R301). -/
  | switchPiece (l : Nat) (f : Frame) (a : Arrival)
  /-- A REDUCE frame arrives and is added, forwarded or written as its member's role requires (R378). -/
  | reduceFrame (l : Nat) (f : Frame) (a : Arrival)
  /-- An XCHG frame arrives, is decrypted and its rows written, posting a token when counts complete (R390). -/
  | xchgFrame (l : Nat) (f : Frame) (a : Arrival) (tagOk : Bool)
  /-- A GATHER request arrives and the owning M-die reads the image and its stamps (R296). -/
  | gatherRequest (l : Nat) (f : Frame) (a : Arrival)
  /-- A GATHER response arrives and is widened into the gathering core with stamp checks (R296). -/
  | gatherResponse (l : Nat) (f : Frame) (a : Arrival)
  /-- A link control frame brings cumulative acknowledgements, NAKs or credits (R352). -/
  | controlFrame (l ack : Nat) (nak : Option Nat) (c : CreditReport)
  /-- A spindle-link wake frame arrives and wakes a package in Idle or Nap (R477). -/
  | linkWakeFrame (l : Nat) (f : Frame) (a : Arrival)
  /-- A held frame's conditions hold and it leaves 42 cycles later (R358). -/
  | heldFrameDeparture (l vc : Nat) (tagOk : Bool)
  /-- A frame is replayed 8 times without acknowledgement and the link retrains (R353). -/
  | replayLimit (l : Nat)
  /-- Link training ends with the link up, half width or fenced (R345). -/
  | linkTrainingComplete (l : Nat) (t : Training)
  /-- Every 1 ms the peer exchange repeats while the two ends request different modes (R345). -/
  | modeMismatchRetry (l : Nat) (t : Training)
  /-- Light is lost on a fibre of a running link and the lane goes dark (R506). -/
  | lightLoss (l lane : Nat)
  /-- A commit of LINK_CTRL changes the mode and the link retrains (R344). -/
  | linkModeChange (l : Nat)
  /-- A commit of LINK_CTRL with RETRAIN retrains a link (R346). -/
  | linkRetrain (l : Nat)
  /-- A frame's tag stays unregistered for 4,096 turns and it is discarded (R374). -/
  | bucketOrphaned (n : Nat)
  /-- A REDUCE not complete 4,096 turns after issue writes NaN and completes (R385). -/
  | reductionTimeout (f : Nat)
  /-- A gather source silent for 4,096 turns has its part written as zeros (R297). -/
  | gatherSourceLost (f n : Nat)
  /-- A pair link returns and the partner answers (R524). -/
  | mirrorResumed
  /-- A RoCE v2 frame arrives on a storage-mode link for the storage engines (R363). -/
  | storageFrame (l : Nat) (f : StorageFrame) (fill sent : Nat)
  /-- A congestion notification packet halves a connection's rate (R363). -/
  | congestionNotification (n : Nat)
  /-- Every 50 µs without notification a connection regains 1/16 of line rate (R363). -/
  | congestionRecovery (n : Nat)
  /-- A received priority flow control pause halts transmission on its priority (R363). -/
  | priorityPause (l prio : Nat)
  /-- The Wailos port trains and runs on two lanes, one lane or goes down (R399). -/
  | portTraining (dark : Nat)
  /-- A Wailos link-control frame brings acknowledgement or NAK for replay (R400). -/
  | portLinkControl (ack : Nat) (nak : Option Nat)
  /-- A Wailos wake frame wakes a package in Idle or Nap (R477). -/
  | portWakeFrame (h : PortHead)
  /-- An attestation request with a nonce is answered with a quote and an ephemeral encapsulation key (R429). -/
  | attestationRequest (h : PortHead) (tag : Nat) (nonce : List Byte)
  /-- The control node's ciphertext arrives, port keys are derived and a confirmation frame sets KEYED (R430). -/
  | keyEstablishment (h : PortHead) (tag : Nat) (ct : List Byte)
  /-- The mailbox request REG_READ reads registers through the belt hub (R407). -/
  | regRead (h : PortHead) (tag addr n : Nat)
  /-- The mailbox request REG_WRITE writes registers through the belt hub (R407). -/
  | regWrite (h : PortHead) (tag addr : Nat) (words : List Nat)
  /-- The mailbox request ARM writes shadow pairs and arms every touched page for one turn (R408). -/
  | arm (h : PortHead) (tag turn : Nat) (pairs : List (Nat × Nat))
  /-- The mailbox request TARGET_SET registers a storage target's connection (R407). -/
  | targetSet (h : PortHead) (tag n : Nat) (record : List Byte)
  /-- The mailbox request TARGET_CLEAR removes a storage target (R407). -/
  | targetClear (h : PortHead) (tag n : Nat)
  /-- The mailbox request FAR_PUT copies GDDR7 extents to a far window (R439). -/
  | farPut (h : PortHead) (tag target a raddr rkey exts : Nat)
  /-- The mailbox request FAR_GET reads far extents back with serial and tag checks (R439). -/
  | farGet (h : PortHead) (tag target a raddr rkey exts serial : Nat)
  /-- A far transfer ends and far transfer complete is posted (R272). -/
  | farTransferComplete (n : Nat) (ends : List ExtentEnd)
  /-- The mailbox request STORE copies control-node memory into GDDR7 (R409). -/
  | store (h : PortHead) (tag a caddr n slot : Nat)
  /-- A STORE ends and store complete is posted (R409). -/
  | storeComplete (n : Nat)
  /-- The mailbox request FETCH copies GDDR7 to control-node memory (R409). -/
  | fetch (h : PortHead) (tag a caddr n slot : Nat)
  /-- A FETCH ends and fetch complete is posted (R409). -/
  | fetchComplete (n : Nat)
  /-- The mailbox request QUOTE returns a signed quote over the nonce (R427). -/
  | quote (h : PortHead) (tag : Nat) (nonce : List Byte)
  /-- The mailbox request IDENTITY returns the identity public key and endorsement (R433). -/
  | identityReq (h : PortHead) (tag : Nat)
  /-- The mailbox request SLOT_LOAD loads a tenant slot with its link key (R441). -/
  | slotLoad (h : PortHead) (tag slot conf parts : Nat) (key : List Byte)
  /-- The mailbox request SLOT_PART arms parting of a tenant slot (R442). -/
  | slotPart (h : PortHead) (tag slot turn : Nat)
  /-- The mailbox request EXTEND extends MR5 to MR7 (R426). -/
  | extend (h : PortHead) (tag r : Nat) (bytes : List Byte)
  /-- The mailbox request REKEY replaces both port keys (R431). -/
  | rekey (h : PortHead) (tag : Nat)
  /-- The mailbox request DEBUG_AUTH accepts a debug token and sets DEBUG (R450). -/
  | debugAuth (h : PortHead) (tag : Nat) (token : List Byte)
  /-- The mailbox request ADMIT admits the control node into the trusted domain (R432). -/
  | trustedDomainAdmit (h : PortHead) (tag : Nat)
  /-- A commit of SLOT_CFG with LOAD makes a slot active with fresh keys (R438). -/
  | slotCfgLoad
  /-- A commit of SLOT_CFG with PART begins parting: the slot retires and its programs halt (R442). -/
  | slotCfgPart
  /-- Every unit reports quiet, the slot's keys are zeroised, its epoch advances and regions are queued for
      sanding (R442). -/
  | keyZeroise (k : Nat)
  /-- At P + 16 with a unit not quiet, keys are zeroised and remaining writes forced (R444). -/
  | forcedZeroise (k : Nat)
  /-- The slot's last range is sanded, regions disabled and parting complete posted (R442). -/
  | partingComplete (k : Nat)
  /-- The mailbox request RECLAIM starts reclaim of a partition group by a deadline (R526). -/
  | reclaim (h : PortHead) (tag mask : Nat) (hold : Bool) (deadline : Nat)
  /-- The reclaimed group becomes quiet and the committed step is read (R527). -/
  | groupQuiet
  /-- The mailbox request RECLAIM_GO ends the hold and lets parting begin (R530). -/
  | reclaimGo (h : PortHead) (tag : Nat)
  /-- At the boundary after parting completes the group passes to serving and reclaim complete is posted (R527). -/
  | handOver
  /-- The group is not quiet 2 s before the deadline and is halted with its descriptors dropped (R528). -/
  | reclaimForcedStop
  /-- The deadline turn begins before hand-over and reclaim late is posted (R529). -/
  | reclaimLate
  /-- The mailbox request PAIR_SET configures a mirrored pair (R521). -/
  | pairSet (h : PortHead) (tag partner l0 l1 base size slot : Nat)
  /-- The mailbox request PAIR_CLEAR removes pairing (R530). -/
  | pairClear (h : PortHead) (tag : Nat)
  /-- The mailbox request PAIR_SOLO sets or clears SOLO (R524). -/
  | pairSolo (h : PortHead) (tag : Nat) (solo : Bool)
  /-- The mailbox request CATCH_INFO returns the catch page (R530). -/
  | catchInfo (h : PortHead) (tag : Nat)
  /-- CATCH_RELEASE by request or register queues sanding of the catch region or frees the reduced area (R518). -/
  | catchRelease (h : PortHead) (tag : Nat)
  /-- The mailbox request CAP_SET sets the power cap and window (R461). -/
  | capSet (h : PortHead) (tag cap window turn : Nat)
  /-- The mailbox request SHARE_SET sets the partition power shares (R468). -/
  | shareSet (h : PortHead) (tag : Nat) (shares : List Nat) (turn : Nat)
  /-- The mailbox request OP_SET sets or clears partitions' requested operating points (R460). -/
  | opSet (h : PortHead) (tag mask point turn : Nat)
  /-- The mailbox request STATE_SET asks for a power state or wakes the package (R476). -/
  | stateSet (h : PortHead) (tag target turn : Nat)
  /-- The mailbox request POWER_READ returns power readings coarsened as required (R484). -/
  | powerRead (h : PortHead) (tag : Nat)
  /-- The mailbox request REPLAN runs an ageing re-plan applied at a named turn (R456). -/
  | replan (h : PortHead) (tag turn : Nat)
  /-- The mailbox request WAKE_LINKS sends the wake pattern on the named links (R478). -/
  | wakeLinks (h : PortHead) (tag mask : Nat)
  /-- A write to PS_WAKE_LINKS sends the wake pattern on the named links (R478). -/
  | psWakeLinks (m : Master) (v : Nat)
  /-- A fatal error raises a catch: programs halt, engines stop and dump engines start (R511). -/
  | caught (cause die : Nat)
  /-- A die without a strobe for 4 turns halts its programs and writes its sections (R512). -/
  | strobeLossDump (d : Nat)
  /-- The dump ends and catch dump complete or reduced is posted (R511). -/
  | catchDumpComplete (dies : Nat)
  /-- An I3C write of 1 to SB_WAKE requests a wake (R414). -/
  | sbWake
  /-- An I3C write to SB_EVENTS clears event bits (R414). -/
  | sbEventsClear (v : Nat)
  /-- SCL or SDA is low for over 10 ms and the sideband pins go to high impedance (R415). -/
  | sidebandFault
  /-- Every 1 s the headstock tests the disabled I3C bus again (R415). -/
  | sidebandRetest (ok : Bool)
  /-- The JTAG BYPASS instruction (R419). -/
  | bypass
  /-- The JTAG IDCODE instruction returns 0x2064_0B3D (R419). -/
  | idcode
  /-- The JTAG SAMPLE/PRELOAD instruction (R419). -/
  | samplePreload (pins : Nat)
  /-- The JTAG EXTEST instruction, effective only under RESET_N (R419). -/
  | extest (pins : Nat)
  /-- The JTAG CLAMP instruction, effective only under RESET_N (R419). -/
  | clamp
  /-- The JTAG HIGHZ instruction, effective only under RESET_N (R419). -/
  | highz
  /-- The IEEE 1149.6 EXTEST_PULSE instruction for the reference-clock pair (R419). -/
  | extestPulse (pins : Nat)
  /-- The IEEE 1149.6 EXTEST_TRAIN instruction for the reference-clock pair (R419). -/
  | extestTrain (pins : Nat)
  /-- An event frame from a die reaches the headstock over the belt and its record is posted to its event
      queue or held in the headstock store (R410). -/
  | eventFrame (d : Nat)
  /-- A wake stage's ready signal misses twice its budget on the first attempt and the headstock repeats that
      stage (R479). -/
  | wakeStageRetry
  /-- A GDDR7 device reports a command-address parity error and the controller reissues the command once, then
      counts it in MEM_CA_PARITY (R256). -/
  | commandAddressParityError (w : Nat)
  /-- A Miodun debug instruction is loaded into the TAP and acts only if the root-of-trust processor has
      authorised debug and no confidential tenant is present (R419). -/
  | debugInstruction
  /-- The optional TRST_N input is asserted and the TAP is reset (R419). -/
  | trstNAssert
  /-- The I3C controller assigns the sideband target a dynamic address (R414). -/
  | dynamicAddressAssignment (a : Nat)
  /-- The wake pattern sent on the named links ends and those links resume normal transmission (R478). -/
  | wakePatternEnd (mask : Nat)
  /-- The pause time of a received priority flow control pause runs out and transmission on that priority
      resumes (R363). -/
  | priorityPauseExpiry (l : Nat)
  deriving DecidableEq, Repr

end Sys2Proof
end

