-- ==== Sys2Proof/Machine/Bits.lean ====
section
/-! DEFINITION. Bit fields, signed fields and byte order (R8): the helpers every layout of the manual is read with. -/

namespace Sys2Proof.Machine

/-- The field [hi:lo] of a number (R8). -/
def bf (e hi lo : Nat) : Nat := (e >>> lo) % 2 ^ (hi + 1 - lo)

/-- e with its field [hi:lo] replaced by v (R8). -/
def setBf (e hi lo v : Nat) : Nat :=
  e - (bf e hi lo) <<< lo + (v % 2 ^ (hi + 1 - lo)) <<< lo

/-- One bit as 0 or 1. -/
def bit (e i : Nat) : Nat := (e >>> i) % 2

/-- e with bit i set to b. -/
def setBit (e i : Nat) (b : Bool) : Nat := setBf e i i (if b then 1 else 0)

/-- A two's complement field of n bits. -/
def signed (n v : Nat) : Int := if v < 2 ^ (n - 1) then (v : Int) else (v : Int) - (2 ^ n : Nat)

/-- The n low bits of an integer, two's complement. -/
def unsigned (n : Nat) (i : Int) : Nat := (i % ((2 ^ n : Nat) : Int)).toNat

def ceilDiv (a b : Nat) : Nat := (a + b - 1) / b

/-- Little-endian: byte 0 is the least significant (R8). -/
def leNat : List Byte → Nat
  | [] => 0
  | b :: bs => b.toNat + 256 * leNat bs

/-- n little-endian bytes of v (R8). -/
def leBytes : Nat → Nat → List Byte
  | 0, _ => []
  | n + 1, v => BitVec.ofNat 8 v :: leBytes n (v / 256)

/-- A counter saturating at 2^n - 1. -/
def satAdd (n a b : Nat) : Nat := min (a + b) (2 ^ n - 1)

/-- floor(log2 m) of a positive m. -/
def flog2 (m : Nat) : Nat := Nat.log2 m

/-- The bits below n that are set, ascending. -/
def setBits (m n : Nat) : List Nat := (List.range n).filter fun i => m.testBit i

/-- m · 2^k for k of either sign, truncating. -/
def shiftBy (m : Nat) (k : Int) : Nat := if 0 ≤ k then m <<< k.toNat else m >>> (-k).toNat

/-- A list padded with d, or cut, to n elements. -/
def padTo {α : Type} (n : Nat) (d : α) (l : List α) : List α := (l ++ List.replicate (n - l.length) d).take n

/-- The list in runs of n (fuel: its length). -/
def chunksAux {α : Type} (n : Nat) : Nat → List α → List (List α)
  | 0, _ => []
  | _, [] => []
  | f + 1, l => l.take n :: chunksAux n f (l.drop n)

def chunks {α : Type} (n : Nat) (l : List α) : List (List α) := chunksAux n l.length l

/-! ### Order -/

/-- A value put before the first of an ordered list that it does not come after. -/
def sortInsert {α : Type} (le : α → α → Bool) (x : α) : List α → List α
  | [] => [x]
  | y :: ys => if le x y then x :: y :: ys else y :: sortInsert le x ys

/-- A list in order; of two values in order both ways, the first stays first. -/
def sortBy {α : Type} (le : α → α → Bool) : List α → List α
  | [] => []
  | x :: xs => sortInsert le x (sortBy le xs)

end Sys2Proof.Machine
end

