-- ==== Sys2Proof/Machine/Num.lean ====
section
/-! DEFINITION. The number formats of R74 and R75: exact values, decoding, rounding and encoding of one element. -/

namespace Sys2Proof.Machine

/-- An exact value. fin neg m e is (-1)^neg · m · 2^e, where decoding leaves 2^e as the weight of the element's
least significant bit at its binade (R89); a zero keeps its sign (R76). -/
inductive Num where
  | nan
  | inf (neg : Bool)
  | fin (neg : Bool) (m : Nat) (e : Int)
  deriving DecidableEq, Repr

def Num.zero : Num := .fin false 0 0
def Num.one : Num := .fin false 1 0

/-- How a format treats its top exponent (R75): none has no special value, e4m3 has NaN only, ieee has both. -/
inductive Special where
  | none
  | e4m3
  | ieee
  deriving DecidableEq, Repr

/-- One floating-point layout of R74: sign, exponent field, significand field, bias. -/
structure Fmt where
  width : Nat
  ebits : Nat
  mbits : Nat
  bias : Nat
  special : Special
  deriving DecidableEq, Repr

def fmtE2M1 : Fmt := ⟨4, 2, 1, 1, .none⟩
def fmtE2M3 : Fmt := ⟨6, 2, 3, 1, .none⟩
def fmtE3M2 : Fmt := ⟨6, 3, 2, 3, .none⟩
def fmtE4M3 : Fmt := ⟨8, 4, 3, 7, .e4m3⟩
def fmtE5M2 : Fmt := ⟨8, 5, 2, 15, .ieee⟩
def fmtBF16 : Fmt := ⟨16, 8, 7, 127, .ieee⟩
def fmtFP16 : Fmt := ⟨16, 5, 10, 15, .ieee⟩
def fmtFP32 : Fmt := ⟨32, 8, 23, 127, .ieee⟩
def fmtWA48 : Fmt := ⟨48, 10, 37, 511, .ieee⟩

/-- The floating layout of a format code; MXINT8 (0x5) is the one code that has none (R74). -/
def fmtOf (code : Nat) : Fmt :=
  match code with
  | 0x0 => fmtE2M1
  | 0x1 => fmtE2M3
  | 0x2 => fmtE3M2
  | 0x3 => fmtE4M3
  | 0x4 => fmtE5M2
  | 0x6 => fmtBF16
  | 0x7 => fmtFP16
  | 0x8 => fmtFP16
  | 0x9 => fmtFP32
  | _ => fmtWA48

/-- Element width in bits (R74). -/
def widthOf (code : Nat) : Nat := if code = 0x5 then 8 else (fmtOf code).width

/-- The weight exponent of the smallest subnormal: 1 - bias - mbits. -/
def Fmt.qmin (f : Fmt) : Int := 1 - (f.bias : Int) - f.mbits

/-- The largest finite value as (m, e) (R74). -/
def Fmt.maxFin (f : Fmt) : Nat × Int :=
  match f.special with
  | .none => (2 ^ (f.mbits + 1) - 1, (2 ^ f.ebits : Nat) - 1 - (f.bias : Int) - f.mbits)
  | .e4m3 => (2 ^ (f.mbits + 1) - 2, (2 ^ f.ebits : Nat) - 1 - (f.bias : Int) - f.mbits)
  | .ieee => (2 ^ (f.mbits + 1) - 1, (2 ^ f.ebits : Nat) - 2 - (f.bias : Int) - f.mbits)

/-- Compare magnitudes m1 · 2^e1 and m2 · 2^e2. -/
def magLt (a b : Nat × Int) : Bool :=
  let e := min a.2 b.2
  a.1 <<< (a.2 - e).toNat < b.1 <<< (b.2 - e).toNat

def Fmt.decode (f : Fmt) (v : Nat) : Num :=
  let neg := v.testBit (f.ebits + f.mbits)
  let ef := bf v (f.ebits + f.mbits - 1) f.mbits
  let mf := v % 2 ^ f.mbits
  let top := 2 ^ f.ebits - 1
  if f.special = .ieee ∧ ef = top then (if mf = 0 then .inf neg else .nan)
  else if f.special = .e4m3 ∧ ef = top ∧ mf = 2 ^ f.mbits - 1 then .nan
  else if ef = 0 then .fin neg mf f.qmin
  else .fin neg (2 ^ f.mbits + mf) (f.qmin + (ef : Int) - 1)

/-- The element value of a code's bits, before any block or group scale (R74, R75). -/
def decodeElem (code v : Nat) : Num :=
  if code = 0x5 then
    let i := signed 8 (v % 256)
    .fin (decide (i < 0)) i.natAbs (-6)
  else (fmtOf code).decode (v % 2 ^ (fmtOf code).width)

/-- The canonical NaN of a format's element; for the codes without one it is element 0 under scale 0xFF (R75). -/
def canonNaN (code : Nat) : Nat :=
  match code with
  | 0x3 => 0x7F
  | 0x4 => 0x7E
  | 0x6 => 0x7FC0
  | 0x7 => 0x7E00
  | 0x8 => 0x7E00
  | 0x9 => 0x7FC00000
  | 0xA => 0x7FF000000000
  | _ => 0

/-- Rounding to nearest even, or stochastic with u bits of which r were drawn (R94). -/
inductive Rnd where
  | rne
  | stoch (u r : Nat)
  deriving DecidableEq, Repr

/-- Round m · 2^e to a multiple of 2^q: the multiple, and whether a non-zero remainder was dropped (R92 step 3, R94). -/
def roundTo (rd : Rnd) (m : Nat) (e q : Int) : Nat × Bool :=
  if q ≤ e then (m <<< (e - q).toNat, false)
  else
    let sh := (q - e).toNat
    let n := m >>> sh
    let rem := m % 2 ^ sh
    match rd with
    | .rne =>
      let up := 2 ^ sh < 2 * rem ∨ (2 * rem = 2 ^ sh ∧ n % 2 = 1)
      ((if up then n + 1 else n), decide (rem ≠ 0))
    | .stoch u r =>
      let t := if u ≤ sh then rem >>> (sh - u) else rem <<< (u - sh)
      ((if 2 ^ u ≤ t + r then n + 1 else n), decide (rem ≠ 0))

/-- The weight of the destination's least significant bit at the binade of m · 2^e (R92 step 3). -/
def Fmt.quantum (f : Fmt) (m : Nat) (e : Int) : Int :=
  if m = 0 then f.qmin else max f.qmin ((flog2 m : Int) + e - f.mbits)

/-- The field bits of n · 2^q, where n < 2^(mbits+2) and q is a quantum of the format and the value is in range. -/
def Fmt.encodeMag (f : Fmt) (neg : Bool) (n : Nat) (q : Int) : Nat :=
  let (n, q) := if 2 ^ (f.mbits + 1) ≤ n then (n / 2, q + 1) else (n, q)
  let mag := if n < 2 ^ f.mbits then n else ((q - f.qmin).toNat + 1) * 2 ^ f.mbits + (n - 2 ^ f.mbits)
  (if neg then 2 ^ (f.ebits + f.mbits) else 0) + mag

def Fmt.encodeInf (f : Fmt) (neg : Bool) : Nat :=
  (if neg then 2 ^ (f.ebits + f.mbits) else 0) + (2 ^ f.ebits - 1) * 2 ^ f.mbits

def Fmt.encodeMax (f : Fmt) (neg : Bool) : Nat := f.encodeMag neg f.maxFin.1 f.maxFin.2

/-- What one converted element was: its bits, and the conditions of R97 and R98 it raised. -/
structure Conv where
  bits : Nat
  sat : Bool := false
  flush : Bool := false
  nan : Bool := false
  stoch : Bool := false
  deriving DecidableEq, Repr

def Rnd.isStoch : Rnd → Bool
  | .rne => false
  | .stoch _ _ => true

/-- R92 steps 3 to 5 for a finite element already divided by its scale. -/
def convertFin (code : Nat) (sat flush : Bool) (rd : Rnd) (neg : Bool) (m : Nat) (e : Int) : Conv :=
  if code = 0x5 then
    let (n, ix) := roundTo rd m e (-6)
    let tooBig := decide (127 < n)
    let k := if tooBig then 127 else n
    { bits := if neg then (256 - k) % 256 else k, sat := tooBig, stoch := ix && rd.isStoch }
  else
    let f := fmtOf code
    let q := f.quantum m e
    let (n, ix) := roundTo rd m e q
    let st := ix && rd.isStoch
    if magLt f.maxFin (n, q) then
      { bits := if sat ∨ f.special ≠ .ieee then f.encodeMax neg else f.encodeInf neg, sat := true, stoch := st }
    else if flush ∧ n ≠ 0 ∧ n < 2 ^ f.mbits then
      { bits := f.encodeMag neg 0 f.qmin, flush := true, stoch := st }
    else { bits := f.encodeMag neg n q, stoch := st }

/-- R92 for an element of a format that carries no scale: codes 0x6, 0x7, 0x9, 0xA, and one SH16 or block element
whose group has its scale. src is the source format, whose largest finite value replaces an infinity under SAT 1. -/
def convertElem (code : Nat) (sat flush : Bool) (rd : Rnd) (src : Nat) (x : Num) : Conv :=
  match x with
  | .nan => { bits := canonNaN code, nan := true }
  | .inf neg =>
    if sat then
      let mx := (fmtOf src).maxFin
      { convertFin code sat flush rd neg mx.1 mx.2 with sat := true }
    else { bits := (fmtOf code).encodeInf neg }
  | .fin neg m e => convertFin code sat flush rd neg m e

/-! ### WA48 and binary32 as rounded arithmetic -/

/-- Round an exact value into an IEEE format by round-to-nearest-even, overflow to infinity. -/
def Fmt.roundBits (f : Fmt) (x : Num) : Nat :=
  match x with
  | .nan => (2 ^ f.ebits - 1) * 2 ^ f.mbits + 2 ^ (f.mbits - 1)
  | .inf neg => f.encodeInf neg
  | .fin neg m e =>
    let q := f.quantum m e
    let (n, _) := roundTo .rne m e q
    if magLt f.maxFin (n, q) then f.encodeInf neg else f.encodeMag neg n q

/-- Round to the nearest value of the format and take it back as an exact value. -/
def Fmt.round (f : Fmt) (x : Num) : Num := f.decode (f.roundBits x)

def wa (x : Num) : Num := fmtWA48.round x
def f32 (x : Num) : Num := fmtFP32.round x

def Num.neg : Num → Num
  | .nan => .nan
  | .inf s => .inf (!s)
  | .fin s m e => .fin (!s) m e

def Num.isNeg : Num → Bool
  | .nan => false
  | .inf s => s
  | .fin s _ _ => s

def Num.isZero : Num → Bool
  | .fin _ 0 _ => true
  | _ => false

/-- The exact sum; opposite infinities give NaN, and an exact zero takes the sign of round-to-nearest (R86). -/
def Num.add (x y : Num) : Num :=
  match x, y with
  | .nan, _ => .nan
  | _, .nan => .nan
  | .inf s, .inf t => if s = t then .inf s else .nan
  | .inf s, _ => .inf s
  | _, .inf t => .inf t
  | .fin s a d, .fin t b e =>
    let q := min d e
    let ia : Int := (a <<< (d - q).toNat : Nat)
    let ib : Int := (b <<< (e - q).toNat : Nat)
    let sum := (if s then -ia else ia) + (if t then -ib else ib)
    if sum = 0 then .fin (s && t) 0 q else .fin (decide (sum < 0)) sum.natAbs q

/-- The exact product (R129: infinity times zero is NaN). -/
def Num.mul (x y : Num) : Num :=
  match x, y with
  | .nan, _ => .nan
  | _, .nan => .nan
  | .inf s, .fin t m _ => if m = 0 then .nan else .inf (s != t)
  | .fin s m _, .inf t => if m = 0 then .nan else .inf (s != t)
  | .inf s, .inf t => .inf (s != t)
  | .fin s a d, .fin t b e => .fin (s != t) (a * b) (d + e)

/-- Exact multiplication by 2^k. -/
def Num.scale (x : Num) (k : Int) : Num :=
  match x with
  | .fin s m e => .fin s m (e + k)
  | y => y

/-- The order of finite and infinite values, NaN below everything. -/
def Num.key : Num → Nat × Int × Bool
  | .nan => (0, 0, false)
  | .inf s => (1, 0, s)
  | .fin s m e => (m, e, s)

/-- x < y for values that are not NaN; the zeros are equal here. -/
def Num.lt (x y : Num) : Bool :=
  match x, y with
  | .nan, _ => false
  | _, .nan => false
  | .inf s, .inf t => s && !t
  | .inf s, .fin _ _ _ => s
  | .fin _ _ _, .inf t => !t
  | .fin s a d, .fin t b e =>
    let q := min d e
    let ia : Int := (a <<< (d - q).toNat : Nat)
    let ib : Int := (b <<< (e - q).toNat : Nat)
    decide ((if s then -ia else ia) < (if t then -ib else ib))

/-- The maximum operation of IEEE 754-2019: a NaN wins and +0 ranks above -0 (R569). -/
def Num.max (x y : Num) : Num :=
  match x, y with
  | .nan, _ => .nan
  | _, .nan => .nan
  | x, y =>
    if Num.lt x y then y
    else if Num.lt y x then x
    else if x.isNeg then y else x

/-- WA48 addition: one rounding to nearest even (R86). -/
def waAdd (x y : Num) : Num := wa (x.add y)

def f32Add (x y : Num) : Num := f32 (x.add y)
def f32Sub (x y : Num) : Num := f32 (x.add y.neg)
def f32Mul (x y : Num) : Num := f32 (x.mul y)

/-- A · B + C with one rounding (R176). -/
def f32Fma (a b c : Num) : Num := f32 ((a.mul b).add c)

/-- An exact quotient of magnitudes to 80 further bits with a sticky bit below, so that one rounding of it to a
binary32 is correct. -/
def quotSticky (a : Nat) (d : Int) (b : Nat) (e : Int) : Nat × Int :=
  let k := 80 + flog2 b
  let n := a <<< k
  (2 * (n / b) + (if n % b = 0 then 0 else 1), d - e - k - 1)

/-- IEEE 754 binary32 division (R569). -/
def f32Div (x y : Num) : Num :=
  match x, y with
  | .nan, _ => .nan
  | _, .nan => .nan
  | .inf _, .inf _ => .nan
  | .inf s, .fin t _ _ => .inf (s != t)
  | .fin s _ _, .inf t => .fin (s != t) 0 0
  | .fin s a d, .fin t b e =>
    if b = 0 then (if a = 0 then .nan else .inf (s != t))
    else
      let (m, q) := quotSticky a d b e
      f32 (.fin (s != t) m q)

/-- IEEE 754 binary32 square root (R569). -/
def f32Sqrt (x : Num) : Num :=
  match x with
  | .nan => .nan
  | .inf s => if s then .nan else .inf false
  | .fin s m e =>
    if m = 0 then .fin s 0 0
    else if s then .nan
    else
      let k : Nat := 160 + (if (e % 2 = 0) then 0 else 1)
      let n := m <<< k
      let r := Nat.sqrt n
      f32 (.fin false (2 * r + (if r * r = n then 0 else 1)) ((e - k) / 2 - 1))

/-- 1/√x, one rounding (R176, R569). -/
def f32Rsqrt (x : Num) : Num :=
  match x with
  | .nan => .nan
  | .inf s => if s then .nan else .fin false 0 0
  | .fin s m e =>
    if m = 0 then .inf s
    else if s then .nan
    else
      -- 2^(2k) / (m · 2^e'), with e' even; the integer square root of the exact quotient, with a sticky bit
      let (m, e) := if e % 2 = 0 then (m, e) else (2 * m, e - 1)
      let k := 2 * (flog2 m + 80)
      let n := 2 ^ k
      let r := Nat.sqrt (n / m)
      f32 (.fin false (2 * r + (if r * r * m = n then 0 else 1)) (-(k : Int) / 2 - e / 2 - 1))

end Sys2Proof.Machine
end

