-- ==== Sys2Proof/Machine/Random.lean ====
section
/-! DEFINITION. Random streams: the generator, the jump and the draw (R227 to R231). -/

namespace Sys2Proof.Machine

/-- The multiplier A of R227. -/
def rngA : DWord := 0x2B992DDFA23249D5#64

/-- The increment C of R227. -/
def rngC : DWord := 0x14057B7EF767814F#64

/-- One step of the master sequence (R227). -/
def rngStep (x : DWord) : DWord := rngA * x + rngC

/-- out(x) of R227: the state permuted into 32 bits. -/
def rngOut (x : DWord) : Word :=
  let t : Word := (((x >>> 18) ^^^ x) >>> 27).setWidth 32
  let rot := (x >>> 59).toNat
  (t >>> rot) ||| (t <<< (32 - rot))

/-- The jump of R231 from bit b on, n bits still to take: the pair (acc_a, acc_c). -/
def jumpAux (p : DWord) : Nat → Nat → DWord → DWord → DWord → DWord → DWord × DWord
  | 0, _, accA, accC, _, _ => (accA, accC)
  | n + 1, b, accA, accC, curA, curC =>
    let set := p.getLsbD b
    let accC' := if set then curA * accC + curC else accC
    let accA' := if set then accA * curA else accA
    jumpAux p n (b + 1) accA' accC' (curA * curA) (curC * (curA + 1))

/-- x_P from the seed in one jump (R231). -/
def rngJump (seed p : DWord) : DWord :=
  let (a, c) := jumpAux p 64 0 1 0 rngA rngC
  a * seed + c

/-- draw(seed, s, g) of R228. -/
def draw (seed : DWord) (stream g : Nat) : Word :=
  rngOut (rngJump seed (BitVec.ofNat 64 (2 ^ 40 * stream + g)))

/-- The u-bit field of element i in its group's draw (R94, R234). -/
def drawField (seed : DWord) (stream ebase u i : Nat) : Nat :=
  let per := 32 / u
  ((draw seed stream (ebase + i / per)).toNat >>> (u * (i % per))) % 2 ^ u

end Sys2Proof.Machine
end

