-- ==== Sys2Proof/Machine/Tensor.lean ====
section
/-! DEFINITION. Tensors in memory: panels and element packing (R79 to R81, R84, R86), scale choice and the
conversion of whole tensors (R82, R85, R92 to R94), the group stage and the canonical order (R87 to R89, R201). -/

namespace Sys2Proof.Machine

/-! ### Layout -/

/-- True for the codes that carry a scale per block or group (R78, R84). -/
def isScaled (code : Nat) : Bool := decide (code ≤ 5) || code == 8

/-- Elements per scale: 32 or 16 for a block (R79), 128 for an SH16 group (R84). -/
def unitElems (code blk : Nat) : Nat := if code = 8 then 128 else if blk = 1 then 16 else 32

/-- Data bytes of one scaled unit (R80). -/
def unitBytes (code blk : Nat) : Nat := unitElems code blk * widthOf code / 8

/-- Bytes an element takes where it is not scaled: WA48 lies in an 8-byte container (R86). -/
def elemBytes (code : Nat) : Nat := if code = 0xA then 8 else widthOf code / 8

/-- Lines of a full panel's data: 256 units (R80). -/
def panelDataLines (code blk : Nat) : Nat := unitBytes code blk

/-- Lines a tensor of n elements occupies, scale lines included (R80, R84, R86). -/
def tensorLines (code blk n : Nat) : Nat :=
  if isScaled code then
    let units := ceilDiv n (unitElems code blk)
    let full := units / 256
    let rest := units % 256
    full * (panelDataLines code blk + 1) +
      (if rest = 0 then 0 else ceilDiv (rest * unitBytes code blk) 256 + 1)
  else ceilDiv (n * elemBytes code) 256

/-- Byte offset of scaled unit u of a tensor of `units` units, from the tensor's first line (R80). -/
def unitOffset (code blk u : Nat) : Nat :=
  (u / 256) * (panelDataLines code blk + 1) * 256 + (u % 256) * unitBytes code blk

/-- Byte offset of the scale byte of unit u in a tensor of `units` units (R80): the scale line follows the panel's
last data line. -/
def scaleOffset (code blk units u : Nat) : Nat :=
  let p := u / 256
  let inPanel := min 256 (units - p * 256)
  (p * (panelDataLines code blk + 1) + ceilDiv (inPanel * unitBytes code blk) 256) * 256 + u % 256

/-- Bits of element j of a scaled unit, as a bit offset in the unit's data (R81): 4-bit pairs, 6-bit quads in
24-bit words and bytes are all the same little-endian bit run. -/
def elemBitOffset (code j : Nat) : Nat := j * widthOf code

/-! ### Reading -/

/-- The lines, counted from the first line of what they lie in, that n bytes from byte o on touch. -/
def runLines (o n : Nat) : List Nat := if n = 0 then [] else (List.range ((o + n - 1) / 256 + 1 - o / 256)).map (o / 256 + ·)

/-- The lines of a tensor of n elements that hold elements a to b - 1 and their scales (R80, R84, R86). -/
def elemLines (code blk n a b : Nat) : List Nat :=
  if b ≤ a then []
  else if isScaled code then
    let ue := unitElems code blk
    ((List.range ((b - 1) / ue + 1 - a / ue)).flatMap fun i =>
      let u := a / ue + i
      runLines (unitOffset code blk u) (unitBytes code blk) ++ [scaleOffset code blk (ceilDiv n ue) u / 256]).eraseDups
  else runLines (elemBytes code * a) (elemBytes code * (b - a))

/-- What a tensor read can see of memory: a function from a byte offset, relative to the tensor's first line. -/
abbrev ByteView := Nat → Byte

def viewLE (v : ByteView) (off n : Nat) : Nat := leNat ((List.range n).map fun i => v (off + i))

/-- The bits of one element of a tensor of n elements. -/
def elemBits (v : ByteView) (code blk _n i : Nat) : Nat :=
  if isScaled code then
    let ue := unitElems code blk
    let b := elemBitOffset code (i % ue)
    let off := unitOffset code blk (i / ue) + b / 8
    (viewLE v off 2 >>> (b % 8)) % 2 ^ widthOf code
  else if code = 0xA then viewLE v (8 * i) 6
  else viewLE v (elemBytes code * i) (elemBytes code)

/-- The scale field of element i's unit (R78, R84); 127, the unit scale, for a format without scales. -/
def elemScale (v : ByteView) (code blk n i : Nat) : Nat :=
  if isScaled code then
    let ue := unitElems code blk
    (v (scaleOffset code blk (ceilDiv n ue) (i / ue))).toNat
  else 127

/-- The exact value of an element with its scale applied; every element under scale 0xFF is NaN (R78). -/
def elemValue (v : ByteView) (code blk n i : Nat) : Num :=
  let sc := elemScale v code blk n i
  if isScaled code && sc == 255 then .nan
  else (decodeElem code (elemBits v code blk n i)).scale ((sc : Int) - 127)

def tensorValues (v : ByteView) (code blk n : Nat) : List Num :=
  (List.range n).map fun i => elemValue v code blk n i

/-! ### Choosing a scale and converting -/

/-- The numeric conditions an entry raises (R97, R98). -/
structure Counts where
  sat : Nat := 0
  flush : Nat := 0
  bumps : Nat := 0
  stoch : Nat := 0
  widened : Nat := 0
  nan : Nat := 0
  truncated : Bool := false
  deriving DecidableEq, Repr

def Counts.add (a b : Counts) : Counts :=
  { sat := a.sat + b.sat, flush := a.flush + b.flush, bumps := a.bumps + b.bumps, stoch := a.stoch + b.stoch,
    widened := a.widened + b.widened, nan := a.nan + b.nan, truncated := a.truncated || b.truncated }

def Conv.counts (c : Conv) : Counts :=
  { sat := if c.sat then 1 else 0, flush := if c.flush then 1 else 0, nan := if c.nan then 1 else 0,
    stoch := if c.stoch then 1 else 0 }

/-- The sticky bits of NUM_STICKY that the counts set (R97). -/
def Counts.sticky (c : Counts) : Nat :=
  (if c.flush = 0 then 0 else 1) + (if c.sat = 0 then 0 else 2) + (if c.nan = 0 then 0 else 4) +
    (if c.truncated then 8 else 0) + (if c.bumps = 0 then 0 else 16)

/-- The conversion parameters of an entry: destination code and block bit, SAT, FLUSH, the format an infinity is
replaced in, and the rounding of the element at each logical index (R92, R94). -/
structure ConvParams where
  code : Nat
  blk : Nat
  sat : Bool
  flush : Bool
  src : Nat
  stochU : Nat := 0
  seed : DWord := 0
  stream : Nat := 0
  ebase : Nat := 0
  rowLen : Nat := 0
  realLen : Nat := 0
  deriving DecidableEq, Repr

/-- Whether element i is a result and not a row's padding (R106): rows of rowLen elements hold realLen results. -/
def ConvParams.isReal (p : ConvParams) (i : Nat) : Bool := p.rowLen == 0 || decide (i % p.rowLen < p.realLen)

/-- The rounding of the element at logical index i: stochastic with u bits when stochU is u, else to nearest even. -/
def ConvParams.rnd (p : ConvParams) (i : Nat) : Rnd :=
  if p.stochU = 0 then .rne else .stoch p.stochU (drawField p.seed p.stream p.ebase p.stochU i)

/-- The e of R82 step 3. -/
def scaleExp (code : Nat) : Int :=
  match code with
  | 0x0 => 2
  | 0x1 => 2
  | 0x2 => 4
  | 0x3 => 8
  | 0x4 => 15
  | 0x8 => 14
  | _ => 0

/-- The largest finite element magnitude of a code (R74). -/
def maxElem (code : Nat) : Nat × Int := if code = 5 then (127, -6) else (fmtOf code).maxFin

/-- The largest magnitude among finite values, or none where all are zero (R82 step 1). Where two are equal the first is
taken, with its own exponent (log entry 107). -/
def largestMag (vs : List Num) : Option (Nat × Int) :=
  vs.foldl (fun (acc : Option (Nat × Int)) (x : Num) =>
    match x with
    | .fin _ m e =>
      if m = 0 then acc
      else match acc with
        | none => some (m, e)
        | some a => if magLt a (m, e) then some (m, e) else some a
    | _ => acc) none

/-- R82 (and R85, where step 4 never triggers): the exponent X and whether a scale bump occurred. -/
def chooseScale (code : Nat) (vs : List Num) : Int × Bool :=
  match largestMag vs with
  | none => (-127, false)
  | some (m, e) =>
    let x := (flog2 m : Int) + e - scaleExp code
    let bump := code != 8 && magLt (maxElem code) (m, e - x)
    let x := if bump then x + 1 else x
    (max (-127) (min 127 x), bump)

/-- One converted block or group: its scale byte, its element codes, and what it counted. -/
structure BlockConv where
  scale : Nat
  elems : List Nat
  counts : Counts
  deriving DecidableEq, Repr

/-- R92 step 1 for a block: the replacement of infinities under SAT 1, by the largest finite value of the source: of its
element format, whatever the scale it stood under (log entry 108). -/
def replaceInf (sat : Bool) (src : Nat) (x : Num) : Num :=
  match x with
  | .inf neg => if sat then .fin neg (fmtOf src).maxFin.1 (fmtOf src).maxFin.2 else .inf neg
  | y => y

def isInf : Num → Bool
  | .inf _ => true
  | _ => false

/-- Convert the elements of one block or SH16 group. real is how many of them are elements and not padding; idx
gives the logical index of each (R82, R85, R92, R94). A block that a NaN makes NaN holds the canonical NaN of its format in
every element (R75), and its replaced infinities still count as saturated (R92). -/
def convertBlock (p : ConvParams) (real : Nat) (idx : Nat → Nat) (vs : List Num) : BlockConv :=
  let noInf := (fmtOf p.code).special != .ieee || p.code == 5
  let bad := p.code ≤ 5 && vs.any fun x => x == .nan || (isInf x && !p.sat && noInf)
  if bad then
    { scale := 255, elems := vs.map fun _ => canonNaN p.code,
      counts := { nan := real, sat := if p.sat then (vs.filter isInf).length else 0 } }
  else
    let ws := vs.map (replaceInf p.sat p.src)
    let (x, bump) := chooseScale p.code ws
    let cs := (ws.zipIdx).map fun (w, j) => convertElem p.code p.sat p.flush (p.rnd (idx j)) p.src (w.scale (-x))
    let cs := (cs.zip vs).map fun ((c, v) : Conv × Num) => if isInf v && p.sat then { c with sat := true } else c
    let ct := cs.foldl (fun a c => a.add c.counts) ({} : Counts)
    { scale := (x + 127).toNat, elems := cs.map (·.bits), counts := { ct with bumps := if bump then 1 else 0 } }

/-- A write of one byte, at an offset from the tensor's first line; a tensor's image is a list of them. -/
abbrev ByteWrite := Nat × Byte

/-- The bytes of a unit's packed elements (R81). -/
def packElems (w : Nat) (es : List Nat) : List Byte :=
  let total := (es.zipIdx).foldl (fun a (e, j) => a + e <<< (w * j)) 0
  leBytes (ceilDiv (w * es.length) 8) total

/-- Converting a tensor: the bytes written and the counts. -/
structure TensorConv where
  writes : List ByteWrite
  counts : Counts
  deriving DecidableEq, Repr

/-- Convert the values of a whole tensor into its image (R80, R82, R85, R86, R92, R114). idx gives element i's
logical index for R94; keep says which elements are written (R187): a unit with none kept is left alone, its scale
byte too, and the zeros beyond the last panel's blocks (R80) go with a panel of which something is kept. A WA48 destination
is written without conversion (R86, R114). -/
def convertTensor (p : ConvParams) (idx : Nat → Nat) (keep : Nat → Bool) (vs : List Num) : TensorConv :=
  let n := vs.length
  if isScaled p.code then
    let ue := unitElems p.code p.blk
    let units := ceilDiv n ue
    let w := widthOf p.code
    let step := (chunks ue vs).zipIdx.map fun (us, u) =>
      if us.zipIdx.any fun (_, j) => keep (u * ue + j) then
        let real := ((List.range us.length).filter fun j => p.isReal (u * ue + j)).length
        let b := convertBlock p real (fun j => idx (u * ue + j)) (padTo ue Num.zero us)
        let data := (packElems w b.elems).zipIdx.filterMap fun ((x, k) : Byte × Nat) =>
          if keep (u * ue + 8 * k / w) || n ≤ u * ue + 8 * k / w then some (unitOffset p.code p.blk u + k, x) else none
        (data ++ [(scaleOffset p.code p.blk units u, BitVec.ofNat 8 b.scale)], b.counts)
      else ([], ({} : Counts))
    let lastPanel := units - 1
    let kept := (List.range n).any fun i => keep i && i / ue / 256 == lastPanel / 256
    let zeros := if units = 0 || !kept then [] else
      (List.range (255 - lastPanel % 256)).map fun k =>
        (scaleOffset p.code p.blk units lastPanel + 1 + k, (0 : Byte))
    { writes := (step.map (·.1)).flatten ++ zeros, counts := step.foldl (fun a s => a.add s.2) {} }
  else if p.code = 0xA then
    { writes := (vs.zipIdx.map fun (x, i) =>
        if keep i then (leBytes 8 (fmtWA48.roundBits x)).zipIdx.map fun ((b, k) : Byte × Nat) => (8 * i + k, b) else []).flatten,
      counts := { nan := (vs.zipIdx.filter fun ((x, i) : Num × Nat) => keep i && x == .nan).length } }
  else
    let eb := elemBytes p.code
    let cs := vs.zipIdx.map fun (x, i) =>
      if keep i then
        let c := convertElem p.code p.sat p.flush (p.rnd (idx i)) p.src x
        ((leBytes eb c.bits).zipIdx.map fun ((b, k) : Byte × Nat) => (eb * i + k, b), c.counts)
      else ([], ({} : Counts))
    { writes := (cs.map (·.1)).flatten, counts := cs.foldl (fun a s => a.add s.2) {} }

/-- The written image of a list of values, all kept. -/
def convertAll (p : ConvParams) (vs : List Num) : TensorConv := convertTensor p id (fun _ => true) vs

/-! ### The group stage and the canonical order -/

/-- The window W of R87. -/
def groupWindow (ca cb : Nat) : Nat := if ca ≤ 5 ∧ cb ≤ 5 then 58 else 40

/-- The exponent of the least significant bit of the group's largest-magnitude product: decoding leaves each
element's e at its own LSB, so a product's e is its LSB (R87, R89). Of products that tie for the largest magnitude the first
along the reduction dimension gives L (log entry 107). -/
def largestProduct (ps : List Num) : Option (Nat × Int) := largestMag ps

/-- Truncate a product's magnitude below 2^cut (R87). -/
def truncBelow (cut : Int) (x : Num) : Num × Bool :=
  match x with
  | .fin s m e =>
    if cut ≤ e then (.fin s m e, false)
    else
      let sh := (cut - e).toNat
      (.fin s (m >>> sh) cut, decide (m % 2 ^ sh ≠ 0))
  | y => (y, false)

/-- The exact sum of products, zero signs by R86: -0 only where every product is -0. -/
def exactSum (ps : List Num) : Num :=
  match ps with
  | [] => Num.zero
  | p :: rest => rest.foldl Num.add p

def isFinite : Num → Bool
  | .fin _ _ _ => true
  | _ => false

/-- The group stage of R87 over one accumulation group, and whether it truncated a non-zero bit (R89). A group that holds
an infinite or NaN product has no window: its sum is the special of R129, and nothing is truncated (log entry 100). -/
def groupSum (ca cb : Nat) (xs ys : List Num) : Num × Bool :=
  let ps := List.zipWith Num.mul xs ys
  match (if ps.all isFinite then largestProduct ps else none) with
  | none => (wa (exactSum ps), false)
  | some (_, l) =>
    let ts := ps.map (truncBelow (l - groupWindow ca cb))
    (wa (exactSum (ts.map (·.1))), ts.any (·.2))

/-- One 32-element span: one group, or the two 16-element groups of R88 added in WA48, the lower first. -/
def spanSum (ca cb : Nat) (short : Bool) (xs ys : List Num) : Num × Bool :=
  if short then
    let a := groupSum ca cb (xs.take 16) (ys.take 16)
    let b := groupSum ca cb (xs.drop 16) (ys.drop 16)
    (waAdd a.1 b.1, a.2 || b.2)
  else groupSum ca cb xs ys

/-- Sum in ascending order, starting from the first term and not from zero (R110, R201). -/
def sumFromFirst (xs : List Num) : Num :=
  match xs with
  | [] => Num.zero
  | x :: rest => rest.foldl waAdd x

/-- The largest power of two below m (m ≥ 2), 1 when m = 2 (R201). -/
def treeSplit (m : Nat) : Nat := 2 ^ flog2 (m - 1)

/-- tree(0, nc) of R201 over the chunk sums, with fuel at least the number of chunks. -/
def treeAux : Nat → List Num → Num
  | 0, xs => xs.headD Num.zero
  | f + 1, xs =>
    match xs with
    | [] => Num.zero
    | [x] => x
    | xs =>
      let h := treeSplit xs.length
      waAdd (treeAux f (xs.take h)) (treeAux f (xs.drop h))

def tree (xs : List Num) : Num := treeAux xs.length xs

/-- The canonical reduction of a list of group sums: chunks of 32 in ascending order, then the tree (R201). -/
def canonical (gs : List Num) : Num := tree ((chunks 32 gs).map sumFromFirst)

/-- The canonical sum of n exact values along a row: 32-element groups summed exactly into WA48, then R201, then
binary32 (R176). -/
def rowSum (vs : List Num) : Num :=
  f32 (canonical ((chunks 32 vs).map fun g => wa (exactSum g)))

/-- The subtrees of tree(0, nc) that R202 names, as (lo, m); fuel at least nc. -/
def isSubtreeAux : Nat → Nat → Nat → Nat → Nat → Bool
  | 0, _, _, _, _ => false
  | f + 1, lo, m, a, k =>
    if lo = a ∧ m = k then true
    else if m ≤ 1 then false
    else
      let h := treeSplit m
      isSubtreeAux f lo h a k || isSubtreeAux f (lo + h) (m - h) a k

/-- Whether chunks [a, a+k) are a subtree of the evaluation over nc chunks (R202). -/
def isSubtree (nc a k : Nat) : Bool := isSubtreeAux (flog2 (nc + 1) + 2) 0 nc a k

end Sys2Proof.Machine
end

