-- ==== Sys2Proof/Machine/Entry.lean ====
section
/-! DEFINITION. Schedule-table entries: the common header, the numeric word and the type-specific fields of R59 to
R64, and the checks of layout that hold for a type whatever unit consumes it (R10, R59 to R63, R77). An entry is its
256 bits as a number. -/

namespace Sys2Proof.Machine.Ent

/-! ### Common header and numeric word (R59, R61) -/

def type (e : Nat) : Nat := bf e 4 0
def fence (e : Nat) : Bool := bit e 5 == 1
def dep (e : Nat) : Nat := bf e 15 8
def cores (e : Nat) : Nat := bf e 31 16
def fmtA (e : Nat) : Nat := bf e 35 32
def blkA (e : Nat) : Nat := bit e 36
def fmtB (e : Nat) : Nat := bf e 40 37
def blkB (e : Nat) : Nat := bit e 41
def fmtD (e : Nat) : Nat := bf e 45 42
def blkD (e : Nat) : Nat := bit e 46
def canon (e : Nat) : Bool := bit e 47 == 1
def sat (e : Nat) : Bool := bit e 48 == 1
def flush (e : Nat) : Bool := bit e 49 == 1
def grad (e : Nat) : Bool := bit e 50 == 1
def nrec (e : Nat) : Nat := bf e 60 51
/-- EBASE and STREAM of PASS, VEC and REDUCE (R63). -/
def ebase (e : Nat) : Nat := bf e 223 192
def stream (e : Nat) : Nat := bf e 255 224

/-! ### PASS -/

def passWaddr (e : Nat) : Nat := bf e 77 64
def passAaddr (e : Nat) : Nat := bf e 93 80
def passOaddr (e : Nat) : Nat := bf e 109 96
def passMaddr (e : Nat) : Nat := bf e 125 112
def passMask (e : Nat) : Nat := bf e 127 126
def passMrows (e : Nat) : Nat := bf e 143 128
def passKt (e : Nat) : Nat := bf e 151 144
def passNt (e : Nat) : Nat := bf e 159 152
def passAcc (e : Nat) : Bool := bit e 160 == 1
def passWs (e : Nat) : Bool := bit e 161 == 1
def passSkew (e : Nat) : Bool := bit e 162 == 1
def passPreload (e : Nat) : Bool := bit e 163 == 1
def passRecipe (e : Nat) : Nat := bf e 165 164

/-! ### MVEC -/

def mvWaddr (e : Nat) : Nat := bf e 77 64
def mvXaddr (e : Nat) : Nat := bf e 93 80
def mvOaddr (e : Nat) : Nat := bf e 109 96
def mvNout (e : Nat) : Nat := bf e 143 128
def mvKblk (e : Nat) : Nat := bf e 159 144
def mvBatch (e : Nat) : Nat := bf e 161 160 + 1

/-! ### VEC -/

def vop (e : Nat) : Nat := bf e 71 64
def srcA (e : Nat) : Nat := bf e 85 72
def srcB (e : Nat) : Nat := bf e 99 86
def srcC (e : Nat) : Nat := bf e 113 100
def vdst (e : Nat) : Nat := bf e 127 114
def vlen (e : Nat) : Nat := bf e 143 128
def rowlen (e : Nat) : Nat := bf e 159 144
def imm (e : Nat) : Nat := bf e 191 160

/-! ### MOVE -/

def mvSsp (e : Nat) : Nat := bf e 65 64
def mvDsp (e : Nat) : Nat := bf e 67 66
def mvSpill (e : Nat) : Bool := bit e 68 == 1
def mvCfmt (e : Nat) : Nat := bf e 72 69
def mvPost (e : Nat) : Bool := bit e 73 == 1
def mvPctr (e : Nat) : Nat := bf e 78 74
def mvSrc (e : Nat) : Nat := bf e 119 80
def mvDst (e : Nat) : Nat := bf e 159 120
def mvLen (e : Nat) : Nat := bf e 191 160
def mvZmask (e : Nat) : Nat := bf e 205 192

/-! ### XCHG -/

def xRlist (e : Nat) : Nat := bf e 77 64
def xSrc (e : Nat) : Nat := bf e 93 80
def xDst (e : Nat) : Nat := bf e 109 96
def xNdest (e : Nat) : Nat := bf e 125 112
def xFmt (e : Nat) : Nat := bf e 129 126
def xBlk (e : Nat) : Nat := bit e 130
def xPost (e : Nat) : Bool := bit e 131 == 1
def xPctr (e : Nat) : Nat := bf e 136 132
def xRowb (e : Nat) : Nat := bf e 159 144
def xLinks (e : Nat) : Nat := bf e 183 160

/-! ### REDUCE -/

def rdBtag (e : Nat) : Nat := bf e 79 64
def rdCount (e : Nat) : Nat := bf e 111 80
def rdSrc (e : Nat) : Nat := bf e 125 112
def rdDst (e : Nat) : Nat := bf e 141 128
def rdFsync (e : Nat) : Bool := bit e 142 == 1
def rdPost (e : Nat) : Bool := bit e 143 == 1
def rdPctr (e : Nat) : Nat := bf e 148 144
def rdLinks (e : Nat) : Nat := bf e 172 149
def rdGlist (e : Nat) : Nat := bf e 186 173

/-! ### GATHER -/

def gaDst (e : Nat) : Nat := bf e 77 64
def gaTfmt (e : Nat) : Nat := bf e 81 78
def gaTblk (e : Nat) : Nat := bit e 82
def gaCfmt (e : Nat) : Nat := bf e 86 83
def gaCblk (e : Nat) : Nat := bit e 87
def gaPost (e : Nat) : Bool := bit e 88 == 1
def gaPctr (e : Nat) : Nat := bf e 93 89
def gaStamp (e : Nat) : Nat := bf e 127 96
def gaCount (e : Nat) : Nat := bf e 159 128
def gaSlist (e : Nat) : Nat := bf e 173 160
def gaLinks (e : Nat) : Nat := bf e 197 174

/-! ### ATTN -/

def atStep (e : Nat) : Nat := bf e 65 64
def atPath (e : Nat) : Nat := bit e 66
def atQaddr (e : Nat) : Nat := bf e 93 80
def atSaddr (e : Nat) : Nat := bf e 109 96
def atOaddr (e : Nat) : Nat := bf e 125 112
def atPlist (e : Nat) : Nat := bf e 159 128
def atPos (e : Nat) : Nat := bf e 183 160
def atHeads (e : Nat) : Nat := bf e 191 184
def atScale (e : Nat) : Nat := bf e 223 192
def atBatch (e : Nat) : Nat := bf e 231 224

/-! ### SAMPLE -/

def smLaddr (e : Nat) : Nat := bf e 77 64
def smRaddr (e : Nat) : Nat := bf e 93 80
def smRows (e : Nat) : Nat := bf e 101 94
def smVocab (e : Nat) : Nat := bf e 159 128
def smTemp (e : Nat) : Nat := bf e 191 160
def smTopk (e : Nat) : Nat := bf e 207 192
def smTopp (e : Nat) : Nat := bf e 223 208

/-! ### Control entries -/

def ctlSrc (e : Nat) : Nat := bf e 65 64
def ctlTreg (e : Nat) : Nat := bf e 68 66
def ctlCause (e : Nat) : Nat := bf e 72 69
def ctlTurn (e : Nat) : Nat := bf e 181 128
def wtCtr (e : Nat) : Nat := bf e 68 64
def wtTarget (e : Nat) : Nat := bf e 95 80
def wtTimeout (e : Nat) : Nat := bf e 111 96
def gtFlag (e : Nat) : Nat := bf e 65 64
def gtSync (e : Nat) : Bool := bit e 66 == 1
def gtClr (e : Nat) : Bool := bit e 67 == 1
def gtSkip (e : Nat) : Nat := bf e 90 80
def hintLevel (e : Nat) : Nat := bf e 75 72
def hintDur (e : Nat) : Nat := bf e 95 80
def markMarker (e : Nat) : Nat := bf e 95 64
def markAddr (e : Nat) : Nat := bf e 131 96
def jumpTarget (e : Nat) : Nat := bf e 74 64
def endEvt (e : Nat) : Bool := bit e 64 == 1

/-! ### Layout checks (R10, R59 to R63, R77) -/

/-- The bits that the layout of a type lists (R59, R61, R63); REDUCE and ATTN have no second operand, so FMT_B and BLK_B
are reserved there (log entry 109). -/
def listed (t : Nat) : Nat :=
  match t with
  | 0x00 => 0xffffffffffffffff0000003fffffffffffff3fff3fff3fff1fffffffffffff3f
  | 0x01 => 0x3ffffffff00003fff3fff3fff1fffffffffffff3f
  | 0x02 => 0xffffffffffffffffffffffffffffffffffffffffffffffff1fffffffffffff3f
  | 0x03 => 0x3fffffffffffffffffffffffffffffff7fff00000000ffffff3f
  | 0x04 => 0xffffffffff01ffffff3fff3fff3fff00000000ffffff3f
  | 0x05 => 0xffffffffffffffff07ffffffffffffff3fffffffffffffff1ffffc1fffffff3f
  | 0x06 => 0x3fffffffffffffffffffffffff3fffffff00000000ffffff3f
  | 0x07 => 0xffffffffffffffffffffffffff3fff3fff3fff00071ffffc1fffffff3f
  | 0x08 => 0xffffffffffffffffffffffff0000003fffff3fff00000000ffffff3f
  | 0x09 => 0x3fffffffffffff00000000000001ff00000000ffffff3f
  | 0x0A => 0xffffffff01ff00000000ffffff3f
  | 0x0B => 0x7ff000f00000000ffffff3f
  | 0x0C => 0x3fffffffffffff00000000ffff0f1f00000000ffffff3f
  | 0x0D => 0xfffffffffffffffff00000000ffffff3f
  | 0x0E => 0x7ff00000000ffffff3f
  | 0x0F => 0x100000000ffffff3f
  | _ => 0

/-- True where a bit outside the listed ones is set (R10, R62). -/
def unlistedBits (e : Nat) : Bool := e &&& listed (type e) != e

/-- A format code with its block bit that R77 admits: codes 0xB to 0xF are reserved, and codes 0x6 to 0xA take no
block bit. -/
def fmtOk (code blk : Nat) : Bool := decide (code ≤ 0xA) && (decide (code ≤ 5) || blk == 0)

/-- A numeric word in use at fmt: the code admitted, WA48 only where wa says (R77). -/
def fmtUse (code blk : Nat) (wa : Bool) : Bool := fmtOk code blk && (code != 0xA || wa)

/-- No row of the table stands for the entry: a reserved type (R60), VOP (R64) or ATTN step (R63). -/
def noRow (e : Nat) : Bool :=
  decide (15 < type e) || (type e == 2 && decide (0x15 < vop e)) || (type e == 7 && atStep e == 3)

/-- The reserved encodings that the control entries' layouts name (R63). -/
def ctlBad (e : Nat) : Bool :=
  match type e with
  | 0x09 => ctlSrc e == 3 || decide (11 < ctlCause e)
  | 0x0A => wtTarget e == 0 || decide (11 < ctlCause e)
  | 0x0B => gtSkip e == 0
  | 0x0C => ctlSrc e == 3
  | 0x0D => markAddr e % 128 != 0 || decide (8 < bf (markAddr e) 29 26) || decide (47 < bf (markAddr e) 35 30)
  | _ => false

/-- An entry whose layout alone makes it a reserved encoding, whatever unit consumes it (R10). -/
def layoutBad (e : Nat) : Bool :=
  unlistedBits e || ctlBad e ||
    ((decide (type e ≤ 2) || type e == 6 || type e == 7) && cores e == 0)

end Sys2Proof.Machine.Ent
end

