-- ==== Sys2Proof/Machine/Event.lean ====
section
/-! DEFINITION. Event records: the causes of R504, their classes (R502), the record of R503 and its 32 bytes. -/

namespace Sys2Proof.Machine

namespace Cause

/-! The cause codes of R504: [15:8] group, [7:0] index. -/

abbrev reservedEncoding : Nat := 0x0001
abbrev outsidePartition : Nat := 0x0002
abbrev outOfRange : Nat := 0x0003
abbrev operandOverlap : Nat := 0x0004
abbrev accumulatorMismatch : Nat := 0x0005
abbrev canonicalDepth : Nat := 0x0006
abbrev vectorTooLong : Nat := 0x0007
abbrev groupMisaligned : Nat := 0x0008
abbrev spillSize : Nat := 0x0009
abbrev groupMismatch : Nat := 0x000A
abbrev subtreeMisaligned : Nat := 0x000B
abbrev tableUncorrectable : Nat := 0x000C
abbrev turnMissed : Nat := 0x0101
abbrev ranOffTable : Nat := 0x0102
abbrev tableBusy : Nat := 0x0103
abbrev tableLoaded : Nat := 0x0104
abbrev programEnd : Nat := 0x0105
abbrev tokenOverflow : Nat := 0x0106
abbrev tokenTimeout : Nat := 0x0107
abbrev skipBeyondTable : Nat := 0x0108
abbrev partitionBusy : Nat := 0x0109
abbrev timeTreeTooDeep : Nat := 0x0201
abbrev holdover : Nat := 0x0202
abbrev timeNotAcquired : Nat := 0x0203
abbrev referenceClockLost : Nat := 0x0204
abbrev referenceClockReturned : Nat := 0x0205
abbrev fabricTimeAlarm : Nat := 0x0206
abbrev nearSramUncorrectable : Nat := 0x0301
abbrev gddr7Uncorrectable : Nat := 0x0302
abbrev linkCrc : Nat := 0x0303
abbrev channelFailed : Nat := 0x0304
abbrev tenantMismatch : Nat := 0x0305
abbrev sanding : Nat := 0x0306
abbrev outsideMemory : Nat := 0x0307
abbrev catchRegion : Nat := 0x0308
abbrev farIntegrity : Nat := 0x0309
abbrev sanded : Nat := 0x030A
abbrev regionOverlap : Nat := 0x030B
abbrev regionBusy : Nat := 0x030C
abbrev sandingQueueFull : Nat := 0x030D
abbrev catchRegionBusy : Nat := 0x030E
abbrev optimizerStateOverflow : Nat := 0x0401
abbrev lossScaleFloor : Nat := 0x0402
abbrev samplerFault : Nat := 0x0403
abbrev unknownPageList : Nat := 0x0501
abbrev positionGap : Nat := 0x0502
abbrev prefixWrite : Nat := 0x0503
abbrev prefixRetired : Nat := 0x0504
abbrev parkedSessionExpired : Nat := 0x0505
abbrev farFull : Nat := 0x0506
abbrev parkFull : Nat := 0x0507
abbrev poolBusy : Nat := 0x0508
abbrev ringOverlap : Nat := 0x0509
abbrev ringBusy : Nat := 0x050A
abbrev blankRetired : Nat := 0x0601
abbrev publicationRefused : Nat := 0x0602
abbrev blankNotLive : Nat := 0x0603
abbrev blankBusy : Nat := 0x0604
abbrev loadComplete : Nat := 0x0605
abbrev noStorageLink : Nat := 0x0606
abbrev staleShard : Nat := 0x0607
abbrev gatherSourceLost : Nat := 0x0608
abbrev switchBusy : Nat := 0x0609
abbrev switchDescriptorRefused : Nat := 0x060A
abbrev switchOverrun : Nat := 0x060B
abbrev farTransferComplete : Nat := 0x060C
abbrev storeComplete : Nat := 0x060D
abbrev fetchComplete : Nat := 0x060E
abbrev linkBusy : Nat := 0x0701
abbrev storageLimit : Nat := 0x0702
abbrev timeParent : Nat := 0x0703
abbrev modeMismatch : Nat := 0x0704
abbrev crossed : Nat := 0x0705
abbrev dark : Nat := 0x0706
abbrev tooLong : Nat := 0x0707
abbrev linkDown : Nat := 0x0708
abbrev linkIntegrity : Nat := 0x0709
abbrev noRoute : Nat := 0x070A
abbrev bucketOrphaned : Nat := 0x070B
abbrev bucketMismatch : Nat := 0x070C
abbrev reductionTimeout : Nat := 0x070D
abbrev mirrorRefused : Nat := 0x070E
abbrev portDegraded : Nat := 0x0801
abbrev portDown : Nat := 0x0802
abbrev hostReadTimeout : Nat := 0x0803
abbrev eventOverflow : Nat := 0x0804
abbrev sidebandFault : Nat := 0x0805
abbrev regulatorStepTimeout : Nat := 0x0806
abbrev senseFault : Nat := 0x0807
abbrev diodeFault : Nat := 0x0808
abbrev identityFailure : Nat := 0x0901
abbrev slotBusy : Nat := 0x0902
abbrev slotOverlap : Nat := 0x0903
abbrev debugEnabled : Nat := 0x0904
abbrev farSerialExhausted : Nat := 0x0905
abbrev partingComplete : Nat := 0x0906
abbrev farSerialMismatch : Nat := 0x0907
abbrev ceilingChanged : Nat := 0x0A01
abbrev ceilingBelowJobPoint : Nat := 0x0A02
abbrev powerEstimateDisagrees : Nat := 0x0A03
abbrev measurementLost : Nat := 0x0A04
abbrev capUnmet : Nat := 0x0A05
abbrev marginAlarm : Nat := 0x0A06
abbrev ageingLimit : Nat := 0x0A07
abbrev rePlanApplied : Nat := 0x0A08
abbrev shareExceedsCap : Nat := 0x0A09
abbrev powerStateBusy : Nat := 0x0A0A
abbrev wakeStalled : Nat := 0x0A0B
abbrev thermalTrip : Nat := 0x0A0C
abbrev storageTargetsRegistered : Nat := 0x0A0D
abbrev caught : Nat := 0x0B01
abbrev catchDumpComplete : Nat := 0x0B02
abbrev catchDumpReduced : Nat := 0x0B03
abbrev mirrorLost : Nat := 0x0B04
abbrev mirrorResumed : Nat := 0x0B05
abbrev reclaimStopped : Nat := 0x0B06
abbrev reclaimForcedStop : Nat := 0x0B07
abbrev reclaimComplete : Nat := 0x0B08
abbrev reclaimLate : Nat := 0x0B09
abbrev reclaimFailed : Nat := 0x0B0A
abbrev ready : Nat := 0x0B0B

end Cause

/-- The causes that are notices, class 0 (R502). -/
def notices : List Nat :=
  [Cause.tableLoaded, Cause.programEnd, Cause.referenceClockReturned, Cause.fabricTimeAlarm, Cause.sanded,
    Cause.prefixRetired, Cause.parkedSessionExpired, Cause.blankRetired, Cause.loadComplete,
    Cause.farTransferComplete, Cause.storeComplete, Cause.fetchComplete, Cause.partingComplete,
    Cause.ceilingChanged, Cause.rePlanApplied, Cause.catchDumpComplete, Cause.catchDumpReduced,
    Cause.mirrorResumed, Cause.reclaimStopped, Cause.reclaimComplete, Cause.ready]

/-- The class of a cause: 0 notice, 1 recoverable, 2 fatal (R502). -/
def causeClass (c : Nat) : Nat :=
  if notices.contains c then 0 else if c = Cause.caught ∨ c = Cause.thermalTrip then 2 else 1

/-- An event record before it is laid out in bytes (R503). -/
structure Event where
  cause : Nat
  die : Nat
  time : Nat
  partition : Option Nat := none
  cluster : Nat := 15
  core : Nat := 0
  slot1 : Option Nat := none
  slot2 : Option Nat := none
  op1 : Nat := 0
  entry : Option (Nat × Nat) := none
  count : Nat := 1
  pkg : Nat := 0
  link : Nat := 0
  tag : Nat := 0
  deriving DecidableEq, Repr

/-- A slot byte of a record: [5:0] slot, [7] valid (R503). -/
def slotByte : Option Nat → Nat
  | none => 0
  | some v => v % 64 + 128

/-- The 32 bytes of a record (R503). -/
def Event.bytes (e : Event) : List Byte :=
  leBytes 1 2 ++
  leBytes 1 (causeClass e.cause + (match e.partition with | none => 0 | some p => 128 + 16 * (p % 8))) ++
  leBytes 2 e.cause ++ leBytes 1 (e.die % 64) ++ leBytes 1 (e.cluster % 16 + 16 * (e.core % 16)) ++
  leBytes 1 (slotByte e.slot1) ++ leBytes 1 (slotByte e.slot2) ++ leBytes 8 e.op1 ++ leBytes 8 e.time ++
  leBytes 2 (match e.entry with | none => 0 | some (i, p) => i % 2048 + 2048 * (p % 8) + 32768) ++
  leBytes 2 (min e.count 65535) ++ leBytes 2 (e.pkg % 1024 + 1024 * (e.link % 32)) ++ leBytes 2 e.tag

end Sys2Proof.Machine
end

