-- ==== Sys2Proof/Config.lean ====
section
/-! DEFINITION. What one part fixes and the manual does not give, and the free values. Every constant here
has no body: a statement about it holds whatever it is. -/

namespace Sys2Proof.Config

/-- A fresh free value: applied to the model's own counter State.freeCount (log entry 3). -/
opaque freeValue : Nat → Nat

/-- Whether a PASS reads a line at a preload or a visit as it stands when the pass completes, and not as it stood when the pass began,
from a fresh number, the core, the read's number in the pass and the line (R129, log entry 4). -/
opaque readLate : Nat → Nat → Nat → Nat → Bool

/-- The unit serial number of the test record (R546). -/
opaque serial : DWord

/-- The 256-bit seed reconstructed from the 8 KiB of the PUF as read, as a number, and the helper data of the test record (R424). -/
opaque seedOf : Nat → List Byte → Nat

/-- The ML-DSA-44 public key that the key generation of FIPS 204 makes from a seed: 1,312 bytes (R424). -/
opaque publicKey : Nat → List Byte

/-- SHA3-256 of the identity public key, and the 2,420-byte endorsement, that a test record holds: the manual gives no layout of it
(R423). -/
opaque recordIdHash : List Byte → List Byte
opaque endorsement : List Byte → List Byte

/-- An ML-DSA-44 signature of FIPS 204 by the identity key of a seed over a message, hedged with fresh randomness (R428). -/
opaque sign : Nat → List Byte → Nat → List Byte

/-- Whether a signature over a message verifies by an identity public key (R423, R496). -/
opaque idVerifies : List Byte → List Byte → List Byte → Bool

/-- The content that the signature of an ageing record covers, from its sequence number and offsets, and byte i of a copy in flash,
from these and the signature: the manual gives no layout of it (R496). -/
opaque ageMessage : Nat → List (Nat × Nat) → List Byte
opaque ageByte : Nat → List (Nat × Nat) → List Byte → Nat → Byte

/-- The ephemeral ML-KEM-768 encapsulation key offered in an exchange (R429). -/
opaque encapsKey : Nat → List Byte

/-- A 256-bit key that the root-of-trust processor's generator gives at loading (R436). -/
opaque freshKey : Nat → Nat

/-- Byte i of a 16-byte block of a granule that was written under one key loading and is read under another, from the loading
it was written under, the one that holds now, the granule address, the block's place in the granule and the block (R264): AES-XTS
acts on blocks of 16 bytes, and the manual gives no value of a wrong decryption. -/
opaque crossKey : Nat → Nat → Nat → Nat → List Byte → Nat → Byte

/-- What an operation of the numeric units gives where the interval of Machine/Elementary.lean cannot decide a
rounding (log entry 13): never reached by an operand the analysis covers. -/
opaque undecided : Nat → Int → Nat

/-- The 1,312 bytes of the vendor key (R422, R495). -/
opaque vendorKey : Nat → Byte

/-- The test record's area and the image area of flash as shipped (R495). -/
opaque flashShipped : Nat → Byte

/-- t[d][k]: the voltage code of the test record for C-die d at point k (R453). -/
opaque testCode : Nat → Nat → Nat

/-- m[d]: the maximum code of C-die d (R453). -/
opaque maxCode : Nat → Nat

/-- The alarm threshold, in taps, below which a critical-path monitor of C-die d at point k raises a margin
alarm (R457). -/
opaque marginThreshold : Nat → Nat → Nat

/-- What the hints in force add to rule 2's projection, in W, from the partitions' estimated dynamic power and the hints'
partitions and LEVELs: the manual says that LEVEL enters it and not how (R470, log entry 172). -/
opaque hintPower : List Nat → List (Nat × Nat) → Nat

/-- The setting of fixed rail i that a test record holds, in 0.1 mV (R552): the manual gives no layout of the record. -/
opaque recordTrim : List Byte → Nat → Nat

/-- The offset that a re-plan computes for die d at point k, before R456's limits, from the offset in effect and what the die's
monitors show: DIE_MARGIN and DIE_RO. -/
opaque replanOffset : Nat → Nat → Nat → Nat → Nat → Nat

/-- The 16 bytes of a configuration entry, from its kind, slot, PARTS, CONF and turn: the manual names the fields and gives
no layout (R426, log entry 56). -/
opaque configEntry : Nat → Nat → Nat → Nat → Nat → List Byte

/-- The shared secret of an exchange: ML-KEM-768 decapsulation of a ciphertext under the ephemeral key of an encapsulation
key (R429). -/
opaque sharedSecret : List Byte → List Byte → List Byte


/-- What the default configuration block of a firmware image names: the block's bytes, and 0 to 23 for a link's mode, 24
for the cap, 25 for the window, 26 for AGE_PERIOD. The manual names the contents and gives no layout (R497, log entry
64). -/
opaque imageDefault : List Byte → Nat → Option Nat

/-- Whether an ML-DSA-44 signature over a message verifies by a vendor key (R450, R493). -/
opaque vendorVerifies : List Byte → List Byte → List Byte → Bool

/-- Whether a test record carries a signature of a vendor key: the manual gives no layout of the record (R423). -/
opaque recordVerifies : List Byte → List Byte → Bool

/-- Byte o of a part of a die's section of a catch dump, by dump and die, from the state that the part shows: the manual names what
the part holds and gives no layout of it (R516, log entry 61). -/
opaque dumpByte {α : Type} (dump die : Nat) (held : α) (o : Nat) : Byte

/-- Whether byte o of a C-die's unit state lies in the cell registers, accumulators, output stages or vector buffers: the manual gives
no layout of it (R516, R517, log entry 61). -/
opaque valuePart : Nat → Bool

/-- The rank of expert x among the choices of a row whose logits, as binary32 codes, hold a NaN: the manual orders logits and
does not say where a NaN stands (R387, log entry 146). -/
opaque nanRank : List Nat → Nat → Nat

/-- What an exchange's combine reads at a byte beyond its core's near SRAM, which a dispatch record can name: the manual gives no
value (R389, log entry 146). -/
opaque beyondCore : Nat → Nat

end Sys2Proof.Config
end

