-- ==== Sys2Proof/Machine/RegMap.lean ====
section
/-! DEFINITION. The register map: every register of every page with its offset, access code, reset value and the
bits its description lists (R9, R11, R531 to R534 and the field maps of the chapters). -/

namespace Sys2Proof.Machine

/-- The access codes of R11. -/
inductive Acc where
  | ro | rw | sh | w1c | w1s | wo
  deriving DecidableEq, Repr

/-- One row of a field map: its first and last word offsets in the page, its access code, its reset value, and the
bits described for its even and odd words (R9: the others are reserved). -/
structure RegRow where
  lo : Nat
  hi : Nat
  acc : Acc
  reset : Nat
  even : Nat
  odd : Nat
  deriving DecidableEq, Repr

/-! ### Offsets, by name -/

namespace Reg

/-! The faceplate page (R534). -/
abbrev F_PAGE_ID : Nat := 0x000
abbrev F_PAGE_VER : Nat := 0x004
abbrev F_CTRL : Nat := 0x008
abbrev F_STATUS : Nat := 0x00C
abbrev F_EVENT : Nat := 0x010
abbrev F_EVENT_EN : Nat := 0x014
abbrev F_COMMIT : Nat := 0x018
abbrev F_COMMIT_TURN_LO : Nat := 0x01C
abbrev F_COMMIT_TURN_HI : Nat := 0x020
abbrev F_ERR_COUNT : Nat := 0x024

/-! The identity page (R546). -/
abbrev ID_VALUE : Nat := 0x100
abbrev ID_SERIAL_LO : Nat := 0x104
abbrev ID_SERIAL_HI : Nat := 0x108
abbrev ID_SIZE : Nat := 0x10C
abbrev ID_MEM : Nat := 0x110

/-! The summary page (R547). -/
abbrev SUM_ALERT_LO : Nat := 0x100
abbrev SUM_ALERT_HI : Nat := 0x104
abbrev SUM_LIVE_LO : Nat := 0x108
abbrev SUM_LIVE_HI : Nat := 0x10C
abbrev SUM_ARMED : Nat := 0x110
abbrev SUM_REFUSED : Nat := 0x114

/-! The fabric time page (R43). -/
abbrev FT_ROLE : Nat := 0x100
abbrev FT_STATUS : Nat := 0x104
abbrev FT_NOW_LO : Nat := 0x108
abbrev FT_NOW_HI : Nat := 0x10C
abbrev FT_OFFSET : Nat := 0x110
abbrev FT_ASYM : Nat := 0x114
abbrev FT_RATE : Nat := 0x118
abbrev FT_ALARM_LO : Nat := 0x11C
abbrev FT_ALARM_HI : Nat := 0x120
abbrev FT_DELAY : Nat := 0x124

/-! The partition page (R548). -/
abbrev PART_OWN : Nat := 0x100
abbrev PART_HEALTH : Nat := 0x120
abbrev PART_QUIET : Nat := 0x140

/-! The route page (R368). -/
abbrev RT_SELF : Nat := 0x100
abbrev RT_SEL : Nat := 0x104
abbrev RT_MASK : Nat := 0x108
abbrev RT_NOROUTE : Nat := 0x10C

/-! The package idle page (R395). -/
abbrev PKG_IDLE : Nat := 0x100
abbrev PKG_BUSY_LO : Nat := 0x160
abbrev PKG_BUSY_HI : Nat := 0x164
abbrev PKG_IDLE_TURN_LO : Nat := 0x168
abbrev PKG_IDLE_TURN_HI : Nat := 0x16C

/-! The attestation page (R426). -/
abbrev MR : Nat := 0x100
abbrev ATT_STATE : Nat := 0x200
abbrev ATT_QUOTES : Nat := 0x204
abbrev PORT_KCTR_LO : Nat := 0x208
abbrev PORT_KCTR_HI : Nat := 0x20C

/-! The key-slot page (R439). -/
abbrev SLOT_SEL : Nat := 0x100
abbrev SLOT_CFG : Nat := 0x104
abbrev SLOT_STATE : Nat := 0x108
abbrev SLOT_SERIAL_LO : Nat := 0x10C
abbrev SLOT_SERIAL_HI : Nat := 0x110
abbrev LINK_KEY : Nat := 0x120
abbrev PART_CNT : Nat := 0x140
abbrev CONF_MASK_LO : Nat := 0x15C
abbrev CONF_MASK_HI : Nat := 0x160

/-! The power page (R485). -/
abbrev PWR_CAP : Nat := 0x100
abbrev PWR_WINDOW : Nat := 0x104
abbrev PWR_SHARE : Nat := 0x108
abbrev OP_REQ : Nat := 0x128
abbrev PWR_CEIL : Nat := 0x148
abbrev PWR_OP : Nat := 0x14C
abbrev PWR_PACE : Nat := 0x150
abbrev PWR_STATUS : Nat := 0x154
abbrev PWR_NOW : Nat := 0x158
abbrev PWR_AVG : Nat := 0x15C
abbrev PWR_ENERGY_LO : Nat := 0x160
abbrev PWR_ENERGY_HI : Nat := 0x164
abbrev PWR_TJ : Nat := 0x168
abbrev PWR_HINTS : Nat := 0x16C
abbrev PWR_MARKS : Nat := 0x170
abbrev AGE_PERIOD : Nat := 0x174
abbrev AGE_STATE : Nat := 0x178
abbrev AGE_ALARMS : Nat := 0x17C
abbrev PWR_CLEAR : Nat := 0x180

/-! The power state page (R486). -/
abbrev PS_CTRL : Nat := 0x100
abbrev PS_WAKE_EN : Nat := 0x104
abbrev PS_STATE : Nat := 0x108
abbrev PS_CAUSE : Nat := 0x10C
abbrev PS_WAKE_LINKS : Nat := 0x110
abbrev PS_ENTRIES : Nat := 0x114
abbrev PS_REFUSED : Nat := 0x118

/-! The boot page (R501). -/
abbrev BOOT_STEP : Nat := 0x100
abbrev BOOT_FAIL : Nat := 0x104
abbrev BOOT_TIME : Nat := 0x108
abbrev BOOT_FW_VER : Nat := 0x10C
abbrev BOOT_STARTS : Nat := 0x110
abbrev BOOT_WITHHELD : Nat := 0x114

/-! The catch page (R518). -/
abbrev CATCH_STATE : Nat := 0x100
abbrev CATCH_CAUSE : Nat := 0x104
abbrev CATCH_TURN_LO : Nat := 0x108
abbrev CATCH_TURN_HI : Nat := 0x10C
abbrev CATCH_SHARES : Nat := 0x110
abbrev CATCH_DROPS : Nat := 0x114
abbrev CATCH_FLASH_SEL : Nat := 0x118
abbrev CATCH_RELEASE : Nat := 0x11C

/-! The flash window page (R550). -/
abbrev FLW_HALF : Nat := 0x100
abbrev FLW_BLOCK : Nat := 0x104
abbrev FLW_DATA : Nat := 0x800

/-! The pair page (R525). -/
abbrev PAIR_CTRL : Nat := 0x100
abbrev PAIR_PARTNER : Nat := 0x104
abbrev PAIR_LINKS : Nat := 0x108
abbrev PAIR_MBASE_LO : Nat := 0x10C
abbrev PAIR_MBASE_HI : Nat := 0x110
abbrev PAIR_MSIZE : Nat := 0x114
abbrev PAIR_STATE : Nat := 0x118
abbrev PAIR_LAST_LO : Nat := 0x11C
abbrev PAIR_LAST_HI : Nat := 0x120
abbrev PAIR_ACKS : Nat := 0x124
abbrev PAIR_SOLO_STEPS : Nat := 0x128

/-! The reclaim page (R529). -/
abbrev RCL_STATE : Nat := 0x100
abbrev RCL_DL_LO : Nat := 0x104
abbrev RCL_DL_HI : Nat := 0x108
abbrev RCL_STEP_LO : Nat := 0x10C
abbrev RCL_STEP_HI : Nat := 0x110
abbrev RCL_TIME : Nat := 0x114
abbrev RCL_FORCED : Nat := 0x118

/-! The near SRAM page (R254). -/
abbrev NS_CORR : Nat := 0x100
abbrev NS_UNCORR : Nat := 0x104
abbrev NS_STALE : Nat := 0x108
abbrev NS_ERR_LO : Nat := 0x10C
abbrev NS_ERR_HI : Nat := 0x110
abbrev NS_SWEEP : Nat := 0x114
abbrev NS_EPOCH_SEL : Nat := 0x118
abbrev NS_EPOCH : Nat := 0x11C
abbrev NS_CLEAR : Nat := 0x120

/-! The die power page (R487). -/
abbrev DIE_TJ : Nat := 0x100
abbrev DIE_VCODE : Nat := 0x104
abbrev DIE_MARGIN : Nat := 0x108
abbrev DIE_RO : Nat := 0x10C
abbrev DIE_DROOP : Nat := 0x110
abbrev DIE_STRETCH : Nat := 0x114
abbrev DIE_ALARMS : Nat := 0x118
abbrev DIE_CLEAR : Nat := 0x11C

/-! The sequencer page (R57). -/
abbrev PROG : Nat := 0x100
abbrev AGE_INTERVAL : Nat := 0x120
abbrev HALT : Nat := 0x124
abbrev PROG_STATE : Nat := 0x128
abbrev TURN : Nat := 0x130
abbrev SEED_LO : Nat := 0x170
abbrev SEED_HI : Nat := 0x174
abbrev REC_BASE : Nat := 0x178
abbrev FLAG_CTRL : Nat := 0x17C
abbrev FLAGS : Nat := 0x180
abbrev TBL_SRC_LO : Nat := 0x184
abbrev TBL_SRC_HI : Nat := 0x188
abbrev TBL_CTRL : Nat := 0x18C
abbrev PC : Nat := 0x190
abbrev ISSUED_LO : Nat := 0x1B0
abbrev ISSUED_HI : Nat := 0x1B4
abbrev TOKEN : Nat := 0x200

/-! The numeric page (R97). -/
abbrev NUM_STICKY : Nat := 0x100
abbrev NUM_CORES : Nat := 0x104
abbrev NUM_EVT_SEL : Nat := 0x108

/-! The attention and sampler page (R165). -/
abbrev ATT_WIDENED : Nat := 0x100
abbrev ATT_APPENDED : Nat := 0x104
abbrev ATT_STARVED : Nat := 0x108
abbrev ATT_BADPAGE : Nat := 0x10C
abbrev ATT_NOLIST : Nat := 0x110
abbrev SMP_ROWS : Nat := 0x114
abbrev SMP_FAULTS : Nat := 0x118
abbrev SMP_WITHHELD : Nat := 0x11C
abbrev SMP_RINGWAIT : Nat := 0x120
abbrev MV_VECLOADS : Nat := 0x124
abbrev CNT_CLEAR : Nat := 0x128

/-! The loss-scale page (R221). -/
abbrev LS_CTRL : Nat := 0x100
abbrev LS_LOAD : Nat := 0x104
abbrev LS_LIMITS : Nat := 0x108
abbrev LS_LINE : Nat := 0x10C
abbrev LS_STATE : Nat := 0x110
abbrev LS_SKIPS : Nat := 0x114
abbrev LS_GROWS : Nat := 0x118

/-! The random stream page (R240). -/
abbrev RS_SEED_LO : Nat := 0x100
abbrev RS_SEED_HI : Nat := 0x104
abbrev RS_STREAM : Nat := 0x108
abbrev RS_POS_LO : Nat := 0x10C
abbrev RS_POS_HI : Nat := 0x110
abbrev RS_GO : Nat := 0x114
abbrev RS_STATUS : Nat := 0x118
abbrev RS_OUT : Nat := 0x11C
abbrev RS_JUMPS : Nat := 0x120
abbrev RS_JUMPWAIT : Nat := 0x124

/-! The cluster idle page (R395). -/
abbrev IDLE : Nat := 0x100
abbrev BUSY_LO : Nat := 0x160
abbrev BUSY_HI : Nat := 0x164
abbrev SNAP_TURN_LO : Nat := 0x168
abbrev SNAP_TURN_HI : Nat := 0x16C
abbrev SNAP : Nat := 0x180
abbrev IDLE_CLEAR : Nat := 0x1E0

/-! The memory page (R277). -/
abbrev MEM_MODE : Nat := 0x100
abbrev MEM_CH_STATE : Nat := 0x104
abbrev MEM_DATA_SIZE : Nat := 0x108
abbrev MEM_CATCH : Nat := 0x10C
abbrev MEM_CATCH_BASE : Nat := 0x110
abbrev MEM_CORR : Nat := 0x114
abbrev MEM_UNCORR : Nat := 0x118
abbrev MEM_DEVECC : Nat := 0x11C
abbrev MEM_CRC_RETRY : Nat := 0x120
abbrev MEM_CA_PARITY : Nat := 0x124
abbrev MEM_REFUSED : Nat := 0x128
abbrev MEM_TEMP : Nat := 0x12C
abbrev SAND_BASE : Nat := 0x130
abbrev SAND_CTRL : Nat := 0x134
abbrev SAND_AGE : Nat := 0x138
abbrev SAND_STATUS : Nat := 0x13C
abbrev REGION : Nat := 0x140
abbrev MEM_CLEAR : Nat := 0x1C0
abbrev MEM_CSLOT : Nat := 0x1C4
abbrev MEM_CSTEP_LO : Nat := 0x1C8
abbrev MEM_CSTEP_HI : Nat := 0x1CC

/-! The switch page (R304). -/
abbrev SW_PLAN_LO : Nat := 0x100
abbrev SW_PLAN_HI : Nat := 0x104
abbrev SW_COUNT : Nat := 0x108
abbrev SW_CTRL : Nat := 0x10C
abbrev SW_DL_LO : Nat := 0x110
abbrev SW_DL_HI : Nat := 0x114
abbrev SW_ABORT : Nat := 0x118
abbrev SW_STATE : Nat := 0x11C
abbrev SW_REFUSED : Nat := 0x120
abbrev SW_SAT : Nat := 0x124
abbrev SW_NAN : Nat := 0x128
abbrev SW_BUMPS : Nat := 0x12C
abbrev SW_BYTES_LO : Nat := 0x130
abbrev SW_BYTES_HI : Nat := 0x134
abbrev SW_END_LO : Nat := 0x138
abbrev SW_END_HI : Nat := 0x13C

/-! The link page (R365). -/
abbrev LINK_CTRL : Nat := 0x100
abbrev LINK_STATE : Nat := 0x104
abbrev LINK_LANEMAP : Nat := 0x108
abbrev LINK_PEER : Nat := 0x10C
abbrev LINK_DELAY : Nat := 0x110
abbrev LINK_FEC_CORR : Nat := 0x114
abbrev LINK_FEC_UNCORR : Nat := 0x118
abbrev LINK_REPLAYS : Nat := 0x11C
abbrev LINK_RETRAINS : Nat := 0x120
abbrev LINK_CRED_STALL : Nat := 0x124
abbrev LINK_ENC_DROP : Nat := 0x128
abbrev LINK_AUTH_FAIL : Nat := 0x12C
abbrev LINK_TX_LO : Nat := 0x130
abbrev LINK_TX_HI : Nat := 0x134
abbrev LINK_RX_LO : Nat := 0x138
abbrev LINK_RX_HI : Nat := 0x13C
abbrev ETH_MAC_LO : Nat := 0x140
abbrev ETH_MAC_HI : Nat := 0x144
abbrev ETH_CFG : Nat := 0x148
abbrev LINK_CLEAR : Nat := 0x14C

/-! The blank page (R286). -/
abbrev BLK_SEL : Nat := 0x100
abbrev BLK_CFG : Nat := 0x104
abbrev BLK_CTRL : Nat := 0x108
abbrev BLK_PUB_VER : Nat := 0x10C
abbrev BLK_CUR : Nat := 0x110
abbrev BLK_PREV : Nat := 0x114
abbrev BLK_PINS_CUR : Nat := 0x118
abbrev BLK_PINS_PREV : Nat := 0x11C
abbrev ADP_PUB_VER : Nat := 0x120
abbrev ADP_CUR : Nat := 0x124
abbrev ADP_PREV : Nat := 0x128
abbrev ADP_PINS_CUR : Nat := 0x12C
abbrev ADP_PINS_PREV : Nat := 0x130
abbrev BLK_STATE : Nat := 0x134
abbrev BLK_UNHOLD : Nat := 0x138
abbrev JOB_PIN : Nat := 0x140
abbrev JOB_FPIN : Nat := 0x180
abbrev BLK_REFUSALS : Nat := 0x1A0

/-! The queue page (R339). -/
abbrev RING_SEL : Nat := 0x100
abbrev RING_CFG : Nat := 0x104
abbrev RING_BASE : Nat := 0x108
abbrev RING_HOST_LO : Nat := 0x10C
abbrev RING_HOST_HI : Nat := 0x110
abbrev QM_LIVE : Nat := 0x114
abbrev QM_ADMITS : Nat := 0x118
abbrev QM_REFUSED : Nat := 0x11C
abbrev QM_CANCELS : Nat := 0x120
abbrev QM_COMPLETES : Nat := 0x124
abbrev QM_CLEAR : Nat := 0x128

/-! The page engine page (R340). -/
abbrev KVP_SEL : Nat := 0x100
abbrev KVP_CFG : Nat := 0x104
abbrev KVP_BASE : Nat := 0x108
abbrev KVP_FRAMES : Nat := 0x10C
abbrev KVP_META : Nat := 0x110
abbrev KVP_LISTS : Nat := 0x114
abbrev KVP_EVQ : Nat := 0x118
abbrev FAR_TGT : Nat := 0x11C
abbrev FAR_ADDR_LO : Nat := 0x120
abbrev FAR_ADDR_HI : Nat := 0x124
abbrev FAR_RKEY : Nat := 0x128
abbrev FAR_EXTENTS : Nat := 0x12C
abbrev PX_LIMIT : Nat := 0x130
abbrev PX_TTL : Nat := 0x134
abbrev PE_FREE : Nat := 0x138
abbrev PE_EVICT : Nat := 0x13C
abbrev PE_STALLS : Nat := 0x140
abbrev PE_PREEMPTS : Nat := 0x144
abbrev PE_EXPIRED : Nat := 0x148
abbrev PARK_USED : Nat := 0x14C
abbrev PE_CLEAR : Nat := 0x150

/-! The port page (R412). -/
abbrev PORT_STATE : Nat := 0x100
abbrev PORT_EVQ : Nat := 0x104
abbrev PORT_EVQ_P : Nat := 0x108
abbrev DB_COUNT : Nat := 0x128
abbrev DB_REFUSED : Nat := 0x12C
abbrev MBX_OUTSTANDING : Nat := 0x130
abbrev MBX_BUSY : Nat := 0x134
abbrev PORT_REPLAYS : Nat := 0x138
abbrev PORT_DROPS : Nat := 0x13C
abbrev EVT_LOST : Nat := 0x140
abbrev PORT_CLEAR : Nat := 0x144

/-! The I3C sideband page (R414). -/
abbrev SB_ID : Nat := 0x000
abbrev SB_STATE : Nat := 0x004
abbrev SB_POWER : Nat := 0x008
abbrev SB_ENERGY_LO : Nat := 0x00C
abbrev SB_ENERGY_HI : Nat := 0x010
abbrev SB_TJ : Nat := 0x014
abbrev SB_MEMTEMP : Nat := 0x018
abbrev SB_CAP : Nat := 0x01C
abbrev SB_WAKE : Nat := 0x020
abbrev SB_EVENTS : Nat := 0x024

end Reg

/-! ### Field maps -/

/-- The faceplate page (R534 of 19_register_pages). -/
def rowsFaceplate : List RegRow :=
  [⟨0x000, 0x000, .ro, 0x0, 0xFF3F00FF, 0xFF3F00FF⟩, ⟨0x004, 0x004, .ro, 0x100, 0xFFFF, 0xFFFF⟩,
    ⟨0x008, 0x008, .rw, 0x0, 0x3, 0x3⟩, ⟨0x00C, 0x00C, .ro, 0x0, 0xFFFF000F, 0xFFFF000F⟩,
    ⟨0x010, 0x010, .w1c, 0x0, 0x3F, 0x3F⟩, ⟨0x014, 0x014, .rw, 0x0, 0x3F, 0x3F⟩,
    ⟨0x018, 0x018, .wo, 0x0, 0x7, 0x7⟩, ⟨0x01C, 0x01C, .rw, 0x0, 0xFFFFFFFF, 0xFFFFFFFF⟩,
    ⟨0x020, 0x020, .rw, 0x0, 0x3FFFFF, 0x3FFFFF⟩, ⟨0x024, 0x024, .ro, 0x0, 0xFFFFFFFF, 0xFFFFFFFF⟩]

/-- The identity page (R546 of 19_register_pages). -/
def rows01 : List RegRow :=
  [⟨0x100, 0x100, .ro, 0xB0064001, 0xFFFFFFFF, 0xFFFFFFFF⟩, ⟨0x104, 0x104, .ro, 0x0, 0xFFFFFFFF, 0xFFFFFFFF⟩,
    ⟨0x108, 0x108, .ro, 0x0, 0xFFFFFFFF, 0xFFFFFFFF⟩, ⟨0x10C, 0x10C, .ro, 0x1B01B00, 0x1FFFFFF, 0x1FFFFFF⟩,
    ⟨0x110, 0x110, .ro, 0x0, 0xFF01, 0xFF01⟩]

/-- The summary page (R547 of 19_register_pages). -/
def rows02 : List RegRow :=
  [⟨0x100, 0x100, .ro, 0x0, 0xFFFFFFFF, 0xFFFFFFFF⟩, ⟨0x104, 0x104, .ro, 0x0, 0xFFFFFFFF, 0xFFFFFFFF⟩,
    ⟨0x108, 0x108, .ro, 0x0, 0xFFFFFFFF, 0xFFFFFFFF⟩, ⟨0x10C, 0x10C, .ro, 0x0, 0xFFFFFFFF, 0xFFFFFFFF⟩,
    ⟨0x110, 0x110, .ro, 0x0, 0xFFFF, 0xFFFF⟩, ⟨0x114, 0x114, .ro, 0x0, 0xFFFFFFFF, 0xFFFFFFFF⟩]

/-- The fabric time page (R43 of 02_fabric_time_and_schedule_tables). -/
def rows03 : List RegRow :=
  [⟨0x100, 0x100, .sh, 0x2, 0x1F03, 0x1F03⟩, ⟨0x104, 0x104, .ro, 0x0, 0x1F0F, 0x1F0F⟩,
    ⟨0x108, 0x108, .ro, 0x0, 0xFFFFFFFF, 0xFFFFFFFF⟩, ⟨0x10C, 0x10C, .ro, 0x0, 0xFFFFFFFF, 0xFFFFFFFF⟩,
    ⟨0x110, 0x110, .ro, 0x0, 0xFFFFFFFF, 0xFFFFFFFF⟩, ⟨0x114, 0x114, .sh, 0x0, 0xFFFFFFFF, 0xFFFFFFFF⟩,
    ⟨0x118, 0x118, .ro, 0x0, 0xFFFFFFFF, 0xFFFFFFFF⟩, ⟨0x11C, 0x11C, .sh, 0x0, 0xFFFFFFFF, 0xFFFFFFFF⟩,
    ⟨0x120, 0x120, .sh, 0x0, 0x3FFFFF, 0x3FFFFF⟩, ⟨0x124, 0x124, .ro, 0x0, 0xFFFFFFFF, 0xFFFFFFFF⟩]

/-- The partition page (R548 of 19_register_pages). -/
def rows04 : List RegRow :=
  [⟨0x100, 0x11C, .sh, 0x0, 0x773, 0x773⟩, ⟨0x120, 0x13C, .ro, 0x0, 0x7FFFF, 0x7FFFF⟩,
    ⟨0x140, 0x140, .ro, 0x0, 0xFFFFFFFF, 0xFFFFFFFF⟩]

/-- The route page (R368 of 13_reductions_exchange_and_mapping). -/
def rows05 : List RegRow :=
  [⟨0x100, 0x100, .sh, 0x0, 0x3FF, 0x3FF⟩, ⟨0x104, 0x104, .rw, 0x0, 0x3FF, 0x3FF⟩,
    ⟨0x108, 0x108, .sh, 0x0, 0xFFFFFF, 0xFFFFFF⟩, ⟨0x10C, 0x10C, .ro, 0x0, 0xFFFFFFFF, 0xFFFFFFFF⟩]

/-- The package idle page (R395 of 13_reductions_exchange_and_mapping). -/
def rows06 : List RegRow :=
  [⟨0x100, 0x15C, .ro, 0x0, 0xFFFFFFFF, 0xFFFFFFFF⟩, ⟨0x160, 0x160, .ro, 0x0, 0xFFFFFFFF, 0xFFFFFFFF⟩,
    ⟨0x164, 0x164, .ro, 0x0, 0xFFFFFFFF, 0xFFFFFFFF⟩, ⟨0x168, 0x168, .ro, 0x0, 0xFFFFFFFF, 0xFFFFFFFF⟩,
    ⟨0x16C, 0x16C, .ro, 0x0, 0x3FFFFF, 0x3FFFFF⟩]

/-- The attestation page (R426 of 15_tenants_attestation_and_parting). -/
def rows07 : List RegRow :=
  [⟨0x100, 0x1FC, .ro, 0x0, 0xFFFFFFFF, 0xFFFFFFFF⟩, ⟨0x200, 0x200, .ro, 0x0, 0x3F, 0x3F⟩,
    ⟨0x204, 0x204, .ro, 0x0, 0xFFFFFFFF, 0xFFFFFFFF⟩, ⟨0x208, 0x208, .ro, 0x0, 0xFFFFFFFF, 0xFFFFFFFF⟩,
    ⟨0x20C, 0x20C, .ro, 0x0, 0xFFFFFFFF, 0xFFFFFFFF⟩]

/-- The key-slot page (R439 of 15_tenants_attestation_and_parting). -/
def rows08 : List RegRow :=
  [⟨0x100, 0x100, .rw, 0x0, 0x3F, 0x3F⟩, ⟨0x104, 0x104, .sh, 0x0, 0xFF07, 0xFF07⟩,
    ⟨0x108, 0x108, .ro, 0x0, 0xFFFF3FFF, 0xFFFF3FFF⟩, ⟨0x10C, 0x10C, .ro, 0x0, 0xFFFFFFFF, 0xFFFFFFFF⟩,
    ⟨0x110, 0x110, .ro, 0x0, 0xFF, 0xFF⟩, ⟨0x120, 0x13C, .wo, 0x0, 0xFFFFFFFF, 0xFFFFFFFF⟩,
    ⟨0x140, 0x158, .ro, 0x0, 0xFFFFFFFF, 0xFFFFFFFF⟩, ⟨0x15C, 0x15C, .ro, 0x0, 0xFFFFFFFF, 0xFFFFFFFF⟩,
    ⟨0x160, 0x160, .ro, 0x0, 0xFFFFFFFF, 0xFFFFFFFF⟩]

/-- The power page (R485 of 16_power_thermal_ageing_states). -/
def rows09 : List RegRow :=
  [⟨0x100, 0x100, .sh, 0x2EE0, 0xFFFF, 0xFFFF⟩, ⟨0x104, 0x104, .sh, 0x5, 0x1F, 0x1F⟩,
    ⟨0x108, 0x124, .sh, 0x0, 0xFFFF, 0xFFFF⟩, ⟨0x128, 0x144, .sh, 0x0, 0x8000000F, 0x8000000F⟩,
    ⟨0x148, 0x148, .ro, 0x0, 0x70F, 0x70F⟩, ⟨0x14C, 0x14C, .ro, 0x0, 0xF, 0xF⟩,
    ⟨0x150, 0x150, .ro, 0x88888888, 0xFFFFFFFF, 0xFFFFFFFF⟩, ⟨0x154, 0x154, .ro, 0x0, 0xFF1F, 0xFF1F⟩,
    ⟨0x158, 0x158, .ro, 0x0, 0xFFFFFFFF, 0xFFFFFFFF⟩, ⟨0x15C, 0x15C, .ro, 0x0, 0xFFFF, 0xFFFF⟩,
    ⟨0x160, 0x160, .ro, 0x0, 0xFFFFFFFF, 0xFFFFFFFF⟩, ⟨0x164, 0x164, .ro, 0x0, 0xFFFFFFFF, 0xFFFFFFFF⟩,
    ⟨0x168, 0x168, .ro, 0x0, 0x3FFF, 0x3FFF⟩, ⟨0x16C, 0x16C, .ro, 0x0, 0xFFFFFFFF, 0xFFFFFFFF⟩,
    ⟨0x170, 0x170, .ro, 0x0, 0xFFFFFFFF, 0xFFFFFFFF⟩, ⟨0x174, 0x174, .sh, 0xA8, 0xFFFF, 0xFFFF⟩,
    ⟨0x178, 0x178, .ro, 0x0, 0x3FFFFF, 0x3FFFFF⟩, ⟨0x17C, 0x17C, .ro, 0x0, 0xFFFFFFFF, 0xFFFFFFFF⟩,
    ⟨0x180, 0x180, .wo, 0x0, 0x1, 0x1⟩]

/-- The power state page (R486 of 16_power_thermal_ageing_states). -/
def rows0A : List RegRow :=
  [⟨0x100, 0x100, .sh, 0x0, 0x80000003, 0x80000003⟩, ⟨0x104, 0x104, .sh, 0x1F, 0x1F, 0x1F⟩,
    ⟨0x108, 0x108, .ro, 0x0, 0x773, 0x773⟩, ⟨0x10C, 0x10C, .ro, 0x0, 0x1F077F, 0x1F077F⟩,
    ⟨0x110, 0x110, .wo, 0x0, 0xFFFFFF, 0xFFFFFF⟩, ⟨0x114, 0x114, .ro, 0x0, 0xFFFFFFFF, 0xFFFFFFFF⟩,
    ⟨0x118, 0x118, .ro, 0x0, 0xFFFFFFFF, 0xFFFFFFFF⟩]

/-- The boot page (R501 of 17_bringup_and_firmware). -/
def rows0B : List RegRow :=
  [⟨0x100, 0x100, .ro, 0x2, 0xF, 0xF⟩, ⟨0x104, 0x104, .ro, 0x0, 0x3FFF, 0x3FFF⟩,
    ⟨0x108, 0x108, .ro, 0x0, 0xFFFFFF, 0xFFFFFF⟩, ⟨0x10C, 0x10C, .ro, 0x0, 0xFFFFFFFF, 0xFFFFFFFF⟩,
    ⟨0x110, 0x110, .ro, 0x0, 0xFFFFFFFF, 0xFFFFFFFF⟩, ⟨0x114, 0x114, .ro, 0x0, 0xFF, 0xFF⟩]

/-- The catch page (R518 of 18_faults_mirroring_and_reclaim). -/
def rows0C : List RegRow :=
  [⟨0x100, 0x100, .ro, 0x0, 0x1F, 0x1F⟩, ⟨0x104, 0x104, .ro, 0x0, 0x3FFFFF, 0x3FFFFF⟩,
    ⟨0x108, 0x108, .ro, 0x0, 0xFFFFFFFF, 0xFFFFFFFF⟩, ⟨0x10C, 0x10C, .ro, 0x0, 0x3FFFFF, 0x3FFFFF⟩,
    ⟨0x110, 0x110, .ro, 0x0, 0xFFFF, 0xFFFF⟩, ⟨0x114, 0x114, .ro, 0x0, 0xFFFFFFFF, 0xFFFFFFFF⟩,
    ⟨0x118, 0x118, .rw, 0x0, 0x3FFF, 0x3FFF⟩, ⟨0x11C, 0x11C, .wo, 0x0, 0x1, 0x1⟩]

/-- The flash window page (R550 of 19_register_pages). -/
def rows0D : List RegRow :=
  [⟨0x100, 0x100, .rw, 0x0, 0x1, 0x1⟩, ⟨0x104, 0x104, .ro, 0x0, 0x13FFF, 0x13FFF⟩,
    ⟨0x800, 0xFFF, .ro, 0x0, 0xFFFFFFFF, 0xFFFFFFFF⟩]

/-- The pair page (R525 of 18_faults_mirroring_and_reclaim). -/
def rows0E : List RegRow :=
  [⟨0x100, 0x100, .sh, 0x0, 0xFF3F03, 0xFF3F03⟩, ⟨0x104, 0x104, .sh, 0x0, 0x3FF, 0x3FF⟩,
    ⟨0x108, 0x108, .sh, 0x0, 0x1F1F, 0x1F1F⟩, ⟨0x10C, 0x10C, .sh, 0x0, 0xFFFFFFFF, 0xFFFFFFFF⟩,
    ⟨0x110, 0x110, .sh, 0x0, 0x7F, 0x7F⟩, ⟨0x114, 0x114, .sh, 0x0, 0xFFFF, 0xFFFF⟩,
    ⟨0x118, 0x118, .ro, 0x0, 0x3, 0x3⟩, ⟨0x11C, 0x11C, .ro, 0x0, 0xFFFFFFFF, 0xFFFFFFFF⟩,
    ⟨0x120, 0x120, .ro, 0x0, 0xFFFFFFFF, 0xFFFFFFFF⟩, ⟨0x124, 0x124, .ro, 0x0, 0xFFFFFFFF, 0xFFFFFFFF⟩,
    ⟨0x128, 0x128, .ro, 0x0, 0xFFFFFFFF, 0xFFFFFFFF⟩]

/-- The reclaim page (R529 of 18_faults_mirroring_and_reclaim). -/
def rows0F : List RegRow :=
  [⟨0x100, 0x100, .ro, 0x0, 0xFF07, 0xFF07⟩, ⟨0x104, 0x104, .ro, 0x0, 0xFFFFFFFF, 0xFFFFFFFF⟩,
    ⟨0x108, 0x108, .ro, 0x0, 0x3FFFFF, 0x3FFFFF⟩, ⟨0x10C, 0x10C, .ro, 0x0, 0xFFFFFFFF, 0xFFFFFFFF⟩,
    ⟨0x110, 0x110, .ro, 0x0, 0xFFFFFFFF, 0xFFFFFFFF⟩, ⟨0x114, 0x114, .ro, 0x0, 0xFFFFFFFF, 0xFFFFFFFF⟩,
    ⟨0x118, 0x118, .ro, 0x0, 0xFFFFFFFF, 0xFFFFFFFF⟩]

/-- The near SRAM page (R254 of 09_near_memory_and_gddr7). -/
def rows10 : List RegRow :=
  [⟨0x100, 0x100, .ro, 0x0, 0xFFFFFFFF, 0xFFFFFFFF⟩, ⟨0x104, 0x104, .ro, 0x0, 0xFFFFFFFF, 0xFFFFFFFF⟩,
    ⟨0x108, 0x108, .ro, 0x0, 0xFFFFFFFF, 0xFFFFFFFF⟩, ⟨0x10C, 0x10C, .ro, 0x0, 0xFFFFFFFF, 0xFFFFFFFF⟩,
    ⟨0x110, 0x110, .ro, 0x0, 0x7F0F, 0x7F0F⟩, ⟨0x114, 0x114, .ro, 0x0, 0x3F01, 0x3F01⟩,
    ⟨0x118, 0x118, .rw, 0x0, 0x3F, 0x3F⟩, ⟨0x11C, 0x11C, .ro, 0x0, 0x3FF, 0x3FF⟩,
    ⟨0x120, 0x120, .wo, 0x0, 0x1, 0x1⟩]

/-- The die power page (R487 of 16_power_thermal_ageing_states). -/
def rows11 : List RegRow :=
  [⟨0x100, 0x100, .ro, 0x0, 0xFFFF, 0xFFFF⟩, ⟨0x104, 0x104, .ro, 0x0, 0x3FFFFF, 0x3FFFFF⟩,
    ⟨0x108, 0x108, .ro, 0x0, 0x3FFF, 0x3FFF⟩, ⟨0x10C, 0x10C, .ro, 0x0, 0x3FFFFF, 0x3FFFFF⟩,
    ⟨0x110, 0x110, .ro, 0x0, 0xFFFFFFFF, 0xFFFFFFFF⟩, ⟨0x114, 0x114, .ro, 0x0, 0xFFFFFFFF, 0xFFFFFFFF⟩,
    ⟨0x118, 0x118, .ro, 0x0, 0xFFFFFFFF, 0xFFFFFFFF⟩, ⟨0x11C, 0x11C, .wo, 0x0, 0x1, 0x1⟩]

/-- The sequencer page (R57 of 02_fabric_time_and_schedule_tables). -/
def rows12 : List RegRow :=
  [⟨0x100, 0x11C, .sh, 0x0, 0x80003FFF, 0x80003FFF⟩, ⟨0x120, 0x120, .sh, 0x1000, 0xFFFF, 0xFFFF⟩,
    ⟨0x124, 0x124, .w1s, 0x0, 0xFF, 0xFF⟩, ⟨0x128, 0x128, .ro, 0x0, 0xFFFFFFFF, 0xFFFFFFFF⟩,
    ⟨0x130, 0x16C, .sh, 0x0, 0xFFFFFFFF, 0x3FFFFF⟩, ⟨0x170, 0x170, .sh, 0x0, 0xFFFFFFFF, 0xFFFFFFFF⟩,
    ⟨0x174, 0x174, .sh, 0x0, 0xFFFFFFFF, 0xFFFFFFFF⟩, ⟨0x178, 0x178, .sh, 0x0, 0x3FFFF, 0x3FFFF⟩,
    ⟨0x17C, 0x17C, .sh, 0x0, 0x3, 0x3⟩, ⟨0x180, 0x180, .ro, 0x0, 0xFF, 0xFF⟩,
    ⟨0x184, 0x184, .sh, 0x0, 0xFFFFFFFF, 0xFFFFFFFF⟩, ⟨0x188, 0x188, .sh, 0x0, 0x7F, 0x7F⟩,
    ⟨0x18C, 0x18C, .sh, 0x0, 0x807FF7FF, 0x807FF7FF⟩, ⟨0x190, 0x1AC, .ro, 0x0, 0xFFFFFFFF, 0xFFFFFFFF⟩,
    ⟨0x1B0, 0x1B0, .ro, 0x0, 0xFFFFFFFF, 0xFFFFFFFF⟩, ⟨0x1B4, 0x1B4, .ro, 0x0, 0xFFFFFFFF, 0xFFFFFFFF⟩,
    ⟨0x200, 0x23C, .ro, 0x0, 0xFFFFFFFF, 0xFFFFFFFF⟩]

/-- The numeric page (R97 of 03_number_formats_and_grain). -/
def rows13 : List RegRow :=
  [⟨0x100, 0x100, .w1c, 0x0, 0x1F, 0x1F⟩, ⟨0x104, 0x104, .w1c, 0x0, 0xFFFF, 0xFFFF⟩,
    ⟨0x108, 0x108, .rw, 0x0, 0x1F, 0x1F⟩]

/-- The attention and sampler page (R165 of 05_matrix_vector_attention_sampling). -/
def rows14 : List RegRow :=
  [⟨0x100, 0x100, .ro, 0x0, 0xFFFFFFFF, 0xFFFFFFFF⟩, ⟨0x104, 0x104, .ro, 0x0, 0xFFFFFFFF, 0xFFFFFFFF⟩,
    ⟨0x108, 0x108, .ro, 0x0, 0xFFFFFFFF, 0xFFFFFFFF⟩, ⟨0x10C, 0x10C, .ro, 0x0, 0xFFFFFFFF, 0xFFFFFFFF⟩,
    ⟨0x110, 0x110, .ro, 0x0, 0xFFFFFFFF, 0xFFFFFFFF⟩, ⟨0x114, 0x114, .ro, 0x0, 0xFFFFFFFF, 0xFFFFFFFF⟩,
    ⟨0x118, 0x118, .ro, 0x0, 0xFFFFFFFF, 0xFFFFFFFF⟩, ⟨0x11C, 0x11C, .ro, 0x0, 0xFFFFFFFF, 0xFFFFFFFF⟩,
    ⟨0x120, 0x120, .ro, 0x0, 0xFFFFFFFF, 0xFFFFFFFF⟩, ⟨0x124, 0x124, .ro, 0x0, 0xFFFFFFFF, 0xFFFFFFFF⟩,
    ⟨0x128, 0x128, .wo, 0x0, 0x1, 0x1⟩]

/-- The loss-scale page (R221 of 07_reproducibility_and_overflow). -/
def rows15 : List RegRow :=
  [⟨0x100, 0x100, .sh, 0x0, 0x3, 0x3⟩, ⟨0x104, 0x104, .sh, 0x10, 0xFFFF00FF, 0xFFFF00FF⟩,
    ⟨0x108, 0x108, .sh, 0x3E81800, 0xFFFFFFFF, 0xFFFFFFFF⟩, ⟨0x10C, 0x10C, .sh, 0x0, 0x1FFFFFF, 0x1FFFFFF⟩,
    ⟨0x110, 0x110, .ro, 0x1010, 0xFFFFFFFF, 0xFFFFFFFF⟩, ⟨0x114, 0x114, .ro, 0x0, 0xFFFFFFFF, 0xFFFFFFFF⟩,
    ⟨0x118, 0x118, .ro, 0x0, 0xFFFFFFFF, 0xFFFFFFFF⟩]

/-- The random stream page (R240 of 08_random_streams). -/
def rows16 : List RegRow :=
  [⟨0x100, 0x100, .rw, 0x0, 0xFFFFFFFF, 0xFFFFFFFF⟩, ⟨0x104, 0x104, .rw, 0x0, 0xFFFFFFFF, 0xFFFFFFFF⟩,
    ⟨0x108, 0x108, .rw, 0x0, 0xFFFFFFFF, 0xFFFFFFFF⟩, ⟨0x10C, 0x10C, .rw, 0x0, 0xFFFFFFFF, 0xFFFFFFFF⟩,
    ⟨0x110, 0x110, .rw, 0x0, 0xFF, 0xFF⟩, ⟨0x114, 0x114, .wo, 0x0, 0x1, 0x1⟩, ⟨0x118, 0x118, .ro, 0x0, 0x1, 0x1⟩,
    ⟨0x11C, 0x11C, .ro, 0x0, 0xFFFFFFFF, 0xFFFFFFFF⟩, ⟨0x120, 0x120, .ro, 0x0, 0xFFFFFFFF, 0xFFFFFFFF⟩,
    ⟨0x124, 0x124, .ro, 0x0, 0xFFFFFFFF, 0xFFFFFFFF⟩]

/-- The cluster idle page (R395 of 13_reductions_exchange_and_mapping). -/
def rows17 : List RegRow :=
  [⟨0x100, 0x15C, .ro, 0x0, 0xFFFFFFFF, 0xFFFF⟩, ⟨0x160, 0x160, .ro, 0x0, 0xFFFFFFFF, 0xFFFFFFFF⟩,
    ⟨0x164, 0x164, .ro, 0x0, 0xFFFF, 0xFFFF⟩, ⟨0x168, 0x168, .sh, 0x0, 0xFFFFFFFF, 0xFFFFFFFF⟩,
    ⟨0x16C, 0x16C, .sh, 0x0, 0x3FFFFF, 0x3FFFFF⟩, ⟨0x180, 0x1DC, .ro, 0x0, 0xFFFFFFFF, 0xFFFF⟩,
    ⟨0x1E0, 0x1E0, .wo, 0x0, 0x1, 0x1⟩]

/-- The memory page (R277 of 09_near_memory_and_gddr7). -/
def rows18 : List RegRow :=
  [⟨0x100, 0x100, .ro, 0x0, 0xFF0F, 0xFF0F⟩, ⟨0x104, 0x104, .ro, 0x0, 0xFFFF, 0xFFFF⟩,
    ⟨0x108, 0x108, .ro, 0x0, 0x7FFF, 0x7FFF⟩, ⟨0x10C, 0x10C, .sh, 0x0, 0x1, 0x1⟩,
    ⟨0x110, 0x110, .ro, 0x0, 0x7FFF, 0x7FFF⟩, ⟨0x114, 0x114, .ro, 0x0, 0xFFFFFFFF, 0xFFFFFFFF⟩,
    ⟨0x118, 0x118, .ro, 0x0, 0xFFFFFFFF, 0xFFFFFFFF⟩, ⟨0x11C, 0x11C, .ro, 0x0, 0xFFFFFFFF, 0xFFFFFFFF⟩,
    ⟨0x120, 0x120, .ro, 0x0, 0xFFFFFFFF, 0xFFFFFFFF⟩, ⟨0x124, 0x124, .ro, 0x0, 0xFFFFFFFF, 0xFFFFFFFF⟩,
    ⟨0x128, 0x128, .ro, 0x0, 0xFFFFFFFF, 0xFFFFFFFF⟩, ⟨0x12C, 0x12C, .ro, 0x0, 0x7FF, 0x7FF⟩,
    ⟨0x130, 0x130, .sh, 0x0, 0x7FFF, 0x7FFF⟩, ⟨0x134, 0x134, .sh, 0x0, 0x80017FFF, 0x80017FFF⟩,
    ⟨0x138, 0x138, .sh, 0x3D1, 0xFFFF, 0xFFFF⟩, ⟨0x13C, 0x13C, .ro, 0x0, 0xFFFF031F, 0xFFFF031F⟩,
    ⟨0x140, 0x1BC, .sh, 0x0, 0x3FFFFF, 0x7FFF⟩, ⟨0x1C0, 0x1C0, .wo, 0x0, 0x1, 0x1⟩,
    ⟨0x1C4, 0x1C4, .sh, 0x0, 0x8FFFFFFF, 0x8FFFFFFF⟩, ⟨0x1C8, 0x1C8, .ro, 0x0, 0xFFFFFFFF, 0xFFFFFFFF⟩,
    ⟨0x1CC, 0x1CC, .ro, 0x0, 0xFFFFFFFF, 0xFFFFFFFF⟩]

/-- The switch page (R304 of 10_blanks_and_phase_switch). -/
def rows19 : List RegRow :=
  [⟨0x100, 0x100, .sh, 0x0, 0xFFFFFFFF, 0xFFFFFFFF⟩, ⟨0x104, 0x104, .sh, 0x0, 0x7F, 0x7F⟩,
    ⟨0x108, 0x108, .sh, 0x0, 0xFFFFF, 0xFFFFF⟩, ⟨0x10C, 0x10C, .sh, 0x0, 0x1, 0x1⟩,
    ⟨0x110, 0x110, .sh, 0x0, 0xFFFFFFFF, 0xFFFFFFFF⟩, ⟨0x114, 0x114, .sh, 0x0, 0x3FFFFF, 0x3FFFFF⟩,
    ⟨0x118, 0x118, .w1s, 0x0, 0x1, 0x1⟩, ⟨0x11C, 0x11C, .ro, 0x0, 0xFFFFF13, 0xFFFFF13⟩,
    ⟨0x120, 0x120, .ro, 0x0, 0xFFFFFFFF, 0xFFFFFFFF⟩, ⟨0x124, 0x124, .ro, 0x0, 0xFFFFFFFF, 0xFFFFFFFF⟩,
    ⟨0x128, 0x128, .ro, 0x0, 0xFFFFFFFF, 0xFFFFFFFF⟩, ⟨0x12C, 0x12C, .ro, 0x0, 0xFFFFFFFF, 0xFFFFFFFF⟩,
    ⟨0x130, 0x130, .ro, 0x0, 0xFFFFFFFF, 0xFFFFFFFF⟩, ⟨0x134, 0x134, .ro, 0x0, 0xFFFFFFFF, 0xFFFFFFFF⟩,
    ⟨0x138, 0x138, .ro, 0x0, 0xFFFFFFFF, 0xFFFFFFFF⟩, ⟨0x13C, 0x13C, .ro, 0x0, 0x3FFFFF, 0x3FFFFF⟩]

/-- The link page (R365 of 12_spindle_links). -/
def rows1A : List RegRow :=
  [⟨0x100, 0x100, .sh, 0x0, 0x33, 0x33⟩, ⟨0x104, 0x104, .ro, 0x0, 0xFF1F, 0xFF1F⟩,
    ⟨0x108, 0x108, .ro, 0x0, 0xFFFFFFFF, 0xFFFFFFFF⟩, ⟨0x10C, 0x10C, .ro, 0x0, 0xFFFF, 0xFFFF⟩,
    ⟨0x110, 0x110, .ro, 0x0, 0xFFFFFFFF, 0xFFFFFFFF⟩, ⟨0x114, 0x114, .ro, 0x0, 0xFFFFFFFF, 0xFFFFFFFF⟩,
    ⟨0x118, 0x118, .ro, 0x0, 0xFFFFFFFF, 0xFFFFFFFF⟩, ⟨0x11C, 0x11C, .ro, 0x0, 0xFFFFFFFF, 0xFFFFFFFF⟩,
    ⟨0x120, 0x120, .ro, 0x0, 0xFFFFFFFF, 0xFFFFFFFF⟩, ⟨0x124, 0x124, .ro, 0x0, 0xFFFFFFFF, 0xFFFFFFFF⟩,
    ⟨0x128, 0x128, .ro, 0x0, 0xFFFFFFFF, 0xFFFFFFFF⟩, ⟨0x12C, 0x12C, .ro, 0x0, 0xFFFFFFFF, 0xFFFFFFFF⟩,
    ⟨0x130, 0x130, .ro, 0x0, 0xFFFFFFFF, 0xFFFFFFFF⟩, ⟨0x134, 0x134, .ro, 0x0, 0xFFFFFFFF, 0xFFFFFFFF⟩,
    ⟨0x138, 0x138, .ro, 0x0, 0xFFFFFFFF, 0xFFFFFFFF⟩, ⟨0x13C, 0x13C, .ro, 0x0, 0xFFFFFFFF, 0xFFFFFFFF⟩,
    ⟨0x140, 0x140, .sh, 0x0, 0xFFFFFFFF, 0xFFFFFFFF⟩, ⟨0x144, 0x144, .sh, 0x0, 0xFFFF, 0xFFFF⟩,
    ⟨0x148, 0x148, .sh, 0x0, 0x1FFFF, 0x1FFFF⟩, ⟨0x14C, 0x14C, .wo, 0x0, 0x1, 0x1⟩]

/-- The blank page (R286 of 10_blanks_and_phase_switch). -/
def rows1B : List RegRow :=
  [⟨0x100, 0x100, .rw, 0x0, 0xFFF003F, 0xFFF003F⟩, ⟨0x104, 0x104, .sh, 0x0, 0xFF03F3, 0xFF03F3⟩,
    ⟨0x108, 0x108, .sh, 0x0, 0x3, 0x3⟩, ⟨0x10C, 0x10C, .sh, 0x0, 0xFFFFF, 0xFFFFF⟩,
    ⟨0x110, 0x110, .ro, 0x0, 0xFFFFF, 0xFFFFF⟩, ⟨0x114, 0x114, .ro, 0x0, 0xFFFFF, 0xFFFFF⟩,
    ⟨0x118, 0x118, .ro, 0x0, 0xFFFFFF, 0xFFFFFF⟩, ⟨0x11C, 0x11C, .ro, 0x0, 0xFFFFFF, 0xFFFFFF⟩,
    ⟨0x120, 0x120, .sh, 0x0, 0xFFFFF, 0xFFFFF⟩, ⟨0x124, 0x124, .ro, 0x0, 0xFFFFF, 0xFFFFF⟩,
    ⟨0x128, 0x128, .ro, 0x0, 0xFFFFF, 0xFFFFF⟩, ⟨0x12C, 0x12C, .ro, 0x0, 0xFFFFFF, 0xFFFFFF⟩,
    ⟨0x130, 0x130, .ro, 0x0, 0xFFFFFF, 0xFFFFFF⟩, ⟨0x134, 0x134, .ro, 0x0, 0xF3, 0xF3⟩,
    ⟨0x138, 0x138, .wo, 0x0, 0x3, 0x3⟩, ⟨0x140, 0x17C, .sh, 0x0, 0x83FFFFFF, 0xFFFFFFFF⟩,
    ⟨0x180, 0x19C, .sh, 0x0, 0x83FFFFFF, 0x83FFFFFF⟩, ⟨0x1A0, 0x1A0, .ro, 0x0, 0xFFFFFFFF, 0xFFFFFFFF⟩]

/-- The queue page (R339 of 11_serving). -/
def rows1C : List RegRow :=
  [⟨0x100, 0x100, .rw, 0x0, 0xFFF, 0xFFF⟩, ⟨0x104, 0x104, .sh, 0x0, 0xFF3FF3, 0xFF3FF3⟩,
    ⟨0x108, 0x108, .sh, 0x0, 0xFFF7FFF, 0xFFF7FFF⟩, ⟨0x10C, 0x10C, .sh, 0x0, 0xFFFFFFFF, 0xFFFFFFFF⟩,
    ⟨0x110, 0x110, .sh, 0x0, 0xFFFFFFFF, 0xFFFFFFFF⟩, ⟨0x114, 0x114, .ro, 0x0, 0x1FFFF, 0x1FFFF⟩,
    ⟨0x118, 0x118, .ro, 0x0, 0xFFFFFFFF, 0xFFFFFFFF⟩, ⟨0x11C, 0x11C, .ro, 0x0, 0xFFFFFFFF, 0xFFFFFFFF⟩,
    ⟨0x120, 0x120, .ro, 0x0, 0xFFFFFFFF, 0xFFFFFFFF⟩, ⟨0x124, 0x124, .ro, 0x0, 0xFFFFFFFF, 0xFFFFFFFF⟩,
    ⟨0x128, 0x128, .wo, 0x0, 0x1, 0x1⟩]

/-- The page engine page (R340 of 11_serving). -/
def rows1D : List RegRow :=
  [⟨0x100, 0x100, .rw, 0x0, 0xF, 0xF⟩, ⟨0x104, 0x104, .sh, 0x0, 0xFF3F01, 0xFF3F01⟩,
    ⟨0x108, 0x108, .sh, 0x0, 0x7FFFFF, 0x7FFFFF⟩, ⟨0x10C, 0x10C, .sh, 0x0, 0x7FFFFF, 0x7FFFFF⟩,
    ⟨0x110, 0x110, .sh, 0x0, 0x7FFFFF, 0x7FFFFF⟩, ⟨0x114, 0x114, .sh, 0x0, 0x3FFFFFF, 0x3FFFFFF⟩,
    ⟨0x118, 0x118, .sh, 0x0, 0xFFF, 0xFFF⟩, ⟨0x11C, 0x11C, .sh, 0x0, 0xFF, 0xFF⟩,
    ⟨0x120, 0x120, .sh, 0x0, 0xFFFFFFFF, 0xFFFFFFFF⟩, ⟨0x124, 0x124, .sh, 0x0, 0xFFFFFFFF, 0xFFFFFFFF⟩,
    ⟨0x128, 0x128, .sh, 0x0, 0xFFFFFFFF, 0xFFFFFFFF⟩, ⟨0x12C, 0x12C, .sh, 0x0, 0xFFFFFFF, 0xFFFFFFF⟩,
    ⟨0x130, 0x130, .sh, 0x40, 0xFFFF, 0xFFFF⟩, ⟨0x134, 0x134, .sh, 0xE10, 0x1FFFF, 0x1FFFF⟩,
    ⟨0x138, 0x138, .ro, 0x0, 0x7FFFFF, 0x7FFFFF⟩, ⟨0x13C, 0x13C, .ro, 0x0, 0x7FFFFF, 0x7FFFFF⟩,
    ⟨0x140, 0x140, .ro, 0x0, 0xFFFFFFFF, 0xFFFFFFFF⟩, ⟨0x144, 0x144, .ro, 0x0, 0xFFFFFFFF, 0xFFFFFFFF⟩,
    ⟨0x148, 0x148, .ro, 0x0, 0xFFFFFFFF, 0xFFFFFFFF⟩, ⟨0x14C, 0x14C, .ro, 0x0, 0x1FFFF, 0x1FFFF⟩,
    ⟨0x150, 0x150, .wo, 0x0, 0x1, 0x1⟩]

/-- The port page (R412 of 14_wailos_port_and_board_interfaces). -/
def rows1E : List RegRow :=
  [⟨0x100, 0x100, .ro, 0x0, 0x3F, 0x3F⟩, ⟨0x104, 0x104, .sh, 0x0, 0x80000FFF, 0x80000FFF⟩,
    ⟨0x108, 0x124, .sh, 0x0, 0x80000FFF, 0x80000FFF⟩, ⟨0x128, 0x128, .ro, 0x0, 0xFFFFFFFF, 0xFFFFFFFF⟩,
    ⟨0x12C, 0x12C, .ro, 0x0, 0xFFFFFFFF, 0xFFFFFFFF⟩, ⟨0x130, 0x130, .ro, 0x0, 0x7F, 0x7F⟩,
    ⟨0x134, 0x134, .ro, 0x0, 0xFFFFFFFF, 0xFFFFFFFF⟩, ⟨0x138, 0x138, .ro, 0x0, 0xFFFFFFFF, 0xFFFFFFFF⟩,
    ⟨0x13C, 0x13C, .ro, 0x0, 0xFFFFFFFF, 0xFFFFFFFF⟩, ⟨0x140, 0x140, .ro, 0x0, 0xFFFFFFFF, 0xFFFFFFFF⟩,
    ⟨0x144, 0x144, .wo, 0x0, 0x1, 0x1⟩]

/-- The I3C sideband page (R414 of 14_wailos_port_and_board_interfaces). -/
def rowsSideband : List RegRow :=
  [⟨0x000, 0x000, .ro, 0x0, 0xFFFFFFFF, 0xFFFFFFFF⟩, ⟨0x004, 0x004, .ro, 0x0, 0x7F, 0x7F⟩,
    ⟨0x008, 0x008, .ro, 0x0, 0xFFFFFFFF, 0xFFFFFFFF⟩, ⟨0x00C, 0x00C, .ro, 0x0, 0xFFFFFFFF, 0xFFFFFFFF⟩,
    ⟨0x010, 0x010, .ro, 0x0, 0xFFFFFFFF, 0xFFFFFFFF⟩, ⟨0x014, 0x014, .ro, 0x0, 0xFF, 0xFF⟩,
    ⟨0x018, 0x018, .ro, 0x0, 0xFF, 0xFF⟩, ⟨0x01C, 0x01C, .ro, 0x0, 0xFFFF, 0xFFFF⟩,
    ⟨0x020, 0x020, .w1s, 0x0, 0x1, 0x1⟩, ⟨0x024, 0x024, .w1c, 0x0, 0xF, 0xF⟩]

/-- The field map of a page type (R533). -/
def rowsOf (ty : Nat) : List RegRow :=
  match ty with
  | 0x01 => rows01
  | 0x02 => rows02
  | 0x03 => rows03
  | 0x04 => rows04
  | 0x05 => rows05
  | 0x06 => rows06
  | 0x07 => rows07
  | 0x08 => rows08
  | 0x09 => rows09
  | 0x0A => rows0A
  | 0x0B => rows0B
  | 0x0C => rows0C
  | 0x0D => rows0D
  | 0x0E => rows0E
  | 0x0F => rows0F
  | 0x10 => rows10
  | 0x11 => rows11
  | 0x12 => rows12
  | 0x13 => rows13
  | 0x14 => rows14
  | 0x15 => rows15
  | 0x16 => rows16
  | 0x17 => rows17
  | 0x18 => rows18
  | 0x19 => rows19
  | 0x1A => rows1A
  | 0x1B => rows1B
  | 0x1C => rows1C
  | 0x1D => rows1D
  | 0x1E => rows1E
  | _ => []

/-! ### Addresses (R531, R533) -/

/-- The first address of die d's region. -/
def dieBase (d : Nat) : Nat := 0x100000 * d

/-- The page address of page index i (in units of 4 KiB) of die d. -/
def pageAt (d i : Nat) : Nat := dieBase d + 0x1000 * i

/-- The headstock, P-die, O-die, M-die and C-die pages of R533, by type code and instance. Cluster pages are named
by the cluster's number cl = 9 · C-die + cluster. -/
def hPage (ty : Nat) : Nat := pageAt 63 (ty - 1)
def pPage (ty : Nat) : Nat := pageAt 62 (ty - 0x1B)
def linkPage (n : Nat) : Nat := pageAt (56 + n / 4) (n % 4)
def mPage (ty m : Nat) : Nat := pageAt (48 + m) (ty - 0x18)
def cPage (ty d : Nat) : Nat := pageAt d (ty - 0x10)
def clPage (ty cl : Nat) : Nat := pageAt (cl / 9) (0x10 * (cl % 9 + 1) + (ty - 0x12))

/-- Type code and instance of the page of index i of die d, where there is one (R533). -/
def pageType (d i : Nat) : Option (Nat × Nat) :=
  if d < 48 then
    if i < 2 then some (0x10 + i, 0)
    else if 1 ≤ i / 16 ∧ i / 16 ≤ 9 ∧ i % 16 < 6 then some (0x12 + i % 16, i / 16 - 1)
    else none
  else if d < 56 then (if i < 2 then some (0x18 + i, 0) else none)
  else if d < 62 then (if i < 4 then some (0x1A, i) else none)
  else if d = 62 then (if i < 4 then some (0x1B + i, 0) else none)
  else if d = 63 then (if i < 15 then some (i + 1, 0) else none)
  else none

/-- The parts of a register address: the key of a register is its address, plus 2^32 times the selected item on
a page with a selector (R538). -/
def keyAddr (k : Nat) : Nat := k % 2 ^ 32
def keyItem (k : Nat) : Nat := k / 2 ^ 32
def keyOf (addr item : Nat) : Nat := addr + 2 ^ 32 * item
def addrDie (a : Nat) : Nat := keyAddr a / 0x100000
def addrPageIdx (a : Nat) : Nat := keyAddr a / 0x1000 % 256
def addrPage (a : Nat) : Nat := 0x1000 * (keyAddr a / 0x1000)
def addrOff (a : Nat) : Nat := a % 0x1000

/-- The row that describes word offset off of a page of type ty (R9: none where it is reserved). -/
def regRow (ty off : Nat) : Option RegRow :=
  (if off < 0x100 then rowsFaceplate else rowsOf ty).find? fun r => r.lo ≤ off && off ≤ r.hi && off % 4 == 0

/-- The described bits of the word at off. -/
def RegRow.mask (r : RegRow) (off : Nat) : Nat := if (off - r.lo) / 4 % 2 = 0 then r.even else r.odd

/-- PAGE_ID of a page (R534). -/
def pageId (d ty inst : Nat) : Nat := ty + 0x10000 * d + 0x1000000 * inst

/-- RING_CFG of ring n at reset: KIND and SIZE by R309. -/
def ringCfgReset (n : Nat) : Nat :=
  if n < 3584 then 1 + 1 * 16 else if n < 3840 then 2 + 3 * 16 else 3 + 5 * 16

/-- RING_BASE of ring n at reset: the rings stand one after another from the bottom of ring memory in the order of
R309's table (log entry 21), and a command queue names its event queue. -/
def ringBaseReset (n : Nat) : Nat :=
  if n < 3584 then 2 * n
  else if n < 3840 then 7168 + 16 * (n - 3584) + 0x10000 * (3840 + (n - 3584))
  else 11264 + 32 * (n - 3840)

/-- The value of a register at reset (R545): the field map's reset value, the page's own PAGE_ID, FW_ONLY set on
the key-slot and attestation pages (R535), the serial number of the test record and the rings of R309. -/
def resetOf (k : Nat) : Nat :=
  let a := keyAddr k
  let off := addrOff a
  match pageType (addrDie a) (addrPageIdx a) with
  | none => 0
  | some (ty, inst) =>
    if off = Reg.F_PAGE_ID then pageId (addrDie a) ty inst
    else if off = Reg.F_CTRL then (if ty = 7 ∨ ty = 8 then 1 else 0)
    else if ty = 1 ∧ off = Reg.ID_SERIAL_LO then Config.serial.toNat % 2 ^ 32
    else if ty = 1 ∧ off = Reg.ID_SERIAL_HI then Config.serial.toNat / 2 ^ 32
    else if ty = 0x1C ∧ off = Reg.RING_CFG then ringCfgReset (keyItem k)
    else if ty = 0x1C ∧ off = Reg.RING_BASE then ringBaseReset (keyItem k)
    else match regRow ty off with
      | none => 0
      | some r => r.reset

end Sys2Proof.Machine
end

