-- ==== Sys2Proof/Machine/Sparse.lean ====
section
/-! DEFINITION. Sparse data by key, in one canonical form: keys strictly rising, and no entry equal to what an
unlisted key reads as. Memories, register files and tables of the state are held so, and equal contents are equal
lists. -/

namespace Sys2Proof.Machine

/-- What key k reads as: its entry, or the default d k where none is listed. -/
def sget {α : Type} (d : Nat → α) : List (Nat × α) → Nat → α
  | [], k => d k
  | (k', v) :: m, k => if k' = k then v else sget d m k

/-- Key k given the value v, in canonical form: writing the default removes the entry. -/
def sset {α : Type} [DecidableEq α] (d : Nat → α) : List (Nat × α) → Nat → α → List (Nat × α)
  | [], k, v => if v = d k then [] else [(k, v)]
  | (k', v') :: m, k, v =>
    if k < k' then (if v = d k then (k', v') :: m else (k, v) :: (k', v') :: m)
    else if k' = k then (if v = d k then m else (k, v) :: m)
    else (k', v') :: sset d m k v

/-- Many writes, in order. -/
def ssetAll {α : Type} [DecidableEq α] (d : Nat → α) (m : List (Nat × α)) (ws : List (Nat × α)) : List (Nat × α) :=
  ws.foldl (fun acc w => sset d acc w.1 w.2) m

/-- The canonical form: keys strictly rising, no entry equal to its default. -/
abbrev swf {α : Type} [DecidableEq α] (d : Nat → α) (m : List (Nat × α)) : Prop :=
  m.Pairwise (fun a b => a.1 < b.1) ∧ ∀ e ∈ m, e.2 ≠ d e.1

/-- A list element by index, with a default. -/
def getNth {α : Type} (d : α) (l : List α) (i : Nat) : α := (l[i]?).getD d

/-- A list with element i replaced, unchanged where i lies outside it. -/
def setNth {α : Type} : List α → Nat → α → List α
  | [], _, _ => []
  | _ :: l, 0, v => v :: l
  | x :: l, i + 1, v => x :: setNth l i v

end Sys2Proof.Machine
end

