-- ==== Sys2Proof/Machine/State.lean ====
section
/-! DEFINITION. The state of the package: every register, memory, queue and mode the manual names, as plain data,
and the state right after reset. -/

namespace Sys2Proof.Machine

/-! ### Registers -/

/-- A commit outstanding on a page: the page's address and the armed turn, none for a GO (R539). -/
structure Commit where
  page : Nat
  turn : Option Nat
  deriving DecidableEq, Repr

/-- The register file: the value in effect and the shadow of every register, by key (an unlisted key holds its reset
value), the halves latched by low-word reads, by page and master (R544), and the outstanding commits. -/
structure RegState where
  live : List (Nat × Nat) := []
  shadow : List (Nat × Nat) := []
  latch : List (Nat × Nat) := []
  commits : List Commit := []
  deriving DecidableEq, Repr

/-! ### Sequencers -/

/-- What a program waits for: a turn (R66), or a token counter with its target and, where it has a timeout, the turn
at whose boundary it times out (R68). -/
inductive Wait where
  | none
  | turn (t : Nat)
  | token (ctr target : Nat) (limit : Option Nat)
  deriving DecidableEq, Repr

/-- What one program slot of a cluster holds beyond the sequencer page: the base priority it was enabled with (R50), effective
priority and ageing (R54), base turn (R67), entries issued (for DEP, R59), the wait in progress and the CAUSE it charges (R65). -/
structure Prog where
  prio : Nat := 0
  age : Nat := 0
  base : Option Nat := none
  issued : Nat := 0
  wait : Wait := .none
  cause : Nat := 0
  low : Nat := 0
  deriving DecidableEq, Repr

/-- A table copy in progress in a cluster, its source checked when it started (R58). -/
structure TableCopy where
  cl : Nat
  dst : Nat
  count : Nat
  src : Nat
  deriving DecidableEq, Repr

/-- The fields of the last PASS issued to a core's array that a chained pass must match, and the groups accumulated
since the pass that began the accumulation (R113). -/
structure AccShape where
  mrows : Nat
  nt : Nat
  canon : Bool
  recipe : Nat
  ws : Bool
  groups : Nat
  deriving DecidableEq, Repr

/-- What the store of a group accumulator holds of one output (R101, R110, R111): the running sum, in canonical mode that of
the chunk in progress (none: nothing has been contributed), and the pending subtree sums, newest first. -/
structure OutAcc where
  run : Option Num := none
  pend : List Num := []
  deriving DecidableEq, Repr

/-- A core's matrix array (R101): the last PASS issued to it, what the accumulators hold of the last row block and quad
of the last PASS run (by output plane, row and column), and the active and shadow registers of the 2,560 cells, cell
(k, n) at 40k + n; groups counts the groups in the accumulators. What lies beyond the end of a list is empty, or zero, as all of it is
at reset (log entry 170). -/
structure ArrayState where
  shape : Option AccShape := none
  groups : Nat := 0
  sums : List OutAcc := []
  active : List Num := []
  shadow : List Num := []
  deriving DecidableEq, Repr

/-- What one core's output stage still has to convert and write: the values of each output plane, which elements are
kept, and what the operand side counted, which is no conversion into FMT_D (R96, R114, R171, R187). -/
structure CoreOut where
  core : Nat
  planes : List (List Num)
  keep : List Bool
  counts : Counts
  deriving DecidableEq, Repr

/-- A run of elements of a member's partial that an ordered reduction holds: the member, the bucket index of its first
element, and its bytes as sent (R380). -/
structure RedPart where
  member : Nat
  off : Nat
  bytes : List Byte
  deriving DecidableEq, Repr

/-- A REDUCE at its member: its tag, its own index and the group list it registered, the elements still to come of
its own shard and still to handle of the others, the partials held, the passes of a flag synchronisation, whether
its shard is written, the turn of issue, and the counts of its hops (R373 to R383). -/
structure RedWork where
  tag : Nat
  own : Nat
  list : List Byte
  need : Nat
  rest : Nat
  parts : List RedPart := []
  passes : Nat := 0
  written : Bool := false
  turn : Nat
  counts : Counts := {}
  turns : List (Nat × Nat) := []
  deriving DecidableEq, Repr

/-- One source of a GATHER: the core that gathers, its place in that core's list, package, count, header address, the
line its output begins at, the runs of data that have come by offset, the stamp first found that shows it stale, and whether it
has ended (R294, R296). -/
structure GatherSource where
  core : Nat
  idx : Nat
  pkg : Nat
  count : Nat
  addr : Nat
  line : Nat
  got : List (Nat × List Byte) := []
  found : Option Nat := none
  done : Bool := false
  deriving DecidableEq, Repr

/-- A GATHER: its sources, whether "stale shard" has been posted for it, and the turn of issue (R296, R297). -/
structure GatherWork where
  srcs : List GatherSource
  stale : Bool := false
  turn : Nat
  deriving DecidableEq, Repr

/-- What a unit still holds of an entry in flight. -/
inductive Work where
  | none
  /-- A PASS that the array has not begun (R52, R129). -/
  | waiting
  /-- A PASS that the array runs: by core, the lines of its operands with what stood in each as it began (log entry 4). -/
  | running (ops : List (Nat × List (Nat × List Byte)))
  /-- What the output stages of an MVEC's cores hold. -/
  | outputs (outs : List CoreOut)
  | counts (c : Counts)
  /-- An ATTN's counts, and the lists that it names, as (pool, list) (R154). -/
  | attn (c : Counts) (lists : List (Nat × Nat))
  | data (bytes : List Byte)
  /-- Token records that their rings have not accepted yet, by ring (R162). -/
  | records (waiting : List (Nat × List Byte))
  | reduce (r : RedWork)
  | gather (g : GatherWork)
  deriving DecidableEq, Repr

/-- The units whose queues an entry takes a place in (R51). -/
inductive UnitId where
  | array | mvPath | vector | sampler | exchange | reduction | gather | transfer
  deriving DecidableEq, Repr

/-- An entry issued and not completed: its number, cluster, program, place in the program's issue order, index, its
256 bits, the job seed it was issued under, its units and cores, what the unit holds of it, and its place in the order
in which entries have requested the skew unit (R173). -/
structure Flight where
  id : Nat
  cl : Nat
  prog : Nat
  seq : Nat
  idx : Nat
  entry : Nat
  seed : Nat
  units : List UnitId
  cores : Nat
  work : Work
  asked : Option Nat := none
  deriving DecidableEq, Repr

/-- The sequencers: program slots by 8 · cluster number + slot, the entries in flight in issue order, the number the
next takes, the number the next request for a skew unit takes, table copies, the token counters that have posted their
overflow, the matrix arrays by core number, the check draw in progress in a cluster as seed, stream and position (R240), and the turn at whose boundary a
cluster's idle counters are copied, by cluster (0: none, R395). -/
structure SeqState where
  progs : List (Nat × Prog) := []
  flights : List Flight := []
  nextId : Nat := 0
  nextAsk : Nat := 0
  copies : List TableCopy := []
  tokenOver : List (Nat × Bool) := []
  arrays : List (Nat × ArrayState) := []
  draws : List (Nat × Option (Nat × Nat × Nat)) := []
  snaps : List (Nat × Nat) := []
  deriving DecidableEq, Repr

/-! ### Memories -/

/-- For whom an access is made: the page whose ERR_COUNT is charged, the entry (R571), and the acting slot. -/
structure Ctx where
  page : Nat
  die : Nat
  cluster : Nat := 15
  core : Nat := 0
  partition : Option Nat := none
  entry : Option (Nat × Nat) := none
  slot : Option Nat := none
  deriving DecidableEq, Repr

/-- A write that an M-die has accepted and holds behind a retraining channel (R257, R444): for whom, where, and its bytes. -/
structure HeldWrite where
  ctx : Ctx
  addr : Nat
  bytes : List Byte
  deriving DecidableEq, Repr

/-- A sanding range of one window, in units of 2 MiB: its base and size, the units left, URGENT, and the slot and
region entry whose parting queued it (R268). -/
structure SandRange where
  base : Nat
  size : Nat
  left : Nat
  urgent : Bool
  parting : Option (Nat × Nat)
  deriving DecidableEq, Repr

/-- Near SRAM, GDDR7 and table memory: contents, owner tags by line, error marks by slice, granule and entry (0
good, 1 correctable, 2 uncorrectable), the loading under whose key each granule is stored (0 plaintext), the granules
whose read (false) or write (true) has failed its data CRC five times (R257), the writes held behind channels that retrain,
oldest first, and the sanding queues and parting lists by M-die. -/
structure MemState where
  ns : List Host.Cell := []
  tags : List (Nat × Nat) := []
  nsErr : List (Nat × Nat) := []
  gddr : List Host.Cell := []
  gKey : List (Nat × Nat) := []
  gErr : List (Nat × Nat) := []
  crc : List (Nat × Bool) := []
  waiting : List HeldWrite := []
  table : List Host.Cell := []
  tableErr : List (Nat × Nat) := []
  sand : List (Nat × List SandRange) := []
  partList : List (Nat × List SandRange) := []
  sandAged : List (Nat × Nat) := []
  deriving DecidableEq, Repr

/-! ### Time, belt, tenants -/

/-- Fabric time in ticks (R37), each die's copy of the turn number (R43) and the strobes it has missed in a row
(R512); the turn at which an alarm not yet fired is due, and whether FT_ALARM has been written since the latest commit (R44); consecutive turns or exchanges within ±2 ns (R40),
control loops whose exchange was missed since the last answer, and whether this loop's awaits its answer (R411), whether the first
exchange since power-on has come (R498), whether a follower may still step (R499), or does as it has left Rest (R482), whether REFCLK
is present (R509), and the answer awaited as TAG and t₁. -/
structure TimeState where
  now : Nat := 0
  dieTurn : List (Nat × Nat) := []
  missed : List (Nat × Nat) := []
  alarm : Option Nat := none
  alarmSet : Bool := false
  near : Nat := 0
  loopsSilent : Nat := 0
  awaiting : Bool := false
  exchanged : Bool := false
  mayStep : Bool := false
  mustStep : Bool := false
  refclk : Bool := true
  asked : Option (Nat × Nat) := none
  deriving DecidableEq, Repr

/-- The belt: each die's event queue (R25) and the events it lost, the headstock store (R410) and the records it
lost, attempts at the frame in error by lane (R25), and the lanes down. -/
structure BeltState where
  queues : List (Nat × List Event) := []
  lost : List (Nat × Nat) := []
  store : List Event := []
  storeLost : Nat := 0
  tries : List (Nat × Nat) := []
  down : List Nat := []
  deriving DecidableEq, Repr

/-- The keys of a loaded slot and the number of its loading (R436); all zero where it holds none. -/
structure SlotKeys where
  load : Nat := 0
  data : Nat := 0
  tweak : Nat := 0
  far : Nat := 0
  link : Nat := 0
  deriving DecidableEq, Repr

/-- The key stores by slot, the number of loadings so far, the link-key counters by 32 · slot + link (R360), the
staging store of LINK_KEY by slot and word (R439), the turn P of each parting in progress (R442), the dies whose sweep
is not finished by 64 · slot + die (R250), the epoch advances held behind a sweep, and the seed of the identity key in the
root-of-trust processor's private SRAM (R424). -/
structure TenantState where
  keys : List (Nat × SlotKeys) := []
  loads : Nat := 0
  ivs : List (Nat × Nat) := []
  staging : List (Nat × Nat) := []
  parting : List (Nat × Nat) := []
  sweeps : List (Nat × Bool) := []
  heldAdvance : List Nat := []
  seed : Nat := 0
  deriving DecidableEq, Repr

/-! ### Links -/

/-- A frame of the package's own on its way, with the entry in flight that sent it. -/
structure Sent where
  frame : Frame
  owner : Option Nat := none
  deriving DecidableEq, Repr

/-- One spindle link: frames waiting to leave, frames held in the receive buffers (R358), the replay buffer, the next
SEQ, the first SEQ lacked, whether a NAK stands (R351, R352), flits sent, freed at the far end and freed here by
virtual channel (R355), how many of the last frames of the replay buffer are still to be sent again (R352), replays of the oldest
frame and whether the link retrains after the error limit (R353), whether "mode mismatch" has been posted (R345), whether it
sends the wake pattern (R478), whether its priority is paused and whether it sends pause (R363), the last time frame received, as
its stamp and the time of its receipt in 1/16 ns, the last sent, and the turn of the latest measurement of the delay (R39, R359). -/
structure LinkState where
  tx : List Sent := []
  rx : List Frame := []
  replay : List Sent := []
  nextSeq : Nat := 0
  expect : Nat := 0
  nak : Bool := false
  sent : List Nat := [0, 0, 0, 0]
  freed : List Nat := [0, 0, 0, 0]
  back : List Nat := [0, 0, 0, 0]
  resend : Nat := 0
  tries : Nat := 0
  again : Bool := false
  mismatch : Bool := false
  waking : Bool := false
  paused : Bool := false
  pausing : Bool := false
  heard : Option (Nat × Nat) := none
  told : Option TimeFrame := none
  measured : Nat := 0
  deriving DecidableEq, Repr

/-- A REDUCE frame held for a tag not registered yet (R374): the member it is for as cluster and core, the link it
came by, and the turn of its arrival. -/
structure HeldReduce where
  frame : Frame
  cl : Nat
  core : Nat
  link : Option Nat
  turn : Nat
  deriving DecidableEq, Repr

/-- A bucket that the package holds for a tag (R373): the group list of the REDUCE that registered it, the indices of the
members that have registered, and of those that have completed. -/
structure Bucket where
  tag : Nat
  list : List Byte
  joined : List Nat
  done : List Nat
  deriving DecidableEq, Repr

/-- Frames of one exchange that have come from a sender (R390): source package, sending endpoint, destination
cluster and counter, frames so far. -/
structure XchgCount where
  src : Nat
  sender : Nat
  cl : Nat
  core : Nat
  ctr : Nat
  got : Nat
  deriving DecidableEq, Repr

/-- The bytes that have come of a switch piece (R301): source package, base address, bytes. -/
structure PieceCount where
  src : Nat
  base : Nat
  got : Nat
  deriving DecidableEq, Repr

/-- A mirror exchange being received (R390, R523): its copy, sending endpoint and counter, the frame that its latest row came in,
the frames so far, and its header's step number once row 0 has come. -/
structure MirrorCount where
  copy : Nat
  sender : Nat
  last : Frame
  got : Nat
  step : Option (List Byte)
  deriving DecidableEq, Repr

/-- The links by number, the last link each source rotated to by flight (R367), the frames held for buckets and the
buckets, the exchanges and pieces being received, the destinations whose "no route" has been posted in this control loop (R368),
the mirror exchanges being received, the endpoints whose mirror copies the partner has not acknowledged, the requests for images
in channels that retrain (R257), and the token choices dropped by cluster (XCHG_DROPPED, R387). -/
structure NetState where
  links : List (Nat × LinkState) := []
  held : List HeldReduce := []
  buckets : List Bucket := []
  xchg : List XchgCount := []
  pieces : List PieceCount := []
  noRoute : List Nat := []
  mirror : List MirrorCount := []
  unacked : List Nat := []
  asks : List Frame := []
  dropped : List (Nat × Nat) := []
  deriving DecidableEq, Repr

/-! ### Storage -/

/-- A registered storage target: its 64-byte connection record, the fraction of the line rate it may use in units of
2⁻¹⁶, the tick of its latest halving, and that of its latest notification or recovery (R363). -/
structure Target where
  record : List Byte
  rate : Nat := 65536
  cut : Option Nat := none
  quiet : Nat := 0
  deriving DecidableEq, Repr

/-- An extent read that is outstanding: its offset in extents within its descriptor, the link it was issued on, and
its failures so far (R288, R289). -/
structure Extent where
  off : Nat
  link : Nat
  fails : Nat := 0
  deriving DecidableEq, Repr

/-- A load descriptor as the engine has read it: remote address and key, target, GDDR7 destination, extents, LINKS
(R287). -/
structure LoadDesc where
  raddr : Nat
  rkey : Nat
  target : Nat
  dst : Nat
  exts : Nat
  links : Nat
  deriving DecidableEq, Repr

/-- A load: its number, list address and length, the index and content of the descriptor in progress, the next extent to
issue, those outstanding, whether the descriptor has failed, the count and first index of failed descriptors, and the
extents issued so far, by which they go round the links (R288, R289). -/
structure Load where
  id : Nat
  list : Nat
  n : Nat
  idx : Nat := 0
  desc : Option LoadDesc := none
  next : Nat := 0
  exts : List Extent := []
  bad : Bool := false
  failed : Nat := 0
  first : Option Nat := none
  rot : Nat := 0
  deriving DecidableEq, Repr

/-- A far transfer in progress (R271, R272, R439). -/
structure FarXfer where
  id : Nat
  put : Bool
  target : Nat
  gaddr : Nat
  raddr : Nat
  rkey : Nat
  exts : Nat
  slot : Option Nat
  serial : Nat
  deriving DecidableEq, Repr

/-- A STORE or FETCH in progress, its bytes moved so far, and the request's tenant slot (R409). -/
structure HostXfer where
  id : Nat
  store : Bool
  gaddr : Nat
  caddr : Nat
  len : Nat
  slot : Option Nat
  done : Nat := 0
  deriving DecidableEq, Repr

/-- The storage engines of the P-die: targets, loads and transfers, and the number the next of them takes. -/
structure StorageState where
  targets : List (Nat × Option Target) := []
  loads : List Load := []
  far : List FarXfer := []
  host : List HostXfer := []
  next : Nat := 0
  deriving DecidableEq, Repr

/-! ### Port -/

/-- A Wailos frame (R400). -/
structure PortFrame where
  type : Nat
  enc : Bool := false
  seq : Nat := 0
  tag : Nat := 0
  addr : Nat := 0
  arg0 : Nat := 0
  arg1 : Nat := 0
  payload : List Byte := []
  deriving DecidableEq, Repr

/-- What a host read is for: commands of a ring, or bytes of a STORE (R402). -/
inductive ReadFor where
  | commands (ring : Nat)
  | store (id : Nat)
  deriving DecidableEq, Repr

/-- A host read request that is outstanding: tag, purpose, address, length, and whether it was issued again. -/
structure HostRead where
  tag : Nat
  why : ReadFor
  addr : Nat
  len : Nat
  again : Bool := false
  deriving DecidableEq, Repr

/-- A mailbox request not answered yet: tag, opcode, and the pages whose commits it waits for (R484). -/
structure Waiting where
  tag : Nat
  op : Nat
  page : Nat
  deriving DecidableEq, Repr

/-- A key-establishment exchange in progress: TAG, quote and encapsulation key (R429). -/
structure Exchange where
  tag : Nat
  quote : List Byte
  ek : List Byte
  deriving DecidableEq, Repr

/-- The Wailos port: frames sent and not acknowledged, oldest first, replays of the oldest, the next SEQ, the first
SEQ lacked and whether a NAK stands, the next TAG, host reads and mailbox
requests outstanding, the port keys and salt with the frame counters of each direction (R430), and the exchange in
progress. -/
structure PortState where
  tx : List PortFrame := []
  tries : Nat := 0
  nextSeq : Nat := 0
  expect : Nat := 0
  nak : Bool := false
  nextTag : Nat := 0
  reads : List HostRead := []
  mbox : List Waiting := []
  down : Nat := 0
  up : Nat := 0
  salt : Nat := 0
  downCtr : Nat := 0
  upCtr : Nat := 0
  exchange : Option Exchange := none
  deriving DecidableEq, Repr

/-! ### Serving -/

/-- A ring beyond its descriptor's SH fields: producer and consumer indices, the request bound to a token ring, its pending
store of up to 8 records and the records whose posters wait for a place there (R312; log entry 115), the records sent to the
mirror, the commands fetched, and 1 + the turn in which a command was last taken from the queue (R313). -/
structure Ring where
  prod : Nat := 0
  cons : Nat := 0
  reqId : Nat := 0xFFFFFFFF
  bound : Bool := false
  pend : List (List Byte) := []
  held : List (List Byte) := []
  sent : Nat := 0
  fetched : Nat := 0
  served : Nat := 0
  deriving DecidableEq, Repr

/-- The states of a live request (R316). -/
inductive ReqState where
  | prefill | ready | decode | parking | parked | restoring
  deriving DecidableEq, Repr

/-- A live request (R316 to R319, R332 to R338): what ADMIT named, its state, the versions pinned, its lists, tokens
produced, its position while it has no lists, record sequence number, consecutive starved steps, its place in the order of becoming ready, a blank change
to mark, the final token posted, the PAUSE or CANCEL that waits as (tag, command queue), the time to live of that PAUSE,
whether "far full" or "park full" has been posted for it, the lists whose last step 0 outside a family found no page
(R151), whether a PAUSE or preemption that is due waits for an ATTN (R154), its parked entry, and the RESUME that waits as
(tag, command queue). -/
structure Request where
  id : Nat
  ring : Nat
  model : Nat
  adapter : Option Nat
  pfx : Option Nat
  fam : Nat
  prompt : Nat
  max : Nat
  stream : Nat
  ttl : Nat
  stops : List Nat
  st : ReqState
  base : Nat
  adp : Nat
  pool : Nat
  list : Nat
  h : Nat
  made : Nat := 0
  pos : Nat := 0
  seq : Nat := 0
  starved : Nat := 0
  order : Nat := 0
  changed : Bool := false
  final : Bool := false
  pause : Option (Nat × Nat) := none
  pauseTtl : Nat := 0
  cancel : Option (Nat × Nat) := none
  fullPosted : Bool := false
  dry : List Nat := []
  due : Bool := false
  entry : Option Nat := none
  resume : Option (Nat × Nat) := none
  deriving DecidableEq, Repr

/-- A family (R320, R321): model, pool, lists per request, first set index, members by request id, the global address
of its member table, the head dimension and expected form of its lists, the base version it serves (0 for none), whether a step is open, and its starved members. -/
structure Family where
  model : Nat
  pool : Nat
  h : Nat
  set0 : Nat
  members : List (Option Nat)
  table : Nat
  d : Nat
  fmt : Nat
  blk : Nat
  base : Nat := 0
  opened : Bool := false
  starved : List Nat := []
  deriving DecidableEq, Repr

/-- A learned prefix (R328, R329): pool, first list, lists, and whether it is retiring. -/
structure Prefix where
  pool : Nat
  list : Nat
  h : Nat
  retiring : Bool := false
  deriving DecidableEq, Repr

/-- A parked-session entry (R331) with its write serial (R439): state 1 parking, 2 parked, 3 restoring;
beside it whether its image is being read back (R333), the order of parking, what the image's header extent holds (R330: head
dimension, expected form, and of each list the own positions), and of each list the frames still held. -/
structure Parked where
  st : Nat
  req : Nat
  ring : Nat
  pool : Nat
  model : Nat
  pfx : Option Nat
  base : Nat
  adapter : Option Nat
  adp : Nat
  first : Nat
  exts : Nat
  expiry : Nat
  preempted : Bool
  evict : Bool
  serial : Nat
  copying : Bool := false
  order : Nat := 0
  d : Nat := 0
  fmt : Nat := 0
  blk : Nat := 0
  counts : List Nat := []
  frames : List (List Nat) := []
  deriving DecidableEq, Repr

/-- The queue manager and the page engine: rings and ring memory, live requests, families, prefixes, the parked table,
the counter
of order, the lists that are freed when no ATTN names them, as (pool, list), and
the rings that stay bound to a request that has ended, as (ring, request id, whether it completed) (R338). -/
structure ServingState where
  rings : List (Nat × Ring) := []
  ringMem : List Host.Cell := []
  reqs : List Request := []
  fams : List (Nat × Option Family) := []
  pfxs : List (Nat × Option Prefix) := []
  parked : List (Nat × Option Parked) := []
  order : Nat := 0
  freeing : List (Nat × Nat) := []
  done : List (Nat × Nat × Bool) := []
  deriving DecidableEq, Repr

/-! ### Power, heat and states -/

/-- The figures of the fixed rails VMEM, VDDQ_G, VLINK, VOPT, VPORT, VH, VAON and V1P8, in 0.1 mV (R552). -/
def fixedNominal : List Nat := [8000, 12000, 8000, 18000, 8000, 8000, 8000, 18000]

/-- A copy of the ageing record in flash: its sequence number, its offsets and the identity key's signature (R423, R496). -/
structure AgeCopy where
  seq : Nat := 0
  offsets : List (Nat × Nat) := []
  sig : List Byte := []
  deriving DecidableEq, Repr

/-- The power and thermal controllers: until which turn VARM of each partition stays raised (0: low), the hints in
force as (partition, end turn, level) (R470); the limits of the cap and of heat on the ceiling, the point held by a
regulator (R418), the duty each controller sets by partition; loop powers, newest first, and how many count for the
window average (R461); loops since the latest step down, step of either kind, thermal step and thermal ease; loops
the package has been cool, disagreed or agreed (R463), stood at the floor (R467); the offsets a[d][k] by 16 · d + k, the
two copies of the signed ageing record (R496) and whether none verified at bring-up, so that a re-plan is due (R458), the points that age withholds by 16 · partition + point (R458), and the offsets
a re-plan will apply with their turn (R456); loops since the latest re-plan; unanswered loops by rail
(R416); sense faults by partition, their correction in steps and the loops in a row over 15 mV (R507); whether the
diode fault has been posted; the code in effect on each partition's rail, sparse about the boot output (R453, R553), the code driven on
the VSTEP_D of each partition whose step is not acknowledged (R417), the rails set by VOUT_COMMAND that no loop has found correct
yet (R418), and the turn for which a faster point is armed, 0 for none (R455); whether VCORE0 to VCORE7 and VOPT are turned off
(R555), and the fixed rails' settings in 0.1 mV, in the order of R552; the dies stretched by droop (R469); the readings of the last
interval (R449) and the sums of the running one; whether the trip of R473 has stopped the clocks; and whether PWR_CAP or PWR_WINDOW
has been written since the latest commit of it (R461). -/
structure PowerState where
  varm : List (Nat × Nat) := []
  hints : List (Nat × Nat × Nat) := []
  capLimit : Nat := 0
  heatLimit : Nat := 0
  regHold : Option Nat := none
  capDuty : Nat := 0x88888888
  heatDuty : Nat := 0x88888888
  hist : List Nat := []
  counted : Nat := 0
  sinceDown : Nat := 256
  sinceStep : Nat := 256
  sinceHeat : Nat := 256
  sinceCool : Nat := 256
  cool : Nat := 0
  disagree : Nat := 0
  agree : Nat := 0
  floor : Nat := 0
  offsets : List (Nat × Nat) := []
  copyA : AgeCopy := {}
  copyB : AgeCopy := {}
  replanDue : Bool := false
  withheld : List Nat := []
  replan : Option (Nat × List (Nat × Nat)) := none
  ageLoops : Nat := 0
  silent : List (Nat × Nat) := []
  lostRails : List Nat := []
  senseFault : List Nat := []
  senseFix : List (Nat × Int) := []
  senseRun : List (Nat × Nat) := []
  diodePosted : Bool := false
  rails : List (Nat × Nat) := []
  steps : List (Nat × Nat) := []
  late : List Nat := []
  raiseTurn : Nat := 0
  supplyOff : Bool := false
  fixed : List Nat := fixedNominal
  stretched : List Nat := []
  intPower : Nat := 0
  intEst : Nat := 0
  intEnergy : Nat := 0
  sumPower : Nat := 0
  sumEst : Nat := 0
  sumLoops : Nat := 0
  tripped : Bool := false
  capWritten : Bool := false
  deriving DecidableEq, Repr

/-- The power state beyond its page: the state being entered, and how often the wake stage in progress has been
attempted (R479). -/
structure WakeState where
  target : Nat := 0
  attempts : Nat := 0
  deriving DecidableEq, Repr

/-! ### Bring-up, catch, pairs, reclaim, board -/

/-- Bring-up and flash: PWRGOOD, RESET_N asserted, the tick at which step 2 began, the PUF as it was read at step 2 (R424), a recovery
in progress as (bytes received, total length), whether bring-up has stopped for good, and the flash bytes that differ from those
shipped; the ageing record's copies stand in the power state (R495). -/
structure BootState where
  pwrgood : Bool := true
  inReset : Bool := false
  began : Nat := 0
  puf : Nat := 0
  recovery : Option (Nat × Nat) := none
  stopped : Bool := false
  flash : List Host.Cell := []
  deriving DecidableEq, Repr

/-- The catch (R510 to R518): whether the package is caught, the dump in progress as (tick of t₀, cause, die, to
flash), the dies that have dumped unbidden (R512), whether the catch region and the reduced area of flash hold a dump
that has not been released, and the shares whose held dump has the full extension. -/
structure CatchState where
  caught : Bool := false
  dump : Option (Nat × Nat × Nat × Bool) := none
  lone : List Nat := []
  regionHeld : Bool := false
  flashHeld : Bool := false
  full : Nat := 0
  deriving DecidableEq, Repr

/-- The reclaim in progress (R526 to R529): HOLD, the turn of acceptance, the dies of the group that stage 1 has still to reach,
whether "reclaim late" has been posted, the turn in which parting completed, and whether a hand-over has been refused. -/
structure ReclaimState where
  hold : Bool := false
  accepted : Nat := 0
  stopping : List Nat := []
  late : Bool := false
  parted : Nat := 0
  busy : Bool := false
  deriving DecidableEq, Repr

/-- The I3C sideband (R414, R415): SB_WAKE, SB_EVENTS, the latched energy word, the address in use, whether an in-band
interrupt stands, whether the pins are at high impedance, and the faults counted. -/
structure SidebandState where
  wake : Bool := false
  events : Nat := 0
  latch : Nat := 0
  addr : Nat := 0x64
  irq : Bool := false
  highZ : Bool := false
  faults : Nat := 0
  deriving DecidableEq, Repr

/-- The instructions of the TAP (R419). -/
inductive TapInstr where
  | idcode | bypass | samplePreload | extest | clamp | highz | extestPulse | extestTrain
  deriving DecidableEq, Repr

/-- The pins and the TAP: the instruction it executes, the data register an instruction selects as shifted out, and
THERMTRIP_N (true: released). -/
structure BoardState where
  tap : TapInstr := .idcode
  tdo : Nat := 0x20640B3D
  thermtripN : Bool := true
  deriving DecidableEq, Repr

/-! ### The whole -/

/-- The state of the package (a queue of commands that wait, first in, first out, and everything the manual gives
the machine). -/
structure State where
  pending : List Instr := []
  freeCount : Nat := 0
  regs : RegState := {}
  time : TimeState := {}
  seq : SeqState := {}
  mem : MemState := {}
  belt : BeltState := {}
  tenant : TenantState := {}
  net : NetState := {}
  storage : StorageState := {}
  port : PortState := {}
  serving : ServingState := {}
  power : PowerState := {}
  wake : WakeState := {}
  boot : BootState := {}
  catching : CatchState := {}
  reclaim : ReclaimState := {}
  sideband : SidebandState := {}
  board : BoardState := {}
  deriving DecidableEq, Repr

/-- The machine right after reset: every register at its field map's reset value, every memory with nothing listed,
nothing in flight, and an empty queue. -/
def State.reset : State := {}

/-- Why a step faults: the model never does (every refused access of the manual is an event and a next state). The
constructor stands for the interface; no meaning raises it. -/
inductive Fault where
  /-- Raised by nothing; safe. -/
  | none
  deriving DecidableEq, Repr

/-- Why a step refuses. -/
inductive Refusal where
  /-- Raised by Dispatch for a command without a meaning yet; safe. -/
  | notModelled (mnemonic : String)
  /-- Raised by DEBUG_INSTRUCTION where it is authorised: R419 gives debug instructions no effect in this manual;
  safe. -/
  | debugAuthorised
  deriving DecidableEq, Repr

end Sys2Proof.Machine
end

