-- ==== Sys2Proof/Machine/Ops.lean ====
section
/-! DEFINITION. The named operations over the state that the meanings share: registers, events, partitions and
slots, near SRAM, GDDR7 and table memory. -/

namespace Sys2Proof.Machine

/-- What a step answers. -/
abbrev Res := Host.Outcome State Fault Refusal

/-- The default of a sparse map of numbers, bytes or lists. -/
def zeroAt (_ : Nat) : Nat := 0
def byteZero (_ : Nat) : Byte := 0
def noneAt {α : Type} (_ : Nat) : Option α := none
def nilAt {α : Type} (_ : Nat) : List α := []

/-- The canonical form of a memory: addresses strictly rising, and no entry equal to zero, which is what an address
without an entry reads as. -/
abbrev Memory.wf (m : List Host.Cell) : Prop := swf byteZero m

/-! ### Registers (R11, R538) -/

/-- The value in effect of a register, by key. -/
def State.reg (s : State) (k : Nat) : Nat := sget resetOf s.regs.live k

/-- The shadow value of a register. -/
def State.shd (s : State) (k : Nat) : Nat := sget resetOf s.regs.shadow k

def setReg (s : State) (k v : Nat) : State :=
  { s with regs.live := sset resetOf s.regs.live k (v % 2 ^ 32) }

def setShd (s : State) (k v : Nat) : State :=
  { s with regs.shadow := sset resetOf s.regs.shadow k (v % 2 ^ 32) }

/-- Both the value in effect and the shadow, where the hardware itself changes an SH field. -/
def setBoth (s : State) (k v : Nat) : State := setShd (setReg s k v) k v

/-- A pair of words, low word at k (R8). -/
def State.reg64 (s : State) (k : Nat) : Nat := s.reg k + 2 ^ 32 * s.reg (k + 4)
def State.shd64 (s : State) (k : Nat) : Nat := s.shd k + 2 ^ 32 * s.shd (k + 4)
def setReg64 (s : State) (k v : Nat) : State := setReg (setReg s k (v % 2 ^ 32)) (k + 4) (v / 2 ^ 32)

/-- A counter that saturates at 2^32 - 1. -/
def incReg (s : State) (k n : Nat) : State := if n = 0 then s else setReg s k (satAdd 32 (s.reg k) n)

/-- A counter of w bits in a pair of words, saturating. -/
def incReg64 (s : State) (k w n : Nat) : State := if n = 0 then s else setReg64 s k (satAdd w (s.reg64 k) n)

/-- One field [hi:lo] of a register in effect. -/
def setField (s : State) (k hi lo v : Nat) : State := setReg s k (setBf (s.reg k) hi lo v)
def setFieldBoth (s : State) (k hi lo v : Nat) : State :=
  setShd (setReg s k (setBf (s.reg k) hi lo v)) k (setBf (s.shd k) hi lo v)

/-- Sets a bit of SUM_ALERT for die d (R536). -/
def setAlert (s : State) (d : Nat) (b : Bool) : State :=
  let k := hPage 2 + Reg.SUM_ALERT_LO + 4 * (d / 32)
  setReg s k (setBit (s.reg k) (d % 32) b)

/-- Sets bit b of a page's EVENT, and the summary bit where it is enabled (R536). -/
def setEvent (s : State) (page b : Nat) : State :=
  let s := setReg s (page + Reg.F_EVENT) (setBit (s.reg (page + Reg.F_EVENT)) b true)
  if bit (s.reg (page + Reg.F_EVENT_EN)) b = 1 then setAlert s (addrDie page) true else s

/-- The pages of die d on which an enabled EVENT bit is set: the summary bit stays while any remains (R536). -/
def alertsLeft (s : State) (d : Nat) : Bool :=
  s.regs.live.any fun e =>
    addrDie e.1 == d && addrOff e.1 == Reg.F_EVENT && keyItem e.1 == 0 &&
      e.2 &&& s.reg (addrPage e.1 + Reg.F_EVENT_EN) != 0

/-- The summary bit of a page's die after EVENT or EVENT_EN changed. -/
def updateAlert (s : State) (page : Nat) : State := setAlert s (addrDie page) (alertsLeft s (addrDie page))

/-- ERR_COUNT advances and EVENT.ERROR is set (R534, R536). -/
def noteError (s : State) (page : Nat) : State := setEvent (incReg s (page + Reg.F_ERR_COUNT) 1) page 4

/-- The data-plane clocks stand still: power is out of range, the device is in reset, or the trip of R473 has stopped
them (R420, R473). -/
def State.stopped (s : State) : Bool := s.power.tripped || !s.boot.pwrgood || s.boot.inReset

/-! ### Time -/

/-- The turn number of the headstock (R37). -/
def State.turn (s : State) : Nat := s.time.now / 1024

/-- Die d's own copy of the turn number (R43). -/
def State.dieTurn (s : State) (d : Nat) : Nat := sget zeroAt s.time.dieTurn d

/-! ### Free values (log entry 3) -/

/-- A fresh free value. -/
def fresh (s : State) : State × Nat :=
  ({ s with freeCount := s.freeCount + 1 }, Config.freeValue s.freeCount)

/-! ### Events (R25, R502 to R504) -/

/-- Queues an event at its die. A record that finds 256 waiting is lost and counted; an error, or a lost record, is
counted in ERR_COUNT of the page concerned (R25, R534; log entry 22). -/
def post (s : State) (page : Nat) (e : Event) : State :=
  let d := addrDie page
  let q := sget nilAt s.belt.queues d
  let full := decide (256 ≤ q.length)
  let s := if causeClass e.cause ≠ 0 ∨ full then noteError s page else s
  if full then { s with belt.lost := sset zeroAt s.belt.lost d (sget zeroAt s.belt.lost d + 1) }
  else { s with belt.queues := sset nilAt s.belt.queues d (q ++ [e]) }

/-! ### Partitions and slots (R26, R27, R437, R548) -/

/-- The partition of a C-die. -/
def partOfC (d : Nat) : Nat := 4 * (d / 8 / 3) + d % 8 / 2

/-- The partition of a cluster. -/
def partOf (cl : Nat) : Nat := partOfC (cl / 9)

/-- The partition of a C-die or M-die; the other dies have none. -/
def partOfDie (d : Nat) : Option Nat :=
  if d < 48 then some (partOfC d) else if d < 56 then some (d - 48) else none

/-- An event of the die that holds the page, with no entry: a C-die or M-die names its partition (R571). -/
def postOf (s : State) (page cause op1 : Nat) : State :=
  post s page { cause := cause, die := addrDie page, time := s.time.now, partition := partOfDie (addrDie page), op1 := op1 }

/-- The lowest partition of a mask, by which an event of the P-die or headstock names a group (R571). -/
def lowPart (m : Nat) : Option Nat := (setBits m 8).head?

/-- PART_OWN in effect. -/
def partOwn (s : State) (p : Nat) : Nat := s.reg (hPage 4 + Reg.PART_OWN + 4 * p)
def partKind (s : State) (p : Nat) : Nat := bf (partOwn s p) 1 0
def partGroup (s : State) (p : Nat) : Nat := bf (partOwn s p) 6 4

/-- Whether partitions p and q lie in one partition group (R548); a partition without an owner is a group of its own
(log entry 23). -/
def sameGroup (s : State) (p q : Nat) : Bool :=
  p == q || (partKind s p != 0 && partKind s q != 0 && partGroup s p == partGroup s q)

/-- The partitions of p's group, ascending. -/
def groupParts (s : State) (p : Nat) : List Nat := (List.range 8).filter fun q => sameGroup s p q

/-- A key-slot register of slot k. -/
def slotKey (off k : Nat) : Nat := keyOf (hPage 8 + off) k

/-- SLOT_STATE[1:0]: 0 empty, 1 active, 2 retiring, 3 retired. -/
def slotState (s : State) (k : Nat) : Nat := bf (s.reg (slotKey Reg.SLOT_STATE k)) 1 0

/-- The partitions a slot is assigned to. -/
def slotParts (s : State) (k : Nat) : Nat := bf (s.reg (slotKey Reg.SLOT_CFG k)) 15 8

/-- A slot's current epoch (R247). -/
def slotEpoch (s : State) (k : Nat) : Nat := bf (s.reg (slotKey Reg.SLOT_STATE k)) 13 4

/-- The tenant slot assigned to partition p, none where it holds none (R437). -/
def slotOfPart (s : State) (p : Nat) : Option Nat :=
  (List.range 64).find? fun k => slotState s k != 0 && bit (slotParts s k) p == 1

/-- The acting slot of a cluster's accesses (R248). -/
def actingSlot (s : State) (cl : Nat) : Option Nat := slotOfPart s (partOf cl)

/-- The owner tag that an access of a slot writes and matches: the open tag where there is none (R248, R252). -/
def tagOf (s : State) : Option Nat → Nat
  | none => 0xFFFF
  | some k => k + 64 * slotEpoch s k

/-- A confidential tenant is present (R448). -/
def confPresent (s : State) : Bool := bit (s.reg (hPage 7 + Reg.ATT_STATE)) 5 == 1

/-! ### Who acts -/


/-- The context of an entry of program p of cluster cl at index i, on a core. -/
def entryCtx (s : State) (cl p i core : Nat) : Ctx :=
  { page := clPage 0x12 cl, die := cl / 9, cluster := cl % 9, core := core, partition := some (partOf cl),
    entry := some (i, p), slot := actingSlot s cl }

/-- An event of a context. -/
def Ctx.event (c : Ctx) (s : State) (cause op1 : Nat) : Event :=
  { cause := cause, die := c.die, time := s.time.now, partition := c.partition, cluster := c.cluster, core := c.core,
    slot1 := c.slot, op1 := op1, entry := c.entry }

def postCtx (s : State) (c : Ctx) (cause op1 : Nat) : State := post s c.page (c.event s cause op1)

/-! ### Near SRAM (R247 to R253) -/

/-- The global near-SRAM address of a byte of core k of cluster cl (R62). -/
def nsAddr (cl k byte : Nat) : Nat := byte + 2 ^ 22 * k + 2 ^ 26 * (cl % 9) + 2 ^ 30 * (cl / 9)

/-- The cluster number and core of a global address. -/
def nsCluster (a : Nat) : Nat := bf a 35 30 * 9 + bf a 29 26
def nsCore (a : Nat) : Nat := bf a 25 22

/-- The cleared tag, slot 0 with the void epoch (R250, R251). -/
def tagDefault (_ : Nat) : Nat := 0xFFC0

/-- A line's owner tag, by the address of the line. -/
def nsTag (s : State) (a : Nat) : Nat := sget tagDefault s.mem.tags (a / 256)

/-- What a read of one byte returns to an access of a slot: the stored byte where the tag matches and the slice is not
uncorrectable, else zero (R248, R253). -/
def nsByte (s : State) (slot : Option Nat) (a : Nat) : Byte :=
  if nsTag s a = tagOf s slot ∧ sget zeroAt s.mem.nsErr (a / 32) ≠ 2 then sget byteZero s.mem.ns a else 0

def nsBytes (s : State) (slot : Option Nat) (a n : Nat) : List Byte := (List.range n).map fun i => nsByte s slot (a + i)

/-- The view of a core's lines from line l on. -/
def nsView (s : State) (slot : Option Nat) (cl k l : Nat) : ByteView := fun off => nsByte s slot (nsAddr cl k (256 * l + off))

/-- The addresses of the slices of the lines that an access reads and that hold an error of a kind; the tag matches. -/
def nsBad (s : State) (slot : Option Nat) (kind : Nat) (lines : List Nat) : List Nat :=
  (lines.filter fun a => nsTag s a == tagOf s slot).flatMap fun a =>
    ((List.range 8).map fun j => a + 32 * j).filter fun b => sget zeroAt s.mem.nsErr (b / 32) == kind

/-- The slot fields of NS_ERR_HI. -/
def nsErrHi (a : Nat) (slot : Option Nat) : Nat :=
  a / 2 ^ 32 % 16 + (match slot with | none => 0 | some k => 256 * (k % 64) + 16384)

/-- What the reading of lines (by line address) counts and posts: stale lines, corrected and uncorrectable slices, one
event for the access (R248, R253, R276). -/
def nsNote (s : State) (c : Ctx) (lines : List Nat) : State :=
  match lines with
  | [] => s
  | a0 :: _ =>
    let page := cPage 0x10 (bf a0 35 30)
    let stale := (lines.filter fun a => nsTag s a != tagOf s c.slot).length
    let fixed := (nsBad s c.slot 1 lines).length
    let dead := nsBad s c.slot 2 lines
    let s := incReg (incReg (incReg s (page + Reg.NS_STALE) stale) (page + Reg.NS_CORR) fixed)
      (page + Reg.NS_UNCORR) dead.length
    match dead.getLast? with
    | none => s
    | some a =>
      let s := setReg (setReg s (page + Reg.NS_ERR_LO) a) (page + Reg.NS_ERR_HI) (nsErrHi a c.slot)
      post s c.page { c.event s Cause.nearSramUncorrectable a with count := dead.length }

/-- The line addresses of n lines of a core from line l on. -/
def coreLines (cl k l n : Nat) : List Nat := (List.range n).map fun i => nsAddr cl k (256 * (l + i))

/-- Makes a line the writer's own: where the tag differs, every byte becomes zero with a fresh code (R249). -/
def nsClaim (s : State) (slot : Option Nat) (a : Nat) : State :=
  let base := a / 256 * 256
  if nsTag s base = tagOf s slot then s
  else
    { s with
      mem.ns := s.mem.ns.filter fun e => e.1 / 256 != base / 256
      mem.nsErr := s.mem.nsErr.filter fun e => e.1 / 8 != base / 256
      mem.tags := sset tagDefault s.mem.tags (base / 256) (tagOf s slot) }

/-- The error marks after a write: a slice wholly covered is good, a corrected slice is good, and an uncorrectable
slice partly covered stays so (R253). -/
def nsErrAfter (err : List (Nat × Nat)) (addrs : List Nat) : List (Nat × Nat) :=
  ((addrs.map fun a => a / 32).eraseDups).foldl (fun acc b =>
    if sget zeroAt acc b = 2 ∧ ((addrs.filter fun a => a / 32 == b).eraseDups).length < 32 then acc else sset zeroAt acc b 0) err

/-- The slices that a write covers only in part and finds uncorrectable (R253). -/
def nsPartialBad (s : State) (addrs : List Nat) : List Nat :=
  ((addrs.map fun a => a / 32).eraseDups).filter fun b =>
    sget zeroAt s.mem.nsErr b == 2 && decide (((addrs.filter fun a => a / 32 == b).eraseDups).length < 32)

/-- The slices that a write covers only in part and whose error the merge's read corrects (R253). -/
def nsPartialFixed (s : State) (addrs : List Nat) : List Nat :=
  ((addrs.map fun a => a / 32).eraseDups).filter fun b =>
    sget zeroAt s.mem.nsErr b == 1 && decide (((addrs.filter fun a => a / 32 == b).eraseDups).length < 32)

/-- A write of bytes by global address (R249, R253). -/
def nsWrite (s : State) (c : Ctx) (ws : List (Nat × Byte)) : State :=
  match ws with
  | [] => s
  | w0 :: _ =>
    let addrs := ws.map fun (w : Nat × Byte) => w.1
    let s := ((addrs.map fun a => a / 256 * 256).eraseDups).foldl (fun s a => nsClaim s c.slot a) s
    let bad := nsPartialBad s addrs
    let page := cPage 0x10 (bf w0.1 35 30)
    let s := incReg s (page + Reg.NS_CORR) (nsPartialFixed s addrs).length
    let s := { s with mem.ns := ssetAll byteZero s.mem.ns ws, mem.nsErr := nsErrAfter s.mem.nsErr addrs }
    match bad.getLast? with
    | none => s
    | some b =>
      let s := incReg s (page + Reg.NS_UNCORR) bad.length
      let s := setReg (setReg s (page + Reg.NS_ERR_LO) (32 * b)) (page + Reg.NS_ERR_HI) (nsErrHi (32 * b) c.slot)
      post s c.page { c.event s Cause.nearSramUncorrectable (32 * b) with count := bad.length }

/-- A write of a run of bytes at a global address. -/
def nsWriteRun (s : State) (c : Ctx) (a : Nat) (bs : List Byte) : State :=
  nsWrite s c (bs.zipIdx.map fun ((b, i) : Byte × Nat) => (a + i, b))

/-- A tensor image written at a line of a core: offsets from the line's first byte. -/
def nsWriteImage (s : State) (c : Ctx) (cl k l : Nat) (ws : List ByteWrite) : State :=
  nsWrite s c (ws.map fun ((o, b) : Nat × Byte) => (nsAddr cl k (256 * l + o), b))

/-! ### GDDR7 (R255 to R269) -/

/-- 2 MiB. -/
def mib2 : Nat := 2 ^ 21

/-- The window of an address and the memory page of its M-die (R261). -/
def gWindow (a : Nat) : Nat := a / 2 ^ 36
def memPage (w : Nat) : Nat := mPage 0x18 w

/-- D of a window and the base of its catch share, in bytes (R262). -/
def gSize (s : State) (w : Nat) : Nat := mib2 * bf (s.reg (memPage w + Reg.MEM_DATA_SIZE)) 14 0
def gCatch (s : State) (w : Nat) : Nat := mib2 * bf (s.reg (memPage w + Reg.MEM_CATCH_BASE)) 14 0

/-- The channels in the address map of a window, ascending (R261). -/
def liveChannels (s : State) (w : Nat) : List Nat := setBits (bf (s.reg (memPage w + Reg.MEM_MODE)) 15 8) 8

/-- The channel of an address. -/
def gChannel (s : State) (a : Nat) : Nat :=
  let l := liveChannels s (gWindow a)
  getNth 0 l ((a % 2 ^ 36) / 256 % l.length)

/-- c: the data offset of an address within its channel (R261). -/
def gDataOffset (s : State) (a : Nat) : Nat :=
  (a % 2 ^ 36) / 256 / (liveChannels s (gWindow a)).length * 256 + a % 256

/-- The code block of a data offset, and the device byte address of its data: 3,840 bytes of data to a block of 4,096 (R260,
R261). -/
def codeBlock (c : Nat) : Nat := c / 3840
def codeData (c : Nat) : Nat := 4096 * codeBlock c + c % 3840

/-- The device byte address of the check word of a data offset's granule (R260, R261). -/
def codeCheck (c : Nat) : Nat := 4096 * codeBlock c + 3840 + 2 * (c % 3840 / 32)

/-- Where a GDDR7 address lies on its channel's device: its data byte, and its granule's check word (R261). -/
def gDevAddr (s : State) (a : Nat) : Nat := codeData (gDataOffset s a)
def gCheckAddr (s : State) (a : Nat) : Nat := codeCheck (gDataOffset s a)

/-- MEM_CH_STATE of channel k: 0 active, 1 fenced, 2 failed, 3 retraining. -/
def chState (s : State) (w k : Nat) : Nat := bf (s.reg (memPage w + Reg.MEM_CH_STATE)) (2 * k + 1) (2 * k)

/-- A span touches a channel that retrains, whose queue is held (R257). The first lines of a span, one for each live channel,
touch every channel that it touches. -/
def gHeld (s : State) (a n : Nat) : Bool :=
  n != 0 && (List.range (min (liveChannels s (gWindow a)).length ((a + n - 1) / 256 + 1 - a / 256))).any fun i =>
    chState s (gWindow a) (gChannel s (a + 256 * i)) == 3

/-- REGION entry r of M-die w: base and size in 2 MiB units, ENABLE and SLOT (R266). -/
structure Region where
  base : Nat
  size : Nat
  enable : Bool
  slot : Nat
  deriving DecidableEq, Repr

def regionOf (w0 w1 : Nat) : Region :=
  { base := bf w0 14 0, size := bf w1 14 0 + 1, enable := bit w0 15 == 1, slot := bf w0 21 16 }

def regions (s : State) (w : Nat) : List Region :=
  (List.range 16).map fun r =>
    regionOf (s.reg (memPage w + Reg.REGION + 8 * r)) (s.reg (memPage w + Reg.REGION + 8 * r + 4))

/-- The enabled region that holds an address. -/
def regionAt (s : State) (a : Nat) : Option Region :=
  let u := a % 2 ^ 36 / mib2
  (regions s (gWindow a)).find? fun r => r.enable && decide (r.base ≤ u) && decide (u < r.base + r.size)

/-- The enabled regions that a span touches. -/
def regionsOver (s : State) (a n : Nat) : List Region :=
  (regions s (gWindow a)).filter fun r =>
    r.enable && decide (mib2 * r.base < a % 2 ^ 36 + n) && decide (a % 2 ^ 36 < mib2 * (r.base + r.size))

/-- The loading under whose key an address is written and read: 0 outside every region (R264). -/
def gKeyNow (s : State) (a : Nat) : Nat :=
  match regionAt s a with
  | none => 0
  | some r => (sget (fun _ => ({} : SlotKeys)) s.tenant.keys r.slot).load

/-- The ranges of M-die w queued and not yet sanded: the parting list first (R268). -/
def sandRanges (s : State) (w : Nat) : List SandRange := sget nilAt s.mem.partList w ++ sget nilAt s.mem.sand w

/-- A span touches a range queued for sanding (R269). -/
def sanding (s : State) (a n : Nat) : Bool :=
  (sandRanges s (gWindow a)).any fun r =>
    decide (mib2 * r.base < a % 2 ^ 36 + n) && decide (a % 2 ^ 36 < mib2 * (r.base + r.size))

/-- A granule whose read, or write, has failed its data CRC five times (R257). -/
def crcLost (s : State) (g : Nat) (write : Bool) : Bool := s.mem.crc.any fun e => e.1 == g && e.2 == write

/-- What a read of one byte delivers (R257 to R259, R264, R269). -/
def gByte (s : State) (a : Nat) : Byte :=
  if sanding s a 1 || crcLost s (a / 32) false then 0
  else if chState s (gWindow a) (gChannel s a) = 2 ∨ sget zeroAt s.mem.gErr (a / 32) = 2 then 0
  else
    let stored := sget zeroAt s.mem.gKey (a / 32)
    let now := gKeyNow s a
    if stored = now then sget byteZero s.mem.gddr a
    else
      let block := a / 16 * 16
      Config.crossKey stored now (a / 32) (a % 32 / 16) ((List.range 16).map fun i => sget byteZero s.mem.gddr (block + i)) (a % 16)

def gBytes (s : State) (a n : Nat) : List Byte := (List.range n).map fun i => gByte s (a + i)

/-- The granules of a span, by granule address. -/
def granules (a n : Nat) : List Nat := if n = 0 then [] else (List.range ((a + n - 1) / 32 + 1 - a / 32)).map fun i => a / 32 + i

/-- The slot named second in a memory event: the region's, where there is one (R275). -/
def gRegionSlot (s : State) (a : Nat) : Option Nat := (regionAt s a).map (·.slot)

/-- Whom an event of a GDDR7 access names: the entry that caused the access, else the M-die that detects it (R571). -/
def atMemory (c : Ctx) (a : Nat) : Ctx :=
  match c.entry with
  | some _ => c
  | none => { page := memPage (gWindow a), die := 48 + gWindow a, partition := some (gWindow a), slot := c.slot }

/-- What the reading of a span counts and posts (R258, R259, R276). A corrected granule is written back. -/
def gNote (s : State) (c : Ctx) (a n : Nat) : State :=
  let w := gWindow a
  let page := memPage w
  let gs := (granules a n).filter fun g => !sanding s (32 * g) 1
  let dead := gs.filter fun g => sget zeroAt s.mem.gErr g == 2 || chState s w (gChannel s (32 * g)) == 2
  let fixed := gs.filter fun g => sget zeroAt s.mem.gErr g == 1 && chState s w (gChannel s (32 * g)) != 2
  let lost := (gs.filter fun g => crcLost s g false && !dead.contains g).length
  let s := incReg (incReg s (page + Reg.MEM_CORR) fixed.length) (page + Reg.MEM_UNCORR) (dead.length + lost)
  let s := { s with
    mem.gErr := fixed.foldl (fun m g => sset zeroAt m g 0) s.mem.gErr
    mem.crc := s.mem.crc.filter fun e => e.2 || !gs.contains e.1 }
  match dead with
  | [] => s
  | g :: _ =>
    post s (atMemory c a).page
      { (atMemory c a).event s Cause.gddr7Uncorrectable (32 * g) with slot1 := gRegionSlot s (32 * g), count := dead.length }

/-- The bytes of the granules that a span covers in part, as read, so that the merge of R259 stores them anew. -/
def gMerge (s : State) (a n : Nat) : List (Nat × Byte) :=
  ((granules a n).filter fun g => decide (32 * g < a) || decide (a + n < 32 * g + 32)).flatMap fun g =>
    (List.range 32).map fun i => (32 * g + i, gByte s (32 * g + i))

/-- Why an access of an acting slot to a span of one window is refused, in the order of the checks (R28, R263, R265,
R267, R269): the cause and the slot named second. parts is the issuing group. -/
def gRefuse (s : State) (slot : Option Nat) (parts : List Nat) (a n : Nat) (write : Bool) : Option (Nat × Option Nat) :=
  let w := gWindow a
  let o := a % 2 ^ 36
  if !parts.contains w then some (Cause.outsidePartition, none)
  else if gSize s w < o + n then some (Cause.outsideMemory, none)
  else if gCatch s w < o + n then some (Cause.catchRegion, none)
  else
    match (regionsOver s a n).find? fun r => some r.slot != slot || slotState s r.slot == 2 || slotState s r.slot == 3 with
    | some r => some (Cause.tenantMismatch, some r.slot)
    | none => if write && sanding s a n then some (Cause.sanding, none) else none

/-- Slot k is being parted: what names it is refused (R442 step 1). -/
def slotParting (s : State) (k : Nat) : Bool := slotState s k == 2 || slotState s k == 3

/-- Count 0 of a parting: what was refused since it began (R447). -/
def countRefused (s : State) (k : Nat) : State := if slotParting s k then incReg s (slotKey Reg.PART_CNT k) 1 else s

/-- A refusal posted; the refusals of R263, R265 and R269 count in MEM_REFUSED of the M-die (R277). -/
def postRefusal (s : State) (c : Ctx) (a : Nat) (r : Nat × Option Nat) : State :=
  let s := if r.1 = Cause.outsidePartition then s else incReg s (memPage (gWindow a) + Reg.MEM_REFUSED) 1
  let s := match r.2 with | none => s | some k => countRefused s k
  let c := if r.1 = Cause.outsidePartition then c else atMemory c a
  post s c.page { c.event s r.1 a with slot2 := r.2 }

/-- Stores a run of bytes: whole granules with a fresh check word, partial ones merged; writes to a failed channel, and
those that failed their CRC, are dropped and counted (R257 to R259, R264). -/
def gStore (s : State) (c : Ctx) (a : Nat) (bs : List Byte) : State :=
  let n := bs.length
  let w := gWindow a
  let page := memPage w
  let gs := granules a n
  let alive := gs.filter fun g => chState s w (gChannel s (32 * g)) != 2 && !crcLost s g true
  let part := fun (g : Nat) => decide (32 * g < a) || decide (a + n < 32 * g + 32)
  let bad := alive.filter fun g => part g && sget zeroAt s.mem.gErr g == 2
  let fixed := alive.filter fun g => part g && sget zeroAt s.mem.gErr g == 1
  let ws := (gMerge s a n ++ (bs.zipIdx.map fun ((b, i) : Byte × Nat) => (a + i, b))).filter fun (e : Nat × Byte) =>
    alive.contains (e.1 / 32)
  let keys := alive.map fun g => (g, gKeyNow s (32 * g))
  let s :=
    { s with
      mem.gddr := ssetAll byteZero s.mem.gddr ws
      mem.gKey := ssetAll zeroAt s.mem.gKey keys
      mem.gErr := alive.foldl (fun m g => sset zeroAt m g (if part g && sget zeroAt m g == 2 then 2 else 0)) s.mem.gErr
      mem.crc := s.mem.crc.filter fun e => !e.2 || !gs.contains e.1 }
  let s := incReg (incReg s (page + Reg.MEM_CORR) fixed.length) (page + Reg.MEM_UNCORR) (gs.length - alive.length + bad.length)
  match bad with
  | [] => s
  | g :: _ =>
    post s (atMemory c a).page
      { (atMemory c a).event s Cause.gddr7Uncorrectable (32 * g) with slot1 := gRegionSlot s (32 * g), count := bad.length }

/-- A write that reaches its M-die: refused where it touches a range queued for sanding, else stored (R269). -/
def gWrite (s : State) (c : Ctx) (a : Nat) (bs : List Byte) : State :=
  if sanding s a bs.length then postRefusal s c a (Cause.sanding, none) else gStore s c a bs

/-- Every granule of a line is written: its channel has not failed and its write has passed its CRC (R257, R258). -/
def lineTaken (s : State) (line : Nat) : Bool :=
  (granules line 256).all fun g => chState s (gWindow line) (gChannel s (32 * g)) != 2 && !crcLost s g true

/-- A commit write: a delivery that covers the commit slot line of its window, and writes it, copies the step number (R199). -/
def commitWrite (s : State) (a : Nat) (bs : List Byte) : State :=
  let page := memPage (gWindow a)
  let r := s.reg (page + Reg.MEM_CSLOT)
  let line := 2 ^ 36 * gWindow a + 256 * bf r 27 0
  if bit r 31 = 1 ∧ a ≤ line ∧ line + 256 ≤ a + bs.length then
    setReg64 s (page + Reg.MEM_CSTEP_LO) (leNat ((bs.drop (line - a + 0x28)).take 8))
  else s

/-- The commit slot line that a delivery covers is written whole. -/
def commitTaken (s : State) (a : Nat) (bs : List Byte) : Bool :=
  let line := 2 ^ 36 * gWindow a + 256 * bf (s.reg (memPage (gWindow a) + Reg.MEM_CSLOT)) 27 0
  decide (a ≤ line) && decide (line + 256 ≤ a + bs.length) && lineTaken s line

/-- A write that its M-die performs: a MOVE's commits the step where it writes the commit slot line (R199). -/
def gLand (s : State) (c : Ctx) (a : Nat) (bs : List Byte) : State :=
  if c.entry.isSome && !sanding s a bs.length && commitTaken s a bs then commitWrite (gWrite s c a bs) a bs else gWrite s c a bs

/-- A write that its M-die accepts: held where a channel that it goes to retrains, else performed at once (R257). -/
def gAccept (s : State) (c : Ctx) (a : Nat) (bs : List Byte) : State :=
  if gHeld s a bs.length then { s with mem.waiting := s.mem.waiting ++ [{ ctx := c, addr := a, bytes := bs }] } else gWrite s c a bs

/-- An accepted write of a slot is performed, counted for the completion of the slot's parting where one runs (R447). -/
def landHeld (s : State) (x : HeldWrite) : State :=
  let s := match x.ctx.slot with
    | some k => if slotParting s k then incReg s (slotKey (Reg.PART_CNT + 12) k) 1 else s
    | none => s
  gLand s x.ctx x.addr x.bytes

/-- The accepted writes that no channel holds any longer are performed, in the order of their acceptance (R257). -/
def landWrites (s : State) : State :=
  let s' := { s with mem.waiting := s.mem.waiting.filter fun x => gHeld s x.addr x.bytes.length }
  (s.mem.waiting.filter fun x => !gHeld s x.addr x.bytes.length).foldl landHeld s'

/-! ### Table memory (R48, R62) -/

/-- The key of byte b of cluster cl's table memory. -/
def tblKey (cl b : Nat) : Nat := 65536 * cl + b

/-- Entry i of cluster cl, as its 256 bits. -/
def entryAt (s : State) (cl i : Nat) : Nat := leNat ((List.range 32).map fun b => sget byteZero s.mem.table (tblKey cl (32 * i + b)))

/-- The error mark of an entry (R505). -/
def entryErr (s : State) (cl i : Nat) : Nat := sget zeroAt s.mem.tableErr (2048 * cl + i)

/-- Writes bytes into table memory from byte b on; the entries written have good codes (R505). -/
def tblWrite (s : State) (cl b : Nat) (bs : List Byte) : State :=
  { s with
    mem.table := ssetAll byteZero s.mem.table (bs.zipIdx.map fun ((x, i) : Byte × Nat) => (tblKey cl (b + i), x))
    mem.tableErr := (List.range (ceilDiv bs.length 32)).foldl (fun m j => sset zeroAt m (2048 * cl + b / 32 + j) 0) s.mem.tableErr }

/-- The table address of entry i of cluster cl (R62), by which a rejected entry is named (R10). -/
def tblAddr (cl i : Nat) : Nat := 32 * i + 2 ^ 16 * (cl % 9) + 2 ^ 20 * (cl / 9)

end Sys2Proof.Machine
end

