-- ==== Sys2Proof/Machine/Sequencer.lean ====
section
/-! DEFINITION. The sequencer's shared operations: programs, halting, readiness and issue, tokens, flags, entries in
flight and their completion, numeric conditions and records (R47 to R71, R96 to R100). -/

namespace Sys2Proof.Machine

/-! ### Programs -/

def progKey (cl p : Nat) : Nat := 8 * cl + p
def progDefault (_ : Nat) : Prog := {}
def State.prog (s : State) (cl p : Nat) : Prog := sget progDefault s.seq.progs (progKey cl p)
def setProg (s : State) (cl p : Nat) (v : Prog) : State :=
  { s with seq.progs := sset progDefault s.seq.progs (progKey cl p) v }

/-- A register of cluster cl's sequencer page. -/
def seqReg (cl off : Nat) : Nat := clPage 0x12 cl + off

/-- PROGn in effect, its ENABLE, START and base priority (R50). -/
def progReg (cl p : Nat) : Nat := seqReg cl (Reg.PROG + 4 * p)
def progEnabled (s : State) (cl p : Nat) : Bool := bit (s.reg (progReg cl p)) 31 == 1

/-- PROG_STATE of program p. -/
def progState (s : State) (cl p : Nat) : Nat := bf (s.reg (seqReg cl Reg.PROG_STATE)) (4 * p + 3) (4 * p)
def setProgState (s : State) (cl p v : Nat) : State := setField s (seqReg cl Reg.PROG_STATE) (4 * p + 3) (4 * p) v

/-- The index of a program's next entry. -/
def progPC (s : State) (cl p : Nat) : Nat := s.reg (seqReg cl (Reg.PC + 4 * p))
def setPC (s : State) (cl p v : Nat) : State := setReg s (seqReg cl (Reg.PC + 4 * p)) v

/-- A program stops: ENABLE clears in effect and in the shadow, PROG_STATE keeps the state, the wait is abandoned, the
base turn is discarded and the effective priority returns to base (R50, R54, R57, R67). -/
def stopProg (s : State) (cl p code : Nat) : State :=
  let s := setFieldBoth s (progReg cl p) 31 31 0
  let s := setProgState s cl p code
  let s := setField s (seqReg cl Reg.HALT) p p 0
  setProg s cl p { s.prog cl p with wait := .none, base := none, age := 0, prio := (s.prog cl p).low }

/-- An enabled program halts (R57). -/
def haltProg (s : State) (cl p code : Nat) : State := if progEnabled s cl p then stopProg s cl p code else s

/-- Halts the programs of a mask (R57). -/
def haltMask (s : State) (cl m code : Nat) : State := (setBits m 8).foldl (fun s p => haltProg s cl p code) s

/-- A program starts at START with the base turn of the boundary that enabled it; the base priority holds until its next enabling
(R50, R67). -/
def startProg (s : State) (cl p turn : Nat) : State :=
  let r := s.reg (progReg cl p)
  let s := setPC s cl p (bf r 10 0)
  let s := setProgState s cl p 1
  setProg s cl p { s.prog cl p with wait := .none, base := some turn, age := 0, prio := bf r 13 11, low := bf r 13 11 }

/-- A program can issue: enabled, not waiting, and not ended or halted. -/
def runnable (s : State) (cl p : Nat) : Bool :=
  !s.stopped && decide (cl < 432) && decide (p < 8) && progEnabled s cl p && (s.prog cl p).wait == .none

/-- The lowest core of an entry's mask: the core an event of the whole entry names (log entry 111). -/
def lowCore (e : Nat) : Nat := (setBits (Ent.cores e) 16).headD 0

/-! ### Flights -/

/-- The entry still stands in its program's count of entries not completed (R52). -/
def inFlight (s : State) (cl p : Nat) : List Flight := s.seq.flights.filter fun f => f.cl == cl && f.prog == p

/-- DEP: the entry issued d entries earlier has completed, or fewer than d were issued (R59). -/
def depOk (s : State) (cl p e : Nat) : Bool :=
  let d := Ent.dep e
  let n := (s.prog cl p).issued
  d == 0 || decide (n < d) || (inFlight s cl p).all fun f => f.seq != n - d

/-- FENCE: every entry issued earlier by the program has completed (R59). -/
def fenceOk (s : State) (cl p e : Nat) : Bool := !Ent.fence e || (inFlight s cl p).isEmpty

/-- Room in the queue of a unit of every core of a mask: 4 entries, the one executing counted (R51). The transfer
queue is the cluster's. -/
def unitRoom (s : State) (cl cores : Nat) (u : UnitId) : Bool :=
  let fs := s.seq.flights.filter fun f => f.cl == cl && f.units.contains u
  if u = .transfer then decide (fs.length < 4)
  else (setBits cores 16).all fun k => decide ((fs.filter fun f => bit f.cores k == 1).length < 4)

/-- An entry can issue (R51): DEP and FENCE hold and every unit has room. -/
def readyFor (s : State) (cl p e : Nat) (units : List UnitId) (cores : Nat) : Bool :=
  depOk s cl p e && fenceOk s cl p e && units.all fun u => unitRoom s cl cores u

/-- A flight stands before the others of its units on the cores it shares with them (R52). -/
def flightFirst (s : State) (f : Flight) : Bool :=
  s.seq.flights.all fun g =>
    decide (f.id ≤ g.id) || g.cl != f.cl || (g.units.all fun u => !f.units.contains u) ||
      (!(f.units.contains .transfer) && g.cores &&& f.cores == 0)

/-- An entry that needs its cores' skew units: a PASS with SKEW 1, or a VEC skew conversion (R128, R173, R178). -/
def needsSkew (e : Nat) : Bool := (Ent.type e == 0 && Ent.passSkew e) || (Ent.type e == 2 && Ent.vop e == 0 && Ent.rowlen e != 0)

/-- The array runs this PASS. -/
def Flight.runs (f : Flight) : Bool := match f.work with | .running _ => true | _ => false

/-- A flight holds the skew unit of its cores: it has asked, and none that shares a core with it and asked earlier keeps it. A PASS
holds the unit from its first preload to its last, and so may have released it from when the array runs it (R173, log entry
176). -/
def holdsSkew (s : State) (f : Flight) : Bool :=
  match f.asked with
  | none => false
  | some n => s.seq.flights.all fun g => g.cl != f.cl || g.cores &&& f.cores == 0 || g.runs || g.asked.all fun m => decide (n ≤ m)

/-- The flight of a number, where it is of a type and can complete. -/
def flightOf (s : State) (id : Nat) (mine : Nat → Bool) : Option Flight :=
  (s.seq.flights.find? fun f => f.id == id).filter fun f =>
    !s.stopped && mine f.entry && flightFirst s f && (!needsSkew f.entry || holdsSkew s f)

/-- The entry leaves its units (R52). -/
def removeFlight (s : State) (id : Nat) : State := { s with seq.flights := s.seq.flights.filter fun f => f.id != id }

/-- A flight's work replaced. -/
def setWork (s : State) (id : Nat) (w : Work) : State :=
  { s with seq.flights := s.seq.flights.map fun f => if f.id = id then { f with work := w } else f }

def flightCtx (s : State) (f : Flight) (core : Nat) : Ctx := entryCtx s f.cl f.prog f.idx core

/-! ### Issue (R49 to R57) -/

/-- A program halts on an entry that is rejected (R10, R57, R129): the event names the cause and the entry, and its
first operand is the entry's table address (log entry 24). -/
def rejectEntry (s : State) (cl p i cause core : Nat) : State :=
  stopProg (postCtx s (entryCtx s cl p i core) cause (tblAddr cl i)) cl p 7

/-- An event of a refused entry that goes on (R28). -/
def refuseEntry (s : State) (cl p i cause op1 : Nat) : State := postCtx s (entryCtx s cl p i 0) cause op1

/-- The issue of an entry: ISSUED and the program's count advance, ageing restarts (R54), and the program goes to
entry next, or halts at the end of the table (R56). -/
def noteIssue (s : State) (cl p i : Nat) (next : Option Nat) : State :=
  let s := setReg64 s (seqReg cl Reg.ISSUED_LO) ((s.reg64 (seqReg cl Reg.ISSUED_LO) + 1) % 2 ^ 64)
  let s := setProg s cl p { s.prog cl p with issued := (s.prog cl p).issued + 1, age := 0 }
  let s := setProgState s cl p 1
  match next with
  | some n => setPC s cl p n
  | none =>
    if i = 2047 then
      stopProg (postCtx (setPC s cl p 2047) (entryCtx s cl p i 0) Cause.ranOffTable (tblAddr cl i)) cl p 9
    else setPC s cl p (i + 1)

/-- The jumps that an entry's units perform (R231, R232): one for each core and each stream of an entry that draws, and
one for each row of a SAMPLE that draws; a WA48 destination, the cache rule and log-probabilities draw nothing (R213, R234; log entry
28). -/
def jumpsOf (e : Nat) : Nat :=
  let n := (setBits (Ent.cores e) 16).length
  match Ent.type e with
  | 0 => if Ent.grad e && Ent.fmtD e != 0xA then n else 0
  | 2 =>
    if Ent.vop e = 0x10 then 2 * n
    else if Ent.vop e = 0x11 ∨ Ent.vop e = 0x13 ∨ Ent.vop e = 0x14 ∨ Ent.vop e = 0x15 ∨ (Ent.grad e && Ent.vop e != 0xD && Ent.vop e != 0x12) then n
    else 0
  | 5 => if Ent.grad e && !Ent.rdFsync e && Ent.fmtD e != 0xA then n else 0
  | 8 => if Ent.smTemp e = 0 then 0 else Ent.smRows e
  | _ => 0

/-- Issues an entry to its units, in flight with the work that starts it. -/
def issueFlight (s : State) (cl p i e : Nat) (units : List UnitId) (cores : Nat) (w : Work) : State :=
  let f : Flight :=
    { id := s.seq.nextId, cl := cl, prog := p, seq := (s.prog cl p).issued, idx := i, entry := e,
      seed := s.reg64 (seqReg cl Reg.SEED_LO), units := units, cores := cores, work := w }
  let s := incReg s (clPage 0x16 cl + Reg.RS_JUMPS) (jumpsOf e)
  noteIssue { s with seq.flights := s.seq.flights ++ [f], seq.nextId := s.seq.nextId + 1 } cl p i none

/-- An entry that addresses units and completes in the step that issues it, having done nothing (R28, R574). -/
def issueNothing (s : State) (cl p i : Nat) : State := noteIssue s cl p i none

/-- The entries under a write: those of a table copy in progress and those of a MOVE to table memory in flight (R49). -/
def entryBusy (s : State) (cl i : Nat) : Bool :=
  (s.seq.copies.any fun c => c.cl == cl && decide (c.dst ≤ i) && decide (i < c.dst + c.count)) ||
    s.seq.flights.any fun f =>
      Ent.type f.entry == 3 && Ent.mvDsp f.entry == 2 && bf (Ent.mvDst f.entry) 25 20 * 9 + bf (Ent.mvDst f.entry) 19 16 == cl &&
        decide (bf (Ent.mvDst f.entry) 15 0 / 32 ≤ i) &&
        decide (i < bf (Ent.mvDst f.entry) 15 0 / 32 + ceilDiv (Ent.mvLen f.entry) 32)

/-- The next entry of program p of cluster cl is met: nothing happens while it is under a write (R49); an
uncorrectable entry halts the program (R505), and so does a reserved encoding (R10, R57); an entry of another row of
the table is left for that row. -/
def withEntry (s : State) (cl p : Nat) (mine : Nat → Bool) (k : Nat → Nat → State) : State :=
  if !runnable s cl p then s
  else
    let i := progPC s cl p
    if entryBusy s cl i then s
    else if entryErr s cl i = 2 then rejectEntry s cl p i Cause.tableUncorrectable 0
    else
      let e := entryAt s cl i
      if Ent.noRow e then rejectEntry s cl p i Cause.reservedEncoding 0
      else if !mine e then s
      else if Ent.layoutBad e then rejectEntry s cl p i Cause.reservedEncoding 0
      else k i e

/-- A GATE waits for every REDUCE and GATHER issued earlier by its program (R70). -/
def gateReady (s : State) (cl p : Nat) : Bool :=
  (inFlight s cl p).all fun f => Ent.type f.entry != 5 && Ent.type f.entry != 6

/-- The unit that a step of ATTN queues on (R139). -/
def attnUnit (e : Nat) : UnitId :=
  match Ent.atStep e with
  | 0 => .mvPath
  | 1 => .vector
  | _ => if Ent.atPath e = 1 then .mvPath else .array

/-- The units that an entry addresses (R51). -/
def entryUnits (e : Nat) : List UnitId :=
  match Ent.type e with
  | 0 => [.array]
  | 1 => [.mvPath]
  | 2 => [.vector]
  | 3 => [.transfer]
  | 4 => [.exchange]
  | 5 => [.reduction]
  | 6 => [.gather]
  | 7 => [attnUnit e]
  | 8 => [.sampler]
  | _ => []

/-- The cores in whose queues an entry takes its place; the sampler, which a SAMPLE queues on, is one for the cluster. -/
def entryCores (e : Nat) : Nat := if Ent.type e = 8 then 1 else Ent.cores e

/-! ### The bucket of a REDUCE (R371, R373) -/

/-- n bytes of a group list from offset o. -/
def glNat (l : List Byte) (o n : Nat) : Nat := leNat ((l.drop o).take n)
/-- The own index of a group list. -/
def glOwn (l : List Byte) : Nat := glNat l 2 2

/-- The list without the issuing member's own index, by which two lists are compared (R373). -/
def glCommon (l : List Byte) : List Byte := l.take 2 ++ [0, 0] ++ l.drop 4

/-- The core of a REDUCE, and its group list as it stands. -/
def redCore (e : Nat) : Nat := lowCore e
def groupList (s : State) (cl e : Nat) : List Byte :=
  let v := nsView s (actingSlot s cl) cl (redCore e) (Ent.rdGlist e)
  let p := min 1024 (viewLE v 0 2)
  (List.range (32 + 32 * p)).map v

/-- A REDUCE registers a bucket of its tag, or joins the one held (R373). -/
def canJoin (s : State) (tag : Nat) (l : List Byte) : Bool :=
  match s.net.buckets.find? fun b => b.tag == tag with
  | none => true
  | some b => glCommon b.list == glCommon l && !b.joined.contains (glOwn l)

/-- A REDUCE that must wait for the bucket held of its tag to complete, which counts as blocked (R373). -/
def bucketHeld (s : State) (cl e : Nat) : Bool := Ent.type e == 5 && !canJoin s (Ent.rdBtag e) (groupList s cl e)

/-- A program's next entry is held by DEP, FENCE, a GATE's condition, queue room or an earlier bucket of its tag (R51, R57, R70,
R373). -/
def entryHeld (s : State) (cl p : Nat) : Bool :=
  let e := entryAt s cl (progPC s cl p)
  !readyFor s cl p e (entryUnits e) (entryCores e) || (Ent.type e == 0x0B && !gateReady s cl p) || bucketHeld s cl e

/-- PROG_STATE of program p as it reads: of an enabled program that no wait holds, 4 while its next entry is held, else 1 (R57). -/
def progShown (s : State) (cl p : Nat) : Nat :=
  if progEnabled s cl p && (s.prog cl p).wait == .none then (if entryHeld s cl p then 4 else 1) else progState s cl p

/-- The word that PROG_STATE reads as. -/
def progStates (s : State) (cl : Nat) : Nat := (List.range 8).foldl (fun v p => v + progShown s cl p * 2 ^ (4 * p)) 0

/-- A program whose entry is not ready is blocked (R51). -/
def blockProg (s : State) (cl p : Nat) : State := setProgState s cl p 4

/-! ### Tokens and waits (R66 to R68) -/

/-- TOKEN counter c of a cluster. -/
def tokenKey (cl c : Nat) : Nat := seqReg cl (Reg.TOKEN + 4 * (c / 2))
def State.token (s : State) (cl c : Nat) : Nat := bf (s.reg (tokenKey cl c)) (16 * (c % 2) + 15) (16 * (c % 2))
def setToken (s : State) (cl c v : Nat) : State := setField s (tokenKey cl c) (16 * (c % 2) + 15) (16 * (c % 2)) v

/-- A program's wait ends and it goes on; its effective priority stays at base (R54). -/
def endWait (s : State) (cl p : Nat) : State :=
  setProgState (setProg s cl p { s.prog cl p with wait := .none }) cl p 1

/-- A wait whose timeout's boundary has not come (R68). -/
def waitOpen (s : State) (cl : Nat) (limit : Option Nat) : Bool :=
  match limit with
  | none => true
  | some t => decide (s.dieTurn (cl / 9) < t)

/-- A wait subtracts its target as it completes, and a counter below 65,535 can overflow anew (R68). -/
def takeTokens (s : State) (cl c target : Nat) : State :=
  let s := setToken s cl c (s.token cl c - target)
  { s with seq.tokenOver := sset (fun _ => false) s.seq.tokenOver (32 * cl + c) false }

/-- The waits on a counter complete while it holds their targets, lower slots first (R68; log entry 25). -/
def serveWaits (s : State) (cl c : Nat) : State :=
  (List.range 8).foldl (fun s p =>
    match (s.prog cl p).wait with
    | .token c' target limit =>
      if c' = c ∧ target ≤ s.token cl c ∧ waitOpen s cl limit then endWait (takeTokens s cl c target) cl p else s
    | _ => s) s

/-- A token posted to a counter of a cluster: it saturates at 65,535, and the first increment that meets it there
posts "token overflow" (R68). -/
def postToken (s : State) (cl c : Nat) : State :=
  let v := s.token cl c
  if v = 65535 then
    if sget (fun _ => false) s.seq.tokenOver (32 * cl + c) then s
    else
      postOf { s with seq.tokenOver := sset (fun _ => false) s.seq.tokenOver (32 * cl + c) true }
        (clPage 0x12 cl) Cause.tokenOverflow c
  else serveWaits (setToken s cl c (v + 1)) cl c

/-! ### Flags (R69 to R71) -/

/-- Live flag f in FLAGS[3:0], synced flag f in FLAGS[7:4]. -/
def liveFlag (s : State) (cl f : Nat) : Bool := bit (s.reg (seqReg cl Reg.FLAGS)) f == 1
def syncFlag (s : State) (cl f : Nat) : Bool := bit (s.reg (seqReg cl Reg.FLAGS)) (4 + f) == 1
def setLiveFlag (s : State) (cl f : Nat) (b : Bool) : State :=
  setReg s (seqReg cl Reg.FLAGS) (setBit (s.reg (seqReg cl Reg.FLAGS)) f b)
def setSyncFlag (s : State) (cl f : Nat) (b : Bool) : State :=
  setReg s (seqReg cl Reg.FLAGS) (setBit (s.reg (seqReg cl Reg.FLAGS)) (4 + f) b)

/-! ### Numeric conditions and records (R96 to R100) -/

/-- The sticky bits that a core's conditions set: NUM_STICKY, NUM_CORES, and ALERT where NUM_EVT_SEL selects a bit
first set (R97). -/
def noteSticky (s : State) (cl core sticky : Nat) : State :=
  if sticky = 0 then s
  else
    let page := clPage 0x13 cl
    let old := s.reg (page + Reg.NUM_STICKY)
    let s := setReg s (page + Reg.NUM_STICKY) (old ||| sticky)
    let s := setReg s (page + Reg.NUM_CORES) (s.reg (page + Reg.NUM_CORES) ||| 2 ^ core)
    if (sticky &&& s.reg (page + Reg.NUM_EVT_SEL)) &&& (31 - old % 32) = 0 then s else setEvent s page 0

/-- The conditions of an entry on a core: sticky bits, and step-overflow for a gradient conversion (R96, R97). -/
def noteCounts (s : State) (cl core : Nat) (grad : Bool) (c : Counts) : State :=
  let s := noteSticky s cl core c.sticky
  if grad && (c.sat != 0 || c.nan != 0) then setLiveFlag s cl 0 true else s

/-- The global address of numeric record n of a cluster (R61, R98). -/
def recordAddr (s : State) (cl n : Nat) : Nat :=
  let r := s.reg (seqReg cl Reg.REC_BASE)
  nsAddr cl (bf r 17 14) (256 * bf r 13 0 + 64 * n)

/-- A record would extend past line 16,383 (R98). -/
def recordOut (s : State) (cl n : Nat) : Bool :=
  decide (n ≠ 0) && decide (2 ^ 22 < 256 * bf (s.reg (seqReg cl Reg.REC_BASE)) 13 0 + 64 * n + 64)

/-- The counts of an entry added into its record when it completes, as one update (R98, R99); the record lies where
REC_BASE puts it then (log entry 114). -/
def addRecord (s : State) (c : Ctx) (cl n : Nat) (k : Counts) : State :=
  if n = 0 then s
  else
    let a := recordAddr s cl n
    let old := fun (off len : Nat) => leNat (nsBytes s c.slot (a + off) len)
    let cnt := fun (off v : Nat) => leBytes 8 (satAdd 64 (old off 8) v)
    let bytes := cnt 0 k.sat ++ cnt 8 k.flush ++ cnt 16 k.bumps ++ cnt 24 k.stoch ++ cnt 32 k.widened ++ cnt 40 k.nan ++
      leBytes 4 (old 0x30 4 ||| k.sticky) ++ leBytes 4 (satAdd 32 (old 0x34 4) 1) ++ leBytes 8 s.time.now
    nsWriteRun s c a bytes

end Sys2Proof.Machine
end

