-- ==== Sys2Proof/Machine/Points.lean ====
section
/-! DEFINITION. Operating points: the codes of the partition rails, the points that age permits, the ceiling and the
point in effect, and a change of point at a boundary (R453 to R460, R417, R418, R397). -/

namespace Sys2Proof.Machine

def pwrReg (off : Nat) : Nat := hPage 9 + off

/-- The six C-dies of a partition, ascending (R26). -/
def partDies (p : Nat) : List Nat := (List.range 48).filter fun d => partOfC d == p

def ownedParts (s : State) : List Nat := (List.range 8).filter fun p => partKind s p != 0

/-- The offset a[d][k] in steps of 2.5 mV. -/
def offsetKey (d k : Nat) : Nat := 16 * d + k
def offsetOf (s : State) (d k : Nat) : Nat := sget zeroAt s.power.offsets (offsetKey d k)

/-- t[d][k] + a[d][k]. -/
def dieCode (s : State) (d k : Nat) : Nat := Config.testCode d k + offsetOf s d k

/-- Point k is permitted on partition p (R454, R458), also after a sense correction that could not be met (R507). -/
def permitted (s : State) (p k : Nat) : Bool :=
  !s.power.withheld.contains (16 * p + k) &&
  ((partDies p).all fun d => decide (dieCode s d k ≤ Config.maxCode d)) && !(s.power.senseFix.any fun e => e.1 == p && decide (8 < e.2.natAbs) && decide (k < 11))

/-- The code of partition p's rail at point k (R453), corrected for a faulty sense pair (R507). -/
def railCode (s : State) (p k : Nat) : Nat :=
  let c := ((partDies p).map fun d => dieCode s d k).foldl max 0
  let fix := ((s.power.senseFix.find? fun e => e.1 == p).map (·.2)).getD 0
  ((c : Int) + max (-8) (min 8 fix)).toNat

/-- The fastest point that age permits on every owned partition. -/
def ageLimit (s : State) : Nat :=
  ((List.range 12).find? fun k => (ownedParts s).all fun p => permitted s p k).getD 11

/-- The limits that make the ceiling, by cause code of PWR_CEIL (R459, R485). -/
def limits (s : State) : List (Nat × Nat) :=
  [(1, s.power.capLimit), (2, s.power.heatLimit), (3, ageLimit s), (4, s.power.regHold.getD 0)]

/-- The ceiling: the fastest point that every limit permits. A point that age withholds is passed over. -/
def ceiling (s : State) : Nat :=
  let least := ((limits s).map (·.2)).foldl max 0
  ((List.range 12).find? fun k => decide (least ≤ k) && (ownedParts s).all fun p => permitted s p k).getD 11

/-- The cause of the slowest limit: the first of the causes that attains it, none at OP0. -/
def ceilingCause (s : State) : Nat :=
  let c := ((limits s).map (·.2)).foldl max 0
  if c = 0 then 0 else (((limits s).find? fun e => e.2 == c).map (·.1)).getD 0

/-- The slowest of a ceiling and the VALID requests of owned partitions as a reading of OP_REQ gives them (R460). -/
def pointFrom (s : State) (read : Nat → Nat) (c : Nat) : Nat :=
  ((ownedParts s).map fun p =>
    let r := read (pwrReg (Reg.OP_REQ + 4 * p))
    if bit r 31 = 1 then bf r 3 0 else 0).foldl max c

def pointNow (s : State) : Nat := bf (s.reg (pwrReg Reg.PWR_OP)) 3 0
def ready (s : State) : Bool := bf (s.reg (hPage 0x0B + Reg.BOOT_STEP)) 3 0 == 10
def targetPoint (s : State) : Nat := pointFrom s s.reg (bf (s.reg (pwrReg Reg.PWR_CEIL)) 3 0)

/-! ### The rails (R417, R418, R453, R455, R553) -/

/-- The code in effect on partition p's rail: 0.800 V until the headstock sets it (R553). -/
def bootCode (_ : Nat) : Nat := 120
def railNow (s : State) (p : Nat) : Nat := sget bootCode s.power.rails p
def setRail (s : State) (p c : Nat) : State := { s with power.rails := sset bootCode s.power.rails p c }

/-- The code last asked of partition p's rail: the one on VSTEP_D while a step waits for its acknowledgement, else the one in effect. -/
def railAsked (s : State) (p : Nat) : Nat := ((s.power.steps.find? fun e => e.1 == p).map (·.2)).getD (railNow s p)

/-- The die power page's show of codes, at the point in effect and on the rail (R487). -/
def showCodes (s : State) : State :=
  (List.range 48).foldl (fun s d =>
    setReg s (cPage 0x11 d + Reg.DIE_VCODE)
      (dieCode s d (pointNow s) % 256 + 256 * (railNow s (partOfC d) % 256) + 65536 * (offsetOf s d (pointNow s) % 64))) s

/-- VSTEP_D of partition p takes a code, and VSTEP_STB rises (R417). -/
def driveRail (s : State) (p c : Nat) : State :=
  { s with power.steps := (s.power.steps.filter fun e => e.1 != p) ++ [(p, c)] }

/-- The rails whose code must rise for point k begin to (R455, R456, R457). None does while the core rails are off (R555). -/
def raiseRails (s : State) (k : Nat) : State :=
  if s.power.supplyOff then s
  else (List.range 8).foldl (fun s p => if railAsked s p < railCode s p k then driveRail s p (railCode s p k) else s) s

/-- Every rail has reached the code of point k. -/
def railsReady (s : State) (k : Nat) : Bool := (List.range 8).all fun p => decide (railCode s p k ≤ railNow s p)

/-- Every rail stands at the code of the point in effect, at the end of step 4 or of the regulator stage of a wake (R453, R479). -/
def settleRails (s : State) : State :=
  let s := { s with power.steps := [], power.late := [], power.supplyOff := false }
  showCodes ((List.range 8).foldl (fun s p => setRail s p (railCode s p (pointNow s))) s)

/-- The point that an armed commit of the power page asks for, at the ceiling as it stands. -/
def armedPoint (s : State) : Option Nat :=
  if s.regs.commits.any fun c => c.page == hPage 9 && c.turn.isSome then
    some (pointFrom s s.shd (bf (s.reg (pwrReg Reg.PWR_CEIL)) 3 0))
  else none

/-- The fastest of the point in effect and the points that the rails are raised for: the request and ceiling known, and an armed
request (R455, R460). -/
def railPoint (s : State) : Nat :=
  if ready s then min (pointNow s) (min (targetPoint s) ((armedPoint s).getD 11)) else pointNow s

/-- The rails step to the codes of their point, up or down: each control loop does so, which steps a rail down after a slower point
has taken effect (R418, R455), and follows a sense correction (R507). -/
def stepRails (s : State) : State :=
  if s.power.supplyOff then s
  else (List.range 8).foldl (fun s p => if railAsked s p = railCode s p (railPoint s) then s else driveRail s p (railCode s p (railPoint s))) s

/-- The headstock begins to raise the rails as soon as a commit of a faster point is armed for turn a (R455). -/
def armedRaise (s : State) (a : Nat) : State :=
  match ready s, armedPoint s with
  | true, some k => if k < pointNow s then raiseRails { s with power.raiseTurn := a } k else s
  | _, _ => s

/-- The point in effect changes (R20, R452). -/
def setPoint (s : State) (k : Nat) : State := showCodes (setReg s (pwrReg Reg.PWR_OP) k)

/-- A raise armed for a turn that has begun is over, as is one whose commit has been withdrawn. -/
def endRaise (s : State) (t : Nat) : State :=
  if s.power.raiseTurn ≤ t ∨ (armedPoint s).isNone then { s with power.raiseTurn := 0 } else s

/-- The point at the boundary that begins turn t (R455, R460): a slower point at once; a faster one when every rail has reached
its code, late with "turn missed" where one had not at the boundary that the commit was armed for. A raise begun for an armed turn
goes on until that turn. -/
def updatePoint (s : State) (t : Nat) : State :=
  if !ready s then s
  else
    let k := targetPoint s
    if pointNow s = k then endRaise s t
    else if pointNow s < k then endRaise (setPoint s k) t
    else
      let due := s.power.raiseTurn
      let s := raiseRails s k
      if railsReady s k then
        let s := if due ≠ 0 ∧ due < t then postOf s (hPage 9) Cause.turnMissed due else s
        endRaise (setPoint s k) t
      else s

/-- The partition groups of jobs, each by its lowest partition. -/
def jobGroups (s : State) : List Nat := (ownedParts s).filter fun p => partKind s p == 2 && (groupParts s p).headD p == p

/-- The lowest point that the jobs of the package have scheduled, where there are several (R32). -/
def sharedPoint (s : State) : Nat :=
  if (jobGroups s).length < 2 then 0
  else ((ownedParts s).filter fun p => partKind s p == 2).foldl (fun k p =>
    let r := s.reg (pwrReg (Reg.OP_REQ + 4 * p))
    if bit r 31 = 1 then max k (bf r 3 0) else k) 0

/-- The ceiling published, with the events of a change (R397, R459): a package of several jobs publishes the lowest point that any
of them has scheduled where that is slower (R32, log entry 130). -/
def publishCeiling (s : State) : State :=
  let c := max (ceiling s) (sharedPoint s)
  let cause := if ceiling s < sharedPoint s then 0 else ceilingCause s
  let old := s.reg (pwrReg Reg.PWR_CEIL)
  let s := setReg s (pwrReg Reg.PWR_CEIL) (c + 256 * cause)
  if bf old 3 0 = c then s
  else
    let s := postOf s (hPage 9) Cause.ceilingChanged c
    let s := if bf old 3 0 < c then
        ((jobGroups s).filter fun p =>
            (groupParts s p).any fun q =>
              let r := s.reg (pwrReg (Reg.OP_REQ + 4 * q))
              bit r 31 == 1 && decide (bf r 3 0 < c)).foldl (fun s p =>
          post s (hPage 9) { cause := Cause.ceilingBelowJobPoint, die := 63, time := s.time.now, partition := some p, op1 := c }) s
      else s
    if c < bf old 3 0 then raiseRails s (targetPoint s) else s

end Sys2Proof.Machine
end

