-- ==== Sys2Proof/Machine/Regs.lean ====
section
/-! DEFINITION. The belt hub's side of the register pages: selected items, reads with their latches and their
withholding, the bookkeeping of commits, and the registers whose write acts at once (R9, R11, R21 to R24, R310, R407,
R449, R531 to R550). -/

namespace Sys2Proof.Machine

/-! ### Flash (R495) -/

/-- What flash holds as shipped: the vendor key and zeros, the test record, an image; the reduced catch area and the reserved areas
are 0xFF. -/
def flashDefault (a : Nat) : Byte :=
  if a < 0x10000 then (if a < 1312 then Config.vendorKey a else 0)
  else if (0x100000 ≤ a ∧ a < 0x200000) ∨ (0x1000000 ≤ a ∧ a < 0x3000000) then Config.flashShipped a
  else 0xFF

/-- A byte of flash: copies A and B of the ageing record, or what the model holds. -/
def flashByte (s : State) (a : Nat) : Byte :=
  if 0x200000 ≤ a ∧ a < 0x300000 then Config.ageByte s.power.copyA.seq s.power.copyA.offsets s.power.copyA.sig (a - 0x200000)
  else if 0x300000 ≤ a ∧ a < 0x400000 then Config.ageByte s.power.copyB.seq s.power.copyB.offsets s.power.copyB.sig (a - 0x300000)
  else sget flashDefault s.boot.flash a

/-- The reduced catch area. -/
def reducedBase : Nat := 0x1C000000
def reducedSize : Nat := 0x4000000

/-- The reduced area marked free: its bytes are 0xFF again (R518, R550). -/
def eraseReduced (s : State) : State :=
  { s with boot.flash := s.boot.flash.filter fun e => !(decide (reducedBase ≤ e.1) && decide (e.1 < reducedBase + reducedSize)) }

/-! ### The sideband's events (R414) -/

/-- Sets bits of SB_EVENTS; an in-band interrupt is raised on the first setting of a bit. -/
def sbEvent (s : State) (b : Nat) : State :=
  if bit s.sideband.events b = 1 then s
  else { s with sideband.events := setBit s.sideband.events b true, sideband.irq := true }

/-! ### Selected items (R538) -/

/-- The item that a register of a page with a selector shows: 0 on the others. A model slot and an adapter of it are
numbered slot + 64 · adapter. -/
def selItem (s : State) (ty page off : Nat) : Nat :=
  match ty with
  | 0x05 => if off = Reg.RT_MASK then bf (s.reg (page + Reg.RT_SEL)) 9 0 else 0
  | 0x08 =>
    if (Reg.SLOT_CFG ≤ off ∧ off ≤ Reg.SLOT_SERIAL_HI) ∨ (Reg.PART_CNT ≤ off ∧ off ≤ Reg.PART_CNT + 24) then
      bf (s.reg (page + Reg.SLOT_SEL)) 5 0
    else 0
  | 0x10 => if off = Reg.NS_EPOCH then bf (s.reg (page + Reg.NS_EPOCH_SEL)) 5 0 else 0
  | 0x1B =>
    let sel := s.reg (page + Reg.BLK_SEL)
    if Reg.ADP_PUB_VER ≤ off ∧ off ≤ Reg.ADP_PINS_PREV then bf sel 5 0 + 64 * bf sel 27 16
    else if (Reg.BLK_CFG ≤ off ∧ off ≤ Reg.BLK_PINS_PREV) ∨ off = Reg.BLK_STATE then bf sel 5 0
    else 0
  | 0x1C => if Reg.RING_CFG ≤ off ∧ off ≤ Reg.RING_HOST_HI then bf (s.reg (page + Reg.RING_SEL)) 11 0 else 0
  | 0x1D => if Reg.KVP_CFG ≤ off ∧ off ≤ Reg.PE_EVICT then bf (s.reg (page + Reg.KVP_SEL)) 3 0 else 0
  | _ => 0

/-- The key of a register of a page as its selector stands. -/
def selKey (s : State) (ty page off : Nat) : Nat := keyOf (page + off) (selItem s ty page off)

/-! ### The blank page's per-adapter bits (R285, R286) -/

def blkPage : Nat := pPage 0x1B
/-- A blank-page register of model slot m, or of adapter a of it. -/
def blkKey (off m : Nat) : Nat := keyOf (blkPage + off) m
def adpItem (m a : Nat) : Nat := m + 64 * a
/-- BLK_CTRL.APUB and BLK_STATE.AHOLD are kept by adapter, beside the slot's own bits. -/
def adpBits (off m a : Nat) : Nat := keyOf (blkPage + off) (2 ^ 20 + adpItem m a)
def blkSelSlot (s : State) : Nat := bf (s.reg (blkPage + Reg.BLK_SEL)) 5 0
def blkSelAdapter (s : State) : Nat := bf (s.reg (blkPage + Reg.BLK_SEL)) 27 16

/-! ### Commits (R539) -/

/-- The page's outstanding commit. -/
def commitOf (s : State) (page : Nat) : Option Commit := s.regs.commits.find? fun c => c.page == page

def dropCommit (s : State) (page : Nat) : State :=
  { s with regs.commits := s.regs.commits.filter fun c => c.page != page }

def addCommit (s : State) (page : Nat) (t : Option Nat) : State :=
  { s with regs.commits := s.regs.commits ++ [{ page := page, turn := t }] }

/-- COMMIT_TURN as it stands. -/
def commitTurn (s : State) (page : Nat) : Nat := s.reg64 (page + Reg.F_COMMIT_TURN_LO) % 2 ^ 54

/-- A GO or an ARM for turn t reaches the page (R539): ignored with CONFLICT while another commit is outstanding; an
ARM for the turn already armed changes nothing. -/
def askCommit (s : State) (page : Nat) (t : Option Nat) : State :=
  match commitOf s page with
  | none =>
    let s := addCommit s page t
    match t with
    | some a => if page = hPage 9 then armedRaise s a else s
    | none => s
  | some c => if t.isSome && c.turn == t then s else setEvent s page 5

/-- A write of COMMIT (R539). -/
def writeCommit (s : State) (page v : Nat) : State :=
  let v := v % 8
  if v = 1 then askCommit s page none
  else if v = 2 then askCommit s page (some (commitTurn s page))
  else if v = 4 then dropCommit s page
  else if v = 0 then s
  else setEvent s page 5

/-- The pages that a confidential tenant withholds whole: near SRAM, die power, numeric, attention and sampler, random stream, idle
(R97, R165, R240, R254, R395, R487). Of the memory, link, queue-manager and page-engine pages their chapters withhold the counters alone,
and WITHHELD does not show there (R277, R340, R365; log entry 175). -/
def withheldPages : List Nat := [0x10, 0x11, 0x13, 0x14, 0x16, 0x17]

/-- STATUS as it reads (R534, R537). -/
def statusWord (s : State) (m : Master) (ty page : Nat) : Nat :=
  let st := s.reg (page + Reg.F_STATUS)
  let c := commitOf s page
  let armed := match c with | some { turn := some _, .. } => 1 | _ => 0
  let pend := match c with | some { turn := none, .. } => 2 | _ => 0
  let held := m == .firmware && confPresent s && withheldPages.contains ty
  setBf st 1 0 (armed + pend) + (if held then 8 else 0)

/-! ### Reads (R11, R544) -/

/-- The low words whose read latches the high word. -/
def latching : List (Nat × Nat) :=
  [(0x03, Reg.FT_NOW_LO), (0x07, Reg.PORT_KCTR_LO), (0x09, Reg.PWR_ENERGY_LO), (0x0E, Reg.PAIR_LAST_LO),
    (0x0F, Reg.RCL_STEP_LO), (0x12, Reg.ISSUED_LO), (0x17, Reg.BUSY_LO), (0x18, Reg.MEM_CSTEP_LO),
    (0x19, Reg.SW_BYTES_LO), (0x1A, Reg.LINK_TX_LO), (0x1A, Reg.LINK_RX_LO)] ++
  ((List.range 12).map fun c => (0x17, Reg.IDLE + 8 * c)) ++ ((List.range 12).map fun c => (0x17, Reg.SNAP + 8 * c))

def isLatching (ty off : Nat) : Bool := latching.contains (ty, off)
def isLatched (ty off : Nat) : Bool := decide (4 ≤ off) && latching.contains (ty, off - 4)

/-- The key of the latch of a page for a master. -/
def latchKey (page : Nat) (m : Master) : Nat := page + (if m = .mailbox then 1 else 0)

/-- The enabled programs, as (cluster, slot): PROGn of a sequencer page with ENABLE set in effect. -/
def enabledProgs (s : State) : List (Nat × Nat) :=
  s.regs.live.filterMap fun e =>
    let d := addrDie e.1
    let i := addrPageIdx e.1
    let o := addrOff e.1
    if d < 48 ∧ i % 16 = 0 ∧ 1 ≤ i / 16 ∧ i / 16 ≤ 9 ∧ Reg.PROG ≤ o ∧ o < Reg.PROG + 32 ∧ bit e.2 31 = 1 then
      some (9 * d + (i / 16 - 1), (o - Reg.PROG) / 4)
    else none

/-- Partition p is quiet: its programs have ended or halted, and no entry, table copy, switch plan, load or transfer of its
clusters or window is in flight (R30, R548). The image of a session that is parked or restored is not among them (log entry 165). -/
def partQuiet (s : State) (p : Nat) : Bool :=
  ((enabledProgs s).all fun e => partOf e.1 != p) && (s.seq.flights.all fun f => partOf f.cl != p) &&
    (s.seq.copies.all fun c => partOf c.cl != p) && bf (s.reg (mPage 0x19 p + Reg.SW_STATE)) 1 0 != 1 &&
    (s.storage.loads.all fun l => gWindow l.list != p && (l.desc.all fun d => gWindow d.dst != p)) &&
    (s.storage.far.all fun x => gWindow x.gaddr != p) && s.storage.host.all fun x => gWindow x.gaddr != p

def quietMask (s : State) : Nat := ((List.range 8).filter fun p => partQuiet s p).foldl (fun m p => m + 2 ^ p) 0

/-- The entries that still hold the units of a retiring slot's clusters (R439). -/
def slotBusyUnits (s : State) (k : Nat) : Nat := (s.seq.flights.filter fun f => bit (slotParts s k) (partOf f.cl) == 1).length

/-- The value in effect of a word, before any withholding: the registers that show other state are read from it. -/
def liveWord (s : State) (ty page off : Nat) : Nat :=
  if ty = 0x03 ∧ off = Reg.FT_NOW_LO then s.time.now % 2 ^ 32
  else if ty = 0x03 ∧ off = Reg.FT_NOW_HI then s.time.now / 2 ^ 32 % 2 ^ 32
  else if ty = 0x04 ∧ off = Reg.PART_QUIET then (if ready s then quietMask s else 0)
  else if ty = 0x07 ∧ off = Reg.PORT_KCTR_LO then s.port.upCtr % 2 ^ 32
  else if ty = 0x07 ∧ off = Reg.PORT_KCTR_HI then s.port.upCtr / 2 ^ 32 % 2 ^ 32
  else if ty = 0x08 ∧ off = Reg.SLOT_STATE then
    let k := bf (s.reg (page + Reg.SLOT_SEL)) 5 0
    setBf (s.reg (slotKey off k)) 23 16 (if slotState s k = 2 then min 255 (slotBusyUnits s k) else 0)
  else if ty = 0x12 ∧ off = Reg.PROG_STATE then progStates s (9 * addrDie page + (addrPageIdx page / 16 - 1))
  else if ty = 0x0D ∧ off = Reg.FLW_BLOCK then
    bf (s.reg (hPage 0x0C + Reg.CATCH_FLASH_SEL)) 13 0 + 65536 * (if s.catching.flashHeld then 1 else 0)
  else if ty = 0x1B ∧ off = Reg.BLK_STATE then
    s.reg (blkKey off (blkSelSlot s)) ||| s.reg (adpBits off (blkSelSlot s) (blkSelAdapter s))
  else if ty = 0x1B ∧ off = Reg.BLK_CTRL then
    s.reg (blkKey off (blkSelSlot s)) ||| s.reg (adpBits off (blkSelSlot s) (blkSelAdapter s))
  else if ty = 0x1C ∧ off = Reg.QM_LIVE then s.serving.reqs.length
  else if ty = 0x1D ∧ off = Reg.PARK_USED then s.serving.parked.length
  else if ty = 0x1E ∧ off = Reg.MBX_OUTSTANDING then s.port.mbox.length
  else s.reg (selKey s ty page off)

/-- The shadow of a word. -/
def shadowWord (s : State) (ty page off : Nat) : Nat :=
  if ty = 0x1B ∧ off = Reg.BLK_CTRL then
    s.shd (blkKey off (blkSelSlot s)) ||| s.shd (adpBits off (blkSelSlot s) (blkSelAdapter s))
  else s.shd (selKey s ty page off)

/-- A page, or a counter of one, that a present confidential tenant withholds from the control node (R449). -/
def withheld (s : State) (ty off : Nat) : Bool :=
  confPresent s &&
    (withheldPages.contains ty ||
      (ty == 0x18 && decide (Reg.MEM_CORR ≤ off) && decide (off ≤ Reg.MEM_REFUSED)) ||
      (ty == 0x1A && decide (Reg.LINK_TX_LO ≤ off) && decide (off ≤ Reg.LINK_RX_HI)) ||
      (ty == 0x1C && decide (Reg.QM_LIVE ≤ off) && decide (off ≤ Reg.QM_COMPLETES)) ||
      (ty == 0x1D && decide (Reg.PE_FREE ≤ off) && decide (off ≤ Reg.PARK_USED)))

/-- The power readings that reach the control node, coarsened where a confidential tenant is present (R449, R485). -/
def coarseWord (s : State) (off v : Nat) : Nat :=
  if !confPresent s then v
  else if off = Reg.PWR_NOW then s.power.intPower % 65536 + 65536 * (s.power.intEst % 65536)
  else if off = Reg.PWR_AVG then s.power.intPower % 65536
  else if off = Reg.PWR_ENERGY_LO then s.power.intEnergy % 2 ^ 32
  else if off = Reg.PWR_ENERGY_HI then s.power.intEnergy / 2 ^ 32 % 2 ^ 32
  else v

/-- A word of an existing page as one master reads it: off in the page, live at the mirror; the new latch where the
read latches. -/
def pageRead (s : State) (m : Master) (ty page off : Nat) : State × Nat :=
  if ty = 0x0D ∧ 0x800 ≤ off then
    let half := bit (s.reg (page + Reg.FLW_HALF)) 0
    let a := reducedBase + 4096 * bf (s.reg (hPage 0x0C + Reg.CATCH_FLASH_SEL)) 13 0 + 2048 * half + (off - 0x800) / 4 * 4
    (s, leNat ((List.range 4).map fun i => flashByte s (a + i)))
  else
    let live := decide (0x800 ≤ off)
    let o := off % 0x800
    match regRow ty o with
    | none => (s, 0)
    | some r =>
      if m = .mailbox ∧ withheld s ty o then (s, 0)
      else if isLatched ty o then (s, sget zeroAt s.regs.latch (latchKey page m))
      else
        let v := if r.acc = .wo then 0
          else if o = Reg.F_STATUS then statusWord s m ty page
          else if r.acc = .sh ∧ !live then shadowWord s ty page o
          else liveWord s ty page o
        let v := if m = .mailbox ∧ ty = 0x09 then coarseWord s o v else v
        if isLatching ty o then
          let hi := liveWord s ty page (o + 4)
          let hi := if m = .mailbox ∧ ty = 0x09 then coarseWord s (o + 4) hi else hi
          ({ s with regs.latch := sset zeroAt s.regs.latch (latchKey page m) hi }, v)
        else (s, v)

/-! ### The ring-table window (R310) -/

def ringPage : Nat := pPage 0x1C
/-- A queue-page register of ring n. -/
def ringReg (off n : Nat) : Nat := keyOf (ringPage + off) n
def ringDefault (_ : Nat) : Ring := {}
def State.ring (s : State) (n : Nat) : Ring := sget ringDefault s.serving.rings n
def setRing (s : State) (n : Nat) (r : Ring) : State :=
  { s with serving.rings := sset ringDefault s.serving.rings n r }

/-- The fields of a ring's live descriptor. -/
def ringKind (s : State) (n : Nat) : Nat := bf (s.reg (ringReg Reg.RING_CFG n)) 1 0
def ringSize (s : State) (n : Nat) : Nat := bf (s.reg (ringReg Reg.RING_CFG n)) 7 4
def ringSlot (s : State) (n : Nat) : Nat := bf (s.reg (ringReg Reg.RING_CFG n)) 13 8
def ringParts (s : State) (n : Nat) : Nat := bf (s.reg (ringReg Reg.RING_CFG n)) 23 16
def ringBase (s : State) (n : Nat) : Nat := 1024 * bf (s.reg (ringReg Reg.RING_BASE n)) 14 0
def ringPair (s : State) (n : Nat) : Nat := bf (s.reg (ringReg Reg.RING_BASE n)) 27 16
def ringHost (s : State) (n : Nat) : Nat := s.reg64 (ringReg Reg.RING_HOST_LO n)
/-- Capacity in records, and bytes of a record (R308). -/
def ringCap (s : State) (n : Nat) : Nat := 2 ^ (ringSize s n + 5)
def recordBytes (kind : Nat) : Nat := if kind = 2 then 64 else 32

/-- The 32 bytes of a live descriptor. -/
def ringDescriptor (s : State) (n : Nat) : List Byte :=
  let r := s.ring n
  leBytes 1 (ringKind s n + 16 * ringSize s n) ++ leBytes 1 (ringSlot s n) ++ leBytes 1 (ringParts s n) ++ leBytes 1 0 ++
    leBytes 2 (ringBase s n / 1024) ++ leBytes 2 (if ringKind s n = 2 then ringPair s n else 0) ++ leBytes 8 (ringHost s n) ++
    leBytes 4 r.prod ++ leBytes 4 r.cons ++ leBytes 4 r.reqId ++ leBytes 4 (if r.bound then 1 else 0)

/-! ### Transactions (R22, R23, R532) -/

/-- A read of a register address: state, belt STATUS and word. -/
def hubRead (s : State) (m : Master) (a : Nat) : State × Nat × Nat :=
  if 0x4000000 ≤ a then
    if a < 0x4020000 then
      (s, 0, leNat (((ringDescriptor s ((a - 0x4000000) / 32)).drop (a % 32 / 4 * 4)).take 4))
    else (s, 1, 0)
  else match pageType (addrDie a) (addrPageIdx a) with
    | none => (s, 1, 0)
    | some (ty, _) =>
      if m = .mailbox ∧ (ty = 7 ∨ ty = 8) then (s, 2, 0)
      else
        let r := pageRead s m ty (addrPage a) (addrOff a)
        (r.1, 0, r.2)

/-! ### Writes that act at once -/

/-- Clears a run of registers. -/
def clearRegs (s : State) (page : Nat) (offs : List Nat) : State := offs.foldl (fun s o => setReg s (page + o) 0) s

def wordsFrom (lo n : Nat) : List Nat := (List.range n).map fun i => lo + 4 * i

/-- What a clear register of a page clears (R165, R254, R277, R339, R340, R365, R395, R412, R485, R487). -/
def clearedBy (ty : Nat) : Option (Nat × List Nat) :=
  match ty with
  | 0x09 => some (Reg.PWR_CLEAR, [Reg.PWR_HINTS, Reg.PWR_MARKS, Reg.AGE_ALARMS])
  | 0x10 => some (Reg.NS_CLEAR, [Reg.NS_CORR, Reg.NS_UNCORR, Reg.NS_STALE])
  | 0x11 => some (Reg.DIE_CLEAR, [Reg.DIE_DROOP, Reg.DIE_STRETCH, Reg.DIE_ALARMS])
  | 0x14 => some (Reg.CNT_CLEAR, wordsFrom Reg.ATT_WIDENED 10)
  | 0x17 => some (Reg.IDLE_CLEAR, wordsFrom Reg.IDLE 26)
  | 0x18 => some (Reg.MEM_CLEAR, wordsFrom Reg.MEM_CORR 6)
  | 0x1A => some (Reg.LINK_CLEAR, wordsFrom Reg.LINK_FEC_CORR 11)
  | 0x1C => some (Reg.QM_CLEAR, wordsFrom Reg.QM_ADMITS 4)
  | 0x1D => some (Reg.PE_CLEAR, [Reg.PE_STALLS, Reg.PE_PREEMPTS, Reg.PE_EXPIRED])
  | 0x1E => some (Reg.PORT_CLEAR, [Reg.DB_COUNT, Reg.DB_REFUSED, Reg.MBX_BUSY, Reg.PORT_REPLAYS, Reg.PORT_DROPS, Reg.EVT_LOST])
  | _ => none

/-- A check draw starts with the values standing, abandoning one in progress (R240, R241). -/
def startDraw (s : State) (cl page : Nat) : State :=
  let d := (s.reg64 (page + Reg.RS_SEED_LO), s.reg (page + Reg.RS_STREAM), s.reg64 (page + Reg.RS_POS_LO) % 2 ^ 40)
  let s := incReg (setReg s (page + Reg.RS_STATUS) 0) (page + Reg.RS_JUMPS) 1
  { s with seq.draws := sset noneAt s.seq.draws cl (some d) }

/-- The sanding queue's show in SAND_STATUS (R277). -/
def refreshSand (s : State) (w level : Nat) : State :=
  let q := sandRanges s w
  setReg s (memPage w + Reg.SAND_STATUS)
    (min q.length 31 + 256 * (if q.isEmpty then 0 else level) + 65536 * min ((q.map (·.left)).headD 0) 65535)

def sandLevel (s : State) (w : Nat) : Nat := bf (s.reg (memPage w + Reg.SAND_STATUS)) 9 8

/-- The turns until the level rises are counted from here: the first range is queued, or the level has risen (R270). -/
def sandMark (s : State) (w : Nat) : State := { s with mem.sandAged := sset zeroAt s.mem.sandAged w s.turn }

/-- A range joins a window's sanding queue (R268, R270). -/
def queueSand (s : State) (w base size : Nat) (urgent : Bool) : State :=
  let level := if urgent then 3 else sandLevel s w
  let s := if (sandRanges s w).isEmpty then sandMark s w else s
  let r : SandRange := { base := base, size := size, left := size, urgent := urgent, parting := none }
  refreshSand { s with mem.sand := sset nilAt s.mem.sand w (sget nilAt s.mem.sand w ++ [r]) } w level

def sandRoom (s : State) (w : Nat) : Bool := decide ((sget nilAt s.mem.sand w).length < 16)

/-- D and D − C of a window in units of 2 MiB. -/
def dataUnits (s : State) (w : Nat) : Nat := bf (s.reg (memPage w + Reg.MEM_DATA_SIZE)) 14 0
def catchUnits (s : State) (w : Nat) : Nat := bf (s.reg (memPage w + Reg.MEM_CATCH_BASE)) 14 0

/-- The windows of M-dies that are present. -/
def liveWindows (s : State) : List Nat := (List.range 8).filter fun w => dataUnits s w != 0

/-- CATCH_STATE (R518). -/
def catchReg (off : Nat) : Nat := hPage 0x0C + off

/-- Units of a catch share: 128 MiB, or 3.5 GiB with the full extension (R273). -/
def shareUnits (full : Bool) : Nat := if full then 1792 else 64

/-- Where the held dump of window w's share begins: the share it was written with may be the larger of the two. -/
def heldBase (s : State) (w : Nat) : Nat :=
  min (catchUnits s w) (dataUnits s w - shareUnits (bit s.catching.full w == 1))

/-- A dump is being written. -/
def dumping (s : State) : Bool := s.catching.dump.isSome

/-- A release of held dumps (R518): the catch region is queued for sanding, behind the 16 ranges of a full queue (log entry 27), and
the reduced area is marked free. -/
def releaseCatch (s : State) : State :=
  if dumping s then s
  else
    let r := s.catching.regionHeld
    let s := if s.catching.flashHeld then eraseReduced s else s
    let s := if r then
        (liveWindows s).foldl (fun s w => queueSand s w (heldBase s w) (dataUnits s w - heldBase s w) false) s
      else s
    let s := { s with catching.regionHeld := false, catching.flashHeld := false, catching.full := 0 }
    setReg s (catchReg Reg.CATCH_STATE) 0

/-- Links of the net. -/
def linkDefault (_ : Nat) : LinkState := {}
def State.link (s : State) (n : Nat) : LinkState := sget linkDefault s.net.links n
def setLink (s : State) (n : Nat) (l : LinkState) : State :=
  { s with net.links := sset linkDefault s.net.links n l }

/-- The wake pattern is sent on the links named (R478). -/
def sendPattern (s : State) (m : Nat) : State :=
  (setBits m 24).foldl (fun s n => setLink s n { s.link n with waking := true }) s

/-- HOLD of a model, or AHOLD of an adapter of it, is cleared by the control node (R281, R285). -/
def unholdModel (s : State) (m : Nat) : State :=
  setReg s (blkKey Reg.BLK_STATE m) (setBit (s.reg (blkKey Reg.BLK_STATE m)) 0 false)
def unholdAdapter (s : State) (m a : Nat) : State := setReg s (adpBits Reg.BLK_STATE m a) 0

/-- An abort of the switch plan is asked of M-die w: the bit stands until the plan has stopped, and a plan that is not
running has (R304). -/
def askAbort (s : State) (w : Nat) : State :=
  let p := mPage 0x19 w
  if bf (s.reg (p + Reg.SW_STATE)) 1 0 = 1 then setReg s (p + Reg.SW_ABORT) 1 else s

/-- Register writes with a behaviour of their own, by page type; none where the register has none. -/
def actWrite (s : State) (ty inst page off v : Nat) : Option State :=
  let d := addrDie page
  if off = Reg.F_CTRL then
    let fw := if ty = 7 ∨ ty = 8 then 1 else bit v 0
    let s := setReg s (page + Reg.F_CTRL) fw
    some (if bit v 1 = 1 then setReg s (page + Reg.F_ERR_COUNT) 0 else s)
  else if off = Reg.F_EVENT then
    some (updateAlert (setReg s (page + off) (s.reg (page + off) &&& (0x3F - v % 64))) page)
  else if off = Reg.F_EVENT_EN then some (updateAlert (setReg s (page + off) (v % 64)) page)
  else if off = Reg.F_COMMIT then some (writeCommit s page v)
  else match clearedBy ty with
    | some (o, regs) => if off = o then some (if bit v 0 = 1 then clearRegs s page regs else s) else none
    | none =>
      if ty = 0x12 ∧ off = Reg.HALT then some (haltMask s (d * 9 + inst) (v % 256) 5)
      else if ty = 0x16 ∧ off = Reg.RS_GO then some (if bit v 0 = 1 then startDraw s (d * 9 + inst) page else setField s (page + Reg.RS_STATUS) 0 0 0)
      else if ty = 0x19 ∧ off = Reg.SW_ABORT then some (if bit v 0 = 1 then askAbort s (d - 48) else s)
      else if ty = 0x0A ∧ off = Reg.PS_WAKE_LINKS then some (sendPattern s (v % 2 ^ 24))
      else if ty = 0x0C ∧ off = Reg.CATCH_RELEASE then some (if bit v 0 = 1 then releaseCatch s else s)
      else if ty = 0x08 ∧ Reg.LINK_KEY ≤ off ∧ off ≤ Reg.LINK_KEY + 28 then
        some { s with tenant.staging := sset zeroAt s.tenant.staging ((off - Reg.LINK_KEY) / 4) (v % 2 ^ 32) }
      else if ty = 0x1B ∧ off = Reg.BLK_UNHOLD then
        let s' := if bit v 0 = 1 then unholdModel s (blkSelSlot s) else s
        some (if bit v 1 = 1 then unholdAdapter s' (blkSelSlot s) (blkSelAdapter s) else s')
      else if ty = 0x1B ∧ off = Reg.BLK_CTRL then
        let m := blkSelSlot s
        some (setShd (setShd s (blkKey off m) (v % 2)) (adpBits off m (blkSelAdapter s)) (2 * bit v 1))
      else none

/-- A write of a word to an existing page: the described bits only (R9), by the access code (R11). -/
def pageWrite (s : State) (ty inst page off v : Nat) : State :=
  match regRow ty off with
  | none => s
  | some r =>
    let v := v &&& r.mask off
    match actWrite s ty inst page off v with
    | some s' => s'
    | none =>
      let k := selKey s ty page off
      match r.acc with
      | .rw => setReg s k v
      | .sh =>
        let s := if ty = 0x03 ∧ (off = Reg.FT_ALARM_LO ∨ off = Reg.FT_ALARM_HI) then { s with time.alarmSet := true } else s
        let s := if ty = 0x09 ∧ (off = Reg.PWR_CAP ∨ off = Reg.PWR_WINDOW) then { s with power.capWritten := true } else s
        setShd s k v
      | .w1c => setReg s k (s.reg k - (s.reg k &&& v))
      | .w1s => setReg s k (s.reg k ||| v)
      | .ro | .wo => s

/-- The belt STATUS of a write (R407, R532, R535, R543): 0 performed, 1 no such register, 2 access refused. -/
def writeStatus (s : State) (m : Master) (a : Nat) : Nat :=
  if 0x4000000 ≤ a then (if a < 0x4020000 then 2 else 1)
  else match pageType (addrDie a) (addrPageIdx a) with
    | none => 1
    | some (ty, _) =>
      if 0x800 ≤ addrOff a ∧ ty ≠ 0x0D then 2
      else if s.catching.caught ∧ ty ≠ 0x0C ∧ ty ≠ 0x0D then 2
      else if m = .mailbox ∧ (ty = 7 ∨ ty = 8 ∨ bit (s.reg (addrPage a + Reg.F_CTRL)) 0 = 1) then 2
      else 0

/-- A write of a register address through the belt hub. One of the control node's to the random stream page is ignored while a
confidential tenant is present. -/
def hubWrite (s : State) (m : Master) (a v : Nat) : State × Nat :=
  let st := writeStatus s m a
  if st ≠ 0 then (s, st)
  else if m = .mailbox ∧ confPresent s ∧ (pageType (addrDie a) (addrPageIdx a)).any (fun x => x.1 == 0x16) then (s, 0)
  else match pageType (addrDie a) (addrPageIdx a) with
    | none => (s, 1)
    | some (ty, inst) => (pageWrite s ty inst (addrPage a) (addrOff a) v, 0)

end Sys2Proof.Machine
end

