-- ==== Sys2Proof/Machine/Net.lean ====
section
/-! DEFINITION. The spindle links as the units use them: routes, credits, sequence numbers, replay, transmission and
reception (R345 to R358, R360, R366 to R368). -/

namespace Sys2Proof.Machine

/-! ### States of a link (R342, R345, R346, R365) -/

def linkReg (l off : Nat) : Nat := linkPage l + off
def linkStateOf (s : State) (l : Nat) : Nat := bf (s.reg (linkReg l Reg.LINK_STATE)) 2 0
def linkModeNow (s : State) (l : Nat) : Nat := bf (s.reg (linkReg l Reg.LINK_STATE)) 4 3
def linkUp (s : State) (l : Nat) : Bool := !s.stopped && (linkStateOf s l == 2 || linkStateOf s l == 3)
def fabricUp (s : State) (l : Nat) : Bool := decide (l < 24) && linkUp s l && linkModeNow s l == 1
def storageUp (s : State) (l : Nat) : Bool := decide (l < 24) && linkUp s l && linkStateOf s l == 2 && linkModeNow s l == 2

/-- An event of the O-die that names a link (R571). -/
def postLink (s : State) (l cause op1 count tag pkg : Nat) : State :=
  post s (linkPage l)
    { cause := cause, die := 56 + l / 4, time := s.time.now, partition := some (l / 3), op1 := op1, count := count, link := l,
      tag := tag, pkg := pkg }

/-! ### Routes (R366 to R368) -/

def rtReg (off : Nat) : Nat := hPage 5 + off
def selfId (s : State) : Nat := bf (s.reg (rtReg Reg.RT_SELF)) 9 0
def routeMask (s : State) (dst : Nat) : Nat := s.reg (keyOf (rtReg Reg.RT_MASK) (dst % 1024))

/-- The up links of a mask. -/
def upLinks (s : State) (m : Nat) : List Nat := (setBits m 24).filter fun l => fabricUp s l

/-- The links by which a source reaches a package within LINKS, ascending. -/
def sourceLinks (s : State) (dst links : Nat) : List Nat := upLinks s (routeMask s dst &&& links)

/-! ### Credits and transmission (R349, R351, R355) -/

/-- Flits of a frame: header, payload and trailer. -/
def flitsOf (f : Frame) : Nat := 2 + ceilDiv f.payload.length 32

def creditInit (vc : Nat) : Nat := getNth 0 [3072, 3072, 1536, 512] vc

/-- Credits held on a virtual channel: 16-bit counters of flits sent and freed. -/
def creditsOf (k : LinkState) (vc : Nat) : Nat :=
  creditInit vc - (getNth 0 k.sent vc + 65536 - getNth 0 k.freed vc) % 65536

/-- A frame can leave now: nothing waits to be sent again, and there are credits for all its flits and room in the replay buffer. -/
def canLeave (k : LinkState) (f : Frame) : Bool :=
  k.resend == 0 && decide (flitsOf f ≤ creditsOf k f.vc) && decide (k.replay.length < 2048)

/-- Flits that leave are charged to the credits of a virtual channel. -/
def chargeSent (k : LinkState) (vc n : Nat) : LinkState := { k with sent := setNth k.sent vc ((getNth 0 k.sent vc + n) % 65536) }

/-- The frames of the replay buffer that are to be sent again leave in order while credits last; each counts as replayed (R352,
R353, R355; fuel: how many there are). -/
def resendTx (s : State) (l : Nat) : Nat → State
  | 0 => s
  | n + 1 =>
    let k := s.link l
    match if k.resend = 0 then none else k.replay[k.replay.length - k.resend]? with
    | none => s
    | some x =>
      let m := flitsOf x.frame
      if creditsOf k x.frame.vc < m then s
      else
        let s := incReg (incReg64 s (linkReg l Reg.LINK_TX_LO) 64 m) (linkReg l Reg.LINK_REPLAYS) 1
        resendTx (setLink s l { chargeSent k x.frame.vc m with resend := k.resend - 1 }) l n

/-- Advances the link-key counter of an ENC frame of the package's own (R360). -/
def noteIv (s : State) (l : Nat) (f : Frame) : State :=
  if f.enc && f.src == selfId s then
    let key := 32 * f.tslot + l
    { s with tenant.ivs := sset zeroAt s.tenant.ivs key (sget zeroAt s.tenant.ivs key + 1) }
  else s

/-- A frame leaves on link l with the next SEQ and waits in the replay buffer. -/
def transmit (s : State) (l : Nat) (x : Sent) : State :=
  let k := s.link l
  let f := { x.frame with seq := k.nextSeq }
  let n := flitsOf f
  let s := noteIv s l f
  let s := incReg64 s (linkReg l Reg.LINK_TX_LO) 64 n
  setLink s l
    { chargeSent k f.vc n with replay := k.replay ++ [{ x with frame := f }], nextSeq := (k.nextSeq + 1) % 4096 }

/-- An own frame is handed to link l: it leaves at once, or waits behind those of its virtual channel. -/
def sendOn (s : State) (l : Nat) (x : Sent) : State :=
  let k := s.link l
  if (k.tx.all fun y => y.frame.vc != x.frame.vc) && canLeave k x.frame && fabricUp s l && !k.waking then transmit s l x
  else setLink s l { k with tx := k.tx ++ [x] }

/-- Waiting frames of a link leave while they can, those of one virtual channel in order (fuel: how many wait). -/
def drainTx (s : State) (l : Nat) : Nat → State
  | 0 => s
  | n + 1 =>
    let k := s.link l
    let ok := fun (x : Sent) =>
      ((k.tx.find? fun y => y.frame.vc == x.frame.vc) == some x) && canLeave k x.frame
    if !fabricUp s l || k.waking then s
    else match k.tx.find? ok with
      | none => s
      | some x => drainTx (transmit (setLink s l { k with tx := k.tx.erase x }) l x) l n

/-- What waits on a link leaves while it can: first what is to be sent again. -/
def drainLink (s : State) (l : Nat) : State :=
  if !fabricUp s l || (s.link l).waking then s else drainTx (resendTx s l (s.link l).resend) l (s.link l).tx.length

/-- A source sends frames to one package, one on each usable link in turn, from the turn that the entry's earlier frames to it have
left (R367). -/
def sendTurns (s : State) (links : List Nat) (owner : Option Nat) (turn : Nat) (fs : List Frame) : State :=
  (fs.zipIdx).foldl (fun s ((f, j) : Frame × Nat) =>
    sendOn s (getNth 0 links ((turn + j) % links.length)) { frame := f, owner := owner }) s

def sendFrames (s : State) (links : List Nat) (owner : Option Nat) (fs : List Frame) : State := sendTurns s links owner 0 fs

/-- Every frame of an entry in flight has been acknowledged. -/
def framesAcked (s : State) (id : Nat) : Bool :=
  s.net.links.all fun e => (e.2.tx.all fun x => x.owner != some id) && e.2.replay.all fun x => x.owner != some id

/-! ### Reception (R351, R352, R354, R355) -/

/-- Flits leave a receive buffer: their credits go back. -/
def freeFlits (s : State) (l : Nat) (f : Frame) : State :=
  let k := s.link l
  setLink s l { k with back := setNth k.back f.vc ((getNth 0 k.back f.vc + flitsOf f) % 65536) }

/-- Codewords of link l, corrected and uncorrectable (R365). -/
def noteCodewords (s : State) (l corrected lost : Nat) : State :=
  incReg (incReg s (linkReg l Reg.LINK_FEC_CORR) corrected) (linkReg l Reg.LINK_FEC_UNCORR) lost

/-- A frame's codewords are counted, and a NAK stands where the frame fails its CRC or lies across an uncorrectable one (R352). A
stomped frame is discarded without a NAK (R354). -/
def noteArrival (s : State) (l : Nat) (a : Arrival) : State :=
  match a with
  | .good n | .stomped n => noteCodewords s l n 0
  | .crc n =>
    let s := noteCodewords s l n 0
    setLink s l { s.link l with nak := true }
  | .fec n m =>
    let s := noteCodewords s l n (max 1 m)
    setLink s l { s.link l with nak := true }

/-- A frame with a SEQ reaches the receiver of link l: true where it is taken. A bad frame, or one beyond the SEQ lacked,
is discarded and a NAK stands until that SEQ arrives. -/
def takeFrame (s : State) (l : Nat) (f : Frame) (a : Arrival) : State × Bool :=
  if !fabricUp s l then (s, false)
  else
    let s := incReg64 s (linkReg l Reg.LINK_RX_LO) 64 (flitsOf f)
    let k := s.link l
    match a with
    | .good n =>
      let s := noteArrival s l (.good n)
      if f.seq = k.expect then (setLink s l { k with expect := (k.expect + 1) % 4096, nak := false }, true)
      else
        let behind := decide ((k.expect + 4096 - f.seq) % 4096 ≤ 2048)
        (freeFlits (setLink s l { k with nak := k.nak || !behind }) l f, false)
    | bad => (freeFlits (noteArrival s l bad) l f, false)

/-- The up link of a transit frame: the one of the mask with the most credits on its virtual channel, the lower index
first (R367). -/
def transitLink (s : State) (f : Frame) : Option Nat :=
  let ls := upLinks s (routeMask s f.dst)
  let best := (ls.map fun l => creditsOf (s.link l) f.vc).foldl max 0
  ls.find? fun l => creditsOf (s.link l) f.vc == best

/-- A frame passes on by a link; its credits go back to the link it came by. -/
def hopOn (s : State) (l out : Nat) (f : Frame) : State := freeFlits (transmit s out { frame := f }) l f

/-- A frame without a route is discarded and counted, and its credits returned; the first to each destination in a
control loop posts (R368). -/
def dropNoRoute (s : State) (l : Nat) (f : Frame) : State :=
  let s := freeFlits (incReg s (rtReg Reg.RT_NOROUTE) 1) l f
  if s.net.noRoute.contains f.dst then s
  else
    let s := postLink s l Cause.noRoute 0 1 0 f.dst
    { s with net.noRoute := s.net.noRoute ++ [f.dst] }

/-- The frame types that are cut through (R357). -/
def cutsThrough (f : Frame) : Bool := f.type != 3 && f.type != 5 && f.type != 8

/-- A frame that came by link l is cut through to link out (R357): both links run at 8 lanes on one O-die, nothing waits for link
out's transmitter or sends, link out holds credits for the whole frame, and no frame of its virtual channel is held before it. -/
def cutPath (s : State) (l out : Nat) (f : Frame) : Bool :=
  let k := s.link out
  cutsThrough f && l / 4 == out / 4 && linkStateOf s l == 2 && linkStateOf s out == 2 && k.tx.isEmpty && !k.waking && canLeave k f &&
    (s.link l).rx.all fun g => g.vc != f.vc

/-- A frame for another package (R357, R358, R366): it is cut through, or held in its receive buffer. -/
def forward (s : State) (l : Nat) (f : Frame) : State :=
  match transitLink s f with
  | none => dropNoRoute s l f
  | some out =>
    if cutPath s l out f then hopOn s l out f else setLink s l { s.link l with rx := (s.link l).rx ++ [f] }

/-- A frame leaves by link out with STOMP set and takes no SEQ (R354). -/
def stompTo (s : State) (out : Nat) (f : Frame) : State :=
  setLink (incReg64 s (linkReg out Reg.LINK_TX_LO) 64 (flitsOf f)) out (chargeSent (s.link out) f.vc (flitsOf f))

/-- A frame that fails at this hop while it is cut through: the outgoing frame is completed with STOMP set (R354). -/
def stompOn (s : State) (l : Nat) (f : Frame) : State :=
  match transitLink s f with
  | none => s
  | some out => if cutPath s l out f then stompTo s out f else s

/-- An arrival that brings no good frame. -/
def arrivalFails : Arrival → Bool
  | .good _ => false
  | _ => true

end Sys2Proof.Machine
end

