-- ==== Sys2Proof/Machine/Wake.lean ====
section
/-! DEFINITION. Power states as the rest of the package meets them: which state is in effect, the wake sources and the
stages of a wake (R475, R477 to R482). -/

namespace Sys2Proof.Machine

def psReg (off : Nat) : Nat := hPage 0x0A + off
/-- The state in effect: 0 Run, 1 Idle, 2 Nap, 3 Rest (R486). -/
def psState (s : State) : Nat := bf (s.reg (psReg Reg.PS_STATE)) 1 0
def psEntering (s : State) : Bool := bit (s.reg (psReg Reg.PS_STATE)) 4 == 1
def psWaking (s : State) : Bool := bit (s.reg (psReg Reg.PS_STATE)) 5 == 1
def psLatched (s : State) : Bool := bit (s.reg (psReg Reg.PS_STATE)) 6 == 1
def psStage (s : State) : Nat := bf (s.reg (psReg Reg.PS_STATE)) 10 8
def setPs (s : State) (hi lo v : Nat) : State := setField s (psReg Reg.PS_STATE) hi lo v

/-- The C-dies are not running: a frame for near SRAM is held until Run (R475, R477). -/
def sleeping (s : State) : Bool := psState s != 0 || psEntering s

/-- The first stage of a wake from a state (R479). -/
def firstStage (st : Nat) : Nat := if st = 1 then 4 else 1
/-- The stage after one, 0 after the last (R479). -/
def nextStage (st stage : Nat) : Nat :=
  match stage with
  | 1 => if st = 3 then 2 else 4
  | 2 => 3
  | 3 => 4
  | _ => 0

/-- A source is recorded: the first one anew, with the link of a first link wake (R481, R486). -/
def noteCause (s : State) (b link : Nat) (first : Bool) : State :=
  let k := psReg Reg.PS_CAUSE
  let old := s.reg k
  if first then setReg s k (2 ^ b + 2 ^ 8 * b + (if b = 0 then 2 ^ 16 * link else 0))
  else
    let s := setReg s k (setBit old b true)
    if b = 0 && bit old 0 == 0 then setField s k 20 16 link else s

/-- A wake begins from the state in effect (R479): its regulator stage turns the core rails on again (R555). -/
def beginWake (s : State) : State :=
  let s := setPs (setPs s 5 5 1) 10 8 (firstStage (psState s))
  { s with wake.attempts := 1, sideband.wake := false, power.supplyOff := s.power.supplyOff && firstStage (psState s) != 1 }

/-- A wake source fires (R477, R481): ignored in Run; latched while a state is entered; added to a wake that runs. -/
def wakeSource (s : State) (b link : Nat) : State :=
  let on := decide (5 ≤ b) || bit (s.reg (psReg Reg.PS_WAKE_EN)) b == 1
  if !on || !sleeping s then s
  else if psEntering s then setPs (noteCause s b link (!psLatched s)) 6 6 1
  else if psWaking s then noteCause s b link false
  else beginWake (noteCause s b link true)

/-- A mailbox target of Run wakes from Idle and Nap only (R477). -/
def mailboxWake (s : State) : State := if psState s = 3 then s else wakeSource s 6 0

end Sys2Proof.Machine
end

