-- ==== Sys2Proof/Machine/Links.lean ====
section
/-! DEFINITION. Fabric time on its sources, and the link layer: training, loss of light, acknowledgement and replay
(R37 to R44, R345 to R355, R399, R411, R498, R499, R506, R509, R524). -/

namespace Sys2Proof.Machine

/-! ### Fabric time (R38 to R42, R411, R498, R499, R509) -/

def ftReg (off : Nat) : Nat := hPage 3 + off
def ftRole (s : State) : Nat := bf (s.reg (ftReg Reg.FT_ROLE)) 1 0
def ftParent (s : State) : Nat := bf (s.reg (ftReg Reg.FT_ROLE)) 12 8
def ftFlag (s : State) (b : Nat) : Bool := bit (s.reg (ftReg Reg.FT_STATUS)) b == 1
def setFt (s : State) (b : Nat) (v : Bool) : State :=
  setReg s (ftReg Reg.FT_STATUS) (setBit (s.reg (ftReg Reg.FT_STATUS)) b v)

/-- Holdover is entered: it is posted once (R42). -/
def enterHoldover (s : State) : State := if ftFlag s 1 then s else postOf (setFt s 1 true) (hPage 3) Cause.holdover 0

/-- Holdover is left when the source is there again and REFCLK runs (R42, R509). -/
def leaveHoldover (s : State) : State := if s.time.refclk then setFt s 1 false else s

/-- The rate a package steers at: within ±50 ppm (R40), in parts per 10⁹. -/
def clampRate (r : Int) : Int := max (-50000) (min 50000 r)

/-- The measured offset shown, and the run of measurements within ±2 ns (R40). -/
def noteOffset (s : State) (off rate : Int) : State :=
  let s := setReg s (ftReg Reg.FT_OFFSET) (unsigned 32 off)
  let s := if s.time.refclk then setReg s (ftReg Reg.FT_RATE) (unsigned 32 (clampRate rate)) else s
  { s with time.near := if -32 ≤ off ∧ off ≤ 32 then s.time.near + 1 else 0 }

/-- The count steps forward by whole ticks; fabric time never decreases (R37). The start of step 2, from which BOOT_TIME
is taken, moves with it (R501). -/
def stepTime (s : State) (off : Int) : State :=
  let n := (off / 16).toNat
  { s with time.now := s.time.now + n, time.mayStep := false, time.mustStep := false, boot.began := s.boot.began + n }

/-- The time of an arrival in 1/16 ns: the count and the phase within its tick. -/
def sixteenths (s : State) (phase : Nat) : Nat := 16 * s.time.now + phase % 16

/-- The hop depth that a package's time frames carry (R38, R39). -/
def ownDepth (s : State) : Nat := if ftRole s = 0 then bf (s.reg (ftReg Reg.FT_STATUS)) 12 8 else 0

/-- The time frame that link l sends now (R359): the count, the hop depth, the turnaround since the last time frame received on
this link, and that one's stamp. -/
def timeFrame (s : State) (l : Nat) : TimeFrame :=
  { stamp := s.time.now, depth := ownDepth s
    turnaround := ((s.link l).heard.map fun h => (16 * s.time.now - h.2) % 2 ^ 16).getD 0
    echo := ((s.link l).heard.map fun h => h.1 % 2 ^ 32).getD 0 }

/-- The links of the O-dies that the strobe reaches send their time frames, one flit each, without SEQ or credits (R39, R350). -/
def timeFrames (s : State) (reached : Nat → Bool) : State :=
  ((List.range 24).filter fun l => fabricUp s l && reached (56 + l / 4)).foldl (fun s l =>
    incReg64 (setLink s l { s.link l with told := some (timeFrame s l) }) (linkReg l Reg.LINK_TX_LO) 64 1) s

/-- The rate at which a follower steers: one that may still step and is ahead of its parent by more than 2 ns slows by 50 ppm
(R482, R499); else the steering's choice. -/
def steerRate (s : State) (off rate : Int) : Int :=
  if !ftFlag s 0 && s.time.mayStep && decide (off < -32) then -50000 else rate

/-- A follower takes its parent's stamp and hop depth. The offset is the parent's stamp and delay less the own count (log entry
30). Before acquisition the count may step forward once, and does after Rest (R40, R482, R499). -/
def steer (s : State) (f : TimeFrame) (phase : Nat) (step : Bool) (rate : Int) : State :=
  let delay := (s.reg (ftReg Reg.FT_DELAY) : Int)
  let off : Int := 16 * f.stamp + delay - sixteenths s phase
  let s := leaveHoldover s
  let s := noteOffset s off (steerRate s off rate)
  let s := if (step ∨ s.time.mustStep) ∧ !ftFlag s 0 ∧ s.time.mayStep ∧ 0 < off then stepTime s off else s
  let d := min 31 (f.depth + 1)
  let deep := decide (12 < d)
  let was := ftFlag s 2
  let s := setReg s (ftReg Reg.FT_STATUS) (setBf (setBit (s.reg (ftReg Reg.FT_STATUS)) 2 deep) 12 8 d)
  if deep && !was then postOf s (hPage 3) Cause.timeTreeTooDeep d else s

/-- A frame arrives good: it passes its CRC, lies across no uncorrectable codeword and is not stomped. -/
def goodArrival : Arrival → Bool
  | .good _ => true
  | _ => false

/-- A good time frame on link l: it is heard, and on the parent link of a follower it is steered by. -/
def hearTime (s : State) (l : Nat) (f : TimeFrame) (phase : Nat) (step : Bool) (rate : Int) : State :=
  let s := setLink s l { s.link l with heard := some (f.stamp, sixteenths s phase) }
  if ftRole s != 0 || ftParent s != l || !s.time.refclk then s else steer s f phase step rate

/-- TIME_FRAME (R39 to R41, R350, R352, R359, R499): a time frame on a fabric-mode link, how it arrives, and the phase of its arrival
in 1/16 ns. -/
def execTimeFrame (l : Nat) (f : TimeFrame) (a : Arrival) (phase : Nat) (step : Bool) (rate : Int) (s : State) : Res :=
  .next (if !fabricUp s l then s
    else
      let s := noteArrival (incReg64 s (linkReg l Reg.LINK_RX_LO) 64 1) l a
      if goodArrival a then hearTime s l f phase step rate else s)

/-- A link's one-way delay shown, with FT_ASYM for the parent link (R39). -/
def showLinkDelay (s : State) (l delay : Nat) : State :=
  let s := setReg s (linkReg l Reg.LINK_DELAY) delay
  if ftRole s = 0 ∧ ftParent s = l then
    setReg s (ftReg Reg.FT_DELAY) (unsigned 32 ((delay : Int) + signed 32 (s.reg (ftReg Reg.FT_ASYM))))
  else s

/-- Half the round trip less the far end's turnaround: a time frame that echoes the own stamp of 32 bits (R39, R359). -/
def measuredDelay (s : State) (f : TimeFrame) (phase : Nat) : Nat :=
  ((sixteenths s phase + 2 ^ 36 - 16 * (f.echo % 2 ^ 32) % 2 ^ 36) % 2 ^ 36 - f.turnaround) / 2

/-- DELAY_REMEASURE (R39): every 1,024 turns a running link measures its delay from a time frame received. -/
def execDelayRemeasure (l : Nat) (r : TimeReply) (s : State) : Res :=
  .next (if !fabricUp s l ∨ s.turn < (s.link l).measured + 1024 then s
    else showLinkDelay (setLink s l { s.link l with measured := s.turn }) l (measuredDelay s r.frame r.phase))

/-- ACQUIRED (R40): 16 measurements in a row within ±2 ns. -/
def execAcquired (s : State) : Res := .next (if 16 ≤ s.time.near then setFt s 0 true else s)

/-- HOLDOVER (R42, R411, R509): its cause stands. -/
def execHoldover (s : State) : Res :=
  .next (if (ftRole s = 0 ∧ !fabricUp s (ftParent s)) ∨ (ftRole s ≠ 0 ∧ 16 ≤ s.time.loopsSilent) ∨ !s.time.refclk then
    enterHoldover s else s)

/-- TIME_NOT_ACQUIRED (R498): no exchange for 1 s of step 9. -/
def execTimeNotAcquired (s : State) : Res :=
  .next (if bf (s.reg (hPage 0x0B + Reg.BOOT_STEP)) 3 0 = 9 ∧ 1000 ≤ s.time.loopsSilent then
    let s := if bf (s.reg (hPage 0x0B + Reg.BOOT_FAIL)) 7 0 = 0 then
        setReg s (hPage 0x0B + Reg.BOOT_FAIL) (11 + 256 * 63) else s
    postOf s (hPage 3) Cause.timeNotAcquired 0 else s)

/-- REFCLK_LOST and REFCLK_RETURN (R42, R491, R509). -/
def execRefclkLost (s : State) : Res :=
  .next (if s.time.refclk then
    let s := { s with time.refclk := false }
    let s := if bf (s.reg (hPage 0x0B + Reg.BOOT_STEP)) 3 0 ≤ 5 ∧ bf (s.reg (hPage 0x0B + Reg.BOOT_FAIL)) 7 0 = 0 then
        setReg s (hPage 0x0B + Reg.BOOT_FAIL) (1 + 256 * 63) else s
    enterHoldover (postOf s (hPage 3) Cause.referenceClockLost 0) else s)
def execRefclkReturn (s : State) : Res :=
  .next (if s.time.refclk then s
    else
      let s := postOf { s with time.refclk := true } (hPage 3) Cause.referenceClockReturned 0
      if (ftRole s = 0 ∧ !fabricUp s (ftParent s)) ∨ (ftRole s ≠ 0 ∧ 16 ≤ s.time.loopsSilent) then s else setFt s 1 false)

/-- The alarm fires where it is due at turn t, and wakes a package that sleeps (R44, R477). -/
def fireAlarm (s : State) (t : Nat) : State :=
  match s.time.alarm with
  | none => s
  | some due =>
    if due ≤ t then
      wakeSource (postOf (setFt { s with time.alarm := none } 3 true) (hPage 3) Cause.fabricTimeAlarm
        (s.reg64 (ftReg Reg.FT_ALARM_LO) % 2 ^ 54)) 4 0
    else s

/-- FABRIC_TIME_ALARM (R44). -/
def execFabricTimeAlarm (s : State) : Res := .next (fireAlarm s s.turn)

/-! ### What follows when a link falls or rises (R33, R42, R353, R524) -/

def pairReg (off : Nat) : Nat := hPage 0x0E + off
def pairLinks (s : State) : List Nat :=
  let r := s.reg (pairReg Reg.PAIR_LINKS)
  [bf r 4 0, bf r 12 8]
def pairState (s : State) : Nat := bf (s.reg (pairReg Reg.PAIR_STATE)) 1 0
def pairSolo (s : State) : Bool := bit (s.reg (pairReg Reg.PAIR_CTRL)) 1 == 1

/-- Both pair links of a paired package have failed: the partner is lost (R524). -/
def loseMirror (s : State) : State :=
  if pairState s = 1 then
    postOf { setReg s (pairReg Reg.PAIR_STATE) (if pairSolo s then 3 else 2) with net.unacked := [] } (hPage 0x0E)
      Cause.mirrorLost 0
  else s
def checkPair (s : State) : State := if (pairLinks s).all fun l => !fabricUp s l then loseMirror s else s

/-- The links of a partition that are up, in its health word (R33, R548). -/
def showHealth (s : State) (l : Nat) : State :=
  let k := hPage 4 + Reg.PART_HEALTH + 4 * (l / 3)
  setReg s k (setBit (s.reg k) (16 + l % 3) (linkUp s l))

/-- A link goes to a fenced state: what it held is lost, and its dependents see it (R346, R353). -/
def fenceLink (s : State) (l st cause : Nat) : State :=
  let k := s.link l
  let again := k.again
  let lost := k.replay.length
  let s := setField s (linkReg l Reg.LINK_STATE) 2 0 st
  let s := setLink s l {}
  let s := postLink s l cause 0 1 0 0
  let s := if again then postLink s l Cause.linkDown 0 lost 0 0 else s
  let s := showHealth s l
  let s := if ftRole s = 0 ∧ ftParent s = l then enterHoldover s else s
  checkPair s

/-- A link comes up in state st with mode m: credits start anew, and a link that has retrained after the error limit sends its replay
buffer again (R345 step 7, R353). -/
def raiseLink (s : State) (l st m : Nat) (t : Training) : State :=
  let k := s.link l
  let again := k.again
  let keep := if again then k.replay else []
  let s := setLink s l
    { k with
      replay := keep, resend := keep.length, tries := 0, again := false, nak := false, mismatch := false, measured := s.turn
      nextSeq := if again then k.nextSeq else 0, expect := if again then k.expect else 0
      sent := [0, 0, 0, 0], freed := [0, 0, 0, 0], back := [0, 0, 0, 0] }
  let s := setField (setField s (linkReg l Reg.LINK_STATE) 2 0 st) (linkReg l Reg.LINK_STATE) 4 3 m
  let s := match t.peer with
    | some (p, q, _) => setReg s (linkReg l Reg.LINK_PEER) (p % 1024 + 1024 * (q % 32) + 32768)
    | none => s
  let s := if m = 1 then showLinkDelay s l t.delay else s
  let s := if m = 1 ∧ ftRole s = 0 ∧ ftParent s = l then leaveHoldover s else s
  drainLink (showHealth s l) l

/-- The peer exchange of step 5 in a mode, and what follows it (R345). -/
def peerStep (s : State) (l want : Nat) (t : Training) : State :=
  let n := (setBits t.lanes 8).length
  let st := if n = 8 then 2 else 3
  match t.peer with
  | some (_, _, m) =>
    if m ≠ want then
      let k := s.link l
      let s := setField s (linkReg l Reg.LINK_STATE) 2 0 1
      if k.mismatch then s else postLink (setLink s l { k with mismatch := true }) l Cause.modeMismatch 0 1 0 0
    else if want = 1 ∧ 160000 < t.delay then fenceLink s l 6 Cause.tooLong
    else raiseLink s l st want t
  | none =>
    let k := s.link l
    let s := setField s (linkReg l Reg.LINK_STATE) 2 0 1
    if k.mismatch then s else postLink (setLink s l { k with mismatch := true }) l Cause.modeMismatch 0 1 0 0

/-- The mode that a link is to train in (R344). -/
def wantedMode (s : State) (l : Nat) : Nat := bf (s.reg (linkReg l Reg.LINK_CTRL)) 1 0

/-- The end of a training in a mode (R345, R489): light and patterns, then in fabric or storage mode the width and the peer. Fibres
without light are posted also where the link runs on half its lanes (R506). -/
def endTraining (s : State) (l want : Nat) (t : Training) : State :=
  let half := bit (s.reg (linkReg l Reg.LINK_CTRL)) 5 == 1
  let n := (setBits t.lanes 8).length
  let s := setField s (linkReg l Reg.LINK_STATE) 15 8 t.lanes
  let s := setReg s (linkReg l Reg.LINK_LANEMAP) t.laneMap
  if t.crossed then fenceLink s l 5 Cause.crossed
  else if want = 0 ∨ want = 3 then setField s (linkReg l Reg.LINK_STATE) 4 0 0
  else if n = 8 then peerStep s l want t
  else if want = 1 ∧ 4 ≤ n ∧ half then
    peerStep (postLink s l Cause.dark ((setBits (255 - t.lanes % 256) 8).headD 0) 1 0 0) l want t
  else fenceLink s l 4 Cause.dark

/-- LINK_TRAINING_COMPLETE (R345, R346, R353, R489): at bring-up every link ends the training of step 8. -/
def execLinkTrainingComplete (l : Nat) (t : Training) (s : State) : Res :=
  .next (if l < 24 ∧ (linkStateOf s l = 1 ∨ linkStateOf s l = 7 ∨ bf (s.reg (hPage 0x0B + Reg.BOOT_STEP)) 3 0 = 8) then
    endTraining s l (if bf (s.reg (hPage 0x0B + Reg.BOOT_STEP)) 3 0 = 8 then 0 else wantedMode s l) t else s)

/-- MODE_MISMATCH_RETRY (R345). -/
def execModeMismatchRetry (l : Nat) (t : Training) (s : State) : Res :=
  .next (if l < 24 ∧ linkStateOf s l = 1 ∧ (s.link l).mismatch then peerStep s l (wantedMode s l) t else s)

/-! ### The port's lanes (R399, R506) -/

def portReg (off : Nat) : Nat := pPage 0x1E + off
def portUp (s : State) : Bool := !s.stopped && decide (2 ≤ bf (s.reg (portReg Reg.PORT_STATE)) 1 0)

/-- The port runs on the lanes that are not dark (R399). -/
def setPortLanes (s : State) (dark : Nat) : State :=
  let d := dark % 4
  let st := if d = 0 then 3 else if d = 3 then 0 else 2
  let k := portReg Reg.PORT_STATE
  let s := setReg s k (setBf (setBf (s.reg k) 1 0 st) 5 4 d)
  if d = 0 then s
  else if d = 3 then sbEvent (postOf s (pPage 0x1E) Cause.portDown 0) 3
  else postOf s (pPage 0x1E) Cause.portDegraded d

/-- LIGHT_LOSS (R399, R506): lane of a link, or of the port as link 24. -/
def execLightLoss (l lane : Nat) (s : State) : Res :=
  .next (if l = 24 then
    (if portUp s ∧ lane < 2 then setPortLanes s (bf (s.reg (portReg Reg.PORT_STATE)) 5 4 ||| 2 ^ lane) else s)
  else if l < 24 ∧ linkUp s l ∧ lane < 8 then
    let lanes := setBit (bf (s.reg (linkReg l Reg.LINK_STATE)) 15 8) lane false
    let s := setField s (linkReg l Reg.LINK_STATE) 15 8 lanes
    let n := (setBits lanes 8).length
    if linkModeNow s l = 1 ∧ 4 ≤ n ∧ bit (s.reg (linkReg l Reg.LINK_CTRL)) 5 = 1 then
      postLink (setField s (linkReg l Reg.LINK_STATE) 2 0 3) l Cause.dark lane 1 0 0
    else fenceLink s l 4 Cause.dark
  else s)

/-! ### Acknowledgement and replay (R351 to R353, R355) -/

/-- How many frames of a replay buffer a cumulative acknowledgement of SEQ q frees. -/
def ackedCount (k : LinkState) (q : Nat) : Nat :=
  match k.replay.head? with
  | none => 0
  | some x => min k.replay.length ((q + 4096 - x.frame.seq) % 4096 + 1)

/-- The replay buffer after frames up to q were acknowledged, if q stands in it. -/
def ackUpTo (k : LinkState) (q : Nat) : LinkState :=
  if k.replay.any fun x => x.frame.seq == q then
    let rest := k.replay.drop (ackedCount k q)
    { k with replay := rest, resend := min k.resend rest.length, tries := 0 }
  else k

/-- A NAK naming SEQ q: what stands before it is acknowledged, and the rest is to be sent again (R352). -/
def nakAt (k : LinkState) (q : Nat) : LinkState :=
  let k := if k.replay.any fun x => x.frame.seq == q then ackUpTo k ((q + 4095) % 4096) else k
  { k with resend := k.replay.length, tries := k.tries + (if k.replay.isEmpty then 0 else 1) }

/-- REPLAY_LIMIT (R353, R400): a frame replayed 8 times without acknowledgement; the port is link 24. -/
def execReplayLimit (l : Nat) (s : State) : Res :=
  .next (if l = 24 then (if portUp s ∧ 8 ≤ s.port.tries then setField s (portReg Reg.PORT_STATE) 1 0 1 else s)
    else if l < 24 ∧ linkUp s l ∧ 8 ≤ (s.link l).tries then
      showHealth (incReg (setField (setLink s l { s.link l with again := true }) (linkReg l Reg.LINK_STATE) 2 0 7)
        (linkReg l Reg.LINK_RETRAINS) 1) l
    else s)

end Sys2Proof.Machine
end

