-- ==== Sys2Proof/Machine/Port.lean ====
section
/-! DEFINITION. The Wailos port's shared operations: frames sent and taken, the management mailbox's answers, and the
rings behind it (R308 to R312, R400 to R406). -/

namespace Sys2Proof.Machine

/-! ### Frames (R400, R401) -/

/-- The port's link keys are established (R401). -/
def portKeyed (s : State) : Bool := bit (s.reg (portReg Reg.PORT_STATE)) 2 == 1

/-- A frame goes to the port with the next SEQ; while the keys stand, a frame of types 0x1 to 0xB is encrypted under
them (R400, R401, R430). It leaves at once where fewer than 512 frames wait for their acknowledgement, else when one of those
is acknowledged. -/
def sendPort (s : State) (f : PortFrame) : State :=
  let enc := portKeyed s && decide (1 ≤ f.type) && decide (f.type ≤ 0xB)
  let g := { f with seq := s.port.nextSeq, enc := enc }
  { s with
    port.tx := s.port.tx ++ [g]
    port.nextSeq := (s.port.nextSeq + 1) % 4096
    port.upCtr := s.port.upCtr + (if enc then 1 else 0) }

/-- The port frames that have left and are not acknowledged (R400): the others of its list wait. -/
def portSent (tx : List PortFrame) : List PortFrame := tx.take 512

/-- A frame is discarded without a NAK and counted (R401). -/
def dropPort (s : State) : State := incReg s (portReg Reg.PORT_DROPS) 1

/-- The port is served from mask ROM (R493). -/
def portRecovery (s : State) : Bool := bit (s.reg (portReg Reg.PORT_STATE)) 3 == 1

/-- A frame of a type reaches the port: true where it is taken (R351, R352, R400, R401, R493). A frame that fails its CRC
or lies beyond the SEQ lacked leaves a NAK standing until that SEQ arrives. -/
def takePort (s : State) (type : Nat) (h : PortHead) : State × Bool :=
  if !portUp s then (s, false)
  else if !h.crcOk then ({ s with port.nak := true }, false)
  else if h.seq ≠ s.port.expect then
    let behind := decide ((s.port.expect + 4096 - h.seq) % 4096 ≤ 2048)
    ({ s with port.nak := s.port.nak || !behind }, false)
  else
    let s := { s with port.expect := (s.port.expect + 1) % 4096, port.nak := false }
    let keyed := portKeyed s
    let bad := (if keyed then (decide (type ≤ 0xB) && !h.enc) || (h.enc && !h.tagOk) else h.enc || decide (type < 8)) ||
      (portRecovery s && type != 0xB)
    if bad then (dropPort s, false)
    else (if h.enc then { s with port.downCtr := s.port.downCtr + 1 } else s, true)

/-- What follows a frame that is taken. -/
def withPort (s : State) (type : Nat) (h : PortHead) (k : State → State) : State :=
  let r := takePort s type h
  if r.2 then k r.1 else r.1

/-! ### Time exchanges (R411) -/

/-- What the answer to the time frame of this loop does to the fabric time: it comes no later than 100 µs after that frame, and
the first since power-on sets the count in one step (R38, R411, R498). -/
def exchangeTime (s : State) (tag t2 t3 : Nat) (rate : Int) : State :=
  match s.time.asked with
  | none => s
  | some (g, t1) =>
    let t4 := s.time.now
    if g ≠ tag ∨ ftRole s = 0 ∨ 100000 < t4 - t1 ∨ !s.time.refclk then s
    else
      let off : Int := 8 * (((t2 : Int) - t1) + ((t3 : Int) - t4))
      let s := leaveHoldover { s with time.asked := none, time.loopsSilent := 0, time.awaiting := false }
      let s := noteOffset s off rate
      if s.time.exchanged then s else { stepTime s off with time.exchanged := true }

/-- TIME_EXCHANGE (R38, R400, R401, R411, R498). -/
def execTimeExchange (h : PortHead) (tag : Nat) (t : ExchangeTimes) (rate : Int) (s : State) : Res :=
  .next (withPort s 8 h fun s => exchangeTime s tag t.t2 t.t3 rate)

/-! ### The management mailbox (R406) -/

namespace Mail

/-! The statuses of R406. -/

abbrev done : Nat := 0
abbrev accepted : Nat := 1
abbrev noSuchRegister : Nat := 2
abbrev accessRefused : Nat := 3
abbrev busy : Nat := 4
abbrev reservedEncoding : Nat := 5
abbrev notAdmitted : Nat := 6
abbrev refused : Nat := 7

end Mail

/-- The 64-byte message header of a response (R406). -/
def answerHeader (tag op status len result : Nat) : List Byte :=
  leBytes 1 op ++ leBytes 1 status ++ leBytes 2 tag ++ leBytes 4 len ++ leBytes 8 result ++ leBytes 48 0

/-- A response leaves (R406). -/
def answer (s : State) (tag op status result : Nat) (payload : List Byte) : State :=
  sendPort s { type := 7, tag := tag, payload := answerHeader tag op status payload.length result ++ payload }

/-- A request without a result or payload is answered. -/
def reply (s : State) (tag op status : Nat) : State := answer s tag op status 0 []

/-- A mailbox request is taken: with 64 outstanding it is answered BUSY at once and counted (R406). -/
def withMail (s : State) (h : PortHead) (tag op : Nat) (k : State → State) : State :=
  withPort s 6 h fun s =>
    if 64 ≤ s.port.mbox.length then reply (incReg s (portReg Reg.MBX_BUSY) 1) tag op Mail.busy else k s

/-- A request waits for the commit of a page (R484). -/
def awaitCommit (s : State) (tag op page : Nat) : State :=
  { s with port.mbox := s.port.mbox ++ [{ tag := tag, op := op, page := page }] }

/-- Requests that waited for a page's commit are answered with a status (R484). -/
def answerWaiting (s : State) (page status : Nat) : State :=
  let mine := s.port.mbox.filter fun w => w.page == page
  mine.foldl (fun s w => reply s w.tag w.op status) { s with port.mbox := s.port.mbox.filter fun w => w.page != page }

/-- After a write that takes s to t, the requests that wait for the page are answered where the write has withdrawn its commit (R406,
R539; log entry 82). -/
def answerWithdrawn (s t : State) (page : Nat) : State :=
  if (commitOf s page).isSome && (commitOf t page).isNone then answerWaiting t page Mail.refused else t

/-- The trusted domain is admitted (R431). -/
def admitted (s : State) : Bool := bit (s.reg (hPage 7 + Reg.ATT_STATE)) 2 == 1

/-! ### Rings (R308 to R312) -/

/-- Records in a ring: producer less consumer index. -/
def ringUsed (r : Ring) : Nat := (r.prod + 2 ^ 32 - r.cons) % 2 ^ 32
def ringFree (s : State) (n : Nat) : Nat := ringCap s n - ringUsed (s.ring n)

/-- A ring that a commit has assigned (R309). -/
def ringLive (s : State) (n : Nat) (kind : Nat) : Bool := ringKind s n == kind && ringParts s n != 0

/-- The byte of ring memory at which the record of an index lies, and its place in the mirror. -/
def recordAt (s : State) (n i : Nat) : Nat := ringBase s n + recordBytes (ringKind s n) * (i % ringCap s n)
def mirrorAt (s : State) (n i : Nat) : Nat := ringHost s n + recordBytes (ringKind s n) * (i % ringCap s n)

def ringWrite (s : State) (a : Nat) (bs : List Byte) : State :=
  { s with serving.ringMem := ssetAll byteZero s.serving.ringMem (bs.zipIdx.map fun ((b, i) : Byte × Nat) => (a + i, b)) }
def ringRead (s : State) (a n : Nat) : List Byte := (List.range n).map fun i => sget byteZero s.serving.ringMem (a + i)

/-- A record is written into ring memory (R311); HOST_WRITE sends it to the mirror. -/
def putRecord (s : State) (n : Nat) (rec : List Byte) : State :=
  let r := s.ring n
  setRing (ringWrite s (recordAt s n r.prod) rec) n { r with prod := (r.prod + 1) % 2 ^ 32 }

/-- The pending store once its oldest record has left: the oldest record that a poster holds takes the place (R312). -/
def Ring.advance (r : Ring) : Ring := { r with pend := r.pend.drop 1 ++ r.held.take 1, held := r.held.drop 1 }

/-- Waiting records go in as slots free (fuel: how many wait). -/
def drainRingN (s : State) (n : Nat) : Nat → State
  | 0 => s
  | k + 1 =>
    match (s.ring n).pend with
    | [] => s
    | rec :: _ =>
      if ringFree s n = 0 then s
      else drainRingN (putRecord (setRing s n (s.ring n).advance) n rec) n k

def drainRing (s : State) (n : Nat) : State := drainRingN s n ((s.ring n).pend.length + (s.ring n).held.length)

/-- A record of the queue manager or page engine: where the ring is full or others wait it waits in order in the pending
store of 8, and beyond that with its poster (R312; log entry 115). -/
def postRing (s : State) (n : Nat) (rec : List Byte) : State :=
  let r := s.ring n
  if r.pend.isEmpty && decide (0 < ringFree s n) then putRecord s n rec
  else if r.pend.length < 8 then setRing s n { r with pend := r.pend ++ [rec] }
  else setRing s n { r with held := r.held ++ [rec] }

/-- A ring whose pending store of 8 records is full (R312). -/
def pendFull (s : State) (n : Nat) : Bool := decide (8 ≤ (s.ring n).pend.length)

/-- A ring takes a sampler's record: 5 slots free and nothing waiting (R312). -/
def ringTakes (s : State) (n : Nat) : Bool := (s.ring n).pend.isEmpty && decide (5 ≤ ringFree s n)

/-- The event queue that takes the events of a partition, or of the package (R410). -/
def eventQueue (s : State) (p : Option Nat) : Option Nat :=
  let pick := fun (k : Nat) =>
    let r := s.reg k
    let n := bf r 11 0
    if bit r 31 = 1 ∧ ringLive s n 3 then some n else none
  match p with
  | none => pick (portReg Reg.PORT_EVQ)
  | some p =>
    let r := s.reg (portReg (Reg.PORT_EVQ_P + 4 * (p % 8)))
    if bit r 31 = 1 then pick (portReg (Reg.PORT_EVQ_P + 4 * (p % 8))) else pick (portReg Reg.PORT_EVQ)

/-- A record that the headstock hands to the port: into its queue, else into the headstock store of 4,096, else lost and
counted (R410). -/
def deliverEvent (s : State) (e : Event) : State :=
  match eventQueue s e.partition with
  | some n =>
    if !pendFull s n && !(s.belt.store.any fun x => eventQueue s x.partition == some n) then postRing s n e.bytes
    else if s.belt.store.length < 4096 then { s with belt.store := s.belt.store ++ [e] }
    else { incReg s (portReg Reg.EVT_LOST) 1 with belt.storeLost := s.belt.storeLost + 1 }
  | none =>
    if s.belt.store.length < 4096 then { s with belt.store := s.belt.store ++ [e] }
    else { incReg s (portReg Reg.EVT_LOST) 1 with belt.storeLost := s.belt.storeLost + 1 }

/-- Records of the headstock store go out as their queues have room (fuel: how many wait). -/
def drainStoreN (s : State) : Nat → State
  | 0 => s
  | k + 1 =>
    match s.belt.store.find? fun e =>
      (match eventQueue s e.partition with | none => false | some n => !pendFull s n && decide (0 < ringFree s n)) with
    | none => s
    | some e =>
      match eventQueue s e.partition with
      | none => s
      | some n => drainStoreN (postRing { s with belt.store := s.belt.store.erase e } n e.bytes) k

def drainStore (s : State) : State := drainStoreN s s.belt.store.length

/-! ### Host reads (R402) -/

/-- A host read request leaves with a fresh TAG and waits for its answer. -/
def sendHostRead (s : State) (why : ReadFor) (addr len : Nat) : State :=
  let t := s.port.nextTag
  let s := { s with
    port.reads := s.port.reads ++ [{ tag := t, why := why, addr := addr, len := len }]
    port.nextTag := (t + 1) % 65536 }
  sendPort s { type := 2, tag := t, addr := addr, arg0 := len }

end Sys2Proof.Machine
end

