-- ==== Sys2Proof/Machine/Pages.lean ====
section
/-! DEFINITION. The storage targets by which far windows are reached, and the page engine's pools: page descriptors, list headers, allocation, eviction, prefixes and the page
form of K and V (R140 to R142, R323 to R329). -/

namespace Sys2Proof.Machine

/-! ### Targets (R364, R407, R409) -/

def State.target (s : State) (n : Nat) : Option Target := sget noneAt s.storage.targets n
def recNat (t : Target) (o n : Nat) : Nat := leNat ((t.record.drop o).take n)
def Target.link (t : Target) : Nat := recNat t 0 1 % 32

/-- A link that may carry extents of a group's window now. -/
def storageLink (s : State) (w l : Nat) : Bool := storageUp s l && sameGroup s w (l / 3) && partKind s (l / 3) != 0

/-! ### Pools (R323, R340) -/

def pePage : Nat := pPage 0x1D
def kvpReg (off k : Nat) : Nat := keyOf (pePage + off) k
def kvpCfg (s : State) (k : Nat) : Nat := s.reg (kvpReg Reg.KVP_CFG k)
def kvpOn (s : State) (k : Nat) : Bool := bit (kvpCfg s k) 0 == 1
def kvpSlot (s : State) (k : Nat) : Nat := bf (kvpCfg s k) 13 8
def kvpParts (s : State) (k : Nat) : Nat := bf (kvpCfg s k) 23 16
def kvpBase (s : State) (k : Nat) : Nat := bf (s.reg (kvpReg Reg.KVP_BASE k)) 22 0
def kvpFrames (s : State) (k : Nat) : Nat := bf (s.reg (kvpReg Reg.KVP_FRAMES k)) 22 0
def kvpMeta (s : State) (k : Nat) : Nat := bf (s.reg (kvpReg Reg.KVP_META k)) 22 0
def kvpLists (s : State) (k : Nat) : Nat := bf (s.reg (kvpReg Reg.KVP_LISTS k)) 25 0

/-- A channel that holds pages, descriptors or list headers of pool k retrains: what acts on the pool waits (R257; log entry
123). -/
def poolHeld (s : State) (k : Nat) : Bool :=
  kvpOn s k && (gHeld s (65536 * kvpBase s k) (65536 * kvpFrames s k) ||
    gHeld s (65536 * kvpMeta s k) (65536 * ceilDiv (16 * kvpFrames s k) 65536 + 32 * kvpLists s k))

/-- The page engine acts under the pool's slot (R265, R323). -/
def pageCtx (s : State) (k : Nat) : Ctx := { page := pePage, die := 62, slot := some (kvpSlot s k) }

/-- The slot of a region that a span touches and that is not of pool k's slot: an access to it is refused (R265). -/
def peForeign (s : State) (k a n : Nat) : Option Nat := ((regionsOver s a n).find? fun r => r.slot != kvpSlot s k).map (·.slot)

/-- What the page engine, or an ATTN for it, reads of pool k: nothing of an access that is refused (R265). -/
def peByte (s : State) (k a : Nat) : Byte := if (peForeign s k a 1).isSome then 0 else gByte s a
def peBytes (s : State) (k a n : Nat) : List Byte := (List.range n).map fun i => peByte s k (a + i)

/-- What a read of pool k counts and posts, and a write of it (R258, R259, R265). -/
def peNote (s : State) (c : Ctx) (k a n : Nat) : State :=
  match peForeign s k a n with
  | some j => postRefusal s c a (Cause.tenantMismatch, some j)
  | none => gNote s c a n
def peWrite (s : State) (k a : Nat) (bs : List Byte) : State :=
  match peForeign s k a bs.length with
  | some j => postRefusal s (pageCtx s k) a (Cause.tenantMismatch, some j)
  | none => gWrite s (pageCtx s k) a bs

/-- An event of the page engine goes to the pool's event queue, where that is one (R329, R334, R336); where not, it
takes the way of the other events. -/
def postPool (s : State) (k cause op1 tag count : Nat) : State :=
  let n := bf (s.reg (kvpReg Reg.KVP_EVQ k)) 11 0
  let e : Event :=
    { cause := cause, die := 62, time := s.time.now, partition := lowPart (kvpParts s k), slot1 := some (kvpSlot s k), op1 := op1,
      tag := tag, count := count }
  if ringLive s n 3 && (ringParts s n &&& kvpParts s k != 0) then postRing (if causeClass cause = 0 then s else noteError s pePage) n e.bytes
  else post s pePage e

/-! ### Descriptors (R324) -/

/-- The end of a chain, and no frame. -/
def noFrame : Nat := 0x7FFFFF

def descAddr (s : State) (k i : Nat) : Nat := 65536 * kvpMeta s k + 16 * i
def pageDesc (s : State) (k i : Nat) : Nat := leNat (peBytes s k (descAddr s k i) 16)

/-- A bit is set that the layout of a descriptor reserves (R10, R324). -/
def descBad (d : Nat) : Bool := bit d 7 != 0 || bf d 63 58 != 0 || bf d 127 94 != 0

def dFmt (d : Nat) : Nat := bf d 3 0
def dBlk (d : Nat) : Nat := bit d 4
def dKind (d : Nat) : Nat := bf d 6 5
def dPos (d : Nat) : Nat := bf d 17 8
def dNext (d : Nat) : Nat := bf d 40 18
def dRefs (d : Nat) : Nat := bf d 57 41
def dOwner (d : Nat) : Nat := bf d 93 64

/-- A descriptor with a number of positions held, as far as its field of 10 bits holds it (log entry 32). -/
def setPos (d n : Nat) : Nat := setBf d 17 8 n

/-- A descriptor is written, and PE_FREE and PE_EVICT follow its kind. -/
def setDesc (s : State) (k i d : Nat) : State :=
  let old := dKind (pageDesc s k i)
  let new := dKind d
  let s := peWrite s k (descAddr s k i) (leBytes 16 d)
  let move := fun (s : State) (off kind : Nat) =>
    let r := kvpReg off k
    if old = new then s else if old = kind then setReg s r (s.reg r - 1) else if new = kind then setReg s r (s.reg r + 1) else s
  move (move s Reg.PE_FREE 0) Reg.PE_EVICT 3

/-- PE_FREE and PE_EVICT counted anew from the descriptors (R340). -/
def countPool (s : State) (k : Nat) : State :=
  let n := fun (kind : Nat) => ((List.range (kvpFrames s k)).filter fun i => dKind (pageDesc s k i) == kind).length
  setReg (setReg s (kvpReg Reg.PE_FREE k) (n 0)) (kvpReg Reg.PE_EVICT k) (n 3)

/-- The frames of a chain from frame f on (fuel: the frames of the pool). -/
def chainAux (s : State) (k : Nat) : Nat → Nat → List Nat
  | 0, _ => []
  | n + 1, f => if f = noFrame then [] else f :: chainAux s k n (dNext (pageDesc s k f))
def chain (s : State) (k f : Nat) : List Nat := chainAux s k (kvpFrames s k) f

/-! ### List headers (R325) -/

structure ListHead where
  pfx : Nat
  own : Nat
  last : Nat
  pfxPos : Nat
  ownPos : Nat
  d : Nat
  fmt : Nat
  blk : Nat
  valid : Bool
  isPrefix : Bool
  req : Nat
  bad : Bool := false
  deriving DecidableEq, Repr

def listAddr (s : State) (k j : Nat) : Nat := 65536 * (kvpMeta s k + ceilDiv (16 * kvpFrames s k) 65536) + 32 * j

/-- The header of list j; bad tells whether it sets a bit that its layout reserves, or names a reserved format (R10, R77). -/
def listHead (s : State) (k j : Nat) : ListHead :=
  let b := peBytes s k (listAddr s k j) 32
  let at4 := fun (o : Nat) => leNat ((b.drop o).take 4)
  { pfx := at4 0 % 2 ^ 23, own := at4 4 % 2 ^ 23, last := at4 8 % 2 ^ 23, pfxPos := at4 12, ownPos := at4 16,
    d := at4 20 % 512, fmt := bf (at4 20) 19 16, blk := bit (at4 20) 20, valid := bit (at4 20) 24 == 1,
    isPrefix := bit (at4 20) 25 == 1, req := at4 24,
    bad := decide (2 ^ 23 ≤ at4 0) || decide (2 ^ 23 ≤ at4 4) || decide (2 ^ 23 ≤ at4 8) || bf (at4 20) 15 9 != 0 || bf (at4 20) 23 21 != 0 ||
      bf (at4 20) 31 26 != 0 || at4 28 != 0 || decide (9 < bf (at4 20) 19 16) || (decide (6 ≤ bf (at4 20) 19 16) && bit (at4 20) 20 == 1) }

def setList (s : State) (k j : Nat) (h : ListHead) : State :=
  peWrite s k (listAddr s k j)
    (leBytes 4 h.pfx ++ leBytes 4 h.own ++ leBytes 4 h.last ++ leBytes 4 h.pfxPos ++ leBytes 4 h.ownPos ++ leBytes 2 h.d ++
      leBytes 1 (h.fmt + 16 * h.blk) ++ leBytes 1 ((if h.valid then 1 else 0) + (if h.isPrefix then 2 else 0)) ++ leBytes 4 h.req ++
      leBytes 4 0)

/-- The page engine reads the header of list j, and walks its frames: what that counts and posts (R259, R265, R325). -/
def noteHead (s : State) (k j : Nat) : State := peNote s (pageCtx s k) k (listAddr s k j) 32
def walkList (s : State) (k j : Nat) : State :=
  let h := listHead s k j
  (chain s k h.pfx ++ chain s k h.own).foldl (fun s i => peNote s (pageCtx s k) k (descAddr s k i) 16) (noteHead s k j)

/-- A list that exists. -/
def listOk (s : State) (k j : Nat) : Bool := kvpOn s k && decide (j < kvpLists s k) && (listHead s k j).valid

def listCount (h : ListHead) : Nat := h.pfxPos + h.ownPos

/-- A list handle of pool k (R325). -/
def handleOf (k j : Nat) : Nat := 2 ^ 26 * k + j
def handlePool (h : Nat) : Nat := bf h 29 26
def handleIdx (h : Nat) : Nat := bf h 25 0

/-- The lowest run of n free lists of a pool (log entry 31). -/
def freeListRun (s : State) (k n : Nat) : Option Nat :=
  (List.range (kvpLists s k)).find? fun j =>
    decide (j + n ≤ kvpLists s k) && (List.range n).all fun x => !(listHead s k (j + x)).valid

/-! ### The page forms (R141) -/

/-- The three forms of a page. -/
def pageForm (fmt blk : Nat) : Bool := (fmt == 3 && blk == 0) || (fmt == 5 && blk == 0) || (fmt == 0 && blk == 1)

/-- N_pos: the largest multiple of 16 positions whose region fits in 128 lines; with D at least 32 it is below 2,048. -/
def nPos (d fmt blk : Nat) : Nat :=
  (((List.range 128).filter fun i => decide (tensorLines fmt blk (16 * i * d) ≤ 128)).getLast?.getD 0) * 16

/-- The address of the K region of frame f, or of its V region. -/
def frameAddr (s : State) (k f : Nat) (v : Bool) : Nat := 65536 * (kvpBase s k + f) + (if v then 32768 else 0)

/-! ### Allocation and eviction (R326, R327) -/

def freeFrames (s : State) (k : Nat) : List Nat := (List.range (kvpFrames s k)).filter fun i => dKind (pageDesc s k i) == 0

def parkedAt (s : State) (e : Nat) : Option Parked := sget noneAt s.serving.parked e
def setParked (s : State) (e : Nat) (v : Option Parked) : State :=
  { s with serving.parked := sset noneAt s.serving.parked e v }

/-- The frames that an evictable session of entry e still holds. -/
def heldFrames (s : State) (k e : Nat) : List Nat :=
  (List.range (kvpFrames s k)).filter fun i => dKind (pageDesc s k i) == 3 && bf (dOwner (pageDesc s k i)) 15 0 == e

/-- All frames of a session go back at once and its EVICT bit clears (R326). -/
def evictSession (s : State) (k e : Nat) : State :=
  let s := (heldFrames s k e).foldl (fun s i => setDesc s k i 0) s
  match parkedAt s e with
  | none => s
  | some p => setParked s e (some { p with evict := false })

/-- The evictable sessions of a pool, earliest parked first. -/
def evictable (s : State) (k : Nat) : List (Nat × Parked) :=
  sortBy (fun a b => decide (a.2.order ≤ b.2.order)) (s.serving.parked.filterMap fun (e : Nat × Option Parked) =>
    match e.2 with
    | some p => if p.evict && p.pool == k then some (e.1, p) else none
    | none => none)

/-- A free frame: the lowest, after evictions where there is none (fuel: the evictable sessions). -/
def takeFrameAux (s : State) (k : Nat) : Nat → Option (State × Nat)
  | 0 => (freeFrames s k).head?.map fun f => (s, f)
  | n + 1 =>
    match freeFrames s k with
    | f :: _ => some (s, f)
    | [] =>
      match evictable s k with
      | [] => none
      | (e, _) :: _ => takeFrameAux (evictSession s k e) k n
def takeFreeFrame (s : State) (k : Nat) : Option (State × Nat) := takeFrameAux s k (evictable s k).length

/-- Frames that allocation can find: free and evictable ones. -/
def reachable (s : State) (k : Nat) : Nat :=
  (freeFrames s k).length + ((evictable s k).map fun e => (heldFrames s k e.1).length).foldl (· + ·) 0

/-- A new own page at the end of list j, in its expected form and without positions. -/
def addPage (s : State) (k j : Nat) : Option State :=
  (takeFreeFrame s k).map fun r =>
    let s := r.1
    let f := r.2
    let h := listHead s k j
    let d := h.fmt + 16 * h.blk + 32 + 2 ^ 18 * noFrame + 2 ^ 64 * handleOf k j
    let s := setDesc s k f d
    if h.own = noFrame then setList s k j { h with own := f, last := f }
    else setList (setDesc s k h.last (setBf (pageDesc s k h.last) 40 18 f)) k j { h with last := f }

/-- n new own pages; none where a frame is missing. -/
def addPages (s : State) (k j : Nat) : Nat → Option State
  | 0 => some s
  | n + 1 => (addPage s k j).bind fun s => addPages s k j n

/-- The pages that n more positions of list j need. -/
def pagesNeeded (s : State) (k j n : Nat) : Nat :=
  let h := listHead s k j
  ceilDiv (h.ownPos + n) (max 1 (nPos h.d h.fmt h.blk)) - (chain s k h.own).length

/-- The list keeps its first n own positions; emptied pages are freed (R145). -/
def truncateList (s : State) (k j n : Nat) : State :=
  let h := listHead s k j
  if h.ownPos ≤ n then s
  else
    let np := max 1 (nPos h.d h.fmt h.blk)
    let fs := chain s k h.own
    let keep := ceilDiv n np
    let s := (fs.drop keep).foldl (fun s i => setDesc s k i 0) s
    match (fs.take keep).getLast? with
    | none => setList s k j { h with own := noFrame, last := noFrame, ownPos := 0 }
    | some f =>
      let d := pageDesc s k f
      let s := setDesc s k f (setBf (setPos d (n - (keep - 1) * np)) 40 18 noFrame)
      setList s k j { h with last := f, ownPos := n }

/-! ### Prefixes (R328, R329) -/

def prefixAt (s : State) (p : Nat) : Option Prefix := sget noneAt s.serving.pfxs p
def setPrefix (s : State) (p : Nat) (v : Option Prefix) : State := { s with serving.pfxs := sset noneAt s.serving.pfxs p v }

/-- REFS of every page of a prefix chain moves by one. -/
def refChain (s : State) (k f : Nat) (up : Bool) : State :=
  (chain s k f).foldl (fun s i =>
    let d := pageDesc s k i
    setDesc s k i (setBf d 57 41 (if up then dRefs d + 1 else dRefs d - 1))) s

/-- A prefix that is retiring goes when nothing refers to any of its pages: its frames are free, its lists are gone, and
"prefix retired" is posted (R329). -/
def retirePrefix (s : State) (p : Nat) : State :=
  match prefixAt s p with
  | none => s
  | some x =>
    let lists := (List.range x.h).map fun i => x.list + i
    let frames := lists.flatMap fun j => chain s x.pool (listHead s x.pool j).pfx
    if x.retiring && frames.all fun i => dRefs (pageDesc s x.pool i) == 0 then
      let s := frames.foldl (fun s i => setDesc s x.pool i 0) s
      let s := lists.foldl (fun s j => setList s x.pool j { listHead s x.pool j with valid := false }) s
      postPool (setPrefix s p none) x.pool Cause.prefixRetired p p 1
    else s

def retirePrefixes (s : State) : State :=
  (s.serving.pfxs.map (·.1)).foldl (fun s p => retirePrefix s p) s

/-! ### Lists made and freed (R318, R327) -/

/-- A list of a request, headed by the prefix's list of the same index. -/
def makeList (s : State) (k j req d fmt blk : Nat) (pfx : Option ListHead) : State :=
  let s := setList s k j
    { pfx := (pfx.map (·.pfx)).getD noFrame, own := noFrame, last := noFrame, pfxPos := (pfx.map (·.pfxPos)).getD 0, ownPos := 0,
      d := d, fmt := fmt, blk := blk, valid := true, isPrefix := false, req := req }
  match pfx with
  | none => s
  | some h => refChain s k h.pfx true

/-- A list is freed: its own frames are free and each prefix frame's REFS falls (R327). -/
def dropList (s : State) (k j : Nat) : State :=
  let h := listHead s k j
  if !h.valid then s
  else
    let s := walkList s k j
    let s := (chain s k h.own).foldl (fun s i => setDesc s k i 0) s
    let s := refChain s k h.pfx false
    retirePrefixes (setList s k j { h with valid := false })

/-! ### Rows of K and V (R141, R145) -/

/-- The runs of bytes, from a region's first byte, of one position of D elements taken from row r of a tensor of rows. -/
def rowUnits (v : ByteView) (d fmt blk rows r np pos : Nat) : List (Nat × List Byte) :=
  let per := d / unitElems fmt blk
  let ub := unitBytes fmt blk
  (List.range per).flatMap fun u =>
    [(unitOffset fmt blk (pos * per + u), (List.range ub).map fun b => v (unitOffset fmt blk (r * per + u) + b)),
      (scaleOffset fmt blk (np * per) (pos * per + u), [v (scaleOffset fmt blk (rows * per) (r * per + u))])]

/-- Runs of bytes at offsets from an address, written to the pages of pool k. -/
def gPut (s : State) (k a : Nat) (ws : List (Nat × List Byte)) : State :=
  ws.foldl (fun s w => peWrite s k (a + w.1) w.2) s

/-- One position appended to list j: row r of the K rows at kv and of the V rows at vv, in a page that exists or is
allocated; none where no page is found. -/
def appendRow (s : State) (k j rows r : Nat) (kv vv : ByteView) : Option State :=
  let h := listHead s k j
  let np := max 1 (nPos h.d h.fmt h.blk)
  let i := h.ownPos / np
  let s? := if i < (chain s k h.own).length then some s else addPage s k j
  s?.map fun s =>
    let h := listHead s k j
    let f := getNth noFrame (chain s k h.own) i
    let put := fun (s : State) (v : Bool) (src : ByteView) =>
      gPut s k (frameAddr s k f v) (rowUnits src h.d h.fmt h.blk rows r np (h.ownPos % np))
    let s := put (put s false kv) true vv
    let s := setDesc s k f (setPos (pageDesc s k f) (h.ownPos % np + 1))
    setList s k j { h with ownPos := h.ownPos + 1 }

/-- A page's place in a list: frame, form, first logical position and positions held (R142). -/
structure PageAt where
  frame : Nat
  fmt : Nat
  blk : Nat
  first : Nat
  held : Nat
  deriving DecidableEq, Repr

/-- The pages of a list in order (R142): a prefix page is full in its own form, and the own pages hold the list's own
positions in order, all but the last of them full. A descriptor that sets a reserved bit gives its page a reserved form (R10; log
entry 160). -/
def listPages (s : State) (k j : Nat) : List PageAt :=
  let h := listHead s k j
  let np := nPos h.d h.fmt h.blk
  let pfx := (chain s k h.pfx).map fun f =>
    let d := pageDesc s k f
    (f, d, if pageForm (dFmt d) (dBlk d) then nPos h.d (dFmt d) (dBlk d) else dPos d)
  let own := (chain s k h.own).zipIdx.map fun (x : Nat × Nat) => (x.1, pageDesc s k x.1, min np (h.ownPos - np * x.2))
  ((pfx ++ own).foldl (fun (acc : List PageAt × Nat) x =>
    (acc.1 ++ [{ frame := x.1, fmt := if descBad x.2.1 then 0xF else dFmt x.2.1, blk := dBlk x.2.1, first := acc.2, held := x.2.2 }],
      acc.2 + x.2.2)) ([], 0)).1

end Sys2Proof.Machine
end

