-- ==== Sys2Proof/Machine/Serving.lean ====
section
/-! DEFINITION. The queue manager and the page engine at work: pins, records of a request, its end, parking and
restoring, families and their steps, and the tokens that a sampler posts (R278, R282, R283, R312 to R322, R330 to R338). -/

namespace Sys2Proof.Machine

/-! ### Blanks and pins (R278, R282, R283, R285) -/

/-- A blank-page register of adapter a of model slot m. -/
def adpKey (off m a : Nat) : Nat := blkKey off (adpItem m a)

/-- A pin on version v is taken or released where v is the current or the previous version. -/
def movePin (s : State) (cur prev pinsCur pinsPrev v : Nat) (up : Bool) : State :=
  let step := fun (s : State) (k : Nat) => setReg s k (if up then satAdd 24 (s.reg k) 1 else s.reg k - 1)
  if v = 0 then s
  else if s.reg cur = v then step s pinsCur
  else if s.reg prev = v then step s pinsPrev
  else s

def pinBase (s : State) (m v : Nat) (up : Bool) : State :=
  movePin s (blkKey Reg.BLK_CUR m) (blkKey Reg.BLK_PREV m) (blkKey Reg.BLK_PINS_CUR m) (blkKey Reg.BLK_PINS_PREV m) v up
def pinAdapter (s : State) (m : Nat) (a : Option Nat) (v : Nat) (up : Bool) : State :=
  match a with
  | none => s
  | some a =>
    movePin s (adpKey Reg.ADP_CUR m a) (adpKey Reg.ADP_PREV m a) (adpKey Reg.ADP_PINS_CUR m a) (adpKey Reg.ADP_PINS_PREV m a) v up

/-- Version v of a model is live: current, or previous with a pin (R278). -/
def baseLive (s : State) (m v : Nat) : Bool :=
  v != 0 && (s.reg (blkKey Reg.BLK_CUR m) == v ||
    (s.reg (blkKey Reg.BLK_PREV m) == v && s.reg (blkKey Reg.BLK_PINS_PREV m) != 0))
def adapterLive (s : State) (m a v : Nat) : Bool :=
  v != 0 && (s.reg (adpKey Reg.ADP_CUR m a) == v ||
    (s.reg (adpKey Reg.ADP_PREV m a) == v && s.reg (adpKey Reg.ADP_PINS_PREV m a) != 0))

/-- Admission of a model, or of an adapter of it, is held (R281, R285). -/
def heldModel (s : State) (m : Nat) (a : Option Nat) : Bool :=
  bit (s.reg (blkKey Reg.BLK_STATE m)) 0 == 1 ||
    (match a with | none => false | some a => bit (s.reg (adpBits Reg.BLK_STATE m a)) 1 == 1)

/-! ### Requests -/

def reqOf (s : State) (id : Nat) : Option Request := s.serving.reqs.find? fun r => r.id == id
def setReq (s : State) (r : Request) : State :=
  { s with serving.reqs := s.serving.reqs.map fun x => if x.id = r.id then r else x }
def dropReq (s : State) (id : Nat) : State := { s with serving.reqs := s.serving.reqs.filter fun x => x.id != id }

/-- The next position of a request: what its first list holds, or what it held when its lists went. -/
def reqPos (s : State) (r : Request) : Nat :=
  match r.st with
  | .parked => r.pos
  | .restoring => r.pos
  | _ => listCount (listHead s r.pool r.list)

/-- A token record (R315). -/
def tokenRecord (r : Request) (token pos w kind flags : Nat) : List Byte :=
  leBytes 4 r.id ++ leBytes 4 token ++ leBytes 4 pos ++ leBytes 4 w ++ leBytes 2 kind ++ leBytes 2 flags ++
    leBytes 4 (r.base % 2 ^ 20) ++ leBytes 4 (r.adp % 2 ^ 20 + 2 ^ 20 * (r.adapter.getD 0 % 4096)) ++ leBytes 4 r.seq

/-- A record other than a token is posted to a request's ring; its sequence number advances. -/
def noteReq (s : State) (r : Request) (kind pos w : Nat) : State :=
  setReq (postRing s r.ring (tokenRecord r 0xFFFFFFFF pos w kind 0)) { r with seq := r.seq + 1 }

/-- Pins of a request released (R282). -/
def releasePins (s : State) (r : Request) : State := pinAdapter (pinBase s r.model r.base false) r.model r.adapter r.adp false

/-! ### Completions (R313, R314) -/

namespace Cmd

/-! The statuses of R314. -/

abbrev done : Nat := 0
abbrev alreadyComplete : Nat := 1
abbrev unknownRequest : Nat := 2
abbrev duplicate : Nat := 3
abbrev noLists : Nat := 4
abbrev notLive : Nat := 5
abbrev outsidePartition : Nat := 6
abbrev farFull : Nat := 7
abbrev parkFull : Nat := 8
abbrev reservedEncoding : Nat := 9
abbrev expired : Nat := 10
abbrev busy : Nat := 11

end Cmd

/-- A completion record goes to the command queue's event queue. -/
def complete (s : State) (q tag req op status result : Nat) : State :=
  let s := if status ≤ 1 then s else incReg s (ringPage + Reg.QM_REFUSED) 1
  let rec32 := leBytes 1 1 ++ leBytes 1 status ++ leBytes 2 tag ++ leBytes 4 req ++ leBytes 1 op ++ leBytes 3 0 ++ leBytes 4 result ++
    leBytes 8 s.time.now ++ leBytes 8 0
  if ringKind s (ringPair s q) = 3 then postRing s (ringPair s q) rec32 else s

/-! ### Lists and the ATTN entries that name them (R154) -/

def famAt (s : State) (i : Nat) : Option Family := sget noneAt s.serving.fams i
def setFam (s : State) (i : Nat) (f : Option Family) : State := { s with serving.fams := sset noneAt s.serving.fams i f }

/-- The family of a batch set of a pool, with the set's place in it (R320). -/
def famOfSet (s : State) (k idx : Nat) : Option (Nat × Family × Nat) :=
  s.serving.fams.findSome? fun (e : Nat × Option Family) =>
    match e.2 with
    | some f => if f.pool == k && decide (f.set0 ≤ idx) && decide (idx < f.set0 + f.h) then some (e.1, f, idx - f.set0) else none
    | none => none

/-- The handle that core c of an ATTN uses (R140). -/
def coreHandle (e c : Nat) : Nat := (bf (Ent.atPlist e) 30 0 + c) % 2 ^ 31
def isSet (e : Nat) : Bool := bit (Ent.atPlist e) 31 == 1

/-- The lists that an ATTN names, as (pool, list): of a batch set those of the members that its family has now. -/
def attnLists (s : State) (e : Nat) : List (Nat × Nat) :=
  (setBits (Ent.cores e) 16).flatMap fun c =>
    let h := coreHandle e c
    if isSet e then
      match famOfSet s (handlePool h) (handleIdx h) with
      | none => []
      | some (_, fam, x) => fam.members.filterMap fun m => (m.bind (reqOf s)).map fun r => (fam.pool, r.list + x)
    else [(handlePool h, handleIdx h)]

/-- An ATTN in flight named list j of pool k when it issued. -/
def attnNames (f : Flight) (k j : Nat) : Bool :=
  match f.work with
  | .attn _ lists => lists.contains (k, j)
  | _ => false

def listBusy (s : State) (k j : Nat) : Bool := s.seq.flights.any fun f => attnNames f k j
def reqBusy (s : State) (r : Request) : Bool := (List.range r.h).any fun x => listBusy s r.pool (r.list + x)

/-- Lists that wait to be freed are, once no ATTN names them and no channel holds their pool; a list that has become a prefix's
stays. -/
def settleLists (s : State) : State :=
  s.serving.freeing.foldl (fun s (e : Nat × Nat) =>
    if listBusy s e.1 e.2 || poolHeld s e.1 then s
    else
      let s := { s with serving.freeing := s.serving.freeing.filter fun x => x != e }
      if (listHead s e.1 e.2).isPrefix then s else dropList s e.1 e.2) s

def freeLists (s : State) (r : Request) : State :=
  settleLists { s with serving.freeing := s.serving.freeing ++ (List.range r.h).map fun x => (r.pool, r.list + x) }

/-! ### The end of a request (R319, R338) -/

/-- A ring whose request has ended is unbound once its last record has been consumed (R338). -/
def unbindRing (s : State) (n : Nat) : State :=
  let r := s.ring n
  if (s.serving.done.any fun e => e.1 == n) && r.pend.isEmpty && r.held.isEmpty && ringUsed r == 0 then
    { setRing s n { r with bound := false, reqId := 0xFFFFFFFF } with
      serving.done := s.serving.done.filter fun e => e.1 != n }
  else s

/-- The request is gone, completed or not; its ring unbinds when its records are consumed. -/
def retireReq (s : State) (r : Request) (completed : Bool) : State :=
  unbindRing { dropReq s r.id with serving.done := s.serving.done ++ [(r.ring, r.id, completed)] } r.ring

/-- A command that waited on a request is completed. -/
def completeWaiting (s : State) (r : Request) (w : Option (Nat × Nat)) (op status result : Nat) : State :=
  match w with
  | none => s
  | some (tag, q) => complete s q tag r.id op status result

/-- A request ends with a record of a kind: COMPLETE or CANCELLED. Its lists are freed and its pins released where it
holds them. -/
def endReq (s : State) (r : Request) (kind pos : Nat) (pins lists : Bool) : State :=
  let s := noteReq s r kind pos 0
  let s := incReg s (ringPage + (if kind = 1 then Reg.QM_COMPLETES else Reg.QM_CANCELS)) 1
  let s := if pins then releasePins s r else s
  let s := if lists then freeLists s r else s
  retireReq s r (kind == 1)

/-- A request that ended on its final token: a PAUSE or CANCEL that waited on it finds it complete (R332, R338). -/
def completeReq (s : State) (r : Request) (pos : Nat) : State :=
  let s := endReq s r 1 pos true true
  completeWaiting (completeWaiting s r r.pause 3 Cmd.alreadyComplete 0) r r.cancel 2 Cmd.alreadyComplete 0

/-- A CANCEL takes effect on a request that holds lists and pins (R338). -/
def cancelReq (s : State) (r : Request) : State :=
  let s := endReq s r 4 (reqPos s r) true true
  completeWaiting (completeWaiting s r r.pause 3 Cmd.unknownRequest 0) r r.cancel 2 Cmd.done 0

/-- The copy of a session image of pool k cannot proceed: a channel holds the pool (R257), or its storage target is not registered,
or the target's link is not up in storage mode for the pool's group, or is paused (R271, R363, R364; log entry 161). -/
def copyHeld (s : State) (k : Nat) : Bool :=
  poolHeld s k || !((s.target (bf (s.reg (kvpReg Reg.FAR_TGT k)) 7 0)).any fun t =>
    storageLink s ((lowPart (kvpParts s k)).getD 0) t.link && !(s.link t.link).paused)

/-- The storage engines move the image of a parked entry. -/
def Parked.moving (p : Parked) : Bool := p.st == 1 || p.copying

/-! ### Parking (R330 to R332, R335, R336, R439) -/

/-- The lowest free entry of the parked table. -/
def freeEntry (s : State) : Option Nat := (List.range 65536).find? fun e => (parkedAt s e).isNone

/-- The far runs that the entries of a pool hold. -/
def farRuns (s : State) (k : Nat) : List (Nat × Nat) :=
  s.serving.parked.filterMap fun (e : Nat × Option Parked) =>
    match e.2 with | some p => if p.pool == k then some (p.first, p.exts) else none | none => none

/-- First fit: the lowest run of n extents of the pool's far window that meets no other. -/
def farFit (s : State) (k n : Nat) : Option Nat :=
  let runs := farRuns s k
  let ok := fun (a : Nat) => decide (a + n ≤ bf (s.reg (kvpReg Reg.FAR_EXTENTS k)) 27 0) &&
    runs.all fun r => decide (a + n ≤ r.1) || decide (r.1 + r.2 ≤ a)
  (sortBy (fun a b => decide (a ≤ b)) (0 :: runs.map fun r => r.1 + r.2)).find? ok

/-- The far write serial of a slot (R439): taken and advanced; none where it would pass 2^40 − 1. -/
def serialNow (s : State) (k : Nat) : Nat := s.reg (slotKey Reg.SLOT_SERIAL_LO k) + 2 ^ 32 * s.reg (slotKey Reg.SLOT_SERIAL_HI k)
def takeSerial (s : State) (k : Nat) : Option (State × Nat) :=
  let v := serialNow s k
  if 2 ^ 40 - 1 ≤ v then none
  else some (setReg (setReg s (slotKey Reg.SLOT_SERIAL_LO k) ((v + 1) % 2 ^ 32)) (slotKey Reg.SLOT_SERIAL_HI k) ((v + 1) / 2 ^ 32), v)

/-- The turn at which a session parked now with a time to live in seconds expires (R332). -/
def expiryTurn (s : State) (ttl : Nat) : Nat := s.turn + ceilDiv (ttl * 10 ^ 9) 1024

/-- A session of a request is to be parked: the entry, the far run and the serial, or the status that refuses it. -/
def parkPlace (s : State) (r : Request) (n : Nat) : Except Nat (Nat × Nat) :=
  match freeEntry s with
  | none => .error Cmd.parkFull
  | some e =>
    match farFit s r.pool n with
    | none => .error Cmd.farFull
    | some a => .ok (e, a)

/-- The request leaves for the far tier: pins released, entry and run held, the copy begins (R332, R335). The status of
a refusal otherwise; a slot whose serials are used up refuses the far write (R439; log entry 33). -/
def parkReq (s : State) (r : Request) (preempted : Bool) : State × Option Nat :=
  let pages := (List.range r.h).map fun x => chain s r.pool (listHead s r.pool (r.list + x)).own
  let n := 1 + 16 * (pages.map (·.length)).foldl (· + ·) 0
  match parkPlace s r n with
  | .error st => (s, some st)
  | .ok (e, a) =>
    match takeSerial s (kvpSlot s r.pool) with
    | none => (post s pePage
        { cause := Cause.farSerialExhausted, die := 62, time := s.time.now, partition := lowPart (kvpParts s r.pool),
          slot1 := some (kvpSlot s r.pool) }, some Cmd.farFull)
    | some (s, serial) =>
      let s := (List.range r.h).foldl (fun s x => walkList s r.pool (r.list + x)) s
      let pttl := bf (s.reg (kvpReg Reg.PX_TTL r.pool)) 16 0
      let ttl := if preempted then (if r.ttl = 0 then pttl else r.ttl) else r.pauseTtl
      let head := listHead s r.pool r.list
      let counts := (List.range r.h).map fun x => (listHead s r.pool (r.list + x)).ownPos
      let p : Parked :=
        { st := 1, req := r.id, ring := r.ring, pool := r.pool, model := r.model, pfx := r.pfx, base := r.base, adapter := r.adapter,
          adp := r.adp, first := a, exts := n, expiry := expiryTurn s ttl, preempted := preempted, evict := false,
          serial := serial, d := head.d, fmt := head.fmt, blk := head.blk, counts := counts, frames := pages }
      let pos := reqPos s r
      let s := setParked (releasePins s r) e (some p)
      (setReq s { r with st := .parking, entry := some e, pos := pos, starved := 0, due := false }, none)

/-- A request that is not parked after all goes on unchanged: as a member, or where a snapshot has passed it over, as one
that is ready. -/
def goOn (s : State) (r : Request) : Request :=
  let member := (famAt s r.fam).any fun f => f.members.contains (some r.id)
  { r with due := false, st := if r.st == .decode && !member then .ready else r.st }

/-- A PAUSE takes effect, or waits for the ATTNs that name a list of the request (R154); a refusal completes it and the
request goes on (R332). -/
def pauseReq (s : State) (r : Request) : State :=
  if reqBusy s r || poolHeld s r.pool then setReq s { r with due := true }
  else match parkReq s r false with
    | (s, none) => s
    | (s, some st) => completeWaiting (setReq s { goOn s r with pause := none }) r r.pause 3 st 0

/-- A preemption, counted when it takes effect, or waiting for the ATTNs that name a list of the request (R154, R335, R340):
where it finds no place the request keeps stalling, and the cause is posted once (R336). -/
def preemptReq (s : State) (r : Request) : State :=
  if reqBusy s r || poolHeld s r.pool then setReq s { r with due := true }
  else match parkReq s r true with
    | (s, none) => incReg s (pePage + Reg.PE_PREEMPTS) 1
    | (s, some st) =>
      let s := setReq s { goOn s r with fullPosted := true }
      if r.fullPosted then s
      else postPool s r.pool (if st = Cmd.parkFull then Cause.parkFull else Cause.farFull) r.id r.ring 1

/-- The header extent of a session image (R330): lists per request, D, expected format and block bit, three zero bytes, and
the own positions of every list; zeros to the end of the extent. -/
def imageHeader (p : Parked) : List Byte :=
  padTo 4096 0 (leBytes 2 p.counts.length ++ leBytes 2 p.d ++ leBytes 1 (p.fmt + 16 * p.blk) ++ leBytes 3 0 ++ p.counts.flatMap (leBytes 4))

/-- The entry is freed: its frames, its run and its reference to a prefix go (R334, R338). -/
def freeParked (s : State) (e : Nat) : State :=
  match parkedAt s e with
  | none => s
  | some p =>
    let s := if p.evict then evictSession s p.pool e else s
    let s := setParked s e none
    match p.pfx.bind (prefixAt s) with
    | none => s
    | some x => retirePrefixes ((List.range x.h).foldl (fun s i => refChain s p.pool (listHead s p.pool (x.list + i)).pfx false) s)

/-- The copy of a session image is done (R332, R335): the own frames become evictable under the entry, the lists go, and
PAUSED or PREEMPTED is posted. A CANCEL that waited takes effect now (R338). -/
def parkedNow (s : State) (e : Nat) (p : Parked) (r : Request) : State :=
  let fs := p.frames.flatten
  let s := fs.zipIdx.foldl (fun s (x : Nat × Nat) =>
    let d := pageDesc s p.pool x.1
    setDesc s p.pool x.1 (setBf (setBf (setBf d 6 5 3) 40 18 (getNth noFrame fs (x.2 + 1))) 93 64 e)) s
  let s := (List.range r.h).foldl (fun s x =>
    setList s p.pool (r.list + x) { listHead s p.pool (r.list + x) with valid := false }) s
  let o := s.serving.order
  let s := { setParked s e (some { p with st := 2, evict := true, order := o }) with serving.order := o + 1 }
  let r := { r with st := .parked }
  let s := setReq s r
  if r.cancel.isSome then
    let s := freeParked s e
    let s := endReq s r 4 r.pos false false
    completeWaiting (completeWaiting s r r.pause 3 Cmd.unknownRequest 0) r r.cancel 2 Cmd.done 0
  else
    let s := noteReq s r (if p.preempted then 3 else 5) r.pos 0
    let r' := ((reqOf s r.id).getD r)
    completeWaiting (setReq s { r' with pause := none }) r r.pause 3 Cmd.done e

/-! ### Restoring (R283, R333) -/

/-- Positions of a page of a parked session, and the pages of its lists (R141, R330). -/
def parkedNpos (p : Parked) : Nat := max 1 (nPos p.d p.fmt p.blk)
def parkedPages (p : Parked) : Nat := (p.counts.map fun n => ceilDiv n (parkedNpos p)).foldl (· + ·) 0

/-- The h lists of a restored request, from list j on, with the head dimension and form that the image's header gives
(R330, R333). -/
def restoreLists (s : State) (p : Parked) (j : Nat) : State :=
  (List.range p.counts.length).foldl (fun s x =>
    let pf := (p.pfx.bind (prefixAt s)).map fun q => listHead s q.pool (q.list + x)
    makeList s p.pool (j + x) p.req p.d p.fmt p.blk pf) s

/-- Frames of a list become private to it in order, with the positions that the image's header gives. -/
def claimFrames (s : State) (k j np n : Nat) (fs : List Nat) : State :=
  let s := fs.zipIdx.foldl (fun s (x : Nat × Nat) =>
    let d := pageDesc s k x.1
    let held := min np (n - np * x.2)
    setDesc s k x.1 (setBf (setBf (setPos (setBf d 6 5 1) held) 40 18 (getNth noFrame fs (x.2 + 1))) 93 64 (handleOf k j))) s
  setList s k j { listHead s k j with own := fs.headD noFrame, last := (fs.getLast?).getD noFrame, ownPos := n }

/-- The versions that a restored request pins: those it held where they are live, else the current ones, marked (R283). -/
def repin (s : State) (r : Request) (p : Parked) : State × Request :=
  let b := if baseLive s p.model p.base then p.base else s.reg (blkKey Reg.BLK_CUR p.model)
  let a := match p.adapter with
    | none => 0
    | some x => if adapterLive s p.model x p.adp then p.adp else s.reg (adpKey Reg.ADP_CUR p.model x)
  (pinAdapter (pinBase s p.model b true) p.model p.adapter a true,
    { r with base := b, adp := a, changed := r.changed || b != p.base || a != p.adp })

/-- The request is restored: pinned, its entry freed, RESUMED posted, and ready in its family. A CANCEL that waited takes
effect now. -/
def restored (s : State) (e : Nat) (p : Parked) (r : Request) : State :=
  let (s, r) := repin s r p
  let s := freeParked s e
  let o := s.serving.order
  let r := { r with st := .ready, entry := none, order := o }
  let s := { setReq s r with serving.order := o + 1 }
  let s := noteReq s r 6 r.pos 0
  let r := (reqOf s r.id).getD r
  let s := completeWaiting (setReq s { r with resume := none }) r r.resume 4 Cmd.done 0
  if r.cancel.isSome then cancelReq s { r with resume := none } else s

/-- A RESUME tries to find lists and frames; it waits where it finds none (R333). With EVICT set nothing is read. -/
def tryResume (s : State) (e : Nat) (p : Parked) (r : Request) : State :=
  let np := parkedNpos p
  let h := p.counts.length
  match freeListRun s p.pool h with
  | none => s
  | some j =>
    let r' := { r with list := j, h := h }
    if p.evict then
      let s := restoreLists s p j
      let s := (p.frames.zipIdx).foldl (fun s (x : List Nat × Nat) =>
        claimFrames s p.pool (j + x.2) np (getNth 0 p.counts x.2) x.1) s
      restored (setParked s e (some { p with evict := false })) e p r'
    else if parkedPages p ≤ reachable s p.pool then
      let s := restoreLists s p j
      let s := (p.counts.zipIdx).foldl (fun s (x : Nat × Nat) =>
        let s := (addPages s p.pool (j + x.2) (ceilDiv x.1 np)).getD s
        claimFrames s p.pool (j + x.2) np x.1 (chain s p.pool (listHead s p.pool (j + x.2)).own)) s
      setReq (setParked s e (some { p with copying := true })) { r' with resume := r.resume }
    else s

/-! ### Steps (R321, R322, R335) -/

/-- A ready request that family i places: it waits for a member of it (R316, R333), and is of its model, pool and lists, and of its
version where it has one (log entry 34). A request whose pending store is full takes no step (R312). -/
def placeable (s : State) (i : Nat) (f : Family) (base : Nat) (r : Request) : Bool :=
  r.st == .ready && !r.due && r.fam == i && r.model == f.model && r.pool == f.pool && r.h == f.h && (base == 0 || r.base == base) && !pendFull s r.ring

/-- Vacant members are filled in the order of becoming ready, lowest index first (fuel: the members). -/
def fillMembers (s : State) (i : Nat) : Nat → State
  | 0 => s
  | n + 1 =>
    match famAt s i with
    | none => s
    | some f =>
      let base := if f.members.all Option.isNone then 0 else f.base
      match f.members.findIdx? Option.isNone,
          (sortBy (fun a b => decide (a.order ≤ b.order)) (s.serving.reqs.filter fun r => placeable s i f base r)).head? with
      | some m, some r =>
        let f := { f with members := f.members.set m (some r.id), base := if base = 0 then r.base else base }
        fillMembers (setReq (setFam s i (some f)) { r with st := .decode }) i n
      | _, _ => s

/-- Member m of an occupied place reserves the pages of its h appends, or is starved for the step (R321, R335). -/
def reserveMember (s : State) (i m : Nat) (r : Request) : State :=
  let starve := fun (s : State) => match famAt s i with
    | none => s
    | some f => setFam s i (some { f with starved := f.starved ++ [m] })
  if pendFull s r.ring then starve s
  else
    let s := (List.range r.h).foldl (fun s x => walkList s r.pool (r.list + x)) s
    let need := ((List.range r.h).map fun x => pagesNeeded s r.pool (r.list + x) 1).foldl (· + ·) 0
    if need ≤ reachable s r.pool then
      let s := (List.range r.h).foldl (fun s x =>
        (addPages s r.pool (r.list + x) (pagesNeeded s r.pool (r.list + x) 1)).getD s) s
      setReq s { r with starved := 0, fullPosted := false }
    else
      let r := { r with starved := r.starved + 1 }
      starve (noteReq (incReg (setReq s r) (pePage + Reg.PE_STALLS) 1) r 2 (reqPos s r + 1) r.starved)

/-- Row r of the member table (R321). -/
def memberRow (s : State) (m : Option Nat) : List Byte :=
  match m.bind (reqOf s) with
  | none => leBytes 4 0 ++ leBytes 4 0xFFFFFFFF ++ leBytes 8 0
  | some r => leBytes 4 r.ring ++ leBytes 4 r.id ++ leBytes 4 (reqPos s r + 1) ++ leBytes 4 r.stream

/-- A step of family i opens with its snapshot (R321). -/
def openStep (s : State) (i : Nat) : State :=
  match famAt s i with
  | none => s
  | some f =>
    let keep := f.members.map fun m => m.filter fun id => (reqOf s id).any fun r => r.st == .decode && !r.due && r.fam == i
    let s := setFam s i (some { f with members := keep, opened := true, starved := [] })
    let s := fillMembers s i f.members.length
    let ms := ((famAt s i).getD f).members
    let s := ms.zipIdx.foldl (fun s (x : Option Nat × Nat) =>
      match x.1.bind (reqOf s) with
      | none => s
      | some r => reserveMember s i x.2 r) s
    let cl := nsCluster f.table
    let c : Ctx := { page := pePage, die := 62, cluster := cl % 9, core := nsCore f.table, slot := actingSlot s cl }
    ms.zipIdx.foldl (fun s (x : Option Nat × Nat) => nsWriteRun s c (f.table + 32 * x.2) (memberRow s x.1)) s

/-- A step closes (R321): the CANCELs and PAUSEs that waited take effect, and members that have starved PX_LIMIT steps in
a row are preempted. -/
def closeStep (s : State) (i : Nat) : State :=
  match famAt s i with
  | none => s
  | some f =>
    let s := setFam s i (some { f with opened := false, starved := [] })
    f.members.zipIdx.foldl (fun s (x : Option Nat × Nat) =>
      match x.1.bind (reqOf s) with
      | none => s
      | some r =>
        let limit := bf (s.reg (kvpReg Reg.PX_LIMIT f.pool)) 15 0
        if r.st != .decode then s
        else if r.cancel.isSome then cancelReq s r
        else if r.pause.isSome then pauseReq s r
        else if f.starved.contains x.2 ∧ limit ≤ r.starved ∧ r.starved ≠ 0 then preemptReq s r
        else s) s

/-- A request in prefill is ready once each of its lists holds the prefix and the prompt and a token record has been
posted (R318). -/
def checkReady (s : State) (id : Nat) : State :=
  match reqOf s id with
  | none => s
  | some r =>
    if r.st == .prefill && r.made != 0 && !poolHeld s r.pool && (List.range r.h).all fun x =>
        decide (r.prompt ≤ (listHead s r.pool (r.list + x)).ownPos) then
      let o := s.serving.order
      { setReq s { r with st := .ready, order := o } with serving.order := o + 1 }
    else s

/-- What waits on the completion of an ATTN: lists freed, PAUSEs and preemptions that are due, CANCELs of requests in
prefill (R154, R332, R335, R338). -/
def settleServing (s : State) : State :=
  let s := settleLists s
  (s.serving.reqs.map (·.id)).foldl (fun s id =>
    match reqOf s id with
    | none => s
    | some r =>
      if r.due then (if r.pause.isSome then pauseReq s r else preemptReq s r)
      else if r.st == .prefill && r.cancel.isSome && !reqBusy s r then cancelReq s r
      else checkReady s id) s

/-! ### Tokens (R157, R160 to R162, R319) -/

/-- A row's record reaches its ring: the queue manager numbers it, finds whether its token is final and ends the request
on it. A row whose request is being cancelled posts nothing unless its token is final (R338). A row that names no
request bound to the ring is posted as it stands (log entry 35). -/
def acceptToken (s : State) (ring : Nat) (row : List Byte) : State :=
  let w := fun (o : Nat) => leNat ((row.drop o).take 4)
  let id := w 4
  let token := w 0x10
  let fl := w 0x18
  let flags := bit fl 3 + 2 * bit fl 1 + 4 * bit fl 2
  match (reqOf s id).filter fun r => r.ring == ring with
  | none =>
    putRecord s ring (leBytes 4 id ++ leBytes 4 token ++ leBytes 4 (w 8) ++ leBytes 4 (w 0x14) ++ leBytes 2 0 ++ leBytes 2 flags ++
      leBytes 12 0)
  | some r =>
    let made := r.made + 1
    let stop := token != 0xFFFFFFFF && r.stops.contains token
    let final := stop || decide (r.max ≤ made)
    if r.cancel.isSome && !final then s
    else
      let flags := flags + (if r.changed then 8 else 0) + (if final then 16 else 0) + (if stop then 32 else 0) +
        (if final && !stop then 64 else 0)
      let s := putRecord s ring (tokenRecord r token (w 8) (w 0x14) 0 flags)
      let r := { r with made := made, seq := r.seq + 1, changed := false, final := final }
      let s := setReq s r
      if final then completeReq s r (w 8) else checkReady s id

/-- The rows that wait are posted in order while their rings take them; what still waits (R162). -/
def postRows : State → List (Nat × List Byte) → State × List (Nat × List Byte)
  | s, [] => (s, [])
  | s, (n, row) :: rest => if ringTakes s n then postRows (acceptToken s n row) rest else (s, (n, row) :: rest)

end Sys2Proof.Machine
end

