-- ==== Sys2Proof/Machine/Commands.lean ====
section
/-! DEFINITION. Doorbells, host reads and writes, and the commands of the queue manager (R281, R311 to R314, R317, R318,
R320, R328 to R338, R402 to R405). -/

namespace Sys2Proof.Machine

/-! ### Doorbells (R403, R404) -/

/-- A doorbell's acknowledgement: the index in effect and whether it was applied. -/
def ackDoorbell (s : State) (tag n party idx status : Nat) : State :=
  sendPort s { type := 5, tag := tag, arg0 := n + 2 ^ 16 * party + 2 ^ 24 * status, arg1 := idx }

def diff32 (a b : Nat) : Nat := (a % 2 ^ 32 + 2 ^ 32 - b) % 2 ^ 32

/-- A producer doorbell is applied (R404). -/
def producerOk (s : State) (n q : Nat) : Bool :=
  let r := s.ring n
  ringLive s n 2 && decide (0 < diff32 q r.prod) && decide (diff32 q r.cons ≤ ringCap s n)
/-- A consumer doorbell is applied (R404). -/
def consumerOk (s : State) (n q : Nat) : Bool :=
  let r := s.ring n
  (ringLive s n 1 || ringLive s n 3) && decide (0 < diff32 q r.cons) && decide (diff32 q r.cons ≤ ringUsed r)

/-- A ring of a slot that is being parted refuses doorbells, and they are counted (R442, R447). -/
def ringParting (s : State) (n : Nat) : Bool := slotParting s (ringSlot s n) && ringParts s n &&& slotParts s (ringSlot s n) != 0
def refusedBell (s : State) (n : Nat) : State :=
  incReg (if ringParting s n then countRefused s (ringSlot s n) else s) (portReg Reg.DB_REFUSED) 1

/-- PRODUCER_DOORBELL (R403, R404). -/
def execProducerDoorbell (h : PortHead) (tag n q : Nat) (s : State) : Res :=
  .next (withPort s 4 h fun s =>
    let n := n % 4096
    if producerOk s n q && !ringParting s n then
      ackDoorbell (incReg (setRing s n { s.ring n with prod := q % 2 ^ 32 }) (portReg Reg.DB_COUNT) 1) tag n 0 (q % 2 ^ 32) 0
    else ackDoorbell (refusedBell s n) tag n 0 (s.ring n).prod 1)

/-- CONSUMER_DOORBELL (R311, R338, R403, R404). -/
def execConsumerDoorbell (h : PortHead) (tag n q : Nat) (s : State) : Res :=
  .next (withPort s 4 h fun s =>
    let n := n % 4096
    if consumerOk s n q && !ringParting s n then
      let s := incReg (setRing s n { s.ring n with cons := q % 2 ^ 32 }) (portReg Reg.DB_COUNT) 1
      ackDoorbell (unbindRing s n) tag n 1 (q % 2 ^ 32) 0
    else ackDoorbell (refusedBell s n) tag n 1 (s.ring n).cons 1)

/-! ### Host reads and writes (R311, R402, R405) -/

/-- HOST_READ_REQUEST (R311, R402): the commands of queue n that wait in its mirror, up to the end of the mirror and to
4,096 bytes, one request of a queue at a time. -/
def execHostReadRequest (n : Nat) (s : State) : Res :=
  .next (
    let r := s.ring n
    let have' := diff32 r.prod r.fetched
    if n < 4096 ∧ ringLive s n 2 ∧ portUp s ∧ have' ≠ 0 ∧ !(s.port.reads.any fun x => x.why == .commands n) then
      let k := min (min have' 64) (ringCap s n - r.fetched % ringCap s n)
      sendHostRead s (.commands n) (mirrorAt s n r.fetched) (64 * k)
    else s)

/-- The next read of a STORE, of up to 4,096 bytes (R402, R409). -/
def nextStoreRead (s : State) (x : HostXfer) : State :=
  if x.len ≤ x.done then s else sendHostRead s (.store x.id) (x.caddr + x.done) (min 4096 (x.len - x.done))

/-- The storage engine's context: it acts for no cluster, under the slot named (R265, R409). -/
def storageCtx (slot : Option Nat) : Ctx := { page := pPage 0x1E, die := 62, slot := slot }

/-- Bytes of a STORE reach their M-die, which refuses them where the range is queued for sanding (R269), and holds them where a
channel retrains (R257). -/
def storeBytes (s : State) (slot : Option Nat) (a : Nat) (bs : List Byte) : State := gAccept s (storageCtx slot) a bs

/-- HOST_READ_RESPONSE (R311, R402, R409): the answer to an outstanding read, of the length asked for. -/
def execHostReadResponse (h : PortHead) (tag : Nat) (bytes : List Byte) (s : State) : Res :=
  .next (withPort s 3 h fun s =>
    match s.port.reads.find? fun x => x.tag == tag && x.len == bytes.length with
    | none => s
    | some x =>
      let s := { s with port.reads := s.port.reads.filter fun y => y.tag != tag }
      match x.why with
      | .commands n =>
        let r := s.ring n
        setRing (ringWrite s (recordAt s n r.fetched) bytes) n { r with fetched := (r.fetched + bytes.length / 64) % 2 ^ 32 }
      | .store id =>
        match s.storage.host.find? fun t => t.id == id with
        | none => s
        | some t =>
          let s := storeBytes s t.slot (t.gaddr + t.done) bytes
          let t := { t with done := t.done + bytes.length }
          nextStoreRead { s with storage.host := s.storage.host.map fun y => if y.id = id then t else y } t)

/-- HOST_READ_TIMEOUT (R402): an unanswered read is issued again once; a second silence ends the fetch, or the STORE,
with its data unread. -/
def execHostReadTimeout (tag : Nat) (s : State) : Res :=
  .next (match s.port.reads.find? fun x => x.tag == tag with
    | none => s
    | some x =>
      if !x.again then
        let s := { s with port.reads := s.port.reads.map fun y => if y.tag = tag then { y with again := true } else y }
        sendPort s { type := 2, tag := tag, addr := x.addr, arg0 := x.len }
      else
        let s := { s with port.reads := s.port.reads.filter fun y => y.tag != tag }
        let s := match x.why with
          | .commands _ => s
          | .store id => { s with storage.host := s.storage.host.filter fun t => t.id != id }
        postOf s (pPage 0x1E) Cause.hostReadTimeout x.addr)

/-- HOST_WRITE (R311, R405): the consecutive records of ring n that its mirror lacks, up to its end and to 4,096 bytes. -/
def execHostWrite (n : Nat) (s : State) : Res :=
  .next (
    let r := s.ring n
    let have' := diff32 r.prod r.sent
    if n < 4096 ∧ (ringLive s n 1 ∨ ringLive s n 3) ∧ portUp s ∧ have' ≠ 0 then
      let b := recordBytes (ringKind s n)
      let k := min (min have' (4096 / b)) (ringCap s n - r.sent % ringCap s n)
      let s := sendPort s { type := 1, addr := mirrorAt s n r.sent, payload := ringRead s (recordAt s n r.sent) (b * k) }
      setRing s n { r with sent := (r.sent + k) % 2 ^ 32 }
    else s)

/-- PENDING_RECORD_POST (R312, R410): a ring's waiting records go in as slots free, then those of the headstock store. -/
def execPendingRecordPost (n : Nat) (s : State) : Res := .next (if n < 4096 then drainStore (drainRing s n) else s)

/-! ### Commands (R313) -/

/-- A command as its 64 bytes. -/
def cmdByte (c : List Byte) (o n : Nat) : Nat := leNat ((c.drop o).take n)

/-- The bytes that an opcode uses beside opcode and tag, as (offset, length). An ADMIT uses its four stop token ids
(log entry 36). -/
def cmdUses (op : Nat) : List (Nat × Nat) :=
  match op with
  | 1 => [(4, 44)]
  | 2 => [(4, 4)]
  | 3 => [(4, 4), (0x1C, 4)]
  | 4 => [(4, 4), (0x0E, 2), (0x30, 4)]
  | 5 => [(0x30, 4)]
  | 6 => [(0x0B, 1), (0x0E, 2), (0x30, 4)]
  | 7 => [(0x0B, 1)]
  | 8 => [(0x0A, 1), (0x0E, 2), (0x1C, 4), (0x30, 4), (0x34, 1)]
  | _ => [(0x0E, 2)]

/-- A field that the opcode does not use is not zero (R313). -/
def cmdDirty (c : List Byte) : Bool :=
  let op := cmdByte c 0 1
  c.zipIdx.any fun ((b, i) : Byte × Nat) =>
    b != 0 && i != 0 && i != 2 && i != 3 && !((cmdUses op).any fun u => decide (u.1 ≤ i) && decide (i < u.1 + u.2))

/-- The command is taken from its queue, which gives no other in this turn (R313; log entry 116). -/
def consume (s : State) (q : Nat) : State :=
  setRing s q { s.ring q with cons := ((s.ring q).cons + 1) % 2 ^ 32, served := s.turn + 1 }

/-- A command taken and completed. -/
def finish (s : State) (q : Nat) (c : List Byte) (status result : Nat) : State :=
  complete (consume s q) q (cmdByte c 2 2) (cmdByte c 4 4) (cmdByte c 0 1) status result

/-- A pool of the queue's group. -/
def poolOfQueue (s : State) (q k : Nat) : Bool := kvpOn s k && kvpParts s k == ringParts s q

/-- The command at the front of queue q, where it has been fetched, the queue has given none in this turn, and it has the
opcode of the row (R313): a reserved opcode, or a field that must be zero and is not, completes with RESERVED_ENCODING; another opcode is left for its row. A
command waits while a channel holds a pool of the queue's group (R257; log entry 123). -/
def withCommand (s : State) (q op : Nat) (k : List Byte → State) : State :=
  let r := s.ring q
  if !(decide (q < 4096) && ringLive s q 2) || r.cons == r.fetched || r.served == s.turn + 1 then s
  else
    let c := ringRead s (recordAt s q r.cons) 64
    let o := cmdByte c 0 1
    if o = 0 ∨ 9 < o then finish s q c Cmd.reservedEncoding 0
    else if o ≠ op then s
    else if cmdDirty c then finish s q c Cmd.reservedEncoding 0
    else if (List.range 16).any fun p => poolOfQueue s q p && poolHeld s p then s
    else k c

/-- What an ADMIT of queue q names (R29, R313, R317): the status that refuses it, in the order of R317's list. -/
def admitRefuse (s : State) (q : Nat) (c : List Byte) (ring m a p fi : Nat) : Option Nat :=
  match famAt s fi with
  | none => some Cmd.outsidePartition
  | some f =>
    let cfg := s.reg (blkKey Reg.BLK_CFG m)
    if cmdByte c 0x14 4 = 0 ∨ 86400 < cmdByte c 0x1C 4 ∨ 4095 < cmdByte c 8 2 ∨ 63 < m ∨ (a ≠ 0xFFFF ∧ 4095 < a) ∨
        (a ≠ 0xFFFF ∧ bit cfg 1 = 0) then some Cmd.reservedEncoding
    else if ringParts s ring ≠ ringParts s q then some Cmd.outsidePartition
    else if !(ringLive s ring 1) || ringParts s ring != kvpParts s f.pool || (s.ring ring).bound then some Cmd.busy
    else if (reqOf s (cmdByte c 4 4)).isSome then some Cmd.duplicate
    else if bit cfg 0 = 0 ∨ bf cfg 23 16 ≠ ringParts s ring ∨ f.model ≠ m then some Cmd.outsidePartition
    else if p ≠ 0xFF ∧ !((prefixAt s p).any fun x => !x.retiring && x.pool == f.pool && x.h == f.h) then some Cmd.notLive
    else if (freeListRun s f.pool f.h).isNone then some Cmd.noLists
    else none

/-- ADMIT (R281, R317, R318): an ADMIT under HOLD stays at the head of its queue. -/
def execAdmitReq (q : Nat) (s : State) : Res :=
  .next (withCommand s q 1 fun c =>
    let ring := cmdByte c 8 2 % 4096
    let m := cmdByte c 0x0A 1
    let a := cmdByte c 0x0C 2
    let p := cmdByte c 0x0B 1
    let fi := cmdByte c 0x0E 2
    let ad := if a = 0xFFFF then none else some a
    if m < 64 ∧ heldModel s m ad then s
    else match admitRefuse s q c ring m a p fi with
      | some st => finish s q c st 0
      | none =>
        match famAt s fi, (famAt s fi).bind fun f => freeListRun s f.pool f.h with
        | some f, some j =>
          let id := cmdByte c 4 4
          let base := s.reg (blkKey Reg.BLK_CUR m)
          let adp := match ad with | none => 0 | some x => s.reg (adpKey Reg.ADP_CUR m x)
          let r : Request :=
            { id := id, ring := ring, model := m, adapter := ad, pfx := if p = 0xFF then none else some p, fam := fi,
              prompt := cmdByte c 0x10 4, max := cmdByte c 0x14 4, stream := cmdByte c 0x18 4, ttl := cmdByte c 0x1C 4,
              stops := [cmdByte c 0x20 4, cmdByte c 0x24 4, cmdByte c 0x28 4, cmdByte c 0x2C 4], st := .prefill, base := base,
              adp := adp, pool := f.pool, list := j, h := f.h }
          let s := setRing s ring { s.ring ring with bound := true, reqId := id }
          let s := pinAdapter (pinBase s m base true) m ad adp true
          let s := (List.range f.h).foldl (fun s x =>
            let pf := (r.pfx.bind (prefixAt s)).map fun y => listHead s y.pool (y.list + x)
            makeList s f.pool (j + x) id f.d f.fmt f.blk pf) s
          let s := { s with serving.reqs := s.serving.reqs ++ [r] }
          finish (incReg s (ringPage + Reg.QM_ADMITS) 1) q c Cmd.done (handleOf f.pool j)
        | _, _ => finish s q c Cmd.noLists 0)

/-- The status of a command that names a request that is not live: one that completed is known as long as its ring stays
bound to it (R338). -/
def goneStatus (s : State) (id : Nat) : Nat :=
  if s.serving.done.any fun e => e.2 == (id, true) then Cmd.alreadyComplete else Cmd.unknownRequest

/-- A member of a family whose step is open. -/
def inOpenStep (s : State) (r : Request) : Bool := r.st == .decode && (famAt s r.fam).any fun f => f.opened

/-- CANCEL (R338). -/
def execCancel (q : Nat) (s : State) : Res :=
  .next (withCommand s q 2 fun c =>
    let id := cmdByte c 4 4
    match reqOf s id with
    | none => finish s q c (goneStatus s id) 0
    | some r =>
      if ringParts s r.ring ≠ ringParts s q then finish s q c Cmd.outsidePartition 0
      else if r.cancel.isSome then finish s q c Cmd.busy 0
      else
        let r' := { r with cancel := some (cmdByte c 2 2, q) }
        let s := setReq (consume s q) r'
        match r.st with
        | .decode => if inOpenStep s r then s else cancelReq s r'
        | .ready => cancelReq s r'
        | .prefill => if reqBusy s r then s else cancelReq s r'
        | .parking => s
        | .restoring => s
        | .parked =>
          match r.entry with
          | none => cancelReq s r'
          | some e =>
            let s := freeParked s e
            let s := completeWaiting (endReq s r' 4 r.pos false false) r r'.cancel 2 Cmd.done 0
            completeWaiting s r r.resume 4 Cmd.unknownRequest 0)

/-- PAUSE (R332). -/
def execPause (q : Nat) (s : State) : Res :=
  .next (withCommand s q 3 fun c =>
    let id := cmdByte c 4 4
    let ttl := cmdByte c 0x1C 4
    match reqOf s id with
    | none => finish s q c (goneStatus s id) 0
    | some r =>
      if ttl = 0 ∨ 86400 < ttl then finish s q c Cmd.reservedEncoding 0
      else if ringParts s r.ring ≠ ringParts s q then finish s q c Cmd.outsidePartition 0
      else if r.pause.isSome ∨ r.cancel.isSome ∨ !(r.st == .decode || r.st == .ready) then finish s q c Cmd.busy 0
      else
        let r' := { r with pause := some (cmdByte c 2 2, q), pauseTtl := ttl }
        let s := setReq (consume s q) r'
        if inOpenStep s r then s else pauseReq s r')

/-- RESUME (R333, R334). -/
def execResume (q : Nat) (s : State) : Res :=
  .next (withCommand s q 4 fun c =>
    let e := cmdByte c 0x30 4
    match parkedAt s e with
    | none => finish s q c Cmd.expired 0
    | some p =>
      match reqOf s p.req, famAt s (cmdByte c 0x0E 2) with
      | some r, some f =>
        if p.req ≠ cmdByte c 4 4 then finish s q c Cmd.unknownRequest 0
        else if ringParts s p.ring ≠ ringParts s q then finish s q c Cmd.outsidePartition 0
        else if f.model ≠ p.model ∨ f.pool ≠ p.pool ∨ f.h ≠ p.counts.length then finish s q c Cmd.reservedEncoding 0
        else if p.st ≠ 2 ∨ r.resume.isSome then finish s q c Cmd.busy 0
        else
          let r := { r with st := .restoring, resume := some (cmdByte c 2 2, q), fam := cmdByte c 0x0E 2 }
          let p := { p with st := 3 }
          tryResume (setParked (setReq (consume s q) r) e (some p)) e p r
      | none, _ => finish s q c Cmd.unknownRequest 0
      | some _, none => finish s q c Cmd.reservedEncoding 0)

/-- RESUME_RETRY (R333): at a turn boundary. -/
def execResumeRetry (e : Nat) (s : State) : Res :=
  .next (match parkedAt s e with
    | none => s
    | some p =>
      match reqOf s p.req with
      | none => s
      | some r => if p.st = 3 ∧ r.st == .restoring ∧ !p.copying ∧ !poolHeld s p.pool then tryResume s e p r else s)

/-- SESSION_PARKED (R332, R335): not while an ATTN names a list of the request (R154), a channel holds its pages (R257), or the
priority of the target's link is paused (R363). -/
def execSessionParked (e : Nat) (s : State) : Res :=
  .next (match parkedAt s e with
    | none => s
    | some p =>
      match reqOf s p.req with
      | none => s
      | some r => if p.st = 1 ∧ !reqBusy s r ∧ !copyHeld s p.pool then parkedNow s e p r else s)

/-- The pages of a session image laid into the frames of its lists, in list order and page order (R330). -/
def layImage (s : State) (p : Parked) (r : Request) (bytes : List Byte) : State :=
  let fs := (List.range r.h).flatMap fun x => chain s p.pool (listHead s p.pool (r.list + x)).own
  fs.zipIdx.foldl (fun s (x : Nat × Nat) =>
    peWrite s p.pool (frameAddr s p.pool x.1 false) ((bytes.drop (4096 + 65536 * x.2)).take 65536)) s

/-- The GDDR7 address at which extent i of an image is destined; the header extent, read by the page engine alone, is named
by its far extent (R275, R330; log entry 117). -/
def extentAt (s : State) (p : Parked) (r : Request) (i : Nat) : Nat :=
  let fs := (List.range r.h).flatMap fun x => chain s p.pool (listHead s p.pool (r.list + x)).own
  if i = 0 then p.first else frameAddr s p.pool (getNth noFrame fs ((i - 1) / 16)) false + 4096 * ((i - 1) % 16)

/-- The extent of an image that does not verify, where one does not: the one whose tag fails, or the header extent where it
is not the one that was written (R272). -/
def badExtent (p : Parked) (bad : Option Nat) (bytes : List Byte) : Option Nat :=
  match bad with
  | some i => some i
  | none => if bytes.take 4096 = imageHeader p then none else some 0

/-- RESTORE_COMPLETE (R272, R330, R333): the image is back, its header extent first, and its tags verify; or an extent does
not, and the request stays parked. -/
def execRestoreComplete (e : Nat) (bad : Option Nat) (bytes : List Byte) (s : State) : Res :=
  .next (match parkedAt s e with
    | none => s
    | some p =>
      match reqOf s p.req with
      | none => s
      | some r =>
        if p.st ≠ 3 ∨ !p.copying ∨ copyHeld s p.pool then s
        else match badExtent p bad bytes with
        | none => restored (layImage s p r bytes) e p r
        | some i =>
          let a := extentAt s p r i
          let s := (List.range r.h).foldl (fun s x => dropList s p.pool (r.list + x)) s
          let s := setParked s e (some { p with st := 2, copying := false })
          let s := post s pePage { cause := Cause.farIntegrity, die := 62, time := s.time.now, partition := lowPart (kvpParts s p.pool), slot1 := some (kvpSlot s p.pool), op1 := a, tag := e }
          let s := completeWaiting (setReq s { r with st := .parked, resume := none }) r r.resume 4 Cmd.notLive 0
          if r.cancel.isSome then
            completeWaiting (endReq (freeParked s e) r 4 r.pos false false) r r.cancel 2 Cmd.done 0
          else s)

/-- A parked entry is freed with its request; the event names the far run and the entry (R334, R572). -/
def endParked (s : State) (e : Nat) (p : Parked) (record : Bool) : State :=
  let s := freeParked s e
  let s := match reqOf s p.req with
    | none => s
    | some r =>
      let s := if record then noteReq s r 7 r.pos 0 else s
      retireReq s ((reqOf s r.id).getD r) false
  postPool s p.pool Cause.parkedSessionExpired p.first e p.exts

/-- DROP_PARKED (R334). -/
def execDropParked (q : Nat) (s : State) : Res :=
  .next (withCommand s q 5 fun c =>
    match parkedAt s (cmdByte c 0x30 4) with
    | none => finish s q c Cmd.expired 0
    | some p =>
      if ringParts s p.ring ≠ ringParts s q then finish s q c Cmd.outsidePartition 0
      else if p.st ≠ 2 then finish s q c Cmd.busy 0
      else finish (endParked s (cmdByte c 0x30 4) p false) q c Cmd.done 0)

/-- Entry e expires where it is parked and its turn has begun (R334). -/
def expireEntry (s : State) (e t : Nat) : State :=
  match parkedAt s e with
  | none => s
  | some p =>
    if p.st = 2 ∧ p.expiry ≤ t ∧ !poolHeld s p.pool then
      endParked (incReg s (pePage + Reg.PE_EXPIRED) 1) e p true
    else s

/-- PARKED_SESSION_EXPIRY (R334). -/
def execParkedSessionExpiry (e : Nat) (s : State) : Res := .next (expireEntry s e s.turn)

/-- PREFIX_DEF (R328): lists that begin with another prefix are refused as not being whole (log entry 37). -/
def execPrefixDef (q : Nat) (s : State) : Res :=
  .next (withCommand s q 6 fun c =>
    let p := cmdByte c 0x0B 1
    let hd := cmdByte c 0x30 4
    let k := handlePool hd
    let j := handleIdx hd
    match famAt s (cmdByte c 0x0E 2) with
    | none => finish s q c Cmd.reservedEncoding 0
    | some f =>
      let lists := (List.range f.h).map fun x => j + x
      if p = 255 ∨ 2 ^ 30 ≤ hd ∨ f.pool ≠ k then finish s q c Cmd.reservedEncoding 0
      else if !poolOfQueue s q k then finish s q c Cmd.outsidePartition 0
      else if (prefixAt s p).isSome then finish s q c Cmd.duplicate 0
      else if lists.any fun x => !listOk s k x then finish s q c Cmd.notLive 0
      else if lists.any fun x => (listHead s k x).bad then
        let at' := (lists.filter fun x => (listHead s k x).bad).headD 0
        finish (postPool s k Cause.reservedEncoding (listAddr s k at') 0 1) q c Cmd.reservedEncoding 0
      else if lists.any fun x =>
          let h := listHead s k x
          h.isPrefix || h.pfx != noFrame || h.ownPos % (max 1 (nPos h.d h.fmt h.blk)) != 0 then finish s q c Cmd.reservedEncoding 0
      else if lists.any fun x => listBusy s k x then finish s q c Cmd.busy 0
      else
        let s := lists.foldl (fun s x =>
          let s := walkList s k x
          let h := listHead s k x
          let s := (chain s k h.own).foldl (fun s i => setDesc s k i (setBf (setBf (pageDesc s k i) 6 5 2) 57 41 0)) s
          setList s k x { h with pfx := h.own, own := noFrame, last := noFrame, pfxPos := h.ownPos, ownPos := 0, isPrefix := true, req := p }) s
        finish (setPrefix s p (some { pool := k, list := j, h := f.h })) q c Cmd.done 0)

/-- PREFIX_DROP (R329). -/
def execPrefixDrop (q : Nat) (s : State) : Res :=
  .next (withCommand s q 7 fun c =>
    let p := cmdByte c 0x0B 1
    match prefixAt s p with
    | none => finish s q c Cmd.notLive 0
    | some x =>
      if !poolOfQueue s q x.pool then finish s q c Cmd.outsidePartition 0
      else retirePrefix (finish (setPrefix s p (some { x with retiring := true })) q c Cmd.done 0) p)

/-- The lowest run of h batch sets of a pool that no family holds (log entry 31). -/
def freeSetRun (s : State) (k h : Nat) : Nat :=
  let runs := s.serving.fams.filterMap fun (e : Nat × Option Family) =>
    match e.2 with | some f => if f.pool == k then some (f.set0, f.h) else none | none => none
  let ok := fun (a : Nat) => runs.all fun r => decide (a + h ≤ r.1) || decide (r.1 + r.2 ≤ a)
  ((sortBy (fun a b => decide (a ≤ b)) (0 :: runs.map fun r => r.1 + r.2)).find? ok).getD 0

/-- FAMILY_DEF (R313, R320). The command has no field for the head dimension and the expected form of the family's
lists: they are free values among those the manual admits (log entry 38). -/
def execFamilyDef (q : Nat) (s : State) : Res :=
  .next (withCommand s q 8 fun c =>
    let fi := cmdByte c 0x0E 2
    let w := cmdByte c 0x30 4
    let k := bf w 3 0
    let b := bf w 15 8
    let h := bf w 25 16
    let m := cmdByte c 0x0A 1
    let table := cmdByte c 0x1C 4 + 2 ^ 32 * cmdByte c 0x34 1
    let cfg := s.reg (blkKey Reg.BLK_CFG m)
    if b = 0 ∨ h = 0 ∨ 1022 < h ∨ bf w 7 4 ≠ 0 ∨ bf w 31 26 ≠ 0 ∨ 63 < m ∨ 15 < cmdByte c 0x34 1 ∨ table % 256 ≠ 0 ∨
        8 < bf table 29 26 ∨ 47 < bf table 35 30 then finish s q c Cmd.reservedEncoding 0
    else if !poolOfQueue s q k || bit cfg 0 == 0 || bf cfg 23 16 != ringParts s q || bit (ringParts s q) (partOf (nsCluster table)) == 0 then
      finish s q c Cmd.outsidePartition 0
    else if (famAt s fi).isSome then finish s q c Cmd.duplicate 0
    else
      let (s, v) := fresh s
      let form := getNth (3, 0) [(3, 0), (5, 0), (0, 1)] (v / 8 % 3)
      let f : Family :=
        { model := m, pool := k, h := h, set0 := freeSetRun s k h, members := List.replicate b none, table := table,
          d := 32 * (v % 8 + 1), fmt := form.1, blk := form.2 }
      finish (setFam s fi (some f)) q c Cmd.done 0)

/-- FAMILY_DROP (R313): not while a member is occupied or a step is open. -/
def execFamilyDrop (q : Nat) (s : State) : Res :=
  .next (withCommand s q 9 fun c =>
    let fi := cmdByte c 0x0E 2
    match famAt s fi with
    | none => finish s q c Cmd.notLive 0
    | some f =>
      if !poolOfQueue s q f.pool then finish s q c Cmd.outsidePartition 0
      else if f.opened || f.members.any fun m => (m.bind (reqOf s)).any fun r => r.st == .decode then finish s q c Cmd.busy 0
      else finish (setFam s fi none) q c Cmd.done 0)

end Sys2Proof.Machine
end

