-- ==== Sys2Proof/Machine/Image.lean ====
section
/-! DEFINITION. The context image, the form of saved and of mirrored state (R210, R519, R520). No unit of the package reads it
beyond the step number of its header (R523); software writes and reads it. -/

namespace Sys2Proof.Machine

/-- The header line of a context image (R519). -/
structure ImageHeader where
  owner : Nat
  slot : Nat
  step : Nat
  seed : Nat
  scale : Int
  scaleStep : Int
  clean : Nat
  entries : Nat
  layout : Nat
  length : Nat
  base : Nat
  adapter : Nat
  adapterIndex : Nat
  deriving DecidableEq, Repr

/-- The values that the fields of R519 hold. -/
def ImageHeader.wf (h : ImageHeader) : Bool :=
  decide (h.owner < 2 ^ 10) && decide (h.slot < 2 ^ 6) && decide (h.step < 2 ^ 64) && decide (h.seed < 2 ^ 64) &&
    decide (-128 ≤ h.scale) && decide (h.scale < 128) && decide (-128 ≤ h.scaleStep) && decide (h.scaleStep < 128) &&
    decide (h.clean < 2 ^ 16) && decide (h.entries < 2 ^ 32) && decide (h.layout < 2 ^ 64) && decide (h.length < 2 ^ 64) &&
    decide (h.base < 2 ^ 20) && decide (h.adapter < 2 ^ 20) && decide (h.adapterIndex < 2 ^ 12)

/-- Where the step number stands in the header (R519, R523). -/
def imageStepAt : Nat := 8

/-- The 256 bytes of the header line (R519). -/
def ImageHeader.bytes (h : ImageHeader) : List Byte :=
  leBytes 4 1 ++ leBytes 2 h.owner ++ leBytes 1 h.slot ++ leBytes 1 0 ++ leBytes 8 h.step ++ leBytes 8 h.seed ++
    leBytes 1 (unsigned 8 h.scale) ++ leBytes 1 (unsigned 8 h.scaleStep) ++ leBytes 2 h.clean ++ leBytes 4 h.entries ++
    leBytes 8 h.layout ++ leBytes 8 h.length ++ leBytes 4 h.base ++ leBytes 4 (h.adapter + 2 ^ 20 * h.adapterIndex) ++
    List.replicate 200 0

/-- n bytes from byte a on, as a number. -/
def imageField (bs : List Byte) (a n : Nat) : Nat := leNat ((bs.drop a).take n)

/-- The header that 256 bytes hold; none where the image format is another (R519). -/
def ImageHeader.read (bs : List Byte) : Option ImageHeader :=
  if bs.length ≠ 256 ∨ imageField bs 0 4 ≠ 1 then none
  else some
    { owner := imageField bs 4 2 % 2 ^ 10, slot := imageField bs 6 1 % 2 ^ 6, step := imageField bs imageStepAt 8
      seed := imageField bs 0x10 8, scale := signed 8 (imageField bs 0x18 1), scaleStep := signed 8 (imageField bs 0x19 1)
      clean := imageField bs 0x1A 2, entries := imageField bs 0x1C 4, layout := imageField bs 0x20 8
      length := imageField bs 0x28 8, base := imageField bs 0x30 4 % 2 ^ 20, adapter := imageField bs 0x34 4 % 2 ^ 20
      adapterIndex := imageField bs 0x34 4 / 2 ^ 20 }

/-- A directory entry (R520): data is the offset from the header in units of 256 bytes. -/
structure ImageEntry where
  tensor : Nat
  kind : Nat
  fmt : Nat
  stream : Nat
  first : Nat
  held : Nat
  data : Nat
  deriving DecidableEq, Repr

/-- The values that the fields of R520 hold: kinds 1 to 6, and format 0x8 for the SH16 kinds 1 to 3. -/
def ImageEntry.wf (e : ImageEntry) : Bool :=
  decide (e.tensor < 2 ^ 32) && decide (1 ≤ e.kind) && decide (e.kind ≤ 6) && (decide (3 < e.kind) || e.fmt == 8) &&
    decide (e.fmt < 16) && decide (e.stream < 2 ^ 32) && decide (e.first < 2 ^ 64) && decide (e.held < 2 ^ 40) &&
    decide (e.data < 2 ^ 24)

/-- The 32 bytes of a directory entry (R520). -/
def ImageEntry.bytes (e : ImageEntry) : List Byte :=
  leBytes 4 e.tensor ++ leBytes 1 e.kind ++ leBytes 1 e.fmt ++ leBytes 2 0 ++ leBytes 4 e.stream ++ leBytes 4 0 ++
    leBytes 8 e.first ++ leBytes 8 (e.held + 2 ^ 40 * e.data)

/-- The directory entry that 32 bytes hold. -/
def ImageEntry.read (bs : List Byte) : ImageEntry :=
  { tensor := imageField bs 0 4, kind := imageField bs 4 1, fmt := imageField bs 5 1 % 16, stream := imageField bs 8 4
    first := imageField bs 0x10 8, held := imageField bs 0x18 8 % 2 ^ 40, data := imageField bs 0x18 8 / 2 ^ 40 }

/-- The header line and the directory, as an image begins (R519, R520). -/
def contextHead (h : ImageHeader) (es : List ImageEntry) : List Byte := h.bytes ++ (es.map ImageEntry.bytes).flatten

end Sys2Proof.Machine
end

