-- ==== Sys2Proof/Machine/Elementary.lean ====
section
/-! DEFINITION. The elementary functions of R176 and R569, correctly rounded to binary32. Each is evaluated as an
interval of fixed-point numbers of 2^-fxBits and rounded where both ends round alike (log entry 13). -/

namespace Sys2Proof.Machine

/-- Fraction bits of the fixed-point work. -/
def fxBits : Nat := 320

def fxOne : Int := 2 ^ fxBits

def fxMul (a b : Int) : Int := (a * b) / fxOne

def fxDiv (a b : Int) : Int := (a * fxOne) / b

/-- The exact value of a finite operand in fixed point, floored. -/
def fxOf (neg : Bool) (m : Nat) (e : Int) : Int :=
  let v : Int := shiftBy m (e + fxBits)
  if neg then -v else v

/-- Round the interval [a - err, a + err], scaled by 2^k, to binary32: where its ends differ, the value the manual's
rounding would take is left open by the analysis and stands free. -/
def fxRound (a err k : Int) (op : Nat) : Num :=
  let at' (v : Int) : Num := f32 (.fin (decide (v < 0)) v.natAbs (k - fxBits))
  let lo := at' (a - err)
  let hi := at' (a + err)
  if lo = hi then lo else fmtFP32.decode (Config.undecided op a % 2 ^ 32)

/-- Σ of terms t_n from n on, t_(n+1) = t_n · z / den(n), n terms of fuel. -/
def fxSeries (z : Int) (den : Nat → Int) : Nat → Nat → Int → Int → Int
  | 0, _, _, acc => acc
  | f + 1, n, t, acc =>
    if t = 0 then acc
    else fxSeries z den f (n + 1) (fxMul t z / den (n + 1)) (acc + t)

/-- e^z for |z| ≤ 1 (Taylor series). -/
def fxExp (z : Int) : Int := fxSeries z (fun n => n) 100 0 fxOne 0

/-- 2·atanh(y) = ln((1+y)/(1-y)) for |y| ≤ 1/2, from the series in y². -/
def fxAtanhAux (y2 : Int) : Nat → Nat → Int → Int → Int
  | 0, _, _, acc => acc
  | f + 1, n, p, acc => if p = 0 then acc else fxAtanhAux y2 f (n + 1) (fxMul p y2) (acc + p / (2 * n + 1))

def fxLn1 (y : Int) : Int := 2 * fxAtanhAux (fxMul y y) 200 0 y 0

def fxLn2 : Int := fxLn1 (fxOne / 3)

/-- exp in binary32 (R569): exp(-∞) = +0, exp(+∞) = +∞, NaN to NaN. -/
def f32Exp (x : Num) : Num :=
  match x with
  | .nan => .nan
  | .inf s => if s then .fin false 0 0 else .inf false
  | .fin s m e =>
    if m = 0 then Num.one
    else if magLt (256, 0) (m, e) then (if s then .fin false 0 0 else .inf false)
    else
      let v := fxOf s m e
      let k := v / fxLn2
      fxRound (fxExp (v - k * fxLn2)) (2 ^ 40) k 0

/-- ln in binary32 (R569). -/
def f32Ln (x : Num) : Num :=
  match x with
  | .nan => .nan
  | .inf s => if s then .nan else .inf false
  | .fin s m e =>
    if m = 0 then .inf true
    else if s then .nan
    else
      -- m · 2^e = c · 2^k with 3/4 ≤ c < 3/2
      let l := flog2 m
      let (c, k) : Int × Int :=
        if 3 * 2 ^ l ≤ 2 * m then (shiftBy m ((fxBits : Int) - l - 1), (l : Int) + e + 1)
        else (shiftBy m ((fxBits : Int) - l), (l : Int) + e)
      if k = 0 ∧ c = fxOne then .fin false 0 0
      else fxRound (fxLn1 (fxDiv (c - fxOne) (c + fxOne)) + k * fxLn2) (2 ^ 40) 0 1

/-- arctan(1/n), by its series. -/
def fxAtanInvAux (n2 : Int) : Nat → Nat → Int → Int → Int
  | 0, _, _, acc => acc
  | f + 1, k, p, acc =>
    if p = 0 then acc
    else fxAtanInvAux n2 f (k + 1) (p / n2) (if k % 2 = 0 then acc + p / (2 * k + 1) else acc - p / (2 * k + 1))

def fxAtanInv (n : Int) : Int := fxAtanInvAux (n * n) 400 0 (fxOne / n) 0

/-- π, by Machin's formula. -/
def fxPi : Int := 4 * (4 * fxAtanInv 5 - fxAtanInv 239)

def fxCos (z : Int) : Int := fxSeries (-(fxMul z z)) (fun n => (2 * n - 1) * (2 * n)) 100 0 fxOne 0
def fxSin (z : Int) : Int := fxSeries (-(fxMul z z)) (fun n => (2 * n) * (2 * n + 1)) 100 0 z 0

/-- The operand reduced: x mod 2 as a fixed-point number in [0, 2). -/
def fxMod2 (s : Bool) (m : Nat) (e : Int) : Int :=
  let two := 2 * fxOne
  if 2 ≤ e then 0 else fxOf s m e % two

/-- sin or cos of π·r for r in [0, 2): the quadrant and the angle in it. -/
def fxSinPi (r : Int) : Int :=
  let q := 2 * r / fxOne
  let z := fxMul fxPi (r - q * (fxOne / 2))
  match q % 4 with
  | 0 => fxSin z
  | 1 => fxCos z
  | 2 => -(fxSin z)
  | _ => -(fxCos z)

/-- sinpi in binary32: sinpi(±n) = ±0 (R569). -/
def f32SinPi (x : Num) : Num :=
  match x with
  | .nan => .nan
  | .inf _ => .nan
  | .fin s m e =>
    let r := fxMod2 s m e
    if r % fxOne = 0 then .fin s 0 0
    else if r * 2 % fxOne = 0 then (if r < fxOne then Num.one else .fin true 1 0)
    else fxRound (fxSinPi r) (2 ^ 40) 0 2

/-- cospi in binary32: cospi(n + 1/2) = +0 (R569). -/
def f32CosPi (x : Num) : Num :=
  match x with
  | .nan => .nan
  | .inf _ => .nan
  | .fin s m e =>
    let r := fxMod2 s m e
    if r = 0 then Num.one
    else if r % fxOne = 0 then .fin true 1 0
    else if r * 2 % fxOne = 0 then .fin false 0 0
    else fxRound (fxSinPi ((r + fxOne / 2) % (2 * fxOne))) (2 ^ 40) 0 3

/-! ### The knots of the normal fill (R236, R569) -/

/-- Φ(x) - 1/2 for 0 ≤ x < 4, in fixed point: the series Σ (-1)^n x^(2n+1) / (2^n n! (2n+1)) over √(2π). -/
def fxPhiAux (h : Int) : Nat → Nat → Int → Int → Int
  | 0, _, _, acc => acc
  | f + 1, n, p, acc =>
    if p = 0 then acc
    else fxPhiAux h f (n + 1) (fxMul p h / (n + 1)) (acc + p / (2 * n + 1))

def fxSqrt2Pi : Int := (Nat.sqrt ((2 * fxPi).toNat <<< fxBits) : Nat)

def fxPhiHalf (x : Int) : Int := fxDiv (fxPhiAux (-(fxMul x x) / 2) 200 0 x 0) fxSqrt2Pi

/-- The least binary32 field value v < hi for which the midpoint of v and v+1 lies at or above Φ⁻¹(½ + k/2048):
v is then the nearest. Bisection over the field values, which are ordered as the magnitudes are. -/
def knotBisect (target : Int) : Nat → Nat → Nat → Nat
  | 0, lo, _ => lo
  | f + 1, lo, hi =>
    if hi ≤ lo then lo
    else
      let mid := (lo + hi) / 2
      let x (v : Nat) : Int :=
        match fmtFP32.decode v with
        | .fin _ m e => fxOf false m e
        | _ => 4 * fxOne
      let half := (x mid + x (mid + 1)) / 2
      if target ≤ fxPhiHalf half then knotBisect target f lo mid else knotBisect target f (mid + 1) hi

/-- The field bits of T[k] (R236): 0 at k = 0, 4.0 at the extra knot k = 1,024. -/
def knotBits (k : Nat) : Nat :=
  if k = 0 then 0
  else if 1024 ≤ k then 0x40800000
  else knotBisect ((k : Int) * fxOne / 2048) 32 0 0x40800000

def knot (k : Nat) : Num := fmtFP32.decode (knotBits k)

end Sys2Proof.Machine
end

