-- ==== Sys2Proof/Machine/Array.lean ====
section
/-! DEFINITION. The matrix array: PASS and its completion (R101 to R130, R166 to R174, R186 to R188). The array begins a pass when
none stands before it but passes that it follows without a gap (R119), holding the skew unit where it needs that. A pass reads its
lines between that step and the one in which it completes, each as it stands at one of the two; its sums are then formed, and its
outputs converted and written (log entry 4). -/

namespace Sys2Proof.Machine

/-! ### Layout of a pass (R104 to R106, R125, R169, R170, R186) -/

def passKp (e : Nat) : Nat := 64 * Ent.passKt e
def passNp (e : Nat) : Nat := 40 * Ent.passNt e

/-- N_o of R106. -/
def passNo (e : Nat) : Nat :=
  if Ent.fmtD e ≤ 5 then
    let b := if Ent.blkD e = 1 then 16 else 32
    ceilDiv (passNp e) b * b
  else passNp e

/-- Weight, activation and output planes of a recipe (R123). -/
def weightPlanes (e : Nat) : Nat := match Ent.passRecipe e with | 1 => 2 | 2 => 3 | _ => 1
def actPlanes (e : Nat) : Nat := match Ent.passRecipe e with | 1 => 2 | 2 => 3 | _ => 1
def outPlanes (e : Nat) : Nat := match Ent.passRecipe e with | 1 => 2 | 2 => 2 | _ => 1

/-- The planes that the preloads of a tile read, in order, and those of the activations that its visits stream (R123, R126): in
RECIPE 3 the first preload takes the low parts and the second the high ones. -/
def preloadPlanes (e : Nat) : List Nat := match Ent.passRecipe e with | 0 => [0] | 1 => [0, 1] | 2 => [0, 2, 1] | _ => [0, 0]
def visitPlanes (e : Nat) : List Nat := match Ent.passRecipe e with | 0 => [0] | 1 => [0, 1, 1, 0] | 2 => [0, 2, 1] | _ => [0, 0, 0]

/-- c, the cycles of a product slot (R102). -/
def productSlot (e : Nat) : Nat :=
  match Ent.fmtA e with
  | 0 => 1
  | 1 | 2 | 3 | 4 => 2
  | 5 | 6 => 4
  | 7 | 8 => 6
  | _ => 12

/-- The rows of a row block (R108). -/
def rowBlock (e : Nat) : Nat :=
  if Ent.passWs e then Ent.passMrows e
  else if Ent.canon e then (if Ent.passRecipe e = 0 then 16 else 8)
  else if Ent.passRecipe e = 0 then 128 else 64

/-- The skew header's fields (R169). -/
structure SkewHeader where
  sfmt : Nat
  sblk : Nat
  slen : Nat
  zero : Bool
  deriving DecidableEq, Repr

def skewHeader (v : ByteView) : SkewHeader :=
  let b0 := (v 0).toNat
  { sfmt := b0 % 16, sblk := b0 / 16 % 2, slen := viewLE v 2 2,
    zero := b0 / 32 == 0 && (v 1) == 0 && ((List.range 252).all fun i => v (4 + i) == 0) }

/-- A skew header that R172 admits. -/
def skewHeaderOk (h : SkewHeader) : Bool :=
  h.zero && h.slen != 0 && decide (h.sfmt ≤ 9) && fmtUseSkew h && !(h.sfmt == 8 && h.slen % 4 != 0)
where
  fmtUseSkew (h : SkewHeader) : Bool := Ent.fmtOk h.sfmt h.sblk

/-- Lines of the weight operand: its planes, or the skew header and source (R125, R172). -/
def weightLines (e : Nat) (h : SkewHeader) : Nat :=
  if Ent.passSkew e then 1 + tensorLines h.sfmt h.sblk (passKp e * (32 * h.slen))
  else weightPlanes e * tensorLines (Ent.fmtA e) (Ent.blkA e) (passKp e * passNp e)

def actLines (e : Nat) : Nat := actPlanes e * tensorLines (Ent.fmtB e) (Ent.blkB e) (Ent.passMrows e * passKp e)
def outLines (e : Nat) : Nat := outPlanes e * tensorLines (Ent.fmtD e) (Ent.blkD e) (Ent.passMrows e * passNo e)

/-- Lines of the mask bitmap (R186). -/
def maskLines (e : Nat) : Nat :=
  match Ent.passMask e with
  | 1 => ceilDiv (ceilDiv (Ent.passMrows e) 32) 2048
  | 2 => ceilDiv (ceilDiv (Ent.passMrows e) 32 * ceilDiv (passNp e) 32) 2048
  | _ => 0

/-- Two runs of lines share a line. -/
def linesMeet (a n b m : Nat) : Bool := decide (0 < n) && decide (0 < m) && decide (a < b + m) && decide (b < a + n)

/-! ### Rejection (R103, R113, R122, R127 to R129, R172) -/

/-- The combinations of formats and recipe that R103, R77 and R172 admit. -/
def passFormatsOk (e : Nat) : Bool :=
  Ent.fmtOk (Ent.fmtA e) (Ent.blkA e) && Ent.fmtOk (Ent.fmtB e) (Ent.blkB e) && Ent.fmtOk (Ent.fmtD e) (Ent.blkD e) &&
    Ent.fmtD e != 8 &&
    (if Ent.passRecipe e = 3 then Ent.fmtA e == 9 && Ent.fmtB e == 9
     else decide (Ent.fmtA e ≤ 8) && decide (Ent.fmtB e ≤ 8)) &&
    (!Ent.passSkew e || decide (Ent.fmtA e ≤ 7))

/-- The reserved encodings of R129, but for the skew header. -/
def passReserved (e : Nat) : Bool :=
  !passFormatsOk e || Ent.passMrows e == 0 || Ent.passKt e == 0 || Ent.passNt e == 0 || Ent.passMask e == 3 ||
    (Ent.passWs e && (decide (40 < Ent.passMrows e) || Ent.passRecipe e != 0 || Ent.passSkew e || Ent.passMask e != 0)) ||
    ((Ent.passMask e != 0 || Ent.passSkew e) && Ent.passRecipe e != 0)

/-- The groups accumulated before this pass adds its own (R113). -/
def accGroups (e : Nat) (acc : Option AccShape) : Nat :=
  if Ent.passAcc e then (match acc with | none => 0 | some a => a.groups) else 0

/-- The conditions of R113 for ACC 1. -/
def accOk (e : Nat) (acc : Option AccShape) : Bool :=
  !Ent.passAcc e ||
    match acc with
    | none => false
    | some a =>
      decide (Ent.passMrows e ≤ rowBlock e) && decide (Ent.passNt e ≤ 4) && a.mrows == Ent.passMrows e &&
        a.nt == Ent.passNt e && a.canon == Ent.canon e && a.recipe == Ent.passRecipe e && a.ws == Ent.passWs e

/-- Why a core rejects a pass at issue, in the order of R129's table; none where it takes it. -/
def passReject (e : Nat) (v : ByteView) (acc : Option AccShape) : Option Nat :=
  let h := skewHeader v
  let w := weightLines e h
  let out := Ent.passOaddr e
  if passReserved e then some Cause.reservedEncoding
  else if Ent.passSkew e && !skewHeaderOk h then some Cause.reservedEncoding
  else if 16384 < Ent.passWaddr e + w ∨ 16384 < Ent.passAaddr e + actLines e ∨ 16384 < out + outLines e ∨
      16384 < Ent.passMaddr e + maskLines e then some Cause.outOfRange
  else if linesMeet out (outLines e) (Ent.passWaddr e) w || linesMeet out (outLines e) (Ent.passAaddr e) (actLines e) ||
      linesMeet out (outLines e) (Ent.passMaddr e) (maskLines e) then some Cause.operandOverlap
  else if !accOk e acc then some Cause.accumulatorMismatch
  else if Ent.canon e && decide (128 < ceilDiv (accGroups e acc + 2 * Ent.passKt e) 32) then some Cause.canonicalDepth
  else none

/-! ### Operands -/

/-- The view that begins n lines further on. -/
def lineShift (v : ByteView) (n : Nat) : ByteView := fun off => v (256 * n + off)

/-- binary32 split into its bfloat16 parts (R126). -/
def splitHigh (x : Num) : Num := fmtBF16.round x
def splitLow (x : Num) : Num :=
  match x with
  | .fin _ _ _ => fmtBF16.round (x.add (splitHigh x).neg)
  | _ => Num.zero

/-- The number of a preload or visit in a pass: row block b, weight column n's tile and the K tile of group g, and the v-th of that
tile; in wide-and-shallow mode the quad's, and the step of element r of the group (R108, R121, R123). -/
def readNumber (e b n g r v : Nat) : Nat :=
  let j := if Ent.passWs e then n / 160 * 4 else n / 40
  ((b * Ent.passNt e + j) * Ent.passKt e + g / 2) * 4 + (if Ent.passWs e then 2 * (g % 2) + r / 16 else v)

/-- Group g (32 elements along K) of weight column n as preload v of row block b takes it, from a plane laid out by tiles (R104,
R123, R126); view gives the operand as a preload reads it. -/
def weightGroup (view : Nat → ByteView) (e b v n g : Nat) : List Num :=
  let total := passKp e * passNp e
  let tile := n / 40 * Ent.passKt e + g / 2
  let from' := getNth 0 (preloadPlanes e) v * tensorLines (Ent.fmtA e) (Ent.blkA e) total
  (List.range 32).map fun r =>
    let x := elemValue (lineShift (view (readNumber e b n g r v)) from') (Ent.fmtA e) (Ent.blkA e) total
      ((tile * 40 + n % 40) * 64 + 32 * (g % 2) + r)
    if Ent.passRecipe e = 3 then (if v = 0 then splitLow x else splitHigh x) else x

/-- Group g of activation row m as visit v of row block b and weight column n's tile streams it (R105, R123, R126). -/
def actGroup (view : Nat → ByteView) (e b v n m g : Nat) : List Num :=
  let total := Ent.passMrows e * passKp e
  let from' := getNth 0 (visitPlanes e) v * tensorLines (Ent.fmtB e) (Ent.blkB e) total
  (List.range 32).map fun r =>
    let x := elemValue (lineShift (view (readNumber e b n g r v)) from') (Ent.fmtB e) (Ent.blkB e) total (m * passKp e + 32 * g + r)
    if Ent.passRecipe e = 3 then (if v = 1 then splitLow x else splitHigh x) else x

/-- The parameters of the skew unit's conversion into FMT_A (R171). -/
def skewParams (e src : Nat) : ConvParams :=
  { code := Ent.fmtA e, blk := Ent.blkA e, sat := true, flush := false, src := src, stream := 0, ebase := 0 }

/-- The value an element code has under a scale byte (R78). -/
def scaledValue (code scale bits : Nat) : Num :=
  if decide (code ≤ 5) && scale == 255 then .nan
  else if code ≤ 5 then (decodeElem code bits).scale ((scale : Int) - 127)
  else decodeElem code bits

/-- A run of 32 values along PASS-K converted by the skew unit: the values the array multiplies by, and the counts, NaNs among
them (R171, log entry 168). -/
def skewRun (p : ConvParams) (xs : List Num) : List Num × Counts :=
  if p.code ≤ 5 then
    let bs := (chunks (unitElems p.code p.blk) xs).map fun us => convertBlock p us.length id us
    ((bs.map fun b => b.elems.map fun c => scaledValue p.code b.scale c).flatten,
      bs.foldl (fun a b => a.add b.counts) {})
  else
    let cs := xs.map fun x => convertElem p.code p.sat p.flush .rne p.src x
    (cs.map fun c => decodeElem p.code c.bits, cs.foldl (fun a c => a.add c.counts) {})

/-- Group g of weight column n through the skew unit: column n of the source over rows 32g to 32g + 31, zero beyond
the source's columns (R170, R171). -/
def skewGroup (v : ByteView) (e : Nat) (h : SkewHeader) (n g : Nat) : List Num × Counts :=
  let cols := 32 * h.slen
  let src := lineShift v 1
  skewRun (skewParams e h.sfmt) ((List.range 32).map fun r =>
    if n < cols then elemValue src h.sfmt h.sblk (passKp e * cols) ((32 * g + r) * cols + n) else Num.zero)

/-! ### The value of one accumulation group (R109, R123, R124) -/

/-- A term: one visit's group-stage result. -/
def passTerm (e : Nat) (xs ws : List Num) : Num × Bool :=
  let short := (Ent.blkA e == 1 && decide (Ent.fmtA e ≤ 5)) || (Ent.blkB e == 1 && decide (Ent.fmtB e ≤ 5))
  spanSum (Ent.fmtA e) (Ent.fmtB e) short ws xs

/-- The group's value for each output plane, from the group as each visit streams it and as each preload takes it, and whether a
non-zero bit was truncated (R123). -/
def recipeTerms (e : Nat) (xs ws : List (List Num)) : List Num × Bool :=
  let x := fun i => getNth [] xs i
  let w := fun i => getNth [] ws i
  match Ent.passRecipe e with
  | 0 => let t := passTerm e (x 0) (w 0); ([t.1], t.2)
  | 1 =>
    let rr := passTerm e (x 0) (w 0)
    let ir := passTerm e (x 1) (w 0)
    let ii := passTerm e (x 2) (w 1)
    let ri := passTerm e (x 3) (w 1)
    ([waAdd rr.1 ii.1.neg, waAdd ir.1 ri.1], rr.2 || ir.2 || ii.2 || ri.2)
  | 2 =>
    -- W_r with X_r + X_i, W_r + W_i with X_i, W_i - W_r with X_r
    let k := passTerm e (x 0) (w 0)
    let a := passTerm e (x 1) (w 1)
    let b := passTerm e (x 2) (w 2)
    ([waAdd k.1 a.1.neg, waAdd k.1 b.1], k.2 || a.2 || b.2)
  | _ =>
    let t := fun (p q : List Num) => spanSum 6 6 false q p
    let a := t (x 0) (w 0)
    let b := t (x 1) (w 1)
    let c := t (x 2) (w 1)
    ([waAdd (waAdd a.1 b.1) c.1], a.2 || b.2 || c.2)

/-! ### Masks and visits (R108, R127, R186, R187) -/

/-- Block (32-row block r, 32-column block c) of the output is masked (R186). -/
def maskedBlock (e : Nat) (v : ByteView) (r c : Nat) : Bool :=
  let set := fun (b : Nat) => bit (v (b / 8)).toNat (b % 8) == 1
  match Ent.passMask e with
  | 1 => set r
  | 2 => set (r * ceilDiv (passNp e) 32 + c)
  | _ => false

/-- Output element (m, n) is masked. -/
def maskedOut (e : Nat) (v : ByteView) (m n : Nat) : Bool := maskedBlock e v (m / 32) (n / 32)

/-- Row m is streamed in the visits of N tile j: some block that it touches there is not masked (R127). -/
def streamed (e : Nat) (mv : ByteView) (m j : Nat) : Bool :=
  (List.range ((40 * j + 39) / 32 + 1 - 40 * j / 32)).any fun d => !maskedBlock e mv (m / 32) (40 * j / 32 + d)

/-- The rows of row block b (R108). -/
def blockRows (e b : Nat) : List Nat :=
  (List.range (min (rowBlock e) (Ent.passMrows e - b * rowBlock e))).map (b * rowBlock e + ·)

/-- The row blocks and N tiles whose visits stream a row, in the order of R108; the others are skipped with their preload
(R187). -/
def visits (e : Nat) (mv : ByteView) : List (Nat × Nat) :=
  ((List.range (ceilDiv (Ent.passMrows e) (rowBlock e))).flatMap fun b => (List.range (Ent.passNt e)).map fun j => (b, j)).filter
    fun x => (blockRows e x.1).any fun m => streamed e mv m x.2

/-- The N tiles that some visit preloads. -/
def tilesUsed (e : Nat) (mv : ByteView) : List Nat := (List.range (Ent.passNt e)).filter fun j => (visits e mv).any fun x => x.2 == j

/-! ### The accumulators (R110, R111, R188) -/

/-- A chunk sum put on the stack of pending subtree sums, k chunks having been closed before it: equal subtrees merge, the
lower-indexed first (R111, R201). Fuel: 8 pending sums. -/
def pushSum : Nat → Nat → Num → List Num → List Num
  | 0, _, x, l => x :: l
  | _, _, x, [] => [x]
  | f + 1, k, x, y :: ys => if k % 2 = 1 then pushSum f (k / 2) (waAdd y x) ys else x :: y :: ys

/-- Group number g of an output's accumulation: it is added, unless a mask kept the output out of the pass; in canonical
mode the chunk closes with its last group, as +0 where nothing was added to it (R110, R111, R188). -/
def OutAcc.add (canon : Bool) (a : OutAcc) (g : Nat) (x : Option Num) : OutAcc :=
  let run := match x, a.run with
    | none, r => r
    | some v, none => some v
    | some v, some r => some (waAdd r v)
  if canon && g % 32 == 31 then { run := none, pend := pushSum 8 (g / 32) (run.getD Num.zero) a.pend } else { a with run := run }

/-- The value of an output after n groups: in canonical mode that of the tree closed over the chunks so far (R111). -/
def OutAcc.value (canon : Bool) (a : OutAcc) (n : Nat) : Num :=
  if canon then
    match (if n % 32 = 0 then a.pend else a.run.getD Num.zero :: a.pend) with
    | [] => Num.zero
    | x :: older => older.foldl (fun v y => waAdd y v) x
  else a.run.getD Num.zero

/-! ### The pass on one core -/

/-- A weight column as the cells take it: the groups of each preload, and what the skew unit counted. -/
structure WeightColumn where
  planes : List (List (List Num))
  counts : Counts := {}
  deriving DecidableEq, Repr

/-- Weight column n as row block b's visits take it; h is the skew header. -/
def weightColumn (e : Nat) (h : SkewHeader) (view : Nat → ByteView) (b n : Nat) : WeightColumn :=
  let groups := List.range (2 * Ent.passKt e)
  if Ent.passSkew e then
    let gs := groups.map fun g => skewGroup (view (readNumber e b n g 0 0)) e h n g
    { planes := [gs.map (·.1)], counts := gs.foldl (fun a g => a.add g.2) {} }
  else { planes := (List.range (preloadPlanes e).length).map fun v => groups.map fun g => weightGroup view e b v n g }

/-- Activation row m as the visits of row block b and weight column n's tile stream it: the groups of each visit. -/
def actRow (e : Nat) (view : Nat → ByteView) (b n m : Nat) : List (List (List Num)) :=
  (List.range (visitPlanes e).length).map fun v => (List.range (2 * Ent.passKt e)).map fun g => actGroup view e b v n m g

/-- The group values of one output element, for each output plane, and the truncation seen. -/
def outputGroups (e : Nat) (xs : List (List (List Num))) (ws : List (List (List Num))) : List (List Num × Bool) :=
  (List.range (2 * Ent.passKt e)).map fun g =>
    recipeTerms e (xs.map fun p => getNth [] p g) (ws.map fun p => getNth [] p g)

/-- The 2,560 weights of one tile of N tile j as the cells take it, cell (k, n) at 40k + n: K tile t by preload v, or in
wide-and-shallow mode step u of the quad's four tiles, zero beyond NT (R101, R121, R122, R123). -/
def cellTile (e : Nat) (col : Nat → WeightColumn) (j t v u : Nat) : List Num :=
  let at' := fun (n k : Nat) => getNth Num.zero (getNth [] (getNth [] (col n).planes v) (2 * t + k / 32)) (k % 32)
  (List.range 64).flatMap fun k => (List.range 40).map fun n =>
    if Ent.passWs e then
      (if j / 4 * 4 + k / 16 < Ent.passNt e then at' (40 * (j / 4 * 4 + k / 16) + n) (16 * u + k % 16) else Num.zero)
    else at' (40 * j + n) k

/-- The tiles of a visit's first preload and of its last. -/
def firstTile (e : Nat) (col : Nat → WeightColumn) (j : Nat) : List Num := cellTile e col j 0 0 0
def lastTile (e : Nat) (col : Nat → WeightColumn) (j : Nat) : List Num :=
  cellTile e col j (Ent.passKt e - 1) ((preloadPlanes e).length - 1) 3

/-- What a pass leaves in a core's accumulators and cells and hands to its output stage (R101, R110, R111, R113, R114). -/
structure PassResult where
  groups : Nat
  sums : List OutAcc
  tile : Option (List Num)
  out : CoreOut
  deriving DecidableEq, Repr

/-- The operands of a pass on one core: its skew header and mask as the pass found them as it began, and the weights and activations
as its preloads and visits read them, by their numbers. -/
structure PassViews where
  header : SkewHeader
  mask : ByteView
  weights : Nat → ByteView
  acts : Nat → ByteView

/-- A pass on one core: a is the array as the passes before it left it (R113). -/
def passCore (e core : Nat) (o : PassViews) (a : ArrayState) : PassResult :=
  let np := passNp e
  let mrows := Ent.passMrows e
  let mv := o.mask
  let blockOf := fun m => m / rowBlock e
  let cols := (List.range (ceilDiv mrows (rowBlock e))).map fun b => (List.range np).map fun n => weightColumn e o.header o.weights b n
  let col := fun (b n : Nat) => getNth { planes := [] } (getNth [] cols b) n
  let old := if Ent.passAcc e then a.sums else []
  let base := if Ent.passAcc e then a.groups else 0
  let cells := ((List.range mrows).map fun m =>
    let xs := (List.range (Ent.passNt e)).map fun j => actRow e o.acts (blockOf m) (40 * j) m
    (List.range np).map fun n =>
      if maskedOut e mv m n then none else some (outputGroups e (getNth [] xs (n / 40)) (col (blockOf m) n).planes)).flatten
  let accs := ((List.range (outPlanes e)).map fun q => cells.zipIdx.map fun ((c, i) : Option (List (List Num × Bool)) × Nat) =>
    (List.range (2 * Ent.passKt e)).foldl (fun (a : OutAcc) g =>
      a.add (Ent.canon e) (base + g) (c.map fun gs => getNth Num.zero (getNth ([], false) gs g).1 q))
      (getNth {} old (q * cells.length + i))).flatten
  let total := base + 2 * Ent.passKt e
  let no := passNo e
  let value := fun (q m n : Nat) =>
    if n < np then (getNth {} accs (q * cells.length + m * np + n)).value (Ent.canon e) total else Num.zero
  let skewed := (tilesUsed e mv).foldl (fun (a : Counts) j =>
    (List.range 40).foldl (fun (a : Counts) n =>
      a.add (col (((visits e mv).find? fun x => x.2 == j).map (·.1) |>.getD 0) (40 * j + n)).counts) a) {}
  let lastRows := blockRows e (ceilDiv mrows (rowBlock e) - 1)
  let lastCols := (List.range np).filter fun n => decide (n / 160 = (np - 1) / 160)
  { groups := total
    sums := (List.range (outPlanes e)).flatMap fun q => lastRows.flatMap fun m => lastCols.map fun n =>
      getNth {} accs (q * cells.length + m * np + n)
    tile := (visits e mv).getLast?.map fun x => lastTile e (col x.1) x.2
    out :=
      { core := core
        planes := (List.range (outPlanes e)).map fun q =>
          (List.range mrows).flatMap fun m => (List.range no).map fun n => value q m n
        keep := if Ent.passMask e = 0 then []
          else (List.range mrows).flatMap fun m => (List.range no).map fun n => !maskedOut e mv m n
        counts := skewed.add { truncated := cells.any fun c => c.any fun gs => gs.any (·.2) } } }

/-- Core k's array in cluster cl, kept by core number 16 · cl + k. -/
def arrayDefault (_ : Nat) : ArrayState := {}
def arrayOf (s : State) (cl k : Nat) : ArrayState := sget arrayDefault s.seq.arrays (16 * cl + k)
def setArray (s : State) (cl k : Nat) (a : ArrayState) : State :=
  { s with seq.arrays := sset arrayDefault s.seq.arrays (16 * cl + k) a }

/-- What a PASS issued to a core leaves for the checks of the next (R113): base is what has accumulated before it. -/
def passShape (e : Nat) (prev : Option AccShape) : AccShape :=
  { mrows := Ent.passMrows e, nt := Ent.passNt e, canon := Ent.canon e, recipe := Ent.passRecipe e, ws := Ent.passWs e,
    groups := accGroups e prev + 2 * Ent.passKt e }

/-! ### The lines read (R108, R127, R171, R187) -/

/-- The lines of the weight operand that the pass reads, from WADDR: those of the tiles that are preloaded. With SKEW 1
these are the header and, of every row, the columns of the tile's windows that the source holds (R171). -/
def weightLinesRead (e : Nat) (wv mv : ByteView) : List Nat :=
  let h := skewHeader wv
  if Ent.passSkew e then
    let cols := 32 * h.slen
    0 :: ((tilesUsed e mv).flatMap fun j => (List.range (passKp e)).flatMap fun k =>
      (elemLines h.sfmt h.sblk (passKp e * cols) (k * cols + min (40 * j) cols) (k * cols + min (40 * j + 64) cols)).map (1 + ·)).eraseDups
  else if Ent.passMask e = 0 then List.range (weightLines e h)
  else ((tilesUsed e mv).flatMap fun j =>
    elemLines (Ent.fmtA e) (Ent.blkA e) (passKp e * passNp e) (40 * j * passKp e) (40 * (j + 1) * passKp e)).eraseDups

/-- The lines of the activation operand that the pass reads, from AADDR: those of the rows that are streamed. -/
def actLinesRead (e : Nat) (mv : ByteView) : List Nat :=
  if Ent.passMask e = 0 then List.range (actLines e)
  else (((List.range (Ent.passMrows e)).filter fun m => (List.range (Ent.passNt e)).any fun j => streamed e mv m j).flatMap fun m =>
    elemLines (Ent.fmtB e) (Ent.blkB e) (Ent.passMrows e * passKp e) (m * passKp e) ((m + 1) * passKp e)).eraseDups

/-- The lines a pass reads on a core, and their addresses. -/
def passLines (s : State) (cl e k : Nat) : List Nat :=
  let view := fun l => nsView s (actingSlot s cl) cl k l
  let mv := view (Ent.passMaddr e)
  ((weightLinesRead e (view (Ent.passWaddr e)) mv).map (Ent.passWaddr e + ·)) ++ ((actLinesRead e mv).map (Ent.passAaddr e + ·)) ++
    ((List.range (maskLines e)).map (Ent.passMaddr e + ·))
def passLinesRead (s : State) (cl e k : Nat) : List Nat := (passLines s cl e k).map fun l => nsAddr cl k (256 * l)

/-! ### Running a pass (R52, R119, R129, R173) -/

/-- What stands in the lines of a pass on a core, with their numbers. -/
def operandLines (s : State) (cl e k : Nat) : List (Nat × List Byte) :=
  (passLines s cl e k).map fun l => (l, (List.range 256).map (nsView s (actingSlot s cl) cl k l))

/-- Lines kept so, as the view of the operand at line l; a line that is not kept reads as v has it. -/
def keptView (ops : List (Nat × List Byte)) (v : ByteView) (l : Nat) : ByteView := fun off =>
  match ops.lookup (l + off / 256) with
  | some bs => getNth 0 bs (off % 256)
  | none => v (256 * l + off)

/-- The operands of a pass on core k: each line at each preload or visit as it stood when the pass began or as it stands in s (R129,
log entry 4); c numbers the choice. -/
def passViews (s : State) (cl e k c : Nat) (ops : List (Nat × List Byte)) : PassViews :=
  let now := nsView s (actingSlot s cl) cl k 0
  let read := fun (l n : Nat) (off : Nat) =>
    if Config.readLate c k n (l + off / 256) then now (256 * l + off) else keptView ops now l off
  { header := skewHeader (keptView ops now (Ent.passWaddr e)), mask := keptView ops now (Ent.passMaddr e),
    weights := read (Ent.passWaddr e), acts := read (Ent.passAaddr e) }

/-- A pass on core k of which ops stood in its lines as it began: what it leaves in the accumulators and cells, and the outputs it
hands on. -/
def passOn (s : State) (cl e k : Nat) (ops : List (Nat × List Byte)) : PassResult :=
  passCore e k (passViews s cl e k s.freeCount ops) (arrayOf s cl k)

/-- The first tile of a pass on core k, of what stood in its lines as it began; none where it streams no row. -/
def leadTile (s : State) (cl e k : Nat) (ops : List (Nat × List Byte)) : Option (List Num) :=
  let v := keptView ops (nsView s (actingSlot s cl) cl k 0)
  (visits e (v (Ent.passMaddr e))).head?.map fun x =>
    firstTile e (weightColumn e (skewHeader (v (Ent.passWaddr e))) (fun _ => v (Ent.passWaddr e)) x.1) x.2

/-- The passes in the queue of core k's array, in issue order. -/
def arrayQueue (s : State) (cl k : Nat) : List Flight :=
  s.seq.flights.filter fun g => g.cl == cl && g.units.contains .array && bit g.cores k == 1

/-- The pass that the array of core k runs after flight f, with what stood in its lines there. -/
def nextRunning (s : State) (f : Flight) (k : Nat) : Option (Flight × List (Nat × List Byte)) :=
  ((arrayQueue s f.cl k).filter fun g => decide (f.id < g.id)).head?.bind fun g =>
    match g.work with
    | .running ops => (ops.lookup k).map fun ls => (g, ls)
    | _ => none

/-- A core's array as pass f that ends leaves it: its sums, its last tile in the active registers, and in the shadow registers the first
tile of the pass that follows without a gap, else the last tile swapped in (R101, R119, log entry 110). -/
def arrayAfter (s : State) (f : Flight) (k : Nat) (r : PassResult) : ArrayState :=
  let a := arrayOf s f.cl k
  { a with
    groups := r.groups, sums := r.sums, active := r.tile.getD a.active
    shadow := ((nextRunning s f k).bind fun x => leadTile s f.cl x.1.entry k x.2).getD (r.tile.getD a.shadow) }

/-- The first tile of a pass that begins goes into the shadow registers of core k where no pass runs there, or the one that runs last
has PRELOAD 1 (R119). -/
def preloads (s : State) (f : Flight) (k : Nat) : Bool :=
  ((arrayQueue s f.cl k).filter fun g => decide (g.id < f.id)).getLast?.all fun g => Ent.passPreload g.entry

/-- The first tile of a pass that begins loaded on core k. -/
def loadFirst (s : State) (f : Flight) (k : Nat) : State :=
  if preloads s f k then
    setArray s f.cl k
      { arrayOf s f.cl k with shadow := (leadTile s f.cl f.entry k (operandLines s f.cl f.entry k)).getD (arrayOf s f.cl k).shadow }
  else s

/-- The array begins a PASS on every core of its mask: its lines are counted as read, and its first tile is preloaded. -/
def runPass (s : State) (f : Flight) : State :=
  let ks := setBits f.cores 16
  let ops := ks.map fun k => (k, operandLines s f.cl f.entry k)
  let s := ks.foldl (fun st k => nsNote st (flightCtx s f k) (passLinesRead s f.cl f.entry k)) s
  setWork (ks.foldl (fun st k => loadFirst st f k) s) f.id (.running ops)

/-- A pass follows another without a gap: the same c and the same WS (R119, R129). -/
def sameForm (e g : Nat) : Bool := productSlot e == productSlot g && Ent.passWs e == Ent.passWs g

/-- Nothing stands before a flight: no earlier one of its units on the cores they share, but for a PASS the passes that run and that it
follows without a gap (R52, R119). Its DEP and FENCE waited at issue. -/
def nothingBefore (s : State) (f : Flight) : Bool :=
  if Ent.type f.entry = 0 then
    s.seq.flights.all fun g =>
      decide (f.id ≤ g.id) || g.cl != f.cl || !g.units.contains .array || g.cores &&& f.cores == 0 ||
        (g.runs && sameForm f.entry g.entry)
  else flightFirst s f

/-- A flight looked at after its units may have come free: with nothing before it, it asks for the skew unit where it needs
that, and a PASS that holds what it needs begins (R52, R119, R129, R173). -/
def advanceFlight (s : State) (id : Nat) : State :=
  match s.seq.flights.find? fun f => f.id == id with
  | none => s
  | some f =>
    if !nothingBefore s f then s
    else
      let ask := needsSkew f.entry && f.asked.isNone
      let f := if ask then { f with asked := some s.seq.nextAsk } else f
      let s := if ask then
          { s with
            seq.nextAsk := s.seq.nextAsk + 1
            seq.flights := s.seq.flights.map fun g => if g.id = id then { g with asked := f.asked } else g }
        else s
      match f.work with
      | .waiting => if needsSkew f.entry && !holdsSkew s f then s else runPass s f
      | _ => s

/-- Every flight looked at, in issue order. -/
def settleUnits (s : State) : State := (s.seq.flights.map fun f => f.id).foldl advanceFlight s

/-- The entry leaves its units, and what waited for them goes on (R52, R173). -/
def leaveUnits (s : State) (id : Nat) : State := settleUnits (removeFlight s id)

/-- The first core of an entry that rejects it, with the cause. -/
def passRejects (s : State) (cl e : Nat) : Option (Nat × Nat) :=
  (setBits (Ent.cores e) 16).findSome? fun k =>
    (passReject e (nsView s (actingSlot s cl) cl k (Ent.passWaddr e)) (arrayOf s cl k).shape).map fun c => (k, c)

/-- A pass that the array takes into its queue: it is the last issued to every core of its mask, and begins where nothing
stands before it. -/
def startPass (s : State) (cl p i e : Nat) : State :=
  let s := (setBits (Ent.cores e) 16).foldl (fun st k =>
    let a := arrayOf st cl k
    setArray st cl k { a with shape := some (passShape e a.shape) }) s
  advanceFlight (issueFlight s cl p i e [.array] (Ent.cores e) .waiting) s.seq.nextId

/-- PASS (R108, R129): blocked until it can issue; rejected with its cause; else in the array's queue. -/
def execPass (cl p : Nat) (s : State) : Res :=
  .next (withEntry s cl p (fun e => Ent.type e == 0) fun i e =>
    if !readyFor s cl p e [.array] (Ent.cores e) then blockProg s cl p
    else match passRejects s cl e with
      | some (k, c) => rejectEntry s cl p i c k
      | none =>
        if recordOut s cl (Ent.nrec e) then rejectEntry s cl p i Cause.outOfRange (lowCore e)
        else startPass s cl p i e)

/-! ### The output stage (R114, R115, R187) -/

/-- How an entry of a cluster converts into FMT_D (R92 to R94). -/
def convParams (e seed src : Nat) (grad : Bool) : ConvParams :=
  { code := Ent.fmtD e, blk := Ent.blkD e, sat := Ent.sat e, flush := Ent.flush e, src := src,
    stochU := if grad && Ent.fmtD e != 0xA then 8 else 0
    seed := BitVec.ofNat 64 seed, stream := Ent.stream e, ebase := Ent.ebase e }

/-- One core's outputs converted, each plane after the one before, and what the conversions counted (R115, R125). -/
def passImages (e seed : Nat) (o : CoreOut) : List ByteWrite × Counts :=
  let no := passNo e
  let p := { convParams e seed 0xA (Ent.grad e) with rowLen := no, realLen := passNp e }
  let lines := tensorLines (Ent.fmtD e) (Ent.blkD e) (Ent.passMrows e * no)
  let ts := o.planes.map fun vs =>
    convertTensor p (fun i => 65536 * (i / no) + i % no) (fun i => getNth true o.keep i) vs
  ((ts.zipIdx.map fun ((t, q) : TensorConv × Nat) => t.writes.map fun (w : ByteWrite) => (256 * lines * q + w.1, w.2)).flatten,
    ts.foldl (fun a t => a.add t.counts) {})

/-- The outputs of every core written, their conditions noted, and the record updated (R97, R99, R114). What the operand
side counted is no conversion with GRAD 1: it sets only the sticky bits (R96, R171). -/
def finishPass (s : State) (f : Flight) (outs : List CoreOut) : State :=
  let s0 := s
  let done := outs.map fun o => (o, passImages f.entry f.seed o)
  let s := done.foldl (fun st (d : CoreOut × List ByteWrite × Counts) =>
    let st := nsWriteImage st (flightCtx s0 f d.1.core) f.cl d.1.core (Ent.passOaddr f.entry) d.2.1
    noteCounts (noteSticky st f.cl d.1.core d.1.counts.sticky) f.cl d.1.core (Ent.grad f.entry) d.2.2) s
  let total := done.foldl (fun a d => Counts.add (Counts.add a d.1.counts) d.2.2) ({} : Counts)
  leaveUnits (addRecord s (flightCtx s0 f (lowCore f.entry)) f.cl (Ent.nrec f.entry) total) f.id

/-- A pass that runs forms its sums on every core of its mask, and each core's array is left as it leaves it; the choices between what
stood in a line and what stands there take one fresh number (log entry 4). -/
def endPass (s : State) (f : Flight) (ops : List (Nat × List (Nat × List Byte))) : State × List CoreOut :=
  let rs := ops.map fun x => (x.1, passOn s f.cl f.entry x.1 x.2)
  let t := rs.foldl (fun st (x : Nat × PassResult) => setArray st f.cl x.1 (arrayAfter st f x.1 x.2)) s
  ({ t with freeCount := t.freeCount + 1 }, rs.map fun x => x.2.out)

/-- PASS_COMPLETE (R114): the outputs of a pass that has run drain; one that has not begun cannot complete. -/
def execPassComplete (f : Nat) (s : State) : Res :=
  .next (match flightOf s f (fun e => Ent.type e == 0) with
    | none => s
    | some fl =>
      match fl.work with
      | .running ops => let r := endPass s fl ops; finishPass r.1 fl r.2
      | _ => s)

end Sys2Proof.Machine
end

