-- ==== Sys2Proof/Machine/MatVec.lean ====
section
/-! DEFINITION. The matrix-vector path: MVEC and its completion (R131 to R138). -/

namespace Sys2Proof.Machine

/-- N_o of an MVEC (R133). -/
def mvecNo (e : Nat) : Nat :=
  if Ent.fmtD e ≤ 5 then
    let b := if Ent.blkD e = 1 then 16 else 32
    ceilDiv (Ent.mvNout e) b * b
  else Ent.mvNout e

def mvecK (e : Nat) : Nat := 32 * Ent.mvKblk e
def mvecWeightLines (e : Nat) : Nat := tensorLines (Ent.fmtA e) (Ent.blkA e) (Ent.mvNout e * mvecK e)
def mvecVectorLines (e : Nat) : Nat := tensorLines (Ent.fmtB e) (Ent.blkB e) (Ent.mvBatch e * mvecK e)
def mvecOutLines (e : Nat) : Nat := tensorLines (Ent.fmtD e) (Ent.blkD e) (Ent.mvBatch e * mvecNo e)

/-- The formats of R132. -/
def mvecFormatsOk (e : Nat) : Bool :=
  Ent.fmtOk (Ent.fmtA e) (Ent.blkA e) && Ent.fmtOk (Ent.fmtB e) (Ent.blkB e) && Ent.fmtOk (Ent.fmtD e) (Ent.blkD e) &&
    decide (Ent.fmtA e ≤ 8) && decide (Ent.fmtB e ≤ 7) && (decide (Ent.fmtD e ≤ 7) || Ent.fmtD e == 9)

/-- Why a core rejects an MVEC at issue, in the order of R138's table (R98 last). -/
def mvecReject (s : State) (cl e : Nat) : Option Nat :=
  let out := Ent.mvOaddr e
  if !mvecFormatsOk e || Ent.mvNout e == 0 || Ent.mvKblk e == 0 then some Cause.reservedEncoding
  else if 512 < mvecVectorLines e then some Cause.vectorTooLong
  else if 4096 < Ent.mvKblk e then some Cause.canonicalDepth
  else if 16384 < Ent.mvWaddr e + mvecWeightLines e ∨ 16384 < Ent.mvXaddr e + mvecVectorLines e ∨
      16384 < out + mvecOutLines e then some Cause.outOfRange
  else if linesMeet out (mvecOutLines e) (Ent.mvWaddr e) (mvecWeightLines e) ||
      linesMeet out (mvecOutLines e) (Ent.mvXaddr e) (mvecVectorLines e) then some Cause.operandOverlap
  else if recordOut s cl (Ent.nrec e) then some Cause.outOfRange
  else none

/-- Either operand takes short blocks, so that groups are pairs of 16 (R88). -/
def shortGroups (ca ba cb bb : Nat) : Bool := (ba == 1 && decide (ca ≤ 5)) || (bb == 1 && decide (cb ≤ 5))

/-- The dot product of a weight row and a vector in canonical order (R135), and whether a bit was truncated. -/
def canonicalDot (ca cb : Nat) (short : Bool) (ws xs : List Num) : Num × Bool :=
  let gs := ((chunks 32 ws).zip (chunks 32 xs)).map fun (g : List Num × List Num) => spanSum ca cb short g.1 g.2
  (canonical (gs.map (·.1)), gs.any (·.2))

/-- An MVEC on the lines of one core: wv and xv are the views at WADDR and XADDR. -/
def mvecCore (e core : Nat) (wv xv : ByteView) : CoreOut :=
  let k := mvecK e
  let short := shortGroups (Ent.fmtA e) (Ent.blkA e) (Ent.fmtB e) (Ent.blkB e)
  let ws := (List.range (Ent.mvNout e)).map fun n =>
    (List.range k).map fun i => elemValue wv (Ent.fmtA e) (Ent.blkA e) (Ent.mvNout e * k) (n * k + i)
  let xs := (List.range (Ent.mvBatch e)).map fun b =>
    (List.range k).map fun i => elemValue xv (Ent.fmtB e) (Ent.blkB e) (Ent.mvBatch e * k) (b * k + i)
  let rows := xs.map fun x => ws.map fun w => canonicalDot (Ent.fmtA e) (Ent.fmtB e) short w x
  { core := core
    planes := [(rows.map fun r => padTo (mvecNo e) Num.zero (r.map (·.1))).flatten]
    keep := []
    counts := { truncated := rows.any fun r => r.any (·.2) } }

/-- The lines an MVEC reads on a core. -/
def mvecLinesRead (cl e k : Nat) : List Nat :=
  coreLines cl k (Ent.mvWaddr e) (mvecWeightLines e) ++ coreLines cl k (Ent.mvXaddr e) (mvecVectorLines e)

/-- A vector load is hidden by the running MVEC: each of the two operands fits one bank, so that one bank is free (R134).
An MVEC that is issued while another is queued counts as hidden by that one's stream (log entry 112). -/
def loadHidden (s : State) (cl e k : Nat) : Bool :=
  decide (mvecVectorLines e ≤ 256) && (s.seq.flights.filter fun f =>
    f.cl == cl && Ent.type f.entry == 1 && bit f.cores k == 1).getLast?.any fun f => decide (mvecVectorLines f.entry ≤ 256)

/-- An MVEC that the path takes. A vector load that the MVEC before it does not hide is counted, once for each core (R134,
R165; log entry 112). -/
def startMvec (s : State) (cl p i e : Nat) : State :=
  let ks := setBits (Ent.cores e) 16
  let outs := ks.map fun k => mvecCore e k (nsView s (actingSlot s cl) cl k (Ent.mvWaddr e)) (nsView s (actingSlot s cl) cl k (Ent.mvXaddr e))
  let loads := (ks.filter fun k => !loadHidden s cl e k).length
  let s' := ks.foldl (fun st k => nsNote st (entryCtx s cl p i k) (mvecLinesRead cl e k)) s
  let s' := incReg s' (clPage 0x14 cl + Reg.MV_VECLOADS) loads
  issueFlight s' cl p i e [.mvPath] (Ent.cores e) (.outputs outs)

/-- MVEC (R135, R138). -/
def execMvec (cl p : Nat) (s : State) : Res :=
  .next (withEntry s cl p (fun e => Ent.type e == 1) fun i e =>
    if !readyFor s cl p e [.mvPath] (Ent.cores e) then blockProg s cl p
    else match mvecReject s cl e with
      | some c => rejectEntry s cl p i c (lowCore e)
      | none => startMvec s cl p i e)

/-- One core's outputs converted, always to nearest even (R93, R135). -/
def mvecImage (e : Nat) (o : CoreOut) : List ByteWrite × Counts :=
  let p := { convParams e 0 0xA false with rowLen := mvecNo e, realLen := Ent.mvNout e }
  let t := convertAll p o.planes.flatten
  (t.writes, t.counts.add o.counts)

/-- The outputs of every core written, their conditions noted, and the record updated. -/
def finishMvec (s : State) (f : Flight) (outs : List CoreOut) : State :=
  let done := outs.map fun o => (o.core, mvecImage f.entry o)
  let s' := done.foldl (fun st (d : Nat × List ByteWrite × Counts) =>
    noteCounts (nsWriteImage st (flightCtx s f d.1) f.cl d.1 (Ent.mvOaddr f.entry) d.2.1) f.cl d.1 false d.2.2) s
  let total := done.foldl (fun a d => Counts.add a d.2.2) ({} : Counts)
  removeFlight (addRecord s' (flightCtx s f (lowCore f.entry)) f.cl (Ent.nrec f.entry) total) f.id

/-- MVEC_COMPLETE (R137). -/
def execMvecComplete (f : Nat) (s : State) : Res :=
  .next (match flightOf s f (fun e => Ent.type e == 1) with
    | none => s
    | some fl =>
      match fl.work with
      | .outputs outs => finishMvec s fl outs
      | _ => removeFlight s f)

end Sys2Proof.Machine
end

