-- ==== Sys2Proof/Machine/Vec.lean ====
section
/-! DEFINITION. The vector unit: the VEC operations and their completion (R143, R175 to R184, R217, R221, R234 to
R238, R569, R575, R576). A VEC reads, computes and writes in the step that issues it; its counts go into its record
when it completes. -/

namespace Sys2Proof.Machine

/-! ### Operands and rejection -/

/-- Elements of a VEC. -/
def vecN (e : Nat) : Nat := 64 * Ent.vlen e

/-- The row length in elements (R177). -/
def vecRow (e : Nat) : Nat := 32 * Ent.rowlen e

/-- The row operations of R177. -/
def isRowOp (v : Nat) : Bool := v == 5 || v == 6 || (decide (0xA ≤ v) && decide (v ≤ 0xD))

/-- Which sources a VOP reads (R175). -/
def readsA (v : Nat) : Bool := v != 0x14 && v != 0x15
def readsB (v : Nat) : Bool := (decide (1 ≤ v) && decide (v ≤ 3)) || v == 0xB || v == 0xC || v == 0xD || v == 0x10 || v == 0x11
def readsC (v : Nat) : Bool := v == 3 || v == 0xC || v == 0x10 || v == 0x11

/-- The format fields that are checked: those of operands read or written in a format (R175, R182, R183). -/
def vecFormatsOk (e : Nat) : Bool :=
  let v := Ent.vop e
  let a := !readsA v || v == 0x11 || (Ent.fmtOk (Ent.fmtA e) (Ent.blkA e) && (Ent.fmtA e != 0xA || v == 0))
  let b := !(readsB v && v != 0xD) || (Ent.fmtOk (Ent.fmtB e) (Ent.blkB e) && Ent.fmtB e != 0xA)
  let d := Ent.fmtOk (Ent.fmtD e) (Ent.blkD e) && Ent.fmtD e != 0xA &&
    (Ent.fmtD e != 8 || v == 0 || v == 0x10 || v == 0x11)
  let opt := (v != 0x10 || (Ent.fmtB e == 8 && Ent.fmtD e == 8 && [3, 4, 6, 7, 9].contains (Ent.fmtA e))) &&
    (v != 0x11 || (Ent.fmtB e == 8 && Ent.fmtD e == 8))
  let cache := v != 0x12 || (Ent.fmtD e == 3 && Ent.blkD e == 0) || (Ent.fmtD e == 5 && Ent.blkD e == 0) ||
    (Ent.fmtD e == 0 && Ent.blkD e == 1)
  a && b && d && opt && cache

/-- The remaining reserved encodings of a VEC (R177, R178, R180, R238). -/
def vecReserved (e : Nat) : Bool :=
  let v := Ent.vop e
  Ent.vlen e == 0 || !vecFormatsOk e ||
    (isRowOp v && (Ent.rowlen e == 0 || vecN e % vecRow e != 0)) ||
    (v == 0 && Ent.rowlen e != 0 && (2 * Ent.vlen e % Ent.rowlen e != 0 || 2 * Ent.vlen e / Ent.rowlen e % 32 != 0)) ||
    (v == 0x14 && decide (1 < Ent.rowlen e)) ||
    (v == 0x13 && fmtFP32.decode (Ent.imm e) == .nan) ||
    ((v == 0x13 || v == 0x14 || v == 0x15) && Ent.grad e)

/-- A run of lines with the format and block bit that it is read or written in, none where it has no tensor format. -/
structure LineRun where
  line : Nat
  count : Nat
  fmt : Option (Nat × Nat)
  deriving DecidableEq, Repr

/-- The runs of lines a VEC reads and does not update, and those it writes (R175 to R184). -/
def vecSources (e : Nat) : List LineRun :=
  let v := Ent.vop e
  let fa := (Ent.fmtA e, Ent.blkA e)
  let fb := (Ent.fmtB e, Ent.blkB e)
  let run := fun (l n : Nat) (f : Nat × Nat) => ({ line := l, count := tensorLines f.1 f.2 n, fmt := some f } : LineRun)
  let a := if v == 0x11 then [({ line := Ent.srcA e, count := 1, fmt := none } : LineRun)]
    else if readsA v then [run (Ent.srcA e) (vecN e) fa] else []
  let b := if v == 0x10 || !readsB v then []
    else if v == 0xD then [{ line := Ent.srcB e, count := ceilDiv (4 * (vecN e / vecRow e)) 256, fmt := none }]
    else if v == 0xB || v == 0xC then [run (Ent.srcB e) (vecRow e) fb]
    else [run (Ent.srcB e) (vecN e) fb]
  let c := if v == 0x10 || !readsC v then []
    else if v == 0xC then [run (Ent.srcC e) (vecRow e) fb]
    else [run (Ent.srcC e) (vecN e) fb]
  let par := if v == 0x10 then [({ line := Ent.vdst e, count := 1, fmt := none } : LineRun)] else []
  a ++ b ++ c ++ par

def vecDests (e : Nat) : List LineRun :=
  let v := Ent.vop e
  let fd := (Ent.fmtD e, Ent.blkD e)
  if v == 0x10 then
    [{ line := Ent.srcB e, count := tensorLines 8 0 (vecN e), fmt := some (8, 0) },
      { line := Ent.srcC e, count := tensorLines 8 0 (vecN e), fmt := some (8, 0) }]
  else if v == 0xD then [{ line := Ent.vdst e, count := ceilDiv (8 * (vecN e / vecRow e)) 256, fmt := some fd }]
  else if v == 5 || v == 6 then
    [{ line := Ent.vdst e, count := tensorLines fd.1 fd.2 (vecN e / vecRow e), fmt := some fd }]
  else [{ line := Ent.vdst e, count := tensorLines fd.1 fd.2 (vecN e), fmt := some fd }]

/-- A destination and a source may coincide only in place (R575); the optimizer operations update their own operands
and admit no other overlap, and neither does a skew conversion. -/
def vecOverlap (e : Nat) : Bool :=
  let v := Ent.vop e
  let strict := v == 0x10 || v == 0x11 || (v == 0 && Ent.rowlen e != 0)
  let meets := fun (a b : LineRun) => linesMeet a.line a.count b.line b.count
  (vecDests e).any fun d =>
    (vecSources e).any (fun r => meets d r && (strict || d.line != r.line || d.fmt != r.fmt || r.fmt == none)) ||
      (v == 0x10 && linesMeet (Ent.srcB e) d.count (Ent.srcC e) d.count)

/-- Why a core rejects a VEC at issue (R98, R175, R184, R575). -/
def vecReject (s : State) (cl e : Nat) : Option Nat :=
  if vecReserved e then some Cause.reservedEncoding
  else if Ent.vlen e % 2 = 1 ∧ (Ent.vop e = 0x10 ∨ Ent.vop e = 0x11 ∨ (Ent.vop e = 0 ∧ Ent.fmtD e = 8)) then
    some Cause.groupMisaligned
  else if (vecSources e ++ vecDests e).any fun r => decide (16384 < r.line + r.count) then some Cause.outOfRange
  else if vecOverlap e then some Cause.operandOverlap
  else if recordOut s cl (Ent.nrec e) then some Cause.outOfRange
  else none

/-! ### Widening (R176) -/

/-- A source value as binary32: beyond its range it becomes the largest finite value and counts as saturated. -/
def widen (x : Num) : Num × Bool :=
  match x with
  | .fin neg _ _ =>
    match f32 x with
    | .inf _ => (.fin neg fmtFP32.maxFin.1 fmtFP32.maxFin.2, true)
    | y => (y, false)
  | y => (y, false)

/-- The widened values of a tensor and how many saturated. -/
def widenAll (xs : List Num) : List Num × Nat :=
  let ws := xs.map widen
  (ws.map (·.1), (ws.filter (·.2)).length)

/-- A tensor at a line of a core, widened. -/
def readWide (v : Nat → ByteView) (line code blk n : Nat) : List Num × Nat := widenAll (tensorValues (v line) code blk n)

/-- A binary32 word as a value. -/
def f32Bits (b : Nat) : Num := fmtFP32.decode b

/-- A binary32 word of memory. -/
def f32At (v : ByteView) (off : Nat) : Num := f32Bits (viewLE v off 4)

/-! ### The operations (R177, R569, R576) -/

/-- The row maximum (R569). -/
def rowMax (xs : List Num) : Num :=
  match xs with
  | [] => Num.zero
  | x :: rest => rest.foldl Num.max x

/-- Softmax of one row (R177, VOP 0x0A). -/
def softmaxRow (xs : List Num) : List Num :=
  let m := rowMax xs
  if m = .inf true then xs.map fun _ => Num.zero
  else
    let es := xs.map fun a => f32Exp (f32Sub a m)
    let s := rowSum es
    es.map fun x => f32Div x s

def natNum (n : Nat) : Num := .fin false n 0

/-- RMS normalisation of one row with gains b (R576). -/
def rmsRow (imm : Num) (b xs : List Num) : List Num :=
  let q := f32Div (rowSum (xs.map fun a => a.mul a)) (natNum xs.length)
  let r := f32Rsqrt (f32Add q imm)
  List.zipWith (fun a g => f32Mul (f32Mul a r) g) xs b

/-- Layer normalisation of one row with gains b and offsets c (R576). -/
def layerRow (imm : Num) (b c xs : List Num) : List Num :=
  let n := natNum xs.length
  let mu := f32Div (rowSum xs) n
  let d := xs.map fun a => f32Sub a mu
  let q := f32Div (rowSum (d.map fun x => x.mul x)) n
  let r := f32Rsqrt (f32Add q imm)
  List.zipWith (fun (x : Num) (gc : Num × Num) => f32Fma (f32Mul x r) gc.1 gc.2) d (b.zip c)

/-- SiLU (R576). -/
def siluNum (a : Num) : Num := f32Div a (f32Add Num.one (f32Exp a.neg))

/-- GELU (R576), with the constants 0.7978846 and 0.044715 as the nearest binary32 values. -/
def geluNum (a : Num) : Num :=
  let t := f32Mul (f32Mul a a) a
  let u := f32Mul (f32Bits 0x3F4C422A) (f32Fma (f32Bits 0x3D372713) t a)
  let s := f32Sub (f32Div (.fin false 1 1) (f32Add Num.one (f32Exp (f32Mul (.fin true 1 1) u)))) Num.one
  f32Mul (f32Mul (.fin false 1 (-1)) a) (f32Add Num.one s)

/-- What VOP 0x0D gives for one row and its target: lp of the target and m + ln s; canonical NaN for a target beyond
the row (R158, R179). -/
def logProbRow (xs : List Num) (target : Nat) : Num × Num :=
  let m := rowMax xs
  let s := rowSum (xs.map fun z => f32Exp (f32Sub z m))
  let l := f32Ln s
  if target < xs.length then (f32Sub (f32Sub (getNth Num.nan xs target) m) l, f32Add m l) else (.nan, .nan)

/-- Dropout's threshold k: IMM × 256 rounded to nearest even, held to 0 to 256 (R180). -/
def dropThreshold (imm : Num) : Nat :=
  match imm with
  | .nan => 0
  | .inf neg => if neg then 0 else 256
  | .fin neg m e => if neg then 0 else min 256 (roundTo .rne m (e + 8) 0).1

/-- The draws of a fill element (R234 to R237). -/
def uniformNum (imm : Num) (d : Nat) : Num := f32Mul (.fin false (d / 256) (-24)) imm

def normalTable (imm : Num) (d : Nat) : Num :=
  let k := bf d 30 21
  let f : Num := .fin false (bf d 20 0) (-21)
  let y := f32Fma f (f32Sub (knot (k + 1)) (knot k)) (knot k)
  f32Mul (if bit d 31 = 1 then y.neg else y) imm

def normalPair (imm : Num) (d1 d2 : Nat) : Num × Num :=
  let u1 : Num := .fin false (d1 / 256 + 1) (-24)
  let u2 : Num := .fin false (d2 / 256) (-24)
  let rho := f32Sqrt (f32Mul (.fin true 1 1) (f32Ln u1))
  let a := f32Mul (.fin false 1 1) u2
  (f32Mul (f32Mul rho (f32CosPi a)) imm, f32Mul (f32Mul rho (f32SinPi a)) imm)

/-- Element i of a fill. -/
def fillNum (e seed i : Nat) : Num :=
  let d := fun (g : Nat) => (draw (BitVec.ofNat 64 seed) (Ent.stream e) (Ent.ebase e + g)).toNat
  let imm := f32Bits (Ent.imm e)
  if Ent.vop e = 0x15 then uniformNum imm (d i)
  else if Ent.rowlen e = 0 then normalTable imm (d i)
  else
    let p := normalPair imm (d (2 * (i / 2))) (d (2 * (i / 2) + 1))
    if i % 2 = 0 then p.1 else p.2

/-- The transposition of a skew conversion: h rows of w elements into w rows of h (R178). -/
def transpose (h w : Nat) (xs : List Num) : List Num :=
  (List.range (w * h)).map fun i => getNth Num.zero xs (i % h * w + i / h)

/-! ### A VEC on one core -/

/-- What a VEC does on one core: images at lines, the conditions of the conversion, and whether they raise step-overflow
and the optimizer event (R96, R221). -/
structure VecResult where
  images : List (Nat × List ByteWrite)
  counts : Counts
  srcNaN : Bool := false
  deriving DecidableEq, Repr

/-- A VEC with VOP 0x00 and a ROWLEN is a skew conversion (R178). -/
def isSkewConv (e : Nat) : Bool := Ent.vop e == 0 && Ent.rowlen e != 0

/-- The elements of A, widened to binary32, with how many saturate (R176). The skew unit widens its source exactly (R171, R178); only
WA48, which no SFMT names, is widened as R176 gives. -/
def readOperandA (e : Nat) (v : Nat → ByteView) : List Num × Nat :=
  if isSkewConv e && Ent.fmtA e != 0xA then (tensorValues (v (Ent.srcA e)) (Ent.fmtA e) (Ent.blkA e) (vecN e), 0)
  else readWide v (Ent.srcA e) (Ent.fmtA e) (Ent.blkA e) (vecN e)

/-- A NaN stands among the sources that are widened (R96). -/
def vecSrcNaN (e : Nat) (v : Nat → ByteView) : Bool :=
  let op := Ent.vop e
  let bn := if op = 0xB ∨ op = 0xC then vecRow e else vecN e
  (readsA op && (readOperandA e v).1.contains .nan) ||
    (readsB op && op != 0xD && (readWide v (Ent.srcB e) (Ent.fmtB e) (Ent.blkB e) bn).1.contains .nan) ||
    (readsC op && (readWide v (Ent.srcC e) (Ent.fmtB e) (Ent.blkB e) bn).1.contains .nan)

/-- The elementwise and row operations that give a tensor: its values and the saturations of its sources. -/
def vecValues (e seed : Nat) (v : Nat → ByteView) : List Num × Nat :=
  let n := vecN e
  let row := vecRow e
  let op := Ent.vop e
  let imm := f32Bits (Ent.imm e)
  let a := if readsA op then readOperandA e v else ([], 0)
  let bn := if op = 0xB ∨ op = 0xC then row else n
  let b := if readsB op then readWide v (Ent.srcB e) (Ent.fmtB e) (Ent.blkB e) bn else ([], 0)
  let c := if readsC op then readWide v (Ent.srcC e) (Ent.fmtB e) (Ent.blkB e) bn else ([], 0)
  let rows := chunks row a.1
  let vals := match op with
    | 0x00 => if Ent.rowlen e = 0 then a.1 else transpose (2 * Ent.vlen e / Ent.rowlen e) row a.1
    | 0x01 => List.zipWith f32Add a.1 b.1
    | 0x02 => List.zipWith f32Mul a.1 b.1
    | 0x03 => List.zipWith (fun (x : Num) (yz : Num × Num) => f32Fma x yz.1 yz.2) a.1 (b.1.zip c.1)
    | 0x04 => a.1.map fun x => f32Mul x imm
    | 0x05 => rows.map rowMax
    | 0x06 => rows.map rowSum
    | 0x07 => a.1.map f32Exp
    | 0x08 => a.1.map f32Ln
    | 0x09 => a.1.map f32Rsqrt
    | 0x0A => (rows.map softmaxRow).flatten
    | 0x0B => (rows.map fun r => rmsRow imm b.1 r).flatten
    | 0x0C => (rows.map fun r => layerRow imm b.1 c.1 r).flatten
    | 0x0E => a.1.map siluNum
    | 0x0F => a.1.map geluNum
    | 0x13 =>
      let k := dropThreshold imm
      let inv := f32Div Num.one imm
      a.1.zipIdx.map fun ((x, i) : Num × Nat) =>
        if drawField (BitVec.ofNat 64 seed) (Ent.stream e) (Ent.ebase e) 8 i < k then f32Mul x inv else Num.zero
    | 0x14 => (List.range n).map fun i => fillNum e seed i
    | 0x15 => (List.range n).map fun i => fillNum e seed i
    | _ => a.1
  (vals, a.2 + b.2 + c.2)

/-- VOP 0x0D on one core: the words of every row, and the NaN elements written. -/
def vecLogProb (e : Nat) (v : Nat → ByteView) : VecResult :=
  let a := readWide v (Ent.srcA e) (Ent.fmtA e) (Ent.blkA e) (vecN e)
  let ps := (chunks (vecRow e) a.1).zipIdx.map fun ((r, i) : List Num × Nat) =>
    logProbRow r (viewLE (v (Ent.srcB e)) (4 * i) 4)
  let words := (ps.map fun (p : Num × Num) => [p.1, p.2]).flatten
  { images := [(Ent.vdst e, ((words.map fun x => leBytes 4 (fmtFP32.roundBits x)).flatten).zipIdx.map fun ((b, i) : Byte × Nat) => (i, b))]
    counts := { sat := a.2, nan := (words.filter fun x => x == .nan).length } }

/-- SH16 written by an optimizer operation: stochastic with u = 16 under a stream (R85, R94, R182). -/
def sh16Image (e seed stream line : Nat) (vs : List Num) : (Nat × List ByteWrite) × Counts :=
  let p : ConvParams :=
    { code := 8, blk := 0, sat := Ent.sat e, flush := Ent.flush e, src := 9, stochU := 16, seed := BitVec.ofNat 64 seed,
      stream := stream % 2 ^ 32, ebase := Ent.ebase e }
  let t := convertAll p vs
  ((line, t.writes), t.counts)

/-- MOMENT on one core (R182), with the loss-scale exponent σ_step. -/
def vecMoment (e seed : Nat) (sigma : Int) (v : Nat → ByteView) : VecResult :=
  let n := vecN e
  let par := v (Ent.vdst e)
  let a := readWide v (Ent.srcA e) (Ent.fmtA e) (Ent.blkA e) n
  let b := readWide v (Ent.srcB e) 8 0 n
  let c := readWide v (Ent.srcC e) 8 0 n
  let gs := a.1.map fun x => f32 ((f32Mul x (f32At par 0x24)).scale (-sigma))
  let ms := List.zipWith (fun g x => f32Fma (f32At par 0x00) x (f32Mul (f32At par 0x04) g)) gs b.1
  let vs := List.zipWith (fun g x => f32Fma (f32At par 0x08) x (f32Mul (f32At par 0x0C) (f32Mul g g))) gs c.1
  let m := sh16Image e seed (Ent.stream e) (Ent.srcB e) ms
  let w := sh16Image e seed (Ent.stream e + 1) (Ent.srcC e) vs
  { images := [m.1, w.1], counts := (m.2.add w.2).add { sat := a.2 + b.2 + c.2 } }

/-- MASTER on one core (R183). -/
def vecMaster (e seed : Nat) (v : Nat → ByteView) : VecResult :=
  let n := vecN e
  let par := v (Ent.srcA e)
  let b := readWide v (Ent.srcB e) 8 0 n
  let c := readWide v (Ent.srcC e) 8 0 n
  let w := readWide v (Ent.vdst e) 8 0 n
  let next := List.zipWith (fun (w : Num) (bc : Num × Num) =>
    let q := f32Add (f32Sqrt (f32Mul bc.2 (f32At par 0x20))) (f32At par 0x10)
    let u := f32Fma (f32At par 0x18) w (f32Div (f32Mul bc.1 (f32At par 0x1C)) q)
    f32Fma (f32At par 0x14).neg u w) w.1 (b.1.zip c.1)
  let t := sh16Image e seed (Ent.stream e) (Ent.vdst e) next
  { images := [t.1], counts := t.2.add { sat := b.2 + c.2 + w.2 } }

/-- The source format of a VEC's conversion, in which an infinity is replaced under SAT 1 (R92): of Convert and the skew
conversion FMT_A, so that they agree with the skew unit (R211); elsewhere, and for WA48, the binary32 that R176 widens to
(log entry 108). -/
def convSource (e : Nat) : Nat := if Ent.vop e = 0 ∧ Ent.fmtA e ≠ 0xA then Ent.fmtA e else 9

/-- Everything a VEC does on one core. -/
def vecCore (e seed : Nat) (sigma : Int) (v : Nat → ByteView) : VecResult :=
  match Ent.vop e with
  | 0x0D => vecLogProb e v
  | 0x10 => vecMoment e seed sigma v
  | 0x11 => vecMaster e seed v
  | op =>
    let r := vecValues e seed v
    let t := convertAll (convParams e seed (convSource e) (Ent.grad e && op != 0x12)) r.1
    { images := [(Ent.vdst e, t.writes)], counts := t.counts.add { sat := r.2 } }

/-- σ_step of a cluster (R216, R217). -/
def sigmaStep (s : State) (cl : Nat) : Int := signed 8 (bf (s.reg (clPage 0x15 cl + Reg.LS_STATE)) 15 8)

/-- The lines a VEC reads on a core. -/
def vecLinesRead (cl e k : Nat) : List Nat :=
  ((vecSources e ++ (if Ent.vop e = 0x10 ∨ Ent.vop e = 0x11 then vecDests e else [])).map fun r =>
    coreLines cl k r.line r.count).flatten

/-- A VEC that the vector unit takes, on every core of its mask. -/
def startVec (s : State) (cl p i e : Nat) : State :=
  let seed := s.reg64 (seqReg cl Reg.SEED_LO)
  let op := Ent.vop e
  let optimizer := op == 0x10 || op == 0x11
  let rs := (setBits (Ent.cores e) 16).map fun k =>
    let v := fun l => nsView s (actingSlot s cl) cl k l
    (k, { vecCore e seed (sigmaStep s cl) v with srcNaN := vecSrcNaN e v })
  let s' := rs.foldl (fun st (r : Nat × VecResult) =>
    let c := entryCtx s cl p i r.1
    let st := nsNote st c (vecLinesRead cl e r.1)
    let st := r.2.images.foldl (fun st (im : Nat × List ByteWrite) => nsWriteImage st c cl r.1 im.1 im.2) st
    let st := noteCounts st cl r.1 (Ent.grad e && !optimizer && op != 0xD) r.2.counts
    let st := if Ent.grad e && !optimizer && (r.2.counts.sat != 0 || r.2.srcNaN) then setLiveFlag st cl 0 true else st
    if optimizer && (r.2.counts.sat != 0 || r.2.counts.nan != 0) then postCtx st c Cause.optimizerStateOverflow (tblAddr cl i)
    else st) s
  advanceFlight (issueFlight s' cl p i e [.vector] (Ent.cores e) (.counts (rs.foldl (fun a r => a.add r.2.counts) {}))) s.seq.nextId

/-- A VEC met by the row of its operation. -/
def runVec (s : State) (cl p : Nat) (mine : Nat → Bool) : State :=
  withEntry s cl p (fun e => Ent.type e == 2 && mine e) fun i e =>
    if !readyFor s cl p e [.vector] (Ent.cores e) then blockProg s cl p
    else match vecReject s cl e with
      | some c => rejectEntry s cl p i c (lowCore e)
      | none => startVec s cl p i e

/-- VOP 0x00 with ROWLEN 0 (R175, R177). -/
def execConvert (cl p : Nat) (s : State) : Res :=
  .next (runVec s cl p fun e => Ent.vop e == 0x00 && Ent.rowlen e == 0)

/-- VOP 0x00 with ROWLEN not 0 (R178). -/
def execSkewConversion (cl p : Nat) (s : State) : Res :=
  .next (runVec s cl p fun e => Ent.vop e == 0x00 && Ent.rowlen e != 0)

/-- VOP 0x01. -/
def execAdd (cl p : Nat) (s : State) : Res :=
  .next (runVec s cl p fun e => Ent.vop e == 0x01)

/-- VOP 0x02. -/
def execMultiply (cl p : Nat) (s : State) : Res :=
  .next (runVec s cl p fun e => Ent.vop e == 0x02)

/-- VOP 0x03. -/
def execMultiplyAdd (cl p : Nat) (s : State) : Res :=
  .next (runVec s cl p fun e => Ent.vop e == 0x03)

/-- VOP 0x04. -/
def execMultiplyImmediate (cl p : Nat) (s : State) : Res :=
  .next (runVec s cl p fun e => Ent.vop e == 0x04)

/-- VOP 0x05. -/
def execRowMaximum (cl p : Nat) (s : State) : Res :=
  .next (runVec s cl p fun e => Ent.vop e == 0x05)

/-- VOP 0x06. -/
def execRowSum (cl p : Nat) (s : State) : Res :=
  .next (runVec s cl p fun e => Ent.vop e == 0x06)

/-- VOP 0x07. -/
def execExp (cl p : Nat) (s : State) : Res :=
  .next (runVec s cl p fun e => Ent.vop e == 0x07)

/-- VOP 0x08. -/
def execLn (cl p : Nat) (s : State) : Res :=
  .next (runVec s cl p fun e => Ent.vop e == 0x08)

/-- VOP 0x09. -/
def execReciprocalSquareRoot (cl p : Nat) (s : State) : Res :=
  .next (runVec s cl p fun e => Ent.vop e == 0x09)

/-- VOP 0x0A. -/
def execSoftmax (cl p : Nat) (s : State) : Res :=
  .next (runVec s cl p fun e => Ent.vop e == 0x0A)

/-- VOP 0x0B. -/
def execRmsNormalisation (cl p : Nat) (s : State) : Res :=
  .next (runVec s cl p fun e => Ent.vop e == 0x0B)

/-- VOP 0x0C. -/
def execLayerNormalisation (cl p : Nat) (s : State) : Res :=
  .next (runVec s cl p fun e => Ent.vop e == 0x0C)

/-- VOP 0x0D (R179). -/
def execLogProbability (cl p : Nat) (s : State) : Res :=
  .next (runVec s cl p fun e => Ent.vop e == 0x0D)

/-- VOP 0x0E. -/
def execSilu (cl p : Nat) (s : State) : Res :=
  .next (runVec s cl p fun e => Ent.vop e == 0x0E)

/-- VOP 0x0F. -/
def execGelu (cl p : Nat) (s : State) : Res :=
  .next (runVec s cl p fun e => Ent.vop e == 0x0F)

/-- VOP 0x10 (R182). -/
def execMoment (cl p : Nat) (s : State) : Res :=
  .next (runVec s cl p fun e => Ent.vop e == 0x10)

/-- VOP 0x11 (R183). -/
def execMaster (cl p : Nat) (s : State) : Res :=
  .next (runVec s cl p fun e => Ent.vop e == 0x11)

/-- VOP 0x12 (R143). -/
def execCacheRule (cl p : Nat) (s : State) : Res :=
  .next (runVec s cl p fun e => Ent.vop e == 0x12)

/-- VOP 0x13 (R180). -/
def execDropout (cl p : Nat) (s : State) : Res :=
  .next (runVec s cl p fun e => Ent.vop e == 0x13)

/-- VOP 0x14 with ROWLEN not 1 (R236): table method, and the reserved row lengths. -/
def execNormalFillTable (cl p : Nat) (s : State) : Res :=
  .next (runVec s cl p fun e => Ent.vop e == 0x14 && Ent.rowlen e != 1)

/-- VOP 0x14 with ROWLEN 1 (R237). -/
def execNormalFillTransform (cl p : Nat) (s : State) : Res :=
  .next (runVec s cl p fun e => Ent.vop e == 0x14 && Ent.rowlen e == 1)

/-- VOP 0x15 (R235). -/
def execUniformFill (cl p : Nat) (s : State) : Res :=
  .next (runVec s cl p fun e => Ent.vop e == 0x15)

/-- VEC_COMPLETE (R173, R177): the counts go into the record and the entry leaves the vector unit, and the skew unit where it
holds that. -/
def execVecComplete (f : Nat) (s : State) : Res :=
  .next (match flightOf s f (fun e => Ent.type e == 2) with
    | none => s
    | some fl =>
      match fl.work with
      | .counts c => leaveUnits (addRecord s (flightCtx s fl (lowCore fl.entry)) fl.cl (Ent.nrec fl.entry) c) f
      | _ => leaveUnits s f)

end Sys2Proof.Machine
end

