-- ==== Sys2Proof/Machine/Attn.lean ====
section
/-! DEFINITION. Attention over KV pages: the three steps of ATTN and its completion (R139 to R155, R321, R322, R335,
R337). A step reads, computes and writes in the step that issues it; its counts go into its record when it completes. -/

namespace Sys2Proof.Machine

/-- A query row of a core: the list it reads, its own position, and whether it sees nothing: vacant or page-starved. -/
structure AttnRow where
  list : Option Nat
  pos : Nat
  dead : Bool
  deriving DecidableEq, Repr

/-- What core k of an ATTN works on: pool, head dimension and expected form, the query rows, L of R146, and the family and
set where the handle names one. -/
structure AttnPlan where
  pool : Nat
  d : Nat
  fmt : Nat
  blk : Nat
  rows : List AttnRow
  len : Nat
  fam : Option Nat
  deriving DecidableEq, Repr

/-- L_s of R146. -/
def padLen (l : Nat) : Nat := 64 * ceilDiv l 64

def atQ (e : Nat) : Nat := Ent.atBatch e * Ent.atHeads e

/-- A pool that an issuing cluster may use: of its partition group and its slot (R28, R152, R265). -/
def poolRefuse (s : State) (cl k : Nat) : Option Nat :=
  if bit (kvpParts s k) (partOf cl) = 0 then some Cause.outsidePartition
  else if actingSlot s cl ≠ some (kvpSlot s k) then some Cause.tenantMismatch
  else none

/-- The request that holds a list, where one does. -/
def listReq (s : State) (k j : Nat) : Option Request := reqOf s (listHead s k j).req

/-- The plan of core c of an entry whose handle names one list, of pool k: rows at POS onward (R140). -/
def listPlan (e k : Nat) (list : Option Nat) (d fmt blk : Nat) (dead : Bool) : AttnPlan :=
  { pool := k, d := d, fmt := fmt, blk := blk, len := Ent.atPos e + Ent.atBatch e, fam := none,
    rows := (List.range (Ent.atBatch e)).map fun r => { list := list, pos := Ent.atPos e + r, dead := dead } }

/-- What the handle of core c names, none where it names no list (R140). done says whether the step's positions have been
appended: step 0 asks before it appends. Bit 30 of a set's handle is not looked at (log entry 162). -/
def attnNamed (s : State) (e c : Nat) (done : Bool) : Option AttnPlan :=
  let h := coreHandle e c
  let k := handlePool h
  if isSet e then
    (famOfSet s k (handleIdx h)).map fun (i, f, x) =>
      let rows := f.members.zipIdx.map fun (m : Option Nat × Nat) =>
        match (m.1.bind (reqOf s)).filter fun r => r.st == .decode with
        | none => ({ list := none, pos := 0, dead := true } : AttnRow)
        | some r =>
          let n := listCount (listHead s k (r.list + x))
          { list := some (r.list + x), pos := if done then n - 1 else n, dead := f.starved.contains m.2 }
      let len := (rows.map fun r => if r.list.isNone then 0 else if r.dead && !done then r.pos else r.pos + 1).foldl max 0
      { pool := k, d := f.d, fmt := f.fmt, blk := f.blk, rows := rows, len := len, fam := some i }
  else
    let j := handleIdx h
    if bit h 30 = 1 ∨ !listOk s k j then none
    else
      let l := listHead s k j
      if l.bad then some (listPlan e k none 0 9 0 true)
      else some (listPlan e k (some j) l.d l.fmt l.blk (done && (listReq s k j).any fun r => r.dry.contains j))

/-- The first list that core c's handle names and whose header carries a reserved encoding (R10). -/
def badList (s : State) (e c : Nat) (p : AttnPlan) : Option Nat :=
  (if isSet e then p.rows.filterMap (·.list) else [handleIdx (coreHandle e c)]).find? fun j => (listHead s p.pool j).bad

/-- Why core c performs nothing of what its handle names (R10, R28, R152, R265). -/
def attnRefuse (s : State) (cl e c : Nat) (p : AttnPlan) : Option Nat :=
  match poolRefuse s cl p.pool with
  | some cause => some cause
  | none =>
    if (badList s e c p).isSome then some Cause.reservedEncoding
    else if isSet e then none
    else
      let l := listHead s p.pool (handleIdx (coreHandle e c))
      if listCount l < Ent.atPos e then some Cause.positionGap
      else if l.isPrefix || decide (Ent.atPos e < l.pfxPos) then some Cause.prefixWrite
      else none

/-- The plan of core c, or the cause for which it performs nothing (R140, R152). -/
def attnPlan (s : State) (cl e c : Nat) (done : Bool) : Except Nat AttnPlan :=
  match attnNamed s e c done with
  | none => .error Cause.unknownPageList
  | some p =>
    match attnRefuse s cl e c p with
    | some cause => .error cause
    | none => .ok p

/-! ### Rejection (R140, R145 to R148, R155) -/

/-- The formats of a step. -/
def attnFormatsOk (e : Nat) : Bool :=
  let io := fun (code blk : Nat) => Ent.fmtOk code blk && (decide (code ≤ 7) || code == 9)
  match Ent.atStep e with
  | 0 => io (Ent.fmtA e) (Ent.blkA e) && Ent.fmtD e == 9 && Ent.blkD e == 0
  | 1 => Ent.fmtA e == 9 && Ent.blkA e == 0 && Ent.fmtD e == 9 && Ent.blkD e == 0
  | _ => Ent.fmtA e == 9 && Ent.blkA e == 0 && io (Ent.fmtD e) (Ent.blkD e)

/-- The lines of the query operand, of the new K or V rows, of the score matrix and of the output. -/
def queryLines (e : Nat) (p : AttnPlan) : Nat := tensorLines (Ent.fmtA e) (Ent.blkA e) (atQ e * p.d)
def newLines (e : Nat) (p : AttnPlan) : Nat := tensorLines p.fmt p.blk (Ent.atBatch e * p.d)
def scoreLines (e : Nat) (p : AttnPlan) : Nat := ceilDiv (4 * (atQ e * padLen p.len)) 256
def outputLines (e : Nat) (p : AttnPlan) : Nat := tensorLines (Ent.fmtD e) (Ent.blkD e) (atQ e * p.d)

/-- Why one core rejects the entry, from its plan. -/
def planReject (e : Nat) (p : AttnPlan) : Option Nat :=
  let sl := scoreLines e p
  let tooBig := fun (l n : Nat) => decide (16384 < l + n)
  if isSet e && (Ent.atPos e != 0 || Ent.atBatch e != p.rows.length) then some Cause.reservedEncoding
  else if 131072 < padLen p.len then some Cause.canonicalDepth
  else match Ent.atStep e with
    | 0 =>
      if tooBig (Ent.atSaddr e) sl || tooBig (Ent.atQaddr e) (queryLines e p + 2 * newLines e p) then some Cause.outOfRange
      else if linesMeet (Ent.atSaddr e) sl (Ent.atQaddr e) (queryLines e p) then some Cause.operandOverlap
      else none
    | 1 => if tooBig (Ent.atSaddr e) sl then some Cause.outOfRange else none
    | _ =>
      if tooBig (Ent.atSaddr e) sl || tooBig (Ent.atOaddr e) (outputLines e p) then some Cause.outOfRange
      else if linesMeet (Ent.atSaddr e) sl (Ent.atOaddr e) (outputLines e p) then some Cause.operandOverlap
      else none

/-- The plan by which core c's operands are measured, whether or not it refuses its list: of a list that does not exist
only the score matrix has a size. -/
def measurePlan (s : State) (e c : Nat) : Option AttnPlan :=
  match attnNamed s e c (Ent.atStep e != 0) with
  | some p => some p
  | none => if isSet e then none else some (listPlan e (handlePool (coreHandle e c)) none 0 9 0 true)

/-- Why an ATTN is rejected at issue, with the core (R155). -/
def attnReject (s : State) (cl e : Nat) : Option (Nat × Nat) :=
  if !attnFormatsOk e || Ent.atHeads e == 0 || Ent.atBatch e == 0 || (isSet e && Ent.atPos e != 0) then
    some (lowCore e, Cause.reservedEncoding)
  else match (setBits (Ent.cores e) 16).findSome? fun c =>
      ((measurePlan s e c).bind (planReject e)).map fun cause => (c, cause) with
    | some r => some r
    | none => if recordOut s cl (Ent.nrec e) then some (lowCore e, Cause.outOfRange) else none

/-! ### Pages read (R142, R144, R153) -/

/-- The elements of a K or V vector of a position, and the code of the page it lies in; none where no page of one of the
three forms holds it. -/
def posVector (s : State) (k d : Nat) (pages : List PageAt) (v : Bool) (j : Nat) : Option (List Num × Nat × Nat) :=
  (pages.find? fun p => decide (p.first ≤ j) && decide (j < p.first + p.held) && pageForm p.fmt p.blk).map fun p =>
    let np := nPos d p.fmt p.blk
    let view : ByteView := fun off => peByte s k (frameAddr s k p.frame v + off)
    ((List.range d).map fun i => elemValue view p.fmt p.blk (np * d) ((j - p.first) * d + i), p.fmt, p.blk)

/-- The lists that a plan reads, each once. -/
def planLists (p : AttnPlan) : List Nat := (p.rows.filterMap fun r => if r.dead then none else r.list).eraseDups

/-- The pages that a step reads, each once whatever lists share it, with the first list that holds it (R144, R154). -/
def pagesRead (s : State) (p : AttnPlan) : List (Nat × PageAt) :=
  ((planLists p).flatMap fun j =>
    ((listPages s p.pool j).filter fun x => decide (x.first < p.len) && x.held != 0).map fun x => (j, x)).foldl
      (fun acc x => if acc.any fun y => y.2.frame == x.2.frame then acc else acc ++ [x]) []

/-- The bytes of a page that its positions take, from a region's first byte: those of their units, and those of their scales
(R141). -/
def pageSpans (d : Nat) (x : PageAt) : List (Nat × Nat) :=
  let per := d / unitElems x.fmt x.blk
  let n := x.held * per
  let all := nPos d x.fmt x.blk * per
  if n = 0 then [] else
    [(0, unitOffset x.fmt x.blk (n - 1) + unitBytes x.fmt x.blk),
      (scaleOffset x.fmt x.blk all 0, scaleOffset x.fmt x.blk all (n - 1) + 1 - scaleOffset x.fmt x.blk all 0)]

/-- What reading the pages of a plan counts and posts: bad forms, widened pages, and the memory codes (R144, R153). A page that an
earlier core of the step has read, as (pool, frame), is not counted again. The widened pages, and the pages read so far. -/
def noteAllPages (s : State) (c : Ctx) (page : Nat) (p : AttnPlan) (v : Bool) (seen : List (Nat × Nat)) :
    State × Nat × List (Nat × Nat) :=
  let pages := (pagesRead s p).filter fun x => !seen.contains (p.pool, x.2.frame)
  let bad := pages.filter fun x => !pageForm x.2.fmt x.2.blk
  let good := pages.filter fun x => pageForm x.2.fmt x.2.blk
  let wide := (good.filter fun x => x.2.fmt != p.fmt || x.2.blk != p.blk).length
  let s := incReg (incReg s (page + Reg.ATT_WIDENED) wide) (page + Reg.ATT_BADPAGE) bad.length
  let s := bad.foldl (fun s x => postCtx s c Cause.reservedEncoding (handleOf p.pool x.1 + 2 ^ 32 * x.2.frame)) s
  let s := good.foldl (fun s x => (pageSpans p.d x.2).foldl (fun s r => peNote s c p.pool (frameAddr s p.pool x.2.frame v + r.1) r.2) s) s
  (s, wide, seen ++ pages.map fun x => (p.pool, x.2.frame))

/-- What the cores of an ATTN have done so far: the state, the counts of its record, and the pages read, as (pool, frame). -/
structure AttnRun where
  state : State
  counts : Counts := {}
  seen : List (Nat × Nat) := []

/-! ### Step 0 (R145, R146, R151, R335, R337) -/

/-- Whether list j of pool k found its pages at a step 0 outside a family; its request is page-starved while one of its
lists has not (R151). -/
def markList (s : State) (k j : Nat) (dry : Bool) : State :=
  match listReq s k j with
  | none => s
  | some r =>
    let rest := r.dry.filter fun x => x != j
    setReq s { r with dry := if dry then rest ++ [j] else rest }

/-- After a step 0 outside a family: each request in prefill of which a list found no page posts one STALL for the entry; one
whose lists have all found theirs is starved no longer (R337). -/
def stallEntry (s : State) (e : Nat) : State :=
  if isSet e then s
  else
    (((attnLists s e).filterMap fun x => if listOk s x.1 x.2 then (listReq s x.1 x.2).map (·.id) else none).eraseDups).foldl (fun s id =>
      match reqOf s id with
      | none => s
      | some r =>
        if r.dry.isEmpty then setReq s { r with starved := 0 }
        else if r.st == .prefill && (attnLists s e).any fun x => x.1 == r.pool && r.dry.contains x.2 then
          let r := { r with starved := r.starved + 1 }
          noteReq (incReg (setReq s r) (pePage + Reg.PE_STALLS) 1) r 2 (Ent.atPos e + Ent.atBatch e) r.starved
        else s) s

/-- The append of step 0 on a core: rows of K and V from near SRAM into the pages; the plan as it stands after it, and
the lists met page-starved and the positions appended. -/
def appendCore (s : State) (cl e c : Nat) (p : AttnPlan) : State × AttnPlan × Nat × Nat :=
  let slot := actingSlot s cl
  let n := Ent.atBatch e
  let kl := Ent.atQaddr e + queryLines e p
  let kv := nsView s slot cl c kl
  let vv := nsView s slot cl c (kl + newLines e p)
  match p.fam with
  | none =>
    match p.rows.head?.bind (·.list) with
    | none => (s, p, 0, 0)
    | some j =>
      let s := truncateList s p.pool j (Ent.atPos e - (listHead s p.pool j).pfxPos)
      if reachable s p.pool < pagesNeeded s p.pool j n then
        (markList s p.pool j true, { p with rows := p.rows.map fun r => { r with dead := true } }, 1, 0)
      else
        let s := (List.range n).foldl (fun s r => (appendRow s p.pool j n r kv vv).getD s) s
        (markList s p.pool j false, p, 0, n)
  | some _ =>
    let live := p.rows.zipIdx.filter fun (x : AttnRow × Nat) => !x.1.dead
    let s := live.foldl (fun s (x : AttnRow × Nat) =>
      match x.1.list with
      | none => s
      | some j => (appendRow s p.pool j n x.2 kv vv).getD s) s
    (s, p, (p.rows.filter fun r => r.dead && r.list.isSome).length, live.length)

/-- A visible score (R146): the dot product in canonical order along D, rounded to binary32 under SAT and FLUSH, times
SCALE. The score counts as NaN where the element written is one (R97, R98). -/
def scoreOf (e : Nat) (qs ks : List Num) (code blk : Nat) : Nat × Counts :=
  let dot := canonicalDot (Ent.fmtA e) code (shortGroups (Ent.fmtA e) (Ent.blkA e) code blk) qs ks
  let c := convertElem 9 (Ent.sat e) (Ent.flush e) .rne 0xA dot.1
  let s := (f32Bits (Ent.atScale e)).mul (f32Bits c.bits)
  (fmtFP32.roundBits s, { c.counts with nan := if s == .nan then 1 else 0, truncated := dot.2 })

/-- The score matrix of a core (R146). -/
def scoreMatrix (s : State) (e : Nat) (p : AttnPlan) (qv : ByteView) : List Nat × Counts :=
  let hs := Ent.atHeads e
  let nq := atQ e * p.d
  let ls := padLen p.len
  let cells := (p.rows.zipIdx.map fun (x : AttnRow × Nat) =>
    let pages := match x.1.list with | none => [] | some j => if x.1.dead then [] else listPages s p.pool j
    (List.range hs).map fun h =>
      let qs := (List.range p.d).map fun i => elemValue qv (Ent.fmtA e) (Ent.blkA e) nq ((x.2 * hs + h) * p.d + i)
      (List.range ls).map fun j =>
        if x.1.pos < j then (0xFF800000, ({} : Counts))
        else match posVector s p.pool p.d pages false j with
          | none => (0xFF800000, {})
          | some (ks, code, blk) => scoreOf e qs ks code blk).flatten.flatten
  (cells.map (·.1), cells.foldl (fun a c => a.add c.2) {})

/-- Binary32 words as a tensor's bytes. -/
def wordWrites (ws : List Nat) : List ByteWrite :=
  ((ws.map fun w => leBytes 4 w).flatten).zipIdx.map fun ((b, i) : Byte × Nat) => (i, b)

/-- A core refused by its list (R152): it writes nothing, and the step is counted, once for each core (log entry 163). A reserved
encoding names the header that carries it (R10). -/
def refuseCore (s : State) (cl pr i e c cause : Nat) : State :=
  if cause = Cause.reservedEncoding then
    let k := handlePool (coreHandle e c)
    let j := ((attnNamed s e c true).bind (badList s e c)).getD 0
    postCtx s (entryCtx s cl pr i c) cause (listAddr s k j)
  else postCtx (incReg s (clPage 0x14 cl + Reg.ATT_NOLIST) 1) (entryCtx s cl pr i c) cause (coreHandle e c)

/-- Step 0 on a core: append, then scores. The counts with its widened pages. -/
def scoreCore (a : AttnRun) (cl pr i e c : Nat) : AttnRun :=
  let page := clPage 0x14 cl
  let s := a.state
  match attnPlan s cl e c false with
  | .error cause => { a with state := refuseCore s cl pr i e c cause }
  | .ok p =>
    let ctx := entryCtx s cl pr i c
    let slot := actingSlot s cl
    let s := nsNote s ctx (coreLines cl c (Ent.atQaddr e) (queryLines e p + 2 * newLines e p))
    let (s, p, starved, appended) := appendCore s cl e c p
    let s := incReg (incReg s (page + Reg.ATT_STARVED) starved) (page + Reg.ATT_APPENDED) appended
    let m := scoreMatrix s e p (nsView s slot cl c (Ent.atQaddr e))
    let (s, wide, seen) := noteAllPages s ctx page p false a.seen
    let s := nsWriteImage s ctx cl c (Ent.atSaddr e) (wordWrites m.1)
    let k := m.2.add { widened := wide }
    { state := noteCounts s cl c false k, counts := a.counts.add k, seen := seen }

/-! ### Steps 1 and 2 (R147, R148) -/

/-- Step 1 on a core: the softmax of every row, over the scores. -/
def normaliseCore (a : AttnRun) (cl pr i e c : Nat) : AttnRun :=
  let s := a.state
  match attnPlan s cl e c true with
  | .error cause => { a with state := refuseCore s cl pr i e c cause }
  | .ok p =>
    let ctx := entryCtx s cl pr i c
    let ls := padLen p.len
    let v := nsView s (actingSlot s cl) cl c (Ent.atSaddr e)
    let rows := (List.range (atQ e)).map fun q => (List.range ls).map fun j => f32At v (4 * (q * ls + j))
    let t := convertAll (convParams e 0 9 false) (rows.map softmaxRow).flatten
    let s := nsNote s ctx (coreLines cl c (Ent.atSaddr e) (scoreLines e p))
    { a with
      state := noteCounts (nsWriteImage s ctx cl c (Ent.atSaddr e) t.writes) cl c false t.counts
      counts := a.counts.add t.counts }

/-- A widened value of V as the bfloat16 of the same value, by which its terms are cut; as it stands where it lies outside the range
of bfloat16 (R149). -/
def asBF16 (x : Num) : Num :=
  let y := decodeElem 6 (fmtBF16.roundBits x)
  if isFinite x && isFinite y && !Num.lt x y && !Num.lt y x then y else x

/-- The output rows of step 2 (R148): probabilities rounded to bfloat16 times V, in canonical order along positions. -/
def valueRows (s : State) (e : Nat) (p : AttnPlan) (sv : ByteView) : List Num × Bool :=
  let hs := Ent.atHeads e
  let ls := padLen p.len
  let zero := List.replicate p.d Num.zero
  let cells := (p.rows.zipIdx.map fun (x : AttnRow × Nat) =>
    let pages := match x.1.list with | none => [] | some j => if x.1.dead then [] else listPages s p.pool j
    let vs := (List.range ls).map fun j =>
      if x.1.pos < j then zero else ((posVector s p.pool p.d pages true j).map fun v => v.1.map asBF16).getD zero
    (List.range hs).map fun h =>
      let ps := (List.range ls).map fun j => decodeElem 6 (fmtBF16.roundBits (f32At sv (4 * ((x.2 * hs + h) * ls + j))))
      (List.range p.d).map fun d => canonicalDot 6 6 false ps (vs.map fun v => getNth Num.zero v d)).flatten.flatten
  (cells.map (·.1), cells.any (·.2))

/-- Step 2 on a core. With PATH 0 it runs on the array, and leaves the accumulators of the core's passes as they are (log
entry 113). -/
def valueCore (a : AttnRun) (cl pr i e c : Nat) : AttnRun :=
  let s := a.state
  match attnPlan s cl e c true with
  | .error cause => { a with state := refuseCore s cl pr i e c cause }
  | .ok p =>
    let ctx := entryCtx s cl pr i c
    let o := valueRows s e p (nsView s (actingSlot s cl) cl c (Ent.atSaddr e))
    let t := convertAll (convParams e 0 0xA false) o.1
    let s := nsNote s ctx (coreLines cl c (Ent.atSaddr e) (scoreLines e p))
    let (s, wide, seen) := noteAllPages s ctx (clPage 0x14 cl) p true a.seen
    let k := t.counts.add { widened := wide, truncated := o.2 }
    { state := noteCounts (nsWriteImage s ctx cl c (Ent.atOaddr e) t.writes) cl c false k, counts := a.counts.add k, seen := seen }

/-! ### The entries -/

/-- Step 0 opens the step of each family whose sets it names and its cluster may use, where none is open (R152, R321). -/
def openSteps (s : State) (cl e : Nat) : State :=
  if !isSet e then s
  else (setBits (Ent.cores e) 16).foldl (fun s c =>
    let h := coreHandle e c
    match famOfSet s (handlePool h) (handleIdx h) with
    | none => s
    | some (i, f, _) => if f.opened || (poolRefuse s cl (handlePool h)).isSome then s else openStep s i) s

/-- A step 0 that would truncate a list waits while an ATTN that names the list is in flight (R145, R154; log entry 118). -/
def truncateWaits (s : State) (cl e : Nat) : Bool :=
  Ent.atStep e == 0 && !isSet e && (setBits (Ent.cores e) 16).any fun c =>
    match attnPlan s cl e c false with
    | .error _ => false
    | .ok p =>
      let j := handleIdx (coreHandle e c)
      decide (Ent.atPos e < listCount (listHead s p.pool j)) && listBusy s p.pool j

/-- A step waits while a channel of a pool that it names retrains (R257). -/
def pagesHeld (s : State) (e : Nat) : Bool := (setBits (Ent.cores e) 16).any fun c => poolHeld s (handlePool (coreHandle e c))

/-- The headers that a step reads, and the descriptors of the pages it walks to (R259, R325). -/
def noteLists (s : State) (e : Nat) (lists : List (Nat × Nat)) : State :=
  (lists.filter fun x => kvpOn s x.1).foldl (fun s x => if Ent.atStep e = 1 then noteHead s x.1 x.2 else walkList s x.1 x.2) s

/-- An ATTN step met by its row: blocked, rejected, or performed on every core of its mask. -/
def runAttn (s : State) (cl p step : Nat) (core : AttnRun → Nat → Nat → Nat → AttnRun) : State :=
  withEntry s cl p (fun e => Ent.type e == 7 && Ent.atStep e == step) fun i e =>
    if !readyFor s cl p e [attnUnit e] (Ent.cores e) || truncateWaits s cl e || pagesHeld s e then blockProg s cl p
    else
      let s' := if step = 0 then openSteps s cl e else s
      match attnReject s' cl e with
      | some (c, cause) => rejectEntry s cl p i cause c
      | none =>
        let lists := attnLists s' e
        let r := (setBits (Ent.cores e) 16).foldl (fun a c => core a i e c) { state := noteLists s' e lists }
        let s := if step = 0 then stallEntry r.state e else r.state
        issueFlight s cl p i e [attnUnit e] (Ent.cores e) (.attn r.counts lists)

/-- ATTN_SCORES (R145, R146). -/
def execAttnScores (cl p : Nat) (s : State) : Res :=
  .next (runAttn s cl p 0 fun a i e c => scoreCore a cl p i e c)

/-- ATTN_NORMALISE (R147). -/
def execAttnNormalise (cl p : Nat) (s : State) : Res :=
  .next (runAttn s cl p 1 fun a i e c => normaliseCore a cl p i e c)

/-- ATTN_VALUES (R148). -/
def execAttnValues (cl p : Nat) (s : State) : Res :=
  .next (runAttn s cl p 2 fun a i e c => valueCore a cl p i e c)

/-- ATTN_COMPLETE (R99, R150, R154): the counts go into the record, and what waited on the lists and on the unit happens. -/
def execAttnComplete (f : Nat) (s : State) : Res :=
  .next (match flightOf s f (fun e => Ent.type e == 7) with
    | none => s
    | some fl =>
      match fl.work with
      | .attn c _ => settleServing (leaveUnits (addRecord s (flightCtx s fl (lowCore fl.entry)) fl.cl (Ent.nrec fl.entry) c) f)
      | _ => leaveUnits s f)

end Sys2Proof.Machine
end

