-- ==== Sys2Proof/Machine/Sampler.lean ====
section
/-! DEFINITION. The sampler: SAMPLE and its completion (R156 to R164, R312, R319, R321, R322). -/

namespace Sys2Proof.Machine

/-! ### Layout (R156, R157, R164) -/

/-- Vocabulary entries of a core's slice. -/
def sliceLen (e : Nat) : Nat := 1024 * ceilDiv (Ent.smVocab e) (1024 * (setBits (Ent.cores e) 16).length)

/-- TEMP is +0 or a positive normal finite binary32. -/
def tempOk (t : Nat) : Bool := t == 0 || (decide (0x800000 ≤ t) && decide (t < 0x7F800000))

/-- Why a SAMPLE is rejected at issue (R164). -/
def sampleReject (e : Nat) : Option Nat :=
  if Ent.smRows e == 0 || Ent.smVocab e == 0 || decide (2 ^ 20 < Ent.smVocab e) || !tempOk (Ent.smTemp e) || Ent.cores e == 0 then
    some Cause.reservedEncoding
  else if 16384 < Ent.smLaddr e + (Ent.smRows e - 1) * (sliceLen e / 64) + ceilDiv (min (sliceLen e) (Ent.smVocab e)) 64 ∨ 16384 < Ent.smRaddr e + ceilDiv (32 * Ent.smRows e) 256 then
    some Cause.outOfRange
  else none

/-- The lines of the logits that the j-th core holds: of every row as many as its vocabulary entries fill (R156). -/
def logitLines (e j : Nat) : List Nat :=
  let n := sliceLen e
  (List.range (Ent.smRows e)).flatMap fun row =>
    (List.range (ceilDiv (min n (Ent.smVocab e - j * n)) 64)).map fun i => Ent.smLaddr e + row * (n / 64) + i

/-- The logits of row ρ, in vocabulary order. -/
def rowLogits (s : State) (cl e row : Nat) : List Num :=
  let n := sliceLen e
  let slot := actingSlot s cl
  ((setBits (Ent.cores e) 16).zipIdx.map fun (c : Nat × Nat) =>
    let v := nsView s slot cl c.1 (Ent.smLaddr e + row * (n / 64))
    (List.range (min n (Ent.smVocab e - c.2 * n))).map fun i => f32At v (4 * i)).flatten

/-! ### One row (R158, R159, R161) -/

/-- A sampled row: token, log-probability and entries kept; none where it has a numeric fault. -/
structure Sampled where
  token : Nat
  logp : Num
  kept : Nat
  deriving DecidableEq, Repr

/-- The running WA48 sums of a list, each with its element. -/
def runningSums {α : Type} (f : α → Num) : Num → List α → List (α × Num)
  | _, [] => []
  | acc, x :: xs =>
    let t := waAdd acc (f x)
    (x, t) :: runningSums f t xs

/-- A kept candidate: its index, z and e. -/
structure Cand where
  idx : Nat
  z : Num
  e : Num
  deriving DecidableEq, Repr

/-- Descending z, ties by ascending index (R159). -/
def candLe (a b : Cand) : Bool := Num.lt b.z a.z || (!(Num.lt a.z b.z) && decide (a.idx ≤ b.idx))

/-- The shortest leading run whose running sum reaches P (R159 step 3). -/
def topP (p : Nat) (cs : List Cand) : List Cand :=
  let sums := runningSums (·.e) Num.zero cs
  let total := ((sums.getLast?).map (·.2)).getD Num.zero
  let bound := (total.mul (natNum p)).scale (-16)
  match sums.findIdx? fun x => !(Num.lt x.2 bound) with
  | none => cs
  | some i => cs.take (i + 1)

/-- The entries kept by TOPK and TOPP (R159 steps 1 to 3). -/
def keepCands (topk topp : Nat) (cs : List Cand) : List Cand :=
  if topk = 0 ∧ topp = 0 then cs
  else
    let sorted := sortBy candLe cs
    let byK := if topk = 0 then sorted else sorted.take topk
    if topp = 0 then byK else topP topp byK

/-- The draw of R159 steps 4 and 5: the first kept entry in index order whose running sum exceeds t, else the last; t is
taken exactly, without a rounding of the product (log entry 77). -/
def drawToken (d : Nat) (kept : List Cand) : Nat :=
  let cs := sortBy (fun a b => decide (a.idx ≤ b.idx)) kept
  let sums := runningSums (·.e) Num.zero cs
  let total := ((sums.getLast?).map (·.2)).getD Num.zero
  let t := (total.mul (natNum d)).scale (-32)
  match sums.find? fun x => Num.lt t x.2 with
  | some x => x.1.idx
  | none => ((cs.getLast?).map (·.idx)).getD 0

/-- One row of a SAMPLE (R158, R159, R161): d is its draw. -/
def sampleRow (e d : Nat) (xs : List Num) : Option Sampled :=
  let temp := Ent.smTemp e
  let r := if temp = 0 then Num.one else f32Div Num.one (f32Bits temp)
  let zs := xs.map fun x => f32Mul x r
  if (zs.any fun z => z == .nan || z == .inf false) || zs.all fun z => z == .inf true then none
  else
    let m := rowMax zs
    let es := zs.map fun z => f32Exp (f32Sub z m)
    let ls := f32Ln (rowSum es)
    let lp := fun (i : Nat) => f32Sub (f32Sub (getNth Num.zero zs i) m) ls
    if temp = 0 then
      let i := (zs.findIdx? fun z => !(Num.lt z m)).getD 0
      some { token := i, logp := lp i, kept := xs.length }
    else
      let cs := (zs.zip es).zipIdx.map fun (x : (Num × Num) × Nat) => ({ idx := x.2, z := x.1.1, e := x.1.2 } : Cand)
      let kept := keepCands (Ent.smTopk e) (Ent.smTopp e) cs
      let i := drawToken d kept
      some { token := i, logp := lp i, kept := kept.length }

/-! ### The request table (R157, R160 to R162) -/

/-- The core that holds the request table, and the address of row ρ. -/
def rowAddr (cl e row : Nat) : Nat := nsAddr cl (lowCore e) (256 * Ent.smRaddr e + 32 * row)

/-- The family whose member table the entry names. -/
def tableFamily (s : State) (cl e : Nat) : Option (Nat × Family) :=
  s.serving.fams.findSome? fun (x : Nat × Option Family) =>
    match x.2 with
    | some f => if f.table == rowAddr cl e 0 then some (x.1, f) else none
    | none => none

/-- A row is withheld (R160, R312, R322): its member is vacant or page-starved in the step, its request's last step 0
outside a family found no page, or its ring's pending store is full. -/
def rowWithheld (s : State) (cl e row ring id : Nat) : Bool :=
  (match tableFamily s cl e with
    | some (_, f) =>
      (match (f.members[row]?).join.bind (reqOf s) with
        | none => true
        | some r => r.st != .decode || f.starved.contains row)
    | none => (reqOf s id).any fun r => !r.dry.isEmpty) || pendFull s ring

/-- A row that the sampler acts on: what it writes at 0x10 to 0x1F, its counts and events, and its record where one is due.
A withheld row writes only its token and flags (R160, R225). The entries kept of a row with a numeric fault are a free value
(log entry 39); the NaN log-probability that it writes sets no sticky bit (log entry 169). A ring number that names no assigned token
ring is a ring outside the partition (log entry 120). -/
def actRowOf (s : State) (cl p i e row : Nat) : State × Option (Nat × List Byte) :=
  let page := clPage 0x14 cl
  let ctx := entryCtx s cl p i (lowCore e)
  let slot := actingSlot s cl
  let a := rowAddr cl e row
  let w := fun (o : Nat) => leNat (nsBytes s slot (a + o) 4)
  let ring := w 0
  let id := w 4
  let seed := s.reg64 (seqReg cl Reg.SEED_LO)
  let d := if Ent.smTemp e = 0 then 0 else (draw (BitVec.ofNat 64 seed) (w 0xC) (w 8)).toNat
  let held := rowWithheld s cl e row ring id
  let out := sampleRow e d (rowLogits s cl e row)
  let s := incReg s (page + Reg.SMP_ROWS) 1
  let s := if held then incReg s (page + Reg.SMP_WITHHELD) 1 else s
  let (s, kept) := match out with
    | some o => (s, o.kept)
    | none =>
      let r := fresh s
      (post (incReg r.1 (page + Reg.SMP_FAULTS) 1) ctx.page { ctx.event r.1 Cause.samplerFault id with tag := ring }, r.2 % 2 ^ 32)
  let token := if held then 0xFFFFFFFF else match out with | some o => o.token | none => 0xFFFFFFFF
  let lp := match out with | some o => fmtFP32.roundBits o.logp | none => 0x7FC00000
  let flags := (if held then 1 else 0) + (if out.isSome && decide (kept < Ent.smVocab e) then 2 else 0) +
    (if Ent.smTemp e = 0 then 4 else 0) + (if out.isNone then 8 else 0)
  if held then (nsWriteRun (nsWriteRun s ctx (a + 0x10) (leBytes 4 token)) ctx (a + 0x18) (leBytes 4 flags), none)
  else
    let s := nsWriteRun s ctx (a + 0x10) (leBytes 4 token ++ leBytes 4 lp ++ leBytes 4 flags ++ leBytes 4 kept)
    if !(ringLive s ring 1) || bit (ringParts s ring) (partOf cl) == 0 then
      (post s ctx.page { ctx.event s Cause.outsidePartition ring with tag := ring }, none)
    else (s, some (ring, nsBytes s slot a 32))

/-- Row ρ of the request table met: one whose ring word has a bit above [11:0] set is a reserved encoding, which is not acted
on and posts its address (R10, R157; log entry 119). -/
def doRow (s : State) (cl p i e row : Nat) : State × Option (Nat × List Byte) :=
  if 4096 ≤ leNat (nsBytes s (actingSlot s cl) (rowAddr cl e row) 4) then
    (postCtx s (entryCtx s cl p i (lowCore e)) Cause.reservedEncoding (rowAddr cl e row), none)
  else actRowOf s cl p i e row

/-- SAMPLE (R156 to R162): every row is computed and written; the records go to their rings in row order. -/
def execSample (cl p : Nat) (s : State) : Res :=
  .next (withEntry s cl p (fun e => Ent.type e == 8) fun i e =>
    if !readyFor s cl p e [.sampler] 1 then blockProg s cl p
    else match sampleReject e with
      | some c => rejectEntry s cl p i c (lowCore e)
      | none =>
        let s := (setBits (Ent.cores e) 16).zipIdx.foldl (fun s (c : Nat × Nat) =>
          nsNote s (entryCtx s cl p i c.1) ((logitLines e c.2).map fun l => nsAddr cl c.1 (256 * l))) s
        let s := nsNote s (entryCtx s cl p i (lowCore e)) (coreLines cl (lowCore e) (Ent.smRaddr e) (ceilDiv (32 * Ent.smRows e) 256))
        let r := (List.range (Ent.smRows e)).foldl (fun (a : State × List (Nat × List Byte)) row =>
          let x := doRow a.1 cl p i e row
          (x.1, a.2 ++ x.2.toList)) (s, [])
        let s := issueFlight r.1 cl p i e [.sampler] 1 (.records [])
        let w := postRows s r.2
        setWork w.1 s.seq.nextId.pred (.records w.2))

/-- SAMPLE_COMPLETE (R162, R321): when every record has been accepted; it closes the step of the family whose member table
it names. -/
def execSampleComplete (f : Nat) (s : State) : Res :=
  .next (match flightOf s f (fun e => Ent.type e == 8) with
    | none => s
    | some fl =>
      match fl.work with
      | .records rows =>
        let w := postRows s rows
        if w.2.isEmpty then
          let s := removeFlight w.1 f
          match tableFamily s fl.cl fl.entry with
          | some (i, fam) => if fam.opened then closeStep s i else s
          | none => s
        else setWork w.1 f (.records w.2)
      | _ => removeFlight s f)

end Sys2Proof.Machine
end

