-- ==== Sys2Proof/Machine/Exchange.lean ====
section
/-! DEFINITION. Token exchange: XCHG in its four modes, its completion, and the XCHG frame at its destination, with the
mirror entries of a pair (R28, R360 to R362, R386 to R392, R522 to R524). -/

namespace Sys2Proof.Machine

/-! ### Endpoints and the route list (R386 to R389) -/

/-- An endpoint's two bytes: C-die, cluster, core (R386). -/
def epDie (w : Nat) : Nat := bf w 5 0
def epClu (w : Nat) : Nat := bf w 9 6
def epCore (w : Nat) : Nat := bf w 13 10
def epOk (w : Nat) : Bool := decide (epDie w ≤ 47) && decide (epClu w ≤ 8) && decide (w < 2 ^ 14)
def epCl (w : Nat) : Nat := epDie w * 9 + epClu w
def epOf (cl core : Nat) : Nat := cl / 9 + 2 ^ 6 * (cl % 9) + 2 ^ 10 * core

/-- The core that an XCHG acts on. -/
def xCore (e : Nat) : Nat := lowCore e

/-- Bytes of the issuing core from a line on. -/
def xView (s : State) (cl e line : Nat) : ByteView := nsView s (actingSlot s cl) cl (xCore e) line
def xHead (s : State) (cl e off n : Nat) : Nat := viewLE (xView s cl e (Ent.xRlist e)) off n
/-- The mode, K, ROWS, LOGITS, DREC, CAP and SELF of the header. -/
def xMode (s : State) (cl e : Nat) : Nat := xHead s cl e 0 1
def xK (s : State) (cl e : Nat) : Nat := xHead s cl e 1 1
def xRows (s : State) (cl e : Nat) : Nat := xHead s cl e 2 2
def xLogits (s : State) (cl e : Nat) : Nat := xHead s cl e 4 2
def xDrec (s : State) (cl e : Nat) : Nat := xHead s cl e 6 2
def xCap (s : State) (cl e : Nat) : Nat := xHead s cl e 8 2
def xSelf (s : State) (cl e : Nat) : Nat := xHead s cl e 10 2

/-- Bytes of a row. -/
def xRow (e : Nat) : Nat := 32 * Ent.xRowb e

/-- Entry x of the route list: package, endpoint, first row, rows, destination row, and the four bytes that must be zero. -/
structure RouteEntry where
  pkg : Nat
  ep : Nat
  first : Nat
  rows : Nat
  dst : Nat
  rest : Nat
  deriving DecidableEq, Repr

def routeEntry (s : State) (cl e x : Nat) : RouteEntry :=
  let g := fun (o n : Nat) => xHead s cl e (32 + 16 * x + o) n
  { pkg := g 0 2, ep := g 2 2, first := g 4 2, rows := g 6 2, dst := g 8 4, rest := g 12 4 }

def routeList (s : State) (cl e : Nat) : List RouteEntry := (List.range (Ent.xNdest e)).map fun x => routeEntry s cl e x

/-- No bit is set that the layout leaves unlisted (R10). -/
def RouteEntry.plain (r : RouteEntry) : Bool := decide (r.pkg < 1024) && decide (r.ep < 2 ^ 14) && r.rest == 0
/-- An entry of rows for an endpoint. -/
def RouteEntry.ok (r : RouteEntry) : Bool := r.plain && epOk r.ep
/-- A mirror entry (R522). -/
def RouteEntry.isMirror (r : RouteEntry) : Bool := epDie r.ep == 63
def RouteEntry.mirrorOk (r : RouteEntry) : Bool := r.plain && decide (epClu r.ep ≤ 1) && epCore r.ep == 0

/-! ### Rejection (R392) -/

/-- A reserved encoding of the entry, or of its route list's header (R10, R63, R77, R386 to R389, R392). -/
def xReserved (s : State) (cl e : Nat) : Bool :=
  let m := xMode s cl e
  let n := Ent.xNdest e
  let k := xK s cl e
  (setBits (Ent.cores e) 16).length != 1 || !Ent.fmtOk (Ent.xFmt e) (Ent.xBlk e) || Ent.xFmt e == 0xA || n == 0 || decide (3 < m) ||
    ((m == 1 || m == 3) && (k == 0 || decide (8 < k) || decide (n < k) || xRows s cl e == 0 || decide (4096 < n))) ||
    ((m == 1 || m == 2) && decide (127 < xSelf s cl e)) || (m != 0 && xCap s cl e == 0) ||
    (m == 2 && decide (128 < n)) || decide (2 ^ 14 ≤ xLogits s cl e) || decide (2 ^ 14 ≤ xDrec s cl e) || (m == 3 && !([6, 7, 9].contains (Ent.xFmt e))) ||
    (List.range 20).any fun i => xView s cl e (Ent.xRlist e) (12 + i) != 0

/-- Rows of SRC and of DST that an XCHG may touch in its own core. -/
def xSrcRows (s : State) (cl e : Nat) : Nat :=
  match xMode s cl e with
  | 0 => ((routeList s cl e).map fun r => if r.rows = 0 then 0 else r.first + r.rows).foldl max 0
  | 1 => xRows s cl e
  | _ => Ent.xNdest e * xCap s cl e

/-- The run of rows of DST that it writes in its own core, as (first, rows). -/
def xOwnRows (s : State) (cl e : Nat) : Nat × Nat :=
  let own := (routeList s cl e).filter fun r => r.pkg == selfId s && r.ep == epOf cl (xCore e)
  match xMode s cl e with
  | 0 => (0, (own.map fun r => if r.rows = 0 then 0 else r.dst + r.rows).foldl max 0)
  | 3 => (0, xRows s cl e)
  | _ => if own.isEmpty then (0, 0) else (xSelf s cl e * xCap s cl e, xCap s cl e)

def bytesMeet (a n b m : Nat) : Bool := decide (n ≠ 0) && decide (m ≠ 0) && decide (a < b + m) && decide (b < a + n)

/-- Bytes of the route list, the logits, the dispatch record and the receipt table. -/
def xListLen (s : State) (cl e : Nat) : Nat := 32 + (if xMode s cl e = 3 then 0 else 16 * Ent.xNdest e)
def xLogitLen (s : State) (cl e : Nat) : Nat :=
  match xMode s cl e with
  | 1 => 256 * (xRows s cl e * ceilDiv (Ent.xNdest e) 64)
  | 2 => 2 * Ent.xNdest e
  | _ => 0
def xDrecLen (s : State) (cl e : Nat) : Nat :=
  if xMode s cl e = 1 ∨ xMode s cl e = 3 then 8 * xK s cl e * xRows s cl e else 0

def xchgReject (s : State) (cl e : Nat) : Option Nat :=
  let m := xMode s cl e
  let tooBig := fun (line n : Nat) => decide (n ≠ 0) && decide (2 ^ 22 < 256 * line + n)
  let own := xOwnRows s cl e
  let dst := 256 * Ent.xDst e + xRow e * own.1
  let len := xRow e * own.2
  if xReserved s cl e then some Cause.reservedEncoding
  else if tooBig (Ent.xRlist e) (xListLen s cl e) || tooBig (Ent.xSrc e) (xRow e * xSrcRows s cl e) ||
      tooBig (xLogits s cl e) (xLogitLen s cl e) || tooBig (xDrec s cl e) (xDrecLen s cl e) || (decide (len ≠ 0) && decide (2 ^ 22 < dst + len)) ||
      ((m == 1 || m == 2) && Ent.xDst e == 0) then some Cause.outOfRange
  else if bytesMeet dst len (256 * Ent.xSrc e) (xRow e * xSrcRows s cl e) || bytesMeet dst len (256 * Ent.xRlist e) (xListLen s cl e) ||
      bytesMeet dst len (256 * xDrec s cl e) (xDrecLen s cl e) then some Cause.operandOverlap
  else none

/-! ### Destinations (R390, R391) -/

/-- What one entry sends: a block of bytes at a byte of its endpoint's core, receipt or not. -/
structure XBlock where
  pkg : Nat
  ep : Nat
  byte : Nat
  data : List Byte
  rcpt : Bool := false
  deriving DecidableEq, Repr

/-- The type-specific header of an XCHG frame (R390). -/
def xTspec (pctr : Nat) (post : Bool) (count : Nat) (rcpt : Bool) (sender : Nat) : Nat :=
  pctr % 32 + (if post then 2 ^ 5 else 0) + 2 ^ 6 * (count % 2 ^ 16) + (if rcpt then 2 ^ 22 else 0) + 2 ^ 23 * (sender % 2 ^ 14)

/-- The context of an endpoint that receives: it acts under the slot of its own partition (R248). -/
def epCtx (s : State) (cl core : Nat) : Ctx :=
  { page := clPage 0x12 cl, die := cl / 9, cluster := 15, core := core, partition := some (partOf cl), slot := actingSlot s cl }

/-- Rows that arrive at a core: a write that would pass line 16,383 is discarded with "out of range" (R391). The context is the
entry's where this package sends them, the endpoint's where they come by a link (R571). -/
def putRows (s : State) (c : Ctx) (cl core byte : Nat) (bs : List Byte) : State :=
  if bs.isEmpty then s
  else if 2 ^ 22 < byte + bs.length then
    let x := c.event s Cause.outOfRange (nsAddr cl core 0 + min byte (2 ^ 22 - 1))
    post s c.page (if c.cluster = 15 then { x with slot1 := none, core := 0 } else x)
  else nsWriteRun s c (nsAddr cl core byte) bs

/-- The frames of a block of bytes for a remote endpoint. A start beyond the core is named by its last byte, so that the
destination finds it out of range (log entry 40). -/
def blockFrames (s : State) (cl e : Nat) (b : XBlock) (count : Nat) : List Frame :=
  let f := fun (off : Nat) (bs : List Byte) =>
    ({ type := 2, vc := 1, enc := true, src := selfId s, dst := b.pkg, tslot := (actingSlot s cl).getD 0,
       daddr := nsAddr (epCl b.ep) (epCore b.ep) (min (b.byte + off) (2 ^ 22 - 1)),
       tspec := xTspec (Ent.xPctr e) (Ent.xPost e) count b.rcpt (epOf cl (xCore e)), payload := bs } : Frame)
  if b.data.isEmpty then [] else (chunks 4096 b.data).zipIdx.map fun (c : List Byte × Nat) => f (4096 * c.2) c.1

def xEmptyFrame (s : State) (cl e pkg ep : Nat) (count : Nat) : Frame :=
  { type := 2, vc := 1, enc := true, src := selfId s, dst := pkg, tslot := (actingSlot s cl).getD 0,
    daddr := nsAddr (epCl ep) (epCore ep) 0, tspec := xTspec (Ent.xPctr e) (Ent.xPost e) count false (epOf cl (xCore e)) }

/-- No row is for the endpoint: a frame without payload stands for them (R390). -/
def xBare (blocks : List XBlock) : Bool := blocks.all fun b => b.rcpt || b.data.isEmpty

/-- The frames of an exchange to one endpoint. -/
def xFrames (blocks : List XBlock) : Nat :=
  (if xBare blocks then 1 else 0) + (blocks.map fun b => ceilDiv b.data.length 4096).foldl (· + ·) 0

/-- "no route", naming the package (R391); an event of the entry (R571). -/
def postNoRoute (s : State) (c : Ctx) (tag pkg : Nat) : State :=
  post s c.page { c.event s Cause.noRoute pkg with pkg := pkg, tag := tag }

/-- Everything an exchange sends to one endpoint: over the mesh where it is local, with its token at once (R390); over
the links where it is remote, one frame without payload standing for rows where there are none. owner is the entry's
flight; turn counts the frames that the entry has sent to the package before these (R367). -/
def sendTo (s : State) (cl e owner : Nat) (c : Ctx) (pkg ep turn : Nat) (blocks : List XBlock) : State :=
  if pkg = selfId s then
    let s := blocks.foldl (fun s b => putRows s c (epCl ep) (epCore ep) b.byte b.data) s
    if Ent.xPost e then postToken s (epCl ep) (Ent.xPctr e) else s
  else
    let ls := sourceLinks s pkg (Ent.xLinks e)
    if ls.isEmpty then postNoRoute s c 0 pkg
    else
      let n := xFrames blocks
      let fs := (blocks.map fun b => blockFrames s cl e b n).flatten
      sendTurns s ls (some owner) turn (if xBare blocks then xEmptyFrame s cl e pkg ep n :: fs else fs)

/-! ### Mirror entries (R522, R524) -/

/-- The address that a mirror frame names: the copy in bit 38, the byte in the copy below; a byte beyond every copy is named by the
last (log entry 40). -/
def mirrorAddr (copy byte : Nat) : Nat := 2 ^ 38 * copy + min byte (2 ^ 38 - 1)

/-- The up pair links. -/
def pairUp (s : State) : List Nat := sortBy (fun a b => decide (a ≤ b)) ((pairLinks s).filter fun l => fabricUp s l).eraseDups

/-- A mirror entry of an exchange: its rows go to the partner on the pair links; with the partner lost it sends nothing,
and under SOLO its token is posted at once (R522, R524). -/
def sendMirror (s : State) (cl e owner : Nat) (c : Ctx) (r : RouteEntry) (data : List Byte) : State :=
  let s := checkPair s
  let partner := bf (s.reg (pairReg Reg.PAIR_PARTNER)) 9 0
  if pairState s = 1 then
    let ls := pairUp s
    let n := max 1 (ceilDiv data.length 4096)
    let mk := fun (off : Nat) (bs : List Byte) =>
      ({ type := 2, vc := 1, enc := true, src := selfId s, dst := partner, tslot := (actingSlot s cl).getD 0, dsp := 1,
         daddr := mirrorAddr (epClu r.ep) (xRow e * r.dst + off),
         tspec := xTspec (Ent.xPctr e) (Ent.xPost e) n false (epOf cl (xCore e)), payload := bs } : Frame)
    sendFrames { s with net.unacked := s.net.unacked ++ [epOf cl (xCore e)] } ls (some owner)
      (if data.isEmpty then [mk 0 []] else (chunks 4096 data).zipIdx.map fun (x : List Byte × Nat) => mk (4096 * x.2) x.1)
  else if pairState s = 3 then
    let s := incReg s (pairReg Reg.PAIR_SOLO_STEPS) 1
    if Ent.xPost e then postToken s cl (Ent.xPctr e) else s
  else if pairState s = 2 then s
  else postNoRoute s c 0 partner

/-! ### The four modes -/

/-- A local endpoint outside the partition group, or a link of another partition: the entry is refused (R28). -/
def xOutside (s : State) (cl e : Nat) : Bool :=
  ((setBits (Ent.xLinks e) 24).any fun l => !sameGroup s (partOf cl) (l / 3)) ||
    (routeList s cl e).any fun r => r.pkg == selfId s && r.ok && !sameGroup s (partOf cl) (partOf (epCl r.ep))

/-- An XCHG of the modes of a row: blocked, rejected, refused, or run; k sends and gives the flight's work. -/
def withXchg (s : State) (cl p : Nat) (mine : Nat → Bool) (k : State → Nat → Nat → State × Work) : State :=
  withEntry s cl p (fun e => Ent.type e == 4 && mine (xMode s cl e)) fun i e =>
    if !readyFor s cl p e [.exchange] (Ent.cores e) then blockProg s cl p
    else match xchgReject s cl e with
      | some c => rejectEntry s cl p i c (xCore e)
      | none =>
        if xMode s cl e ≠ 3 ∧ xOutside s cl e then
          issueNothing (refuseEntry s cl p i Cause.outsidePartition (tblAddr cl i)) cl p i
        else
          let id := s.seq.nextId
          let s := issueFlight s cl p i e [.exchange] (Ent.cores e) .none
          let r := k s i e
          setWork r.1 id r.2

/-- The rows of the issuing core's SRC from row a on. -/
def xSrcBytes (s : State) (cl e a n : Nat) : List Byte :=
  (List.range (xRow e * n)).map fun i => xView s cl e (Ent.xSrc e) (xRow e * a + i)

/-- What an exchange reads in its core, noted. -/
def xNote (s : State) (cl p i e : Nat) : State :=
  let span := fun (line n : Nat) => coreLines cl (xCore e) line (ceilDiv n 256)
  nsNote s (entryCtx s cl p i (xCore e))
    ((span (Ent.xRlist e) (xListLen s cl e) ++ span (Ent.xSrc e) (xRow e * xSrcRows s cl e) ++
      span (xLogits s cl e) (xLogitLen s cl e) ++ (if xMode s cl e = 3 then span (xDrec s cl e) (xDrecLen s cl e) else [])).eraseDups)

/-- The blocks for one endpoint. -/
def blocksFor (bs : List XBlock) (d : Nat × Nat) : List XBlock := bs.filter fun b => b.pkg == d.1 && b.ep == d.2

/-- The blocks grouped by endpoint, in the order the list first names them, and sent; the frames to a package take its links in turn
over all its endpoints (R367). -/
def sendGroups (s : State) (cl e owner : Nat) (c : Ctx) (bs : List XBlock) : State :=
  let ds := (bs.map fun b => (b.pkg, b.ep)).eraseDups
  (ds.zipIdx).foldl (fun s (x : (Nat × Nat) × Nat) =>
    let turn := (((ds.take x.2).filter fun d => d.1 == x.1.1).map fun d => xFrames (blocksFor bs d)).foldl (· + ·) 0
    sendTo s cl e owner c x.1.1 x.1.2 turn (blocksFor bs x.1)) s

/-- Entries that name no endpoint, or that set a bit the layout leaves unlisted, are skipped, each with "reserved encoding"
and its address (R10, log entry 41). at' is the address of the first entry. -/
def skipBad (s : State) (c : Ctx) (at' : Nat) (rs : List RouteEntry) (ok : RouteEntry → Bool) : State :=
  (rs.zipIdx).foldl (fun s (r : RouteEntry × Nat) => if ok r.1 then s else postCtx s c Cause.reservedEncoding (at' + 16 * r.2)) s

/-- The address of an exchange's first route entry. -/
def routeAddr (cl e : Nat) : Nat := nsAddr cl (xCore e) (256 * Ent.xRlist e + 32)

/-- The rows that a mode 0 exchange sends to its endpoints (R386). -/
def fixedBlocks (s : State) (cl e : Nat) : List XBlock :=
  ((routeList s cl e).filter fun r => !r.isMirror && r.ok).map fun r =>
    { pkg := r.pkg, ep := r.ep, byte := 256 * Ent.xDst e + xRow e * r.dst, data := xSrcBytes s cl e r.first r.rows }

/-- Mode 0 (R386, R522). -/
def fixedRows (s : State) (cl p i e owner : Nat) : State :=
  let c := entryCtx s cl p i (xCore e)
  let rs := routeList s cl e
  let ok := fun (r : RouteEntry) => if r.isMirror then r.mirrorOk else r.ok
  let bs := fixedBlocks s cl e
  let ms := (rs.filter fun r => r.isMirror && r.mirrorOk).map fun r => (r, xSrcBytes s cl e r.first r.rows)
  let s := xNote s cl p i e
  let s := sendGroups (skipBad s c (routeAddr cl e) rs ok) cl e owner c bs
  ms.foldl (fun s (m : RouteEntry × List Byte) => sendMirror s cl e owner c m.1 m.2) s

/-- EXCHANGE_FIXED (R386, R392): also an XCHG whose cores or mode no other row takes. -/
def execExchangeFixed (cl p : Nat) (s : State) : Res :=
  .next (withXchg s cl p (fun m => m == 0 || decide (3 < m)) fun s i e => (fixedRows s cl p i e (s.seq.nextId.pred), .none))

/-- The K largest logits of a row, descending, ties by ascending index (R387). Where a logit is NaN the order is free (log entry
146). -/
def topChoices (k : Nat) (zs : List Num) : List (Nat × Num) :=
  let rank := Config.nanRank (zs.map fmtFP32.roundBits)
  let before := fun (a b : Nat × Num) =>
    if zs.contains .nan then decide (rank a.1 < rank b.1) || (rank a.1 == rank b.1 && decide (a.1 ≤ b.1))
    else Num.lt b.2 a.2 || (!(Num.lt a.2 b.2) && decide (a.1 ≤ b.1))
  (sortBy before (zs.zipIdx.map fun (x : Num × Nat) => (x.2, x.1))).take k

/-- The largest of the chosen logits; NaN where the first is. -/
def largestChosen (cs : List (Nat × Num)) : Num :=
  cs.foldl (fun m c => if Num.lt m c.2 then c.2 else m) (((cs.head?).map (·.2)).getD Num.zero)

/-- A choice of a row: expert, slot and weight. -/
structure Choice where
  expert : Nat
  slot : Nat
  weight : Num
  deriving DecidableEq, Repr

/-- The choices of one row with the counts n by expert before and after (R387). -/
def rowChoices (k cap : Nat) (zs : List Num) (n : List Nat) : List Choice × List Nat :=
  let cs := topChoices k zs
  let m := largestChosen cs
  let es := cs.map fun c => f32Exp (f32Sub c.2 m)
  let sum := f32 (sumFromFirst es)
  (cs.zip es).foldl (fun (a : List Choice × List Nat) (x : (Nat × Num) × Num) =>
    let i := x.1.1
    let used := getNth 0 a.2 i
    let w := f32Div x.2 sum
    if used < cap then (a.1 ++ [{ expert := i, slot := used, weight := w }], setNth a.2 i (used + 1))
    else (a.1 ++ [{ expert := i, slot := 0xFFFF, weight := w }], a.2)) ([], n)

/-- Every row's choices, and n (R387). -/
def allChoices (k cap e : Nat) (rows : List (List Num)) : List (List Choice) × List Nat :=
  rows.foldl (fun (a : List (List Choice) × List Nat) zs =>
    let r := rowChoices k cap zs a.2
    (a.1 ++ [r.1], r.2)) ([], List.replicate e 0)

/-- The choices of a dispatch, and the rows that each expert is given (R387). -/
def dispatchChoices (s : State) (cl e : Nat) : List (List Choice) × List Nat :=
  let n := Ent.xNdest e
  let lv := xView s cl e (xLogits s cl e)
  allChoices (xK s cl e) (xCap s cl e) n
    ((List.range (xRows s cl e)).map fun r => (List.range n).map fun x => f32At lv (256 * (r * ceilDiv n 64) + 4 * x))

/-- The rows that a dispatch sends, and the receipt that goes with those of each expert (R387). -/
def dispatchBlocks (s : State) (cl e : Nat) : List XBlock :=
  let ch := dispatchChoices s cl e
  let self := xSelf s cl e
  let sent := fun (x : Nat) => (ch.1.zipIdx.filterMap fun (r : List Choice × Nat) =>
    if r.1.any fun k => k.expert == x && k.slot != 0xFFFF then some r.2 else none)
  ((routeList s cl e).zipIdx.filter fun (r : RouteEntry × Nat) => r.1.ok).flatMap fun (r : RouteEntry × Nat) =>
    [{ pkg := r.1.pkg, ep := r.1.ep, byte := 256 * Ent.xDst e + xRow e * (self * xCap s cl e),
       data := ((sent r.2).map fun row => xSrcBytes s cl e row 1).flatten },
      { pkg := r.1.pkg, ep := r.1.ep, byte := 256 * (Ent.xDst e - 1) + 2 * self, data := leBytes 2 (getNth 0 ch.2 r.2), rcpt := true }]

/-- The dispatch record, and the choices that no slot was left for (R387). -/
def dispatchRecord (s : State) (cl e : Nat) : List Byte :=
  ((dispatchChoices s cl e).1.flatten.map fun k =>
    leBytes 2 k.expert ++ leBytes 2 k.slot ++ leBytes 4 (fmtFP32.roundBits k.weight)).flatten
def dispatchLost (s : State) (cl e : Nat) : Nat := ((dispatchChoices s cl e).1.flatten.filter fun k => k.slot == 0xFFFF).length

/-- Mode 1 (R387). NaN weights of its record set no sticky bit (log entry 169). -/
def dispatchRows (s : State) (cl p i e owner : Nat) : State :=
  let c := entryCtx s cl p i (xCore e)
  let rs := routeList s cl e
  let bs := dispatchBlocks s cl e
  let record := dispatchRecord s cl e
  let lost := dispatchLost s cl e
  let drec := xDrec s cl e
  let s := xNote s cl p i e
  let s := { s with net.dropped := sset zeroAt s.net.dropped cl (sget zeroAt s.net.dropped cl + lost) }
  let s := nsWriteRun s c (nsAddr cl (xCore e) (256 * drec)) record
  sendGroups (skipBad s c (routeAddr cl e) rs fun r => r.ok) cl e owner c bs

/-- DISPATCH (R387). -/
def execDispatch (cl p : Nat) (s : State) : Res :=
  .next (withXchg s cl p (fun m => m == 1) fun s i e => (dispatchRows s cl p i e (s.seq.nextId.pred), .none))

/-- The rows that a mode 2 exchange sends back (R388). -/
def returnedBlocks (s : State) (cl e : Nat) : List XBlock :=
  let rv := xView s cl e (xLogits s cl e)
  let cap := xCap s cl e
  ((routeList s cl e).zipIdx.filter fun (r : RouteEntry × Nat) => r.1.ok).map fun (r : RouteEntry × Nat) =>
    { pkg := r.1.pkg, ep := r.1.ep, byte := 256 * Ent.xDst e + xRow e * (xSelf s cl e * cap),
      data := xSrcBytes s cl e (r.2 * cap) (viewLE rv (2 * r.2) 2) }

/-- Mode 2 (R388). -/
def returnBlocks (s : State) (cl p i e owner : Nat) : State :=
  let c := entryCtx s cl p i (xCore e)
  let rs := routeList s cl e
  let bs := returnedBlocks s cl e
  let s := xNote s cl p i e
  sendGroups (skipBad s c (routeAddr cl e) rs fun r => r.ok) cl e owner c bs

/-- RETURN (R388). -/
def execReturnRows (cl p : Nat) (s : State) : Res :=
  .next (withXchg s cl p (fun m => m == 2) fun s i e => (returnBlocks s cl p i e (s.seq.nextId.pred), .none))

/-- Mode 3: the bytes of DST, and what its conversions raise (R389). A choice that names a row beyond the core reads
a free value (log entry 146). -/
def combineBytes (s : State) (cl e : Nat) : List Byte × Counts :=
  let f := Ent.xFmt e
  let eb := elemBytes f
  let n := xRow e / eb
  let k := xK s cl e
  let cap := xCap s cl e
  let dv := xView s cl e (xDrec s cl e)
  let sv := xView s cl e (Ent.xSrc e)
  let at' := fun (row j : Nat) =>
    let o := xRow e * row + eb * j
    if 256 * Ent.xSrc e + o + eb ≤ 2 ^ 22 then decodeElem f (viewLE sv o eb)
    else decodeElem f (Config.beyondCore (256 * Ent.xSrc e + o) % 2 ^ (8 * eb))
  let cs := ((List.range (xRows s cl e)).map fun r =>
    let ch := (List.range k).filterMap fun j =>
      let o := 8 * k * r + 8 * j
      let slot := viewLE dv (o + 2) 2
      if slot = 0xFFFF then none else some (viewLE dv o 2 * cap + slot, f32At dv (o + 4))
    (List.range n).map fun j =>
      convertElem f true false .rne 9 (ch.foldl (fun y (c : Nat × Num) => f32Fma c.2 (widen (at' c.1 j)).1 y) Num.zero)).flatten
  ((cs.map fun c => leBytes eb c.bits).flatten, cs.foldl (fun a c => a.add c.counts) {})

/-- COMBINE (R389): the rows are written when the entry completes. -/
def execCombine (cl p : Nat) (s : State) : Res :=
  .next (withXchg s cl p (fun m => m == 3) fun s i e =>
    let r := combineBytes s cl e
    (noteSticky (xNote s cl p i e) cl (xCore e) r.2.sticky, .data r.1))

/-- XCHG_COMPLETE (R391): every frame has been acknowledged, or in mode 3 the last row is written. -/
def execXchgComplete (f : Nat) (s : State) : Res :=
  .next (match flightOf s f (fun e => Ent.type e == 4) with
    | none => s
    | some fl =>
      if !framesAcked s f then s
      else match fl.work with
        | .data bs =>
          let core := xCore fl.entry
          removeFlight (nsWriteRun s (flightCtx s fl core) (nsAddr fl.cl core (256 * Ent.xDst fl.entry)) bs) f
        | _ => removeFlight s f)

/-! ### The frame at its destination (R358, R361, R362, R390, R391, R477, R513, R523) -/

/-- The slot in parting that a frame for this package belongs to, by its TSLOT or by the group of its destination in near SRAM or
GDDR7; an ENC frame is left to its own check (R362, R442 step 4). -/
def frameParting (s : State) (f : Frame) : Option Nat :=
  if f.enc || f.type == 0 || decide (5 < f.type) then none
  else if slotParting s f.tslot then some f.tslot
  else (slotOfPart s (if f.dsp = 1 ∨ f.type = 3 then gWindow f.daddr else partOf (nsCluster f.daddr))).filter fun k => slotParting s k

/-- Such a frame is discarded and counted for the completion of the parting (R442, R447). -/
def dropParting (s : State) (f : Frame) : State :=
  match frameParting s f with
  | none => s
  | some k => incReg s (slotKey (Reg.PART_CNT + 24) k) 1

/-- What a frame for this package meets before its unit: it is discarded while the package is caught (R513); one for near
SRAM is held, and wakes the package, while the C-dies sleep (R477); one behind a held frame of its channel waits. -/
def admitFrame (s : State) (l : Nat) (f : Frame) (near : Bool) (k : State → State) : State :=
  if s.catching.caught then freeFlits (incReg s (catchReg Reg.CATCH_DROPS) 1) l f
  else if (frameParting s f).isSome then freeFlits (dropParting s f) l f
  else if (near && sleeping s) || (s.link l).rx.any fun g => g.vc == f.vc && g.dst == selfId s then
    let s := setLink s l { s.link l with rx := (s.link l).rx ++ [f] }
    if near then wakeSource s 0 l else s
  else k s

/-- A frame with a SEQ reaches link l: taken or not, passed on, or given to the unit it is for. -/
def receiveFrame (s : State) (l : Nat) (f : Frame) (a : Arrival) (type : Nat) (near : Bool) (k : State → State) : State :=
  if f.type ≠ type then s
  else
    let s' := if arrivalFails a && f.dst != selfId s && f.seq == (s.link l).expect && fabricUp s l then stompOn s l f else s
    let r := takeFrame s' l f a
    if !r.2 then r.1
    else if f.dst ≠ selfId r.1 then forward r.1 l f
    else admitFrame r.1 l f near k

/-- A slot's link key is loaded and the slot is active (R362). -/
def linkKeyOk (s : State) (k : Nat) : Bool :=
  slotState s k == 1 && (sget (fun _ => ({} : SlotKeys)) s.tenant.keys k).load != 0

/-- One frame more from a sender towards an endpoint and counter: the token once all have come (R390). -/
def countXchg (s : State) (f : Frame) (cl core : Nat) : State :=
  let ctr := f.tspec % 32
  let post := bit f.tspec 5 == 1
  let need := bf f.tspec 21 6
  let sender := bf f.tspec 36 23
  let mine := fun (x : XchgCount) => x.src == f.src && x.sender == sender && x.cl == cl && x.core == core && x.ctr == ctr
  let got := ((s.net.xchg.find? mine).map (·.got)).getD 0 + 1
  let rest := s.net.xchg.filter fun x => !mine x
  if need ≤ got then
    let s := { s with net.xchg := rest }
    if post then postToken s cl ctr else s
  else { s with net.xchg := rest ++ [{ src := f.src, sender := sender, cl := cl, core := core, ctr := ctr, got := got }] }

/-- The base of a mirror copy and its size in bytes (R521). -/
def mirrorSize (s : State) : Nat := mib2 * (bf (s.reg (pairReg Reg.PAIR_MSIZE)) 15 0 + 1)
def mirrorBase (s : State) (copy : Nat) : Nat := s.reg64 (pairReg Reg.PAIR_MBASE_LO) % 2 ^ 39 + copy * mirrorSize s

/-- The context of the pair receiver. -/
def pairCtx : Ctx := { page := hPage 0x0E, die := 63 }

/-- The frames of a mirror exchange that are to come in all (R390). -/
def MirrorCount.need (m : MirrorCount) : Nat := bf m.last.tspec 21 6

/-- A mirror exchange whose frames have all been written, none of it behind a channel that retrains: the header's step number is
written, the copy is whole, and it is acknowledged (R523). -/
def finishMirror (s : State) (m : MirrorCount) : State :=
  if m.got < m.need || gHeld s (mirrorBase s m.copy) (mirrorSize s) then s
  else
    let s := { s with net.mirror := s.net.mirror.erase m }
    let s := match m.step with
      | none => s
      | some b => setReg64 (gWrite s pairCtx (mirrorBase s m.copy + imageStepAt) b) (pairReg Reg.PAIR_LAST_LO) (leNat b)
    let f := m.last
    let ack : Frame :=
      { type := 2, vc := 1, enc := true, src := selfId s, dst := f.src, tslot := f.tslot, daddr := nsAddr (epCl m.sender) (epCore m.sender) 0,
        tspec := xTspec (f.tspec % 32) (bit f.tspec 5 == 1) 1 false m.sender }
    let ls := pairUp s
    if ls.isEmpty then s else sendFrames (incReg s (pairReg Reg.PAIR_ACKS) 1) ls none [ack]

/-- The mirror exchanges that a channel held back are finished once it is trained (R257, R523). -/
def finishMirrors (s : State) : State := s.net.mirror.foldl finishMirror s

/-- The rows of a mirror frame; the header's step number, bytes 0x08 to 0x0F of row 0, is kept back. -/
def mirrorRows (s : State) (a off : Nat) (bs : List Byte) : State :=
  if off = 0 ∧ 16 ≤ bs.length then gAccept (gAccept s pairCtx a (bs.take 8)) pairCtx (a + 16) (bs.drop 16)
  else gAccept s pairCtx (a + off) bs

/-- A mirror frame at the partner (R390, R523): the first of an exchange clears the copy's step number. An exchange without row 0
leaves it so (log entry 159). -/
def takeMirror (s : State) (l : Nat) (f : Frame) : State :=
  let copy := f.daddr / 2 ^ 38
  let off := f.daddr % 2 ^ 38
  if f.src ≠ bf (s.reg (pairReg Reg.PAIR_PARTNER)) 9 0 ∨ pairState s = 0 ∨ mirrorSize s < off + f.payload.length ∨ 1 < copy then
    post s (hPage 0x0E) { cause := Cause.mirrorRefused, die := 63, time := s.time.now, pkg := f.src, link := l }
  else
    let base := mirrorBase s copy
    let mine := fun (m : MirrorCount) => m.copy == copy && m.sender == bf f.tspec 36 23 && m.last.tspec % 32 == f.tspec % 32
    let old := s.net.mirror.find? mine
    let s := if old.isNone then gAccept s pairCtx (base + imageStepAt) (leBytes 8 0) else s
    let s := mirrorRows s base off f.payload
    let m : MirrorCount :=
      { copy := copy, sender := bf f.tspec 36 23, last := { f with payload := [] }, got := (old.map (·.got)).getD 0 + 1,
        step := if off = 0 ∧ 16 ≤ f.payload.length then some ((f.payload.drop imageStepAt).take 8) else old.bind (·.step) }
    finishMirror { s with net.mirror := (s.net.mirror.filter fun x => !mine x) ++ [m] } m

/-- A frame without payload from the partner towards the endpoint that sent a mirror copy acknowledges the copy (R523). -/
def noteAck (s : State) (f : Frame) (ep : Nat) : State :=
  if f.src = bf (s.reg (pairReg Reg.PAIR_PARTNER)) 9 0 ∧ f.payload.isEmpty ∧ bf f.tspec 36 23 = ep then
    { s with net.unacked := s.net.unacked.erase ep }
  else s

/-- An XCHG frame given to its destination: the key, the tag, the slot and the range are checked in this order. -/
def takeXchg (s : State) (l : Nat) (f : Frame) (tagOk : Bool) : State :=
  let s := freeFlits s l f
  if !linkKeyOk s f.tslot then
    let s := if slotParting s f.tslot then incReg s (slotKey (Reg.PART_CNT + 20) f.tslot) 1 else s
    incReg s (linkReg l Reg.LINK_ENC_DROP) 1
  else if !tagOk then
    post (incReg s (linkReg l Reg.LINK_AUTH_FAIL) 1) (linkPage l)
      { cause := Cause.linkIntegrity, die := 56 + l / 4, time := s.time.now, partition := some (l / 3), slot1 := some f.tslot, link := l,
        op1 := f.src, pkg := f.src }
  else if f.dsp = 1 then takeMirror s l f
  else
    let cl := nsCluster f.daddr
    let core := nsCore f.daddr
    if 431 < cl ∨ 8 < bf f.daddr 29 26 then s
    else
      let s :=
        if actingSlot s cl ≠ some f.tslot then
          post s (clPage 0x12 cl)
            { cause := Cause.outsidePartition, die := cl / 9, time := s.time.now, partition := some (partOf cl), op1 := f.daddr, pkg := f.src,
              slot1 := some f.tslot, slot2 := actingSlot s cl }
        else putRows s (epCtx s cl core) cl core (f.daddr % 2 ^ 22) f.payload
      countXchg (noteAck s f (epOf cl core)) f cl core

/-- XCHG_FRAME (R358, R361, R362, R390, R391, R513, R523). -/
def execXchgFrame (l : Nat) (f : Frame) (a : Arrival) (tagOk : Bool) (s : State) : Res :=
  .next (receiveFrame s l f a 2 (f.dsp == 0) fun s => takeXchg s l f tagOk)

end Sys2Proof.Machine
end

