-- ==== Sys2Proof/Machine/Memory.lean ====
section
/-! DEFINITION. The memories' own happenings: CRC retries and retraining, corrections, sanding, tag sweeps and epochs
(R247, R250, R253, R256 to R258, R268 to R270). -/

namespace Sys2Proof.Machine

/-- An M-die's own context. -/
def memCtx (w : Nat) : Ctx := { page := memPage w, die := 48 + w, partition := some w }

def setChState (s : State) (w k v : Nat) : State := setField s (memPage w + Reg.MEM_CH_STATE) (2 * k + 1) (2 * k) v

/-- GDDR7_CRC_RETRY (R257): an access of n bytes of one line at address a fails its data CRC for the try-th time. It is
repeated up to four times; the fifth failure ends it, and the channel retrains. -/
def execGddr7CrcRetry (a n attempt : Nat) (write : Bool) (s : State) : Res :=
  .next (
    let w := gWindow a
    let k := gChannel s a
    if 8 ≤ w ∨ 256 < a % 256 + n ∨ attempt = 0 ∨ 5 < attempt ∨ chState s w k ≠ 0 then s
    else if attempt < 5 then incReg s (memPage w + Reg.MEM_CRC_RETRY) 1
    else
      let s := { s with mem.crc := s.mem.crc ++ (granules a n).map fun g => (g, write) }
      let c := memCtx w
      let s := post s c.page { c.event s Cause.linkCrc a with slot1 := gRegionSlot s a }
      setChState s w k 3)

/-- The base of a channel's first code block (R275). -/
def channelBase (s : State) (w k : Nat) : Nat := 2 ^ 36 * w + 256 * (liveChannels s w).findIdx (· == k)


/-- A memory whose codes find errors: near SRAM by slice, GDDR7 by granule, table memory by cluster and entry (R253, R259, R505).
A mark stays until a write clears it; an uncorrectable error outweighs a correctable one. A single-bit error of a table entry is
corrected, and counted in ERR_COUNT of the cluster's sequencer page (log entry 124). -/
def upset (s : State) (u : Upset) : State :=
  let put := fun (m : List (Nat × Nat)) => sset zeroAt m u.place (max (sget zeroAt m u.place) (if u.hard then 2 else 1))
  match u.kind with
  | .nearSram => { s with mem.nsErr := put s.mem.nsErr }
  | .gddr7 => { s with mem.gErr := put s.mem.gErr }
  | .table =>
    if u.hard then { s with mem.tableErr := put s.mem.tableErr }
    else if u.place < 2048 * 432 then noteError s (clPage 0x12 (u.place / 2048)) else s

/-- What the devices of M-die w report of their on-die ECC (R256). -/
def noteDevEcc (s : State) (x : Nat × Nat) : State := if x.1 < 8 then incReg s (memPage x.1 + Reg.MEM_DEVECC) x.2 else s

/-- CORRECTION_WRITE_BACK (R253): the slice of a global near-SRAM address, corrected on a read, is stored anew. -/
def execCorrectionWriteBack (a : Nat) (s : State) : Res :=
  .next (if sget zeroAt s.mem.nsErr (a / 32) = 1 then { s with mem.nsErr := sset zeroAt s.mem.nsErr (a / 32) 0 } else s)

/-- COMMAND_ADDRESS_PARITY_ERROR (R256): the command is reissued once and counted. -/
def execCommandAddressParityError (w : Nat) (s : State) : Res :=
  .next (if w < 8 then incReg s (memPage w + Reg.MEM_CA_PARITY) 1 else s)

/-! ### Sanding (R268 to R270) -/

/-- SAND_AGEING (R270): SAND_AGE turns have passed since the level last rose, or since the first range was queued. -/
def execSandAgeing (w : Nat) (s : State) : Res :=
  .next (if w < 8 ∧ !(sandRanges s w).isEmpty ∧
      sget zeroAt s.mem.sandAged w + bf (s.reg (memPage w + Reg.SAND_AGE)) 15 0 ≤ s.turn then
    refreshSand (sandMark s w) w (min 3 (sandLevel s w + 1))
  else s)

/-- Zeros with fresh check words over a range. -/
def zeroRange (s : State) (w base size : Nat) : State :=
  let lo := 2 ^ 36 * w + mib2 * base
  let hi := lo + mib2 * size
  { s with
    mem.gddr := s.mem.gddr.filter fun e => decide (e.1 < lo) || decide (hi ≤ e.1)
    mem.gKey := s.mem.gKey.filter fun e => decide (32 * e.1 < lo) || decide (hi ≤ 32 * e.1)
    mem.gErr := s.mem.gErr.filter fun e => decide (32 * e.1 < lo) || decide (hi ≤ 32 * e.1) }

/-- The list that the range in progress of M-die w heads: the parting list first (R268). -/
def setSandHead (s : State) (w : Nat) (r : Option SandRange) : State :=
  let put := fun (l : List SandRange) => r.toList ++ l.drop 1
  if (sget nilAt s.mem.partList w).isEmpty then { s with mem.sand := sset nilAt s.mem.sand w (put (sget nilAt s.mem.sand w)) }
  else { s with mem.partList := sset nilAt s.mem.partList w (put (sget nilAt s.mem.partList w)) }

/-- Units of 2 MiB of the range in progress are written with zeros; the range leaves its list with the last, and "sanded"
names its base and size (R268, R269). -/
def sandUnits (s : State) (w units : Nat) (r : SandRange) : State :=
  let n := min units r.left
  let s := zeroRange s w (r.base + (r.size - r.left)) n
  if n < r.left then refreshSand (setSandHead s w (some { r with left := r.left - n })) w (sandLevel s w)
  else
    let s := refreshSand (setSandHead s w none) w (sandLevel s w)
    let c := memCtx w
    post s c.page { c.event s Cause.sanded (2 ^ 36 * w + mib2 * r.base) with count := r.size }

/-- SANDED (R268, R269): the engine of an M-die has written units of 2 MiB of its range in progress, the head of the parting
list before the queue's: between two units a range of the queue yields to one that parting lists. -/
def execSanded (x : SandRun) (s : State) : Res :=
  .next (if 8 ≤ x.window ∨ s.stopped then s
    else match (sandRanges s x.window).head? with
      | none => s
      | some r => sandUnits s x.window x.units r)

/-! ### Epochs and sweeps (R247, R250) -/

def sweepKey (k d : Nat) : Nat := 64 * k + d
def anySweep (s : State) : Bool := s.tenant.sweeps.any fun e => e.2

/-- A die's copy of a slot's epoch, and its sweep, on its near-SRAM page. -/
def copyEpoch (s : State) (d k e : Nat) : State :=
  let s := setReg s (keyOf (cPage 0x10 d + Reg.NS_EPOCH) k) e
  setReg s (cPage 0x10 d + Reg.NS_SWEEP) (1 + 256 * k)

/-- Slot k's epoch advances and every C-die begins its sweep (R250). -/
def startSweep (s : State) (k : Nat) : State :=
  let e := (slotEpoch s k + 1) % 1023
  let s := setField s (slotKey Reg.SLOT_STATE k) 13 4 e
  let s := (List.range 48).foldl (fun s d => copyEpoch s d k e) s
  { s with tenant.sweeps := ssetAll (fun _ => false) s.tenant.sweeps ((List.range 48).map fun d => (sweepKey k d, true)) }

/-- An advance, held while a sweep runs (R250, R447). -/
def advanceEpoch (s : State) (k : Nat) : State :=
  if anySweep s then { s with tenant.heldAdvance := s.tenant.heldAdvance ++ [k] } else startSweep s k

/-- The tags of die d that name slot k with a live epoch other than its current one are cleared (R250). -/
def sweepTags (s : State) (d k : Nat) : State :=
  { s with mem.tags := s.mem.tags.filter fun e =>
      !(e.1 / 2 ^ 22 == d && e.2 % 64 == k && e.2 / 64 != 1023 && e.2 / 64 != slotEpoch s k) }

/-- TAG_SWEEP_COMPLETE (R250): die d finishes the sweep for slot k; the last die releases a held advance. -/
def execTagSweepComplete (d k : Nat) (s : State) : Res :=
  .next (if 48 ≤ d ∨ !(sget (fun _ => false) s.tenant.sweeps (sweepKey k d)) then s
    else
      let s := setReg (sweepTags s d k) (cPage 0x10 d + Reg.NS_SWEEP) 0
      let s := { s with tenant.sweeps := sset (fun _ => false) s.tenant.sweeps (sweepKey k d) false }
      if anySweep s then s
      else match s.tenant.heldAdvance with
        | [] => s
        | j :: rest => startSweep { s with tenant.heldAdvance := rest } j)

end Sys2Proof.Machine
end

