-- ==== Sys2Proof/Machine/Power.lean ====
section
/-! DEFINITION. The control loop of the headstock: telemetry, energy, ageing, the power and thermal controllers, droop,
voltage steps and the trip (R411, R415 to R418, R449, R453 to R474, R507, R508). -/

namespace Sys2Proof.Machine

def pwrBit (s : State) (b : Nat) : Bool := bit (s.reg (pwrReg Reg.PWR_STATUS)) b == 1
def setPwrBit (s : State) (b : Nat) (v : Bool) : State :=
  setReg s (pwrReg Reg.PWR_STATUS) (setBit (s.reg (pwrReg Reg.PWR_STATUS)) b v)

/-- The cap in W and the window in loops (R461). -/
def capW (s : State) : Nat := bf (s.reg (pwrReg Reg.PWR_CAP)) 15 0
def windowLoops (s : State) : Nat := 1000 * bf (s.reg (pwrReg Reg.PWR_WINDOW)) 4 0

def sumList (l : List Nat) : Nat := l.foldl (· + ·) 0

/-- An event of the headstock on the power page. -/
def postPwr (s : State) (cause op1 tag : Nat) : State :=
  post s (hPage 9) { cause := cause, die := 63, time := s.time.now, op1 := op1, tag := tag }

/-! ### Measured power (R416, R462 to R464, R474) -/

def silentLoops (s : State) (i : Nat) : Nat := sget zeroAt s.power.silent i

/-- Rail i's count of unanswered loops after a loop. -/
def countSilent (s : State) (i : Nat) (r : Option Nat) : State :=
  match r with
  | some _ => { s with power.silent := sset zeroAt s.power.silent i 0, power.lostRails := s.power.lostRails.filter fun j => j != i }
  | none => { s with power.silent := sset zeroAt s.power.silent i (silentLoops s i + 1) }

def showLost (s : State) : State :=
  let n := s.power.lostRails.length
  setPwrBit (setField s (pwrReg Reg.PWR_STATUS) 15 8 (min n 255)) 2 (n != 0)

/-- A rail that has not answered for 3 loops is lost, once (R464). -/
def noteLostRail (s : State) (i : Nat) : State :=
  if silentLoops s i < 3 ∨ s.power.lostRails.contains i then s
  else postPwr (showLost { s with power.lostRails := s.power.lostRails ++ [i] }) Cause.measurementLost i 0

/-- What a rail counts in P: its reading; its estimate times 1.25 once it is lost; a free value in the first two loops
that it does not answer, for which the manual gives none (log entry 54). -/
def railPower (s : State) (i est : Nat) (r : Option Nat) : State × Nat :=
  match r with
  | some v => (s, v)
  | none => if s.power.lostRails.contains i then (s, est * 5 / 4) else fresh s

/-- P of a loop. -/
def measure (s : State) (r : LoopReadings) : State × Nat :=
  let rails := r.rails.zipIdx
  let s := rails.foldl (fun s (x : Option Nat × Nat) => noteLostRail (countSilent s x.2 x.1) x.2) s
  rails.foldl (fun (a : State × Nat) (x : Option Nat × Nat) =>
    let q := railPower a.1 x.2 (getNth 0 r.railEst x.2) x.1
    (q.1, a.2 + q.2)) (showLost s, 0)

/-- The energy counter advances by P for 1 ms, in mJ (R474). -/
def addEnergy (s : State) (p : Nat) : State :=
  setReg64 s (pwrReg Reg.PWR_ENERGY_LO) ((s.reg64 (pwrReg Reg.PWR_ENERGY_LO) + p) % 2 ^ 64)

/-- The loops that the window average counts, newest first (R461). -/
def windowPowers (s : State) : List Nat := s.power.hist.take (min s.power.counted (windowLoops s))

/-- The mean of a run of powers compared with a number of hundredths of the cap. -/
def meanAbove (ps : List Nat) (hundredths cap : Nat) : Bool := decide (hundredths * cap * ps.length < 100 * sumList ps)
def meanBelow (ps : List Nat) (hundredths cap : Nat) : Bool := decide (100 * sumList ps < hundredths * cap * ps.length)

def notePower (s : State) (p est : Nat) : State :=
  let s := addEnergy s p
  let s := { s with
    power.hist := (p :: s.power.hist).take 30000
    power.counted := min 30000 (s.power.counted + 1)
    power.sumPower := s.power.sumPower + p
    power.sumEst := s.power.sumEst + est
    power.sumLoops := s.power.sumLoops + 1 }
  let ps := windowPowers s
  let s := setReg s (pwrReg Reg.PWR_NOW) (min p 65535 + 65536 * min est 65535)
  setReg s (pwrReg Reg.PWR_AVG) (min 65535 (if ps.isEmpty then 0 else sumList ps / ps.length))

/-- The estimate against the measured power (R463). -/
def disagrees (p est : Nat) : Bool := decide (p < 4 * (max p est - min p est))
def noteDisagree (s : State) (p est : Nat) : State :=
  if disagrees p est then { s with power.disagree := s.power.disagree + 1, power.agree := 0 }
  else
    let s := { s with power.agree := s.power.agree + 1, power.disagree := 0 }
    if 1000 ≤ s.power.agree then setPwrBit s 1 false else s
def checkDisagree (s : State) : State :=
  if 1000 ≤ s.power.disagree ∧ !pwrBit s 1 then postPwr (setPwrBit s 1 true) Cause.powerEstimateDisagrees 0 0 else s

/-! ### Ageing (R456 to R458) -/

/-- The largest offset of die d at point k that its maximum code and 40 steps allow. -/
def offsetCap (d k : Nat) : Nat := min 40 (Config.maxCode d - Config.testCode d k)

/-- A point is withheld on a partition (R458). -/
def withhold (s : State) (d k : Nat) : State :=
  let w := 16 * partOfC d + k
  let s := if s.power.withheld.contains w then s else { s with power.withheld := s.power.withheld ++ [w] }
  postPwr (setPwrBit s 4 true) Cause.ageingLimit d k

def setOffset (s : State) (d k v : Nat) : State :=
  { s with power.offsets := sset zeroAt s.power.offsets (offsetKey d k) v }

/-- An offset rises to v, or stops at its limit and the point is withheld (R458). -/
def raiseOffset (s : State) (d k v : Nat) : State :=
  let old := offsetOf s d k
  if offsetCap d k < v then withhold (setOffset s d k (max old (offsetCap d k))) d k else setOffset s d k (max old v)

/-- The largest offset shown (R485). -/
def showOffsets (s : State) : State :=
  setField s (pwrReg Reg.AGE_STATE) 21 16 ((s.power.offsets.map fun e => e.2).foldl max 0)

/-- A margin alarm of die d (R457): its offset at the point in effect rises by a step, and the rail's voltage step begins. -/
def marginAlarm (s : State) (d : Nat) : State :=
  let k := pointNow s
  let s := raiseOffset s d k (offsetOf s d k + 1)
  let s := incReg (incReg s (cPage 0x11 d + Reg.DIE_ALARMS) 1) (pwrReg Reg.AGE_ALARMS) 1
  showCodes (raiseRails (showOffsets (postPwr s Cause.marginAlarm d k)) k)

/-- The margins of a loop, and the oscillators (R456, R457, R487). -/
def noteMargins (s : State) (r : LoopReadings) : State :=
  (List.range 48).foldl (fun s d =>
    let m := getNth (255, 0) r.margin d
    let o := getNth (0, 0) r.osc d
    let s := setReg s (cPage 0x11 d + Reg.DIE_MARGIN) (m.1 % 256 + 256 * (m.2 % 64))
    let s := setReg s (cPage 0x11 d + Reg.DIE_RO) (o.1 % 65536 + 65536 * (o.2 % 64))
    if m.1 < Config.marginThreshold d (pointNow s) then marginAlarm s d else s) s

/-- The offsets of a re-plan: none below the one it replaces (R456). -/
def replanOffsets (s : State) : List (Nat × Nat) :=
  (List.range 48).flatMap fun d => (List.range 12).map fun k =>
    (offsetKey d k, max (offsetOf s d k)
      (Config.replanOffset d k (offsetOf s d k) (s.reg (cPage 0x11 d + Reg.DIE_MARGIN)) (s.reg (cPage 0x11 d + Reg.DIE_RO))))

/-- An ageing record signed by the identity key is written over the copy with the older sequence number, A where they are equal
(R423, R496). -/
def writeRecord (s : State) (os : List (Nat × Nat)) : State :=
  let n := (max s.power.copyA.seq s.power.copyB.seq + 1) % 2 ^ 64
  let c : AgeCopy := { seq := n, offsets := os, sig := padTo 2420 0 (Config.sign s.tenant.seed (Config.ageMessage n os) n) }
  if s.power.copyA.seq ≤ s.power.copyB.seq then { s with power.copyA := c } else { s with power.copyB := c }

/-- The offsets that a re-plan leaves in the record: none past what its die allows (R458). -/
def recordOffsets (s : State) (os : List (Nat × Nat)) : List (Nat × Nat) :=
  os.map fun e => (e.1, min e.2 (max (sget zeroAt s.power.offsets e.1) (offsetCap (e.1 / 16) (e.1 % 16))))

/-- A re-plan is made and its record signed (R456, R496); its offsets wait for a turn. -/
def makeReplan (s : State) (turn : Nat) : State :=
  let os := replanOffsets s
  { writeRecord s (recordOffsets s os) with power.replan := some (turn, os), power.ageLoops := 0, power.replanDue := false }

/-- The offsets of a re-plan whose turn has begun take effect, by a voltage step of each rail that rises (R456). -/
def applyReplan (s : State) (t : Nat) : State :=
  match s.power.replan with
  | none => s
  | some (due, os) =>
    if t < due then s
    else
      let s := os.foldl (fun s (e : Nat × Nat) =>
        if offsetOf s (e.1 / 16) (e.1 % 16) < e.2 then raiseOffset s (e.1 / 16) (e.1 % 16) e.2 else s) { s with power.replan := none }
      postPwr (showCodes (raiseRails (showOffsets s) (pointNow s))) Cause.rePlanApplied due 0

/-- Powered hours since the latest re-plan. -/
def ageHours (s : State) : Nat := s.power.ageLoops / 3600000
def noteHours (s : State) : State :=
  let s := { s with power.ageLoops := s.power.ageLoops + 1 }
  setField s (pwrReg Reg.AGE_STATE) 15 0 (min 65535 (ageHours s))

/-- PERIODIC_REPLAN (R456, R458): AGE_PERIOD hours have passed, or no ageing record verified; it applies at the next boundary. -/
def execPeriodicReplan (s : State) : Res :=
  .next (if (!s.power.replanDue && (s.reg (pwrReg Reg.AGE_PERIOD) == 0 || decide (ageHours s < s.reg (pwrReg Reg.AGE_PERIOD)))) ||
      s.power.replan.isSome then s
    else makeReplan s (s.turn + 1))

/-! ### Heat (R471, R472) -/

def hottest (r : LoopReadings) : Nat × Nat :=
  (r.tj.zipIdx.map fun (x : (Nat × Nat) × Nat) => (x.1.1, x.2)).foldl (fun a x => if a.1 < x.1 then x else a) (0, 0)
def hottestMem (r : LoopReadings) : Nat := (r.mem.map fun x => x.1).foldl max 0

def noteTemps (s : State) (r : LoopReadings) : State :=
  let h := hottest r
  let s := setReg s (pwrReg Reg.PWR_TJ) (min 255 h.1 + 256 * (h.2 % 64))
  let s := (List.range 48).foldl (fun s d =>
    let x := getNth (0, 0) r.tj d
    setReg s (cPage 0x11 d + Reg.DIE_TJ) (min 255 x.1 + 256 * min 255 x.2)) s
  (List.range 8).foldl (fun s w =>
    let x := getNth (0, 0) r.mem w
    setReg s (memPage w + Reg.MEM_TEMP) (min 255 x.1 + 256 * (x.2 % 8))) s

/-- The duty of partition p in a word of duties. -/
def dutyOf (w p : Nat) : Nat := bf w (4 * p + 3) (4 * p)
def setDuty (w p v : Nat) : Nat := setBf w (4 * p + 3) (4 * p) v
def deepen (w : Nat) (ps : List Nat) : Nat := ps.foldl (fun w p => setDuty w p (max 1 (dutyOf w p - 1))) w
def ease (w : Nat) (ps : List Nat) : Nat := ps.foldl (fun w p => setDuty w p (min 8 (dutyOf w p + 1))) w
def ceilNow (s : State) : Nat := bf (s.reg (pwrReg Reg.PWR_CEIL)) 3 0
def allEased (w : Nat) : Bool := (List.range 8).all fun p => dutyOf w p == 8

/-- The duties in force: the lesser of the two (R472), while the ceiling stands at OP11 (R466). -/
def showPace (s : State) : State :=
  setReg s (pwrReg Reg.PWR_PACE)
    (if ceilNow s < 11 then 0x88888888
    else (List.range 8).foldl (fun w p => setDuty w p (min (dutyOf s.power.capDuty p) (dutyOf s.power.heatDuty p))) 0)

/-- The thermal limit binds: it is above OP0 and no other limit is slower, or heat paces. -/
def heatBinds (s : State) : Bool :=
  !allEased s.power.heatDuty ||
    (s.power.heatLimit != 0 && ((limits s).all fun e => e.1 == 2 || decide (e.2 ≤ s.power.heatLimit)))

/-- The thermal throttle (R472). THROTTLE clears under the third row alone: after 1,000 cool loops, once heat no longer binds. -/
def throttle (s : State) (tj mem : Nat) : State :=
  let s := { s with power.sinceHeat := s.power.sinceHeat + 1, power.sinceCool := s.power.sinceCool + 1 }
  if 105 ≤ tj ∨ 100 ≤ mem then
    let s := sbEvent (setPwrBit { s with power.cool := 0 } 3 true) 0
    if s.power.sinceHeat < 16 then s
    else if s.power.heatLimit < 11 then { s with power.heatLimit := s.power.heatLimit + 1, power.sinceHeat := 0 }
    else if 110 ≤ tj then { s with power.heatDuty := deepen s.power.heatDuty (ownedParts s), power.sinceHeat := 0 }
    else s
  else
    let s := { s with power.cool := if tj < 100 ∧ mem < 95 then s.power.cool + 1 else 0 }
    let s :=
      if 1000 ≤ s.power.cool ∧ 256 ≤ s.power.sinceCool then
        if !allEased s.power.heatDuty then { s with power.heatDuty := ease s.power.heatDuty (List.range 8), power.sinceCool := 0 }
        else if 0 < s.power.heatLimit then { s with power.heatLimit := s.power.heatLimit - 1, power.sinceCool := 0 }
        else s
      else s
    if 1000 ≤ s.power.cool ∧ !heatBinds s then setPwrBit s 3 false else s

/-! ### The cap (R465 to R468) -/

/-- Shares of the owned partitions, and what scales them down where they sum above the cap (R468). -/
def shareOf (s : State) (p : Nat) : Nat := bf (s.reg (pwrReg (Reg.PWR_SHARE + 4 * p))) 15 0
def shareSum (s : State) : Nat := sumList ((ownedParts s).map fun p => shareOf s p)

/-- Attributed power of p against its share, as a pair to compare by cross-multiplication: power and share, both times
the same factors (R462, R468). -/
def attributed (s : State) (r : LoopReadings) (p' p : Nat) : Nat × Nat :=
  let tot := sumList ((ownedParts s).map fun q => getNth 0 r.partEst q)
  let sum := shareSum s
  let cap := capW s
  if cap < sum then (p' * getNth 0 r.partEst p * sum, shareOf s p * cap * tot) else (p' * getNth 0 r.partEst p, shareOf s p * tot)

/-- Of a list of partitions, the one whose attributed power is the largest, or smallest, multiple of its share, ties to
the lower index. -/
def extreme (s : State) (r : LoopReadings) (p' : Nat) (largest : Bool) (ps : List Nat) : List Nat :=
  match ps with
  | [] => []
  | p0 :: rest =>
    [rest.foldl (fun b p =>
      let x := attributed s r p' b
      let y := attributed s r p' p
      if largest then (if x.1 * y.2 < y.1 * x.2 then p else b) else (if y.1 * x.2 < x.1 * y.2 then p else b)) p0]

/-- The partitions whose duty a step down deepens, and those that a step up eases (R466). -/
def toDeepen (s : State) (r : LoopReadings) (p' : Nat) : List Nat :=
  let open' := (ownedParts s).filter fun p => decide (1 < dutyOf s.power.capDuty p)
  let tooBig := open'.filter fun p => let a := attributed s r p' p; decide (a.2 < a.1)
  if tooBig.isEmpty then extreme s r p' true open' else tooBig
def toEase (s : State) (r : LoopReadings) (p' : Nat) : List Nat :=
  let paced := (List.range 8).filter fun p => decide (dutyOf s.power.capDuty p < 8)
  let under := paced.filter fun p => let a := attributed s r p' p; decide (a.1 < a.2)
  if under.isEmpty then extreme s r p' false paced else under

/-- The switch page of M-die w, and the state of its plan. -/
def swPage (w : Nat) : Nat := mPage 0x19 w
def swReg (w off : Nat) : Nat := swPage w + off
def swState (s : State) (w : Nat) : Nat := bf (s.reg (swReg w Reg.SW_STATE)) 1 0

/-- The turn for which a start of window w's switch plan is armed. -/
def planArmed (s : State) (w : Nat) : Option Nat :=
  match commitOf s (swPage w) with
  | some { turn := some a, .. } => if bit (s.shd (swReg w Reg.SW_CTRL)) 0 = 1 then some a else none
  | _ => none

/-- A switch plan armed or running announces a phase as a hint does (R303). -/
def planAnnounced (s : State) : Bool := (List.range 8).any fun w => swState s w == 1 || (planArmed s w).isSome

/-- The data-plane clock of a point in MHz (R451). -/
def pointClock (k : Nat) : Nat := getNth 950 [1900, 1800, 1700, 1600, 1500, 1400, 1300, 1200, 1150, 1100, 1000, 950] k

/-- The voltage of partition p's rail at point k, in 0.1 mV (R417). -/
def railVolts (s : State) (p k : Nat) : Nat := 5000 + 25 * railCode s p k

/-- What one step up scales partition p's estimated dynamic power by (R465): (d + 1) / d where it eases the partition's duty d; the
clock ratio and the square of the voltage ratio where it raises the ceiling from k. -/
def stepScale (s : State) (eased : List Nat) (k p : Nat) : Rat :=
  if !eased.isEmpty then (if eased.contains p then (dutyOf s.power.capDuty p + 1 : Rat) / dutyOf s.power.capDuty p else 1)
  else (pointClock (k - 1) : Rat) / pointClock k * ((railVolts s p (k - 1) : Rat) / railVolts s p k) ^ 2

/-- The hints in force at a turn (R470). -/
def hintsNow (s : State) : List (Nat × Nat × Nat) := s.power.hints.filter fun h => decide (s.turn < h.2.1)

/-- P16 projected to one step up (R465), with what the hints in force add (R470, log entry 172). -/
def projected (s : State) (r : LoopReadings) (p16 : List Nat) (eased : List Nat) : Rat :=
  (sumList p16 : Rat) / max 1 p16.length +
    ((List.range 8).map fun p => ((getNth 0 r.partDyn p : Nat) : Rat) * (stepScale s eased (ceilNow s) p - 1)).sum +
    Config.hintPower r.partDyn ((hintsNow s).map fun h => (h.1, h.2.2))

/-- A hint or a plan announces a phase: the ceiling is not raised into it (R303, R470, log entry 129). -/
def phaseAnnounced (s : State) : Bool := planAnnounced s || !(hintsNow s).isEmpty

/-- The power controller at one loop (R465, R466). Pacing acts at OP11 only: while a partition is paced, the cap's own limit stands
there. -/
def capRules (s : State) (r : LoopReadings) (p' : Nat) : State :=
  let s := { s with power.sinceDown := s.power.sinceDown + 1, power.sinceStep := s.power.sinceStep + 1 }
  let cap := capW s
  let p16 := s.power.hist.take 16
  let a := windowPowers s
  let eased := if allEased s.power.capDuty then [] else toEase s r p'
  if meanAbove p16 120 cap || (meanAbove a 98 cap && meanAbove p16 98 cap) then
    if s.power.sinceDown < 16 then s
    else
      let s := { s with power.sinceDown := 0, power.sinceStep := 0 }
      if ceilNow s < 11 then { s with power.capLimit := ceilNow s + 1 }
      else { s with power.capLimit := 11, power.capDuty := deepen s.power.capDuty (toDeepen s r p') }
  else if meanBelow a 95 cap && decide (100 * projected s r p16 eased < (95 * cap : Nat)) then
    if s.power.sinceStep < 256 then s
    else if !eased.isEmpty then { s with power.sinceStep := 0, power.capDuty := ease s.power.capDuty eased }
    else if 0 < s.power.capLimit ∧ !phaseAnnounced s then { s with power.sinceStep := 0, power.capLimit := s.power.capLimit - 1 }
    else s
  else s

/-- CAP_UNMET (R467): the duties are those in force. -/
def capUnmet (s : State) : State :=
  let floor := ceilNow s == 11 && pointNow s == 11 && (ownedParts s).all fun p => dutyOf (s.reg (pwrReg Reg.PWR_PACE)) p == 1
  let s := { s with power.floor := if floor then s.power.floor + 1 else 0 }
  let ps := windowPowers s
  if meanAbove ps 100 (capW s) then
    if windowLoops s ≤ s.power.floor ∧ !pwrBit s 0 then postPwr (sbEvent (setPwrBit s 0 true) 1) Cause.capUnmet 0 0 else s
  else setPwrBit s 0 false

/-! ### Sense and diode pairs (R507, R508) -/

/-- The steps of 2.5 mV that bring an on-die reading up, or down, to the code voltage: its difference is in 0.1 mV. -/
def senseSteps (diff : Int) : Int := -(diff / 25)

def noteSense (s : State) (p : Nat) (x : Int × Bool) : State :=
  let off := decide (150 < x.1.natAbs)
  let run := if off then sget zeroAt s.power.senseRun p + 1 else 0
  let s := { s with power.senseRun := sset zeroAt s.power.senseRun p run }
  if s.power.senseFault.contains p then
    if s.power.senseFix.any fun e => e.1 == p then s
    else
      let k := senseSteps x.1
      let s := { s with power.senseFix := s.power.senseFix ++ [(p, k)] }
      if 8 < k.natAbs then setPwrBit s 4 true else s
  else if x.2 ∨ 16 ≤ run then
    postPwr { s with power.senseFault := s.power.senseFault ++ [p] } Cause.senseFault p 0
  else s

def noteDiode (s : State) (mv : Nat) : State :=
  if (900 < mv ∨ mv < 100) ∧ !s.power.diodePosted then postPwr { s with power.diodePosted := true } Cause.diodeFault 0 0 else s

/-- The rails of partitions that a VOUT_COMMAND has set and that a loop finds correct (R418): their codes are in effect, and the
hold of the ceiling ends with the last of them. -/
def findRail (s : State) (p : Nat) : State :=
  { setRail s p (railAsked s p) with
    power.steps := s.power.steps.filter fun e => e.1 != p
    power.late := s.power.late.filter fun q => q != p }
def findRails (s : State) (r : LoopReadings) : State :=
  let s := (s.power.late.filter fun p => decide ((getNth (0, false) r.sense p).1.natAbs ≤ 150)).foldl findRail s
  if s.power.late.isEmpty then { s with power.regHold := none } else s

/-! ### The loop -/

/-- On a timing master or a stand-alone package, the time frame of the loop; 16 loops without an answer put it in
holdover (R411). -/
def askTime (s : State) : State :=
  if ftRole s = 0 then s
  else
    let s := { s with time.loopsSilent := s.time.loopsSilent + (if s.time.awaiting then 1 else 0), time.awaiting := true }
    let s := if 16 ≤ s.time.loopsSilent then enterHoldover s else s
    if !portUp s || s.boot.recovery.isSome then s
    else
      let t := s.port.nextTag
      sendPort { s with time.asked := some (t, s.time.now), port.nextTag := (t + 1) % 65536 } { type := 8, tag := t, arg0 := s.time.now }

/-- The clocks of C-die d are gated: the package is not in Run, or the die's partition has no owner and none of the programs of its
six dies is enabled (R475, R483). -/
def clockGated (s : State) (d : Nat) : Bool :=
  psState s != 0 || (partKind s (partOfC d) == 0 &&
    (partDies (partOfC d)).all fun d' => (List.range 9).all fun j => (List.range 8).all fun p => !progEnabled s (9 * d' + j) p)

/-- Die d has its belt lane up and runs (R475, R483, R547). -/
def dieLive (s : State) (d : Nat) : Bool :=
  d == 63 || (!s.belt.down.contains d && decide (6 ≤ bf (s.reg (hPage 0x0B + Reg.BOOT_STEP)) 3 0) && !s.power.tripped &&
    (if d < 48 then !clockGated s d else decide (psState s < 3)))

/-- The summaries gathered in each loop: the pages with a commit outstanding, and the live dies (R547). -/
def showLive (s : State) : State :=
  let s := setReg s (hPage 2 + Reg.SUM_ARMED) (min s.regs.commits.length 65535)
  setReg64 s (hPage 2 + Reg.SUM_LIVE_LO) (((List.range 64).filter fun d => dieLive s d).foldl (fun m d => m + 2 ^ d) 0)

/-- CONTROL_LOOP (R416, R462, R465, R471): the controllers run from step 4 of bring-up on; the regulators' hold ends at a
loop that finds every rail correct (R418). The devices' reports of on-die ECC come with their temperatures (R256), and the errors
that have arisen in memories are marked here (log entry 124). -/
def execControlLoop (r : LoopReadings) (s : State) : Res :=
  .next (if !s.boot.pwrgood ∨ s.boot.inReset ∨ bf (s.reg (hPage 0x0B + Reg.BOOT_STEP)) 3 0 < 4 then s
    else
      let s := r.upsets.foldl upset (r.devEcc.foldl noteDevEcc s)
      let m := measure s r
      let est := sumList r.railEst
      let s := checkDisagree (noteDisagree (notePower m.1 m.2 est) m.2 est)
      let s := noteHours (noteMargins (noteTemps s r) r)
      let s := noteDiode ((List.range 8).foldl (fun s p => noteSense s p (getNth (0, false) r.sense p)) s) r.diode
      let s := findRails s r
      let s := capRules (throttle s (hottest r).1 (hottestMem r)) r m.2
      let s := if ready s then publishCeiling s else s
      let s := showCodes (stepRails (capUnmet (showPace s)))
      askTime (showLive { s with net.noRoute := [] }))

/-- MEASUREMENT_LOST (R464). -/
def execMeasurementLost (i : Nat) (s : State) : Res := .next (noteLostRail s i)

/-- POWER_ESTIMATE_DISAGREES (R463). -/
def execPowerEstimateDisagrees (s : State) : Res := .next (checkDisagree s)

/-- The readings that a present confidential tenant coarsens, at the end of an interval (R449). -/
def endInterval (s : State) : State :=
  let n := max 1 s.power.sumLoops
  let round := fun (x : Nat) => (x / n + 50) / 100 * 100
  { s with
    power.intPower := round s.power.sumPower
    power.intEst := round s.power.sumEst
    power.intEnergy := 100000 * (s.reg64 (pwrReg Reg.PWR_ENERGY_LO) / 100000)
    power.sumPower := 0, power.sumEst := 0, power.sumLoops := 0 }

/-! ### Droop, voltage steps, the trip (R417, R418, R455, R469, R473) -/

/-- DROOP (R469). -/
def execDroop (d : Nat) (s : State) : Res :=
  .next (if 48 ≤ d ∨ s.stopped then s
    else
      let s := incReg s (cPage 0x11 d + Reg.DIE_DROOP) 1
      if s.power.stretched.contains d then s else { s with power.stretched := s.power.stretched ++ [d] })

/-- DROOP_RECOVERY (R469): after n stretched cycles. -/
def execDroopRecovery (d n : Nat) (s : State) : Res :=
  .next (if !s.power.stretched.contains d then s
    else incReg { s with power.stretched := s.power.stretched.filter fun x => x != d } (cPage 0x11 d + Reg.DIE_STRETCH) n)

/-- VSTEP_ACK (R417, R455): partition p's rail has reached the voltage of the code on its VSTEP_D. -/
def execVstepAck (p : Nat) (s : State) : Res :=
  .next (if !s.power.steps.any (fun e => e.1 == p) then s
    else showCodes { setRail s p (railAsked s p) with power.steps := s.power.steps.filter fun e => e.1 != p })

/-- REGULATOR_STEP_TIMEOUT (R418): the voltage is set by VOUT_COMMAND and the ceiling held at the point in effect, until a loop finds
the rail correct. -/
def execRegulatorStepTimeout (p : Nat) (s : State) : Res :=
  .next (if !s.power.steps.any (fun e => e.1 == p) ∨ s.power.late.contains p then s
    else
      let s := postPwr { s with power.late := s.power.late ++ [p], power.regHold := some (s.power.regHold.getD (pointNow s)) }
        Cause.regulatorStepTimeout p 0
      if ready s then publishCeiling s else s)

/-- The contents of near SRAM and GDDR7 are lost with the M-dies' clocks, and a dump in progress is not written (R473). -/
def loseMemories (s : State) : State :=
  let s := { s with
    mem.ns := [], mem.tags := [], mem.nsErr := [], mem.gddr := [], mem.gErr := [], mem.waiting := []
    catching.dump := none }
  if bf (s.reg (hPage 0x0C + Reg.CATCH_STATE)) 1 0 = 1 then setField s (hPage 0x0C + Reg.CATCH_STATE) 1 0 0 else s

/-- THERMAL_TRIP (R420, R473): the clocks of every C-, M-, O- and P-die stop. -/
def execThermalTrip (d : Nat) (s : State) : Res :=
  .next (if !s.boot.pwrgood ∨ s.power.tripped then s
    else
      let s := if portUp s then post s (hPage 9) { cause := Cause.thermalTrip, die := 63, time := s.time.now, op1 := d } else s
      loseMemories (sbEvent { s with power.tripped := true, board.thermtripN := false } 0))

end Sys2Proof.Machine
end

