-- ==== Sys2Proof/Machine/Hash.lean ====
section
/-! DEFINITION. SHA3-256 of FIPS 202, by which measurements, key derivation and digests of records are formed (R422 to R430). -/

namespace Sys2Proof.Machine

/-- A lane of the state, x + 5y. -/
abbrev Lane := BitVec 64

def laneAt (a : List Lane) (x y : Nat) : Lane := getNth 0 a (x % 5 + 5 * (y % 5))

/-- Rotation amounts of ρ, by lane. -/
def rhoOffsets : List Nat :=
  [0, 1, 62, 28, 27, 36, 44, 6, 55, 20, 3, 10, 43, 25, 39, 41, 45, 15, 21, 8, 18, 2, 61, 56, 14]

/-- The round constants of ι. -/
def iotaConsts : List Lane :=
  [0x0000000000000001, 0x0000000000008082, 0x800000000000808A, 0x8000000080008000, 0x000000000000808B, 0x0000000080000001,
    0x8000000080008081, 0x8000000000008009, 0x000000000000008A, 0x0000000000000088, 0x0000000080008009, 0x000000008000000A] ++
  [0x000000008000808B, 0x800000000000008B, 0x8000000000008089, 0x8000000000008003, 0x8000000000008002, 0x8000000000000080,
    0x000000000000800A, 0x800000008000000A, 0x8000000080008081, 0x8000000000008080, 0x0000000080000001, 0x8000000080008008]

def thetaStep (a : List Lane) : List Lane :=
  let c := (List.range 5).map fun x => laneAt a x 0 ^^^ laneAt a x 1 ^^^ laneAt a x 2 ^^^ laneAt a x 3 ^^^ laneAt a x 4
  (List.range 25).map fun i => getNth 0 a i ^^^ getNth 0 c ((i + 4) % 5) ^^^ (getNth 0 c ((i + 1) % 5)).rotateLeft 1

/-- ρ and π: the lane that comes to place x + 5y is that of place (x + 3y) + 5x, rotated. -/
def rhoPiStep (a : List Lane) : List Lane :=
  (List.range 25).map fun i =>
    let x := i % 5
    let y := i / 5
    let j := (x + 3 * y) % 5 + 5 * x
    (getNth 0 a j).rotateLeft (getNth 0 rhoOffsets j)

def chiStep (a : List Lane) : List Lane :=
  (List.range 25).map fun i => laneAt a i (i / 5) ^^^ (~~~(laneAt a (i + 1) (i / 5)) &&& laneAt a (i + 2) (i / 5))

def keccakRound (a : List Lane) (rc : Lane) : List Lane :=
  match chiStep (rhoPiStep (thetaStep a)) with
  | [] => []
  | l :: ls => (l ^^^ rc) :: ls

def keccakF (a : List Lane) : List Lane := iotaConsts.foldl keccakRound a

/-- A block of 136 bytes is absorbed. -/
def absorb (a : List Lane) (block : List Byte) : List Lane :=
  keccakF (a.zipIdx.map fun ((l, i) : Lane × Nat) => l ^^^ BitVec.ofNat 64 (leNat ((block.drop (8 * i)).take 8)))

/-- The message with SHA3's suffix and padding, in blocks of 136 bytes. -/
def sha3Blocks (m : List Byte) : List (List Byte) :=
  let pad := 136 - m.length % 136
  let tail := if pad = 1 then [0x86] else (0x06 : Byte) :: (List.replicate (pad - 2) 0 ++ [0x80])
  chunks 136 (m ++ tail)

/-- The 32 bytes of a digest. -/
def sha3 (m : List Byte) : List Byte :=
  ((((sha3Blocks m).foldl absorb (List.replicate 25 0)).take 4).map fun l => leBytes 8 l.toNat).flatten

end Sys2Proof.Machine
end

