-- ==== Sys2Proof/Machine/Storage.lean ====
section
/-! DEFINITION. The storage engines of the P-die: storage targets, loads, far transfers, STORE and FETCH, and the
storage-mode links' flow control (R263, R269, R271, R272, R287 to R291, R363, R364, R407, R409, R439). -/

namespace Sys2Proof.Machine

/-! ### Targets (R407, R409) -/

def setTarget (s : State) (n : Nat) (t : Option Target) : State :=
  { s with storage.targets := sset noneAt s.storage.targets n t }


def Target.qpn (t : Target) : Nat := recNat t 4 4

/-- A connection record of 64 bytes with its zero fields zero and a link that exists. -/
def recordOk (bs : List Byte) : Bool :=
  let t : Target := { record := bs }
  bs.length == 64 && decide (recNat t 0 1 < 24) && decide (recNat t 1 1 < 2) && recNat t 2 2 == 0 && decide (recNat t 4 4 < 2 ^ 24) &&
    decide (recNat t 8 4 < 2 ^ 24) && decide (recNat t 12 4 < 2 ^ 24) && decide (recNat t 16 4 < 2 ^ 24) && recNat t 20 4 == 0 &&
    decide (recNat t 24 8 < 2 ^ 48)

/-- A transfer in progress uses a target: a load's descriptor, a far transfer, or a session that parks or is restored. -/
def targetBusy (s : State) (n : Nat) : Bool :=
  (s.storage.loads.any fun l => (l.desc.map fun d => d.target == n).getD false) || (s.storage.far.any fun x => x.target == n) ||
    s.serving.parked.any fun e => (e.2.map fun p => p.moving && bf (s.reg (kvpReg Reg.FAR_TGT p.pool)) 7 0 == n).getD false

/-- TARGET_SET (R407). -/
def execTargetSet (h : PortHead) (tag n : Nat) (record : List Byte) (s : State) : Res :=
  .next (withMail s h tag 0x11 fun s =>
    if 256 ≤ n ∨ !recordOk record then reply s tag 0x11 Mail.reservedEncoding
    else reply (setTarget s n (some { record := record })) tag 0x11 Mail.done)

/-- TARGET_CLEAR (R407). -/
def execTargetClear (h : PortHead) (tag n : Nat) (s : State) : Res :=
  .next (withMail s h tag 0x12 fun s =>
    if 256 ≤ n then reply s tag 0x12 Mail.reservedEncoding
    else if targetBusy s n then reply s tag 0x12 Mail.busy
    else reply (setTarget s n none) tag 0x12 Mail.done)

/-! ### Storage-mode links (R363, R364) -/

/-- Cycles of 50 µs, in ticks of fabric time. -/
def ticks50us : Nat := 50000

def ethCfg (s : State) (l : Nat) : Nat := s.reg (linkReg l Reg.ETH_CFG)


/-- The local IP address of a connection (R409). -/
def Target.localIp (t : Target) : Nat := recNat t 32 16

/-- The link's own MAC address. -/
def ethMac (s : State) (l : Nat) : Nat := s.reg64 (linkReg l Reg.ETH_MAC_LO) % 2 ^ 48

/-- A MAC frame that the port takes: no longer than 9,216 bytes, and untagged or with the one tag of ETH_CFG (R363). -/
def macOk (s : State) (l : Nat) (f : StorageFrame) : Bool :=
  decide (f.len ≤ 9216) && f.vlan.all fun v => bit (ethCfg s l) 16 == 1 && bf (ethCfg s l) 15 4 == v

/-- What the engines take of a frame: RoCE v2 over UDP port 4791, in a form that they support (R363). -/
def roceOk (f : StorageFrame) : Bool := f.udp == 4791 && f.supported

/-- A frame for an address and connection that the storage engines know (R364). -/
def frameKnown (s : State) (l : Nat) (f : StorageFrame) : Bool :=
  f.mac == ethMac s l &&
    s.storage.targets.any fun e => (e.2.map fun t => t.link == l && t.qpn == f.qpn && t.localIp == f.ip).getD false

/-- STORAGE_FRAME (R289, R363 to R365): a MAC frame arrives. One for an unknown address or connection is discarded and counted; one
that fails its FCS or ICRC is discarded, and its extent is read again (LOAD_EXTENT); one of a kind that is not supported is
discarded. Pause is sent while the receive buffer is over 75 % full: fill is how full the frame leaves it, in percent, and sent counts
the MAC bytes that the link has sent since the last (log entry 126). -/
def execStorageFrame (l : Nat) (f : StorageFrame) (fill sent : Nat) (s : State) : Res :=
  .next (if !storageUp s l then s
    else
      let s := incReg64 (incReg64 s (linkReg l Reg.LINK_RX_LO) 64 f.len) (linkReg l Reg.LINK_TX_LO) 64 sent
      let s := noteCodewords s l f.corrected f.lost
      let s := setLink s l { s.link l with pausing := bit (ethCfg s l) 3 == 1 && decide (75 < fill) }
      if f.good && macOk s l f && roceOk f && !frameKnown s l f then incReg s (linkReg l Reg.LINK_ENC_DROP) 1 else s)

/-- CONGESTION_NOTIFICATION (R363): the rate halves, at most once per 50 µs. -/
def execCongestionNotification (n : Nat) (s : State) : Res :=
  .next (match s.target n with
    | none => s
    | some t =>
      let t := { t with quiet := s.time.now }
      let again := (t.cut.map fun c => decide (ticks50us ≤ s.time.now - c)).getD true
      setTarget s n (some (if again then { t with rate := t.rate / 2, cut := some s.time.now } else t)))

/-- CONGESTION_RECOVERY (R363): 50 µs without a notification. -/
def execCongestionRecovery (n : Nat) (s : State) : Res :=
  .next (match s.target n with
    | none => s
    | some t =>
      if s.time.now - t.quiet < ticks50us then s
      else setTarget s n (some { t with rate := min 65536 (t.rate + 4096), quiet := s.time.now }))

/-! ### Loads (R287 to R290) -/

/-- The 32 bytes of a descriptor, and whether they break R287. -/
def loadDesc (v : ByteView) : LoadDesc × Bool :=
  let g := viewLE v
  ({ raddr := g 0 8, rkey := g 8 4, target := g 12 1, dst := g 16 8 % 2 ^ 39, exts := g 24 4 / 4096, links := g 28 4 % 2 ^ 24 },
    g 13 3 != 0 || decide (2 ^ 39 ≤ g 16 8) || g 16 8 % 4096 != 0 || g 24 4 % 4096 != 0 || g 24 4 == 0 || decide (2 ^ 24 ≤ g 28 4))

/-- The links that a descriptor may use. -/
def loadLinks (s : State) (d : LoadDesc) : List Nat := (setBits d.links 24).filter fun l => storageLink s (gWindow d.dst) l

/-- Why a descriptor is refused (R290). -/
def loadRefuse (s : State) (d : LoadDesc) (bad : Bool) : Option (Nat × Option Nat) :=
  let n := 4096 * d.exts
  if bad || (s.target d.target).isNone then some (Cause.reservedEncoding, none)
  else if ((setBits d.links 24).filter fun l => storageUp s l).isEmpty then some (Cause.noStorageLink, none)
  else if (loadLinks s d).isEmpty then some (Cause.outsidePartition, none)
  else match loadPlace s d.dst n with
    | some r => some r
    | none => if sanding s d.dst n then some (Cause.sanding, none) else none
where
  /-- Above D, in the catch share, or in an enabled region. -/
  loadPlace (s : State) (a n : Nat) : Option (Nat × Option Nat) :=
    if gSize s (gWindow a) < a % 2 ^ 36 + n then some (Cause.outsideMemory, none)
    else if gCatch s (gWindow a) < a % 2 ^ 36 + n then some (Cause.catchRegion, none)
    else (regionsOver s a n).head?.map fun r => (Cause.tenantMismatch, some r.slot)

/-- The refusal of a descriptor or a command of the storage engines, posted (R10, R275). -/
def postStorage (s : State) (slot : Option Nat) (a at' : Nat) (r : Nat × Option Nat) : State :=
  let c := storageCtx slot
  if [Cause.tenantMismatch, Cause.sanding, Cause.outsideMemory, Cause.catchRegion].contains r.1 then postRefusal s c a r
  else post s c.page { c.event s r.1 (if r.1 = Cause.outsidePartition then a else at') with slot2 := r.2 }

def loadOf (s : State) (id : Nat) : Option Load := s.storage.loads.find? fun l => l.id == id
def setLoad (s : State) (l : Load) : State :=
  { s with storage.loads := s.storage.loads.map fun x => if x.id = l.id then l else x }

/-- Extents outstanding on a link. -/
def outstanding (s : State) (l : Nat) : Nat :=
  ((s.storage.loads.map fun x => (x.exts.filter fun e => e.link == l).length)).foldl (· + ·) 0

/-- Extents go out in order, round the usable links, 64 to a link (fuel: what the links of a package can hold). -/
def issueExtents (s : State) (id : Nat) : Nat → State
  | 0 => s
  | n + 1 =>
    match loadOf s id with
    | none => s
    | some l =>
      match l.desc with
      | none => s
      | some d =>
        if l.bad || decide (d.exts ≤ l.next) then s
        else
          let ls := (loadLinks s d).filter fun k => decide (outstanding s k < 64) && !(s.link k).paused
          if ls.isEmpty then s
          else
            let k := getNth 0 ls (l.rot % ls.length)
            issueExtents (setLoad s { l with exts := l.exts ++ [{ off := l.next, link := k }], next := l.next + 1, rot := l.rot + 1 }) id n

def issueLoad (s : State) (id : Nat) : State := issueExtents s id 512

/-- The descriptor in progress has failed (R289, R290). -/
def noteFailed (l : Load) : Load := { l with failed := l.failed + 1, first := some (l.first.getD l.idx) }

/-- The last descriptor has ended: "load complete" (R289, R572). -/
def endLoad (s : State) (l : Load) : State :=
  let s := { s with storage.loads := s.storage.loads.filter fun x => x.id != l.id }
  let c := storageCtx none
  post s c.page { c.event s Cause.loadComplete (l.first.getD 0xFFFFFFFF) with count := l.failed }

/-- The descriptors from the load's index on are taken: the first that is not refused starts (fuel: descriptors left). -/
def startDescs (s : State) (id : Nat) : Nat → State
  | 0 => match loadOf s id with | none => s | some l => endLoad s l
  | n + 1 =>
    match loadOf s id with
    | none => s
    | some l =>
      let a := l.list + 32 * l.idx
      let r := loadDesc fun k => gByte s (a + k)
      if gHeld s a 32 then s else
      let s := gNote s (storageCtx none) a 32
      match loadRefuse s r.1 r.2 with
      | some c =>
        let s := postStorage s none r.1.dst a c
        startDescs (setLoad s { noteFailed l with idx := l.idx + 1 }) id n
      | none => issueLoad (setLoad s { l with desc := some r.1, next := 0, exts := [], bad := false }) id

/-- A load whose descriptor has no extent outstanding and none to issue goes on to the next. -/
def settleLoad (s : State) (id : Nat) : State :=
  match loadOf s id with
  | none => s
  | some l =>
    match l.desc with
    | none => s
    | some d =>
      if l.exts.isEmpty && (l.bad || decide (d.exts ≤ l.next)) then
        let l := if l.bad then noteFailed l else l
        startDescs (setLoad s { l with desc := none, idx := l.idx + 1 }) id (l.n - (l.idx + 1))
      else issueLoad s id

/-- LOAD (R288, R407). -/
def execLoad (h : PortHead) (tag list n : Nat) (s : State) : Res :=
  .next (withMail s h tag 0x10 fun s =>
    if 2 ^ 39 ≤ list then reply s tag 0x10 Mail.reservedEncoding
    else if !ready s then reply s tag 0x10 Mail.refused
    else
      let w := gWindow list
      let o := list % 2 ^ 36 + 32 * n
      if gSize s w < o then reply (postStorage s none list list (Cause.outsideMemory, none)) tag 0x10 Mail.refused
      else if gCatch s w < o then reply (postStorage s none list list (Cause.catchRegion, none)) tag 0x10 Mail.refused
      else match (regionsOver s list (32 * n)).head? with
        | some r => reply (postStorage s none list list (Cause.tenantMismatch, some r.slot)) tag 0x10 Mail.refused
        | none =>
          let id := s.storage.next
          let s := reply s tag 0x10 Mail.accepted
          startDescs { s with storage.loads := s.storage.loads ++ [{ id := id, list := list, n := n }], storage.next := id + 1 } id n)

/-- An extent's bytes reach the M-die: they are written, or refused there since the range is queued for sanding (R269); true
where they were written. -/
def putExtent (s : State) (slot : Option Nat) (a : Nat) (bs : List Byte) : State × Bool :=
  if sanding s a bs.length then (postStorage s slot a a (Cause.sanding, none), false)
  else (gWrite s (storageCtx slot) a bs, true)

/-- LOAD_EXTENT (R289): an outstanding extent of load n ends one attempt. -/
def execLoadExtent (n off : Nat) (x : ExtentEnd) (s : State) : Res :=
  .next (match loadOf s n with
    | none => s
    | some l =>
      match l.desc, l.exts.find? fun e => e.off == off with
      | some d, some e =>
        let rest := l.exts.filter fun y => y.off != off
        match x with
        | .good bytes =>
          if gHeld s (d.dst + 4096 * off) 4096 then s else
          let r := putExtent s none (d.dst + 4096 * off) (padTo 4096 0 bytes)
          settleLoad (setLoad r.1 { l with exts := rest, bad := l.bad || !r.2 }) n
        | .bad =>
          if 8 ≤ e.fails + 1 then settleLoad (setLoad s { l with exts := rest, bad := true }) n
          else setLoad s { l with exts := l.exts.map fun y => if y.off = off then { y with fails := y.fails + 1 } else y }
        | .targetError => settleLoad (setLoad s { l with exts := rest, bad := true }) n
      | _, _ => s)

/-- PRIORITY_PAUSE (R363): honoured on the one priority that ETH_CFG names. -/
def execPriorityPause (l prio : Nat) (s : State) : Res :=
  .next (if storageUp s l ∧ bit (ethCfg s l) 3 = 1 ∧ bf (ethCfg s l) 2 0 = prio then setLink s l { s.link l with paused := true } else s)

/-- PRIORITY_PAUSE_EXPIRY (R363): transmission resumes. -/
def execPriorityPauseExpiry (l : Nat) (s : State) : Res :=
  .next (if (s.link l).paused then
    let s := setLink s l { s.link l with paused := false }
    s.storage.loads.foldl (fun s x => issueLoad s x.id) s
  else s)

/-! ### Far transfers (R271, R272, R409, R439) -/

/-- The one region that a span lies in; none where it lies outside every region or in more than one. -/
def farRegion (s : State) (a n : Nat) : Option Region :=
  match regionsOver s a n with
  | [r] => if mib2 * r.base ≤ a % 2 ^ 36 ∧ a % 2 ^ 36 + n ≤ mib2 * (r.base + r.size) then some r else none
  | _ => none

/-- Why a far transfer is refused: the link of the target, the window, the region and the sanding. -/
def farRefuse (s : State) (t : Target) (a n : Nat) (write : Bool) : Option (Nat × Option Nat) :=
  let w := gWindow a
  if !storageUp s t.link then some (Cause.noStorageLink, none)
  else if !storageLink s w t.link then some (Cause.outsidePartition, none)
  else if gSize s w < a % 2 ^ 36 + n then some (Cause.outsideMemory, none)
  else if gCatch s w < a % 2 ^ 36 + n then some (Cause.catchRegion, none)
  else match (regionsOver s a n).head? with
    | some r =>
      if (farRegion s a n).isNone || slotState s r.slot != 1 then some (Cause.tenantMismatch, some r.slot)
      else if write && sanding s a n then some (Cause.sanding, none)
      else none
    | none => if write && sanding s a n then some (Cause.sanding, none) else none

/-- A far request that is well formed: its target, registered, and whole extents at extent addresses. -/
def farFields (s : State) (target a raddr exts : Nat) : Option Target :=
  if a % 4096 ≠ 0 ∨ 2 ^ 39 ≤ a ∨ raddr % 4096 ≠ 0 ∨ exts = 0 then none else if 256 ≤ target then none else s.target target

/-- A far request checked, and given its region's slot. -/
def withFar (s : State) (tag op target a raddr exts : Nat) (write : Bool) (k : State → Option Nat → State) : State :=
  match farFields s target a raddr exts with
  | none => reply s tag op Mail.reservedEncoding
  | some t =>
    let slot := (farRegion s a (4096 * exts)).map fun r => r.slot
    if !(regionsOver s a (4096 * exts)).isEmpty && !admitted s then reply s tag op Mail.notAdmitted
    else match farRefuse s t a (4096 * exts) write with
      | some r => reply (postStorage s slot a a r) tag op Mail.refused
      | none => k s slot

def addFar (s : State) (put : Bool) (target a raddr rkey exts : Nat) (slot : Option Nat) (serial : Nat) : State :=
  let x : FarXfer :=
    { id := s.storage.next, put := put, target := target, gaddr := a, raddr := raddr, rkey := rkey, exts := exts, slot := slot, serial := serial }
  { s with storage.far := s.storage.far ++ [x], storage.next := s.storage.next + 1 }

/-- An event of the storage engines that names a tenant slot (R571). -/
def postSlot (s : State) (slot : Option Nat) (cause op1 count : Nat) : State :=
  let c := storageCtx slot
  post s c.page { c.event s cause op1 with count := count, partition := slot.bind fun k => lowPart (slotParts s k) }

/-- FAR_PUT (R407, R439): the slot's serial is taken. -/
def execFarPut (h : PortHead) (tag target a raddr rkey exts : Nat) (s : State) : Res :=
  .next (withMail s h tag 0x13 fun s =>
    withFar s tag 0x13 target a raddr exts false fun s slot =>
      match slot with
      | none => addFar (reply s tag 0x13 Mail.accepted) true target a raddr rkey exts none 0
      | some k =>
        match takeSerial s k with
        | none => reply (postSlot s slot Cause.farSerialExhausted 0 1) tag 0x13 Mail.refused
        | some (s, v) => addFar (reply s tag 0x13 Mail.accepted) true target a raddr rkey exts slot v)

/-- FAR_GET (R407, R439): serial is bytes 0x28 to 0x2F of the request. -/
def execFarGet (h : PortHead) (tag target a raddr rkey exts serial : Nat) (s : State) : Res :=
  .next (withMail s h tag 0x14 fun s =>
    withFar s tag 0x14 target a raddr exts true fun s slot =>
      match slot with
      | none => addFar (reply s tag 0x14 Mail.accepted) false target a raddr rkey exts none 0
      | some k =>
        if serialNow s k ≤ serial then reply (postSlot s slot Cause.farSerialMismatch serial 1) tag 0x14 Mail.refused
        else addFar (reply s tag 0x14 Mail.accepted) false target a raddr rkey exts slot serial)

/-- How extent i of a far read ended: its bytes in the clear; a tag that fails, which posts "far integrity"; or a failure
that the transport reports. -/
def farExtent (s : State) (x : FarXfer) (i : Nat) (e : ExtentEnd) : State × Bool :=
  let a := x.gaddr + 4096 * i
  match e with
  | .good bytes => putExtent s x.slot a (padTo 4096 0 bytes)
  | .bad => if x.slot.isSome then (postSlot s x.slot Cause.farIntegrity a 1, false) else (s, false)
  | .targetError => (s, false)

/-- The link of a target is paused: its transfers wait (R363). -/
def targetPaused (s : State) (n : Nat) : Bool := (s.target n).any fun t => (s.link t.link).paused

/-- FAR_TRANSFER_COMPLETE (R272, R439): how each extent ended. The event's first operand is the serial, its count the
extents that failed. The bytes of a FAR_PUT are read here. -/
def execFarTransferComplete (n : Nat) (ends : List ExtentEnd) (s : State) : Res :=
  .next (match s.storage.far.find? fun x => x.id == n with
    | none => s
    | some x =>
      if gHeld s x.gaddr (4096 * x.exts) || targetPaused s x.target then s else
      let s := { s with storage.far := s.storage.far.filter fun y => y.id != n }
      let s := if x.put then gNote s (storageCtx x.slot) x.gaddr (4096 * x.exts) else s
      let es := padTo x.exts ExtentEnd.targetError ends
      let r := es.zipIdx.foldl (fun (a : State × Nat) (e : ExtentEnd × Nat) =>
        if x.put then (a.1, a.2 + (match e.1 with | .good _ => 0 | _ => 1))
        else
          let q := farExtent a.1 x e.2 e.1
          (q.1, a.2 + (if q.2 then 0 else 1))) (s, 0)
      postSlot r.1 x.slot Cause.farTransferComplete x.serial r.2)

/-! ### STORE and FETCH (R409) -/

/-- Why a STORE or FETCH of n bytes at a is refused; slot is the request's, and refuses all once it is being parted (R442). A FETCH
may read the catch region. -/
def hostRefuse (s : State) (slot : Option Nat) (a n : Nat) (store : Bool) : Option (Nat × Option Nat) :=
  let w := gWindow a
  let o := a % 2 ^ 36
  let mine := match slot with
    | some k => bit (slotParts s k) w == 1
    | none => (slotOfPart s w).isNone
  if slot.any fun k => slotParting s k then some (Cause.tenantMismatch, slot)
  else if gSize s w < o + n then some (Cause.outsideMemory, none)
  else if gCatch s w < o + n then (if store ∨ o < gCatch s w then some (Cause.catchRegion, none) else none)
  else match (regionsOver s a n).find? fun r => some r.slot != slot || slotState s r.slot != 1 with
    | some r => some (Cause.tenantMismatch, some r.slot)
    | none =>
      if store && sanding s a n then some (Cause.sanding, none)
      else if mine then none
      else some (Cause.outsidePartition, none)

/-- A STORE or FETCH checked: its fields, admission, and the windows it may act on. -/
def withHost (s : State) (tag op a n slot : Nat) (store : Bool) (k : State → Option Nat → State) : State :=
  let sl := if slot = 0xFF then none else some slot
  if 2 ^ 39 ≤ a ∨ n % 32 ≠ 0 ∨ (64 ≤ slot ∧ slot ≠ 0xFF) then reply s tag op Mail.reservedEncoding
  else if sl.isSome && !admitted s then reply s tag op Mail.notAdmitted
  else match hostRefuse s sl a n store with
    | some r => reply (postStorage s sl a a r) tag op Mail.refused
    | none => k (reply s tag op Mail.accepted) sl

def addHost (s : State) (x : HostXfer) : State :=
  { s with storage.host := s.storage.host ++ [x], storage.next := s.storage.next + 1 }

/-- STORE (R402, R409): the first host read leaves. -/
def execStore (h : PortHead) (tag a caddr n slot : Nat) (s : State) : Res :=
  .next (withMail s h tag 0x15 fun s =>
    withHost s tag 0x15 a n slot true fun s sl =>
      let x : HostXfer := { id := s.storage.next, store := true, gaddr := a, caddr := caddr, len := n, slot := sl }
      nextStoreRead (addHost s x) x)

/-- The bytes of a FETCH are read and leave in host writes of up to 4,096 bytes. -/
def fetchBytes (s : State) (x : HostXfer) : State :=
  (chunks 4096 (gBytes s x.gaddr x.len)).zipIdx.foldl (fun s (c : List Byte × Nat) =>
    sendPort s { type := 1, addr := x.caddr + 4096 * c.2, payload := c.1 }) (gNote s (storageCtx x.slot) x.gaddr x.len)

/-- A FETCH that waited for a channel that retrains is read once none of its bytes wait (R257). -/
def startFetch (s : State) (x : HostXfer) : State :=
  if gHeld s x.gaddr x.len then s
  else fetchBytes { s with storage.host := s.storage.host.map fun y => if y.id = x.id then { y with done := y.len } else y } x

/-- FETCH (R257, R402, R409): its bytes are read at once, unless a channel that retrains holds them. -/
def execFetch (h : PortHead) (tag a caddr n slot : Nat) (s : State) : Res :=
  .next (withMail s h tag 0x16 fun s =>
    withHost s tag 0x16 a n slot false fun s sl =>
      let held := gHeld s a n
      let x : HostXfer :=
        { id := s.storage.next, store := false, gaddr := a, caddr := caddr, len := n, slot := sl, done := if held then 0 else n }
      if held then addHost s x else fetchBytes (addHost s x) x)

/-- The end of a STORE or FETCH that has moved every byte: its event names the GDDR7 address. -/
def endHost (s : State) (n : Nat) (store : Bool) (cause : Nat) : State :=
  match s.storage.host.find? fun x => x.id == n && x.store == store with
  | none => s
  | some x =>
    if x.done < x.len || gHeld s x.gaddr x.len then s
    else postSlot { s with storage.host := s.storage.host.filter fun y => y.id != n } x.slot cause x.gaddr 1

/-- STORE_COMPLETE and FETCH_COMPLETE (R409). -/
def execStoreComplete (n : Nat) (s : State) : Res := .next (endHost s n true Cause.storeComplete)
def execFetchComplete (n : Nat) (s : State) : Res := .next (endHost s n false Cause.fetchComplete)

end Sys2Proof.Machine
end

