-- ==== Sys2Proof/Machine/Reduce.lean ====
section
/-! DEFINITION. Reductions: the group list, REDUCE in throughput and ordered mode, flag synchronisation, the REDUCE frame
at a member, and completion and failure (R204, R370 to R385). -/

namespace Sys2Proof.Machine

/-! ### The group list (R371, R372) -/

/-- An entry of a group list. -/
structure Member where
  pkg : Nat
  ep : Nat
  first : Nat
  len : Nat
  cfirst : Nat
  ccount : Nat
  deriving DecidableEq, Repr

/-- P, nc and HEADROOM. -/
def glP (l : List Byte) : Nat := glNat l 0 2
def glNc (l : List Byte) : Nat := glNat l 4 4 % 2 ^ 18
def glHead (l : List Byte) : Nat := glNat l 8 1 % 4
def glMember (l : List Byte) (i : Nat) : Member :=
  let g := fun (o n : Nat) => glNat l (32 + 32 * i + o) n
  { pkg := g 0 2 % 1024, ep := g 2 2 % 2 ^ 14, first := g 4 4, len := g 8 4, cfirst := g 12 4 % 2 ^ 18, ccount := g 16 4 % 2 ^ 18 }
/-- A non-zero bit of the header that its layout leaves unlisted (R10, R371). -/
def glHeadBad (l : List Byte) : Bool :=
  decide (2 ^ 18 ≤ glNat l 4 4) || decide (4 ≤ glNat l 8 1) || glNat l 9 23 != 0
/-- The same for entry i; a flag synchronisation does not read the shard fields (R382). -/
def glEntryBad (l : List Byte) (fsync : Bool) (i : Nat) : Bool :=
  let g := fun (o n : Nat) => glNat l (32 + 32 * i + o) n
  decide (1024 ≤ g 0 2) || decide (2 ^ 14 ≤ g 2 2) || g 20 12 != 0 ||
    (!fsync && (decide (2 ^ 18 ≤ g 12 4) || decide (2 ^ 18 ≤ g 16 4)))
def glBad (l : List Byte) (fsync : Bool) : Bool := glHeadBad l || (List.range (glP l)).any (glEntryBad l fsync)

def glMembers (l : List Byte) : List Member := (List.range (glP l)).map (glMember l)


/-- The shards tile 0 to COUNT − 1 in group order (R372). -/
def tiles (count : Nat) (ms : List Member) : Bool :=
  let full := ms.filter fun m => m.len != 0
  let ok := full.foldl (fun (a : Bool × Nat) m => (a.1 && m.first == a.2 && m.first % 32 == 0, m.first + m.len)) (true, 0)
  ok.1 && ok.2 == count && ms.all fun m => m.len != 0 || decide (m.first ≤ count)

/-- The chunk ranges are subtrees of nc that tile 0 to nc − 1; there is at least one chunk (R202, R384). -/
def chunksTile (nc : Nat) (ms : List Member) : Bool :=
  let sorted := sortBy (fun a b => decide (a.cfirst ≤ b.cfirst)) ms
  let ok := sorted.foldl (fun (a : Bool × Nat) m => (a.1 && m.cfirst == a.2 && isSubtree nc m.cfirst m.ccount, m.cfirst + m.ccount)) (true, 0)
  nc != 0 && ok.1 && ok.2 == nc

/-! ### Rejection (R28, R370, R384) -/

def redFmt (code blk : Nat) : Bool := Ent.fmtOk code blk && code != 8

def redSrcLines (e : Nat) : Nat := tensorLines (Ent.fmtA e) (Ent.blkA e) (Ent.rdCount e)
def redDstLines (e n : Nat) : Nat := tensorLines (Ent.fmtD e) (Ent.blkD e) n

/-- Why a REDUCE is rejected at issue (R10, R384). The entries of a list are looked at once its P is in range. -/
def redReject (s : State) (cl e : Nat) (l : List Byte) : Option Nat :=
  let fs := Ent.rdFsync e
  let ms := glMembers l
  let own := glMember l (glOwn l)
  let listLines := ceilDiv (32 + 32 * glP l) 256
  if (setBits (Ent.cores e) 16).length != 1 || !redFmt (Ent.fmtA e) (Ent.blkA e) || (!fs && !redFmt (Ent.fmtD e) (Ent.blkD e)) ||
      (!fs && Ent.canon e && Ent.fmtA e != 0xA) || (!fs && (Ent.rdCount e == 0 || decide (4194303 < Ent.rdCount e))) || glHeadBad l then
    some Cause.reservedEncoding
  else if viewLE (nsView s (actingSlot s cl) cl (redCore e) (Ent.rdGlist e)) 0 2 > 1024 ∨ glP l = 0 ∨ glP l ≤ glOwn l then
    some Cause.groupMismatch
  else if glBad l fs then some Cause.reservedEncoding
  else if (ms.any fun m => decide (47 < epDie m.ep) || decide (8 < epClu m.ep)) || own.pkg != selfId s ||
      own.ep != epOf cl (redCore e) || (!fs && !tiles (Ent.rdCount e) ms) then some Cause.groupMismatch
  else if !fs && Ent.canon e && !chunksTile (glNc l) ms then some Cause.subtreeMisaligned
  else if 16384 < Ent.rdGlist e + listLines ∨
      (!fs && (decide (16384 < Ent.rdSrc e + redSrcLines e) || decide (16384 < Ent.rdDst e + redDstLines e own.len))) then
    some Cause.outOfRange
  else if !fs && (linesMeet (Ent.rdDst e) (redDstLines e own.len) (Ent.rdSrc e) (redSrcLines e) ||
      linesMeet (Ent.rdDst e) (redDstLines e own.len) (Ent.rdGlist e) listLines) then some Cause.operandOverlap
  else if !fs && recordOut s cl (Ent.nrec e) then some Cause.outOfRange
  else none

/-- A link or a local member outside the partition group (R28). -/
def redOutside (s : State) (cl e : Nat) (l : List Byte) : Bool :=
  ((setBits (Ent.rdLinks e) 24).any fun k => !sameGroup s (partOf cl) (k / 3)) ||
    (glMembers l).any fun m => m.pkg == selfId s && !sameGroup s (partOf cl) (partOf (epCl m.ep))

/-! ### Runs of elements on the wire (R375) -/

/-- Elements of a full frame: whole blocks with their scale bytes, or whole elements. -/
def frameElems (code blk : Nat) : Nat :=
  if isScaled code then 4096 / (unitBytes code blk + 1) * unitElems code blk else 4096 / elemBytes code

/-- Data bytes of a run: the padding of a last block is not sent (R372). -/
def runDataLen (code blk n : Nat) : Nat :=
  if isScaled code then n / unitElems code blk * unitBytes code blk + ceilDiv (n % unitElems code blk * widthOf code) 8
  else n * elemBytes code

/-- A run of n elements from element off of a tensor of `total`, as its frame carries it. Bits [63:48] of a WA48 container
are ignored where it is read and zero where it is sent (R86). -/
def tensorRun (v : ByteView) (code blk total off n : Nat) : List Byte :=
  if isScaled code then
    let ue := unitElems code blk
    let ub := unitBytes code blk
    ((List.range (runDataLen code blk n)).map fun i => v (unitOffset code blk (off / ue + i / ub) + i % ub)) ++
      (List.range (ceilDiv n ue)).map fun u => v (scaleOffset code blk (ceilDiv total ue) (off / ue + u))
  else (List.range (runDataLen code blk n)).map fun i => if code = 0xA ∧ 6 ≤ i % 8 then 0 else v (elemBytes code * off + i)

/-- The scale byte and the values of each unit of a run of n elements; an unscaled format is one unit. -/
def runUnits (code blk n : Nat) (bs : List Byte) : List (Nat × List Num) :=
  let v : ByteView := fun i => getNth 0 bs i
  if isScaled code then
    let ue := unitElems code blk
    let ub := unitBytes code blk
    let d := runDataLen code blk n
    (List.range (ceilDiv n ue)).map fun u =>
      let sc := (v (d + u)).toNat
      (sc, (List.range (min ue (n - u * ue))).map fun j =>
        if sc = 255 then Num.nan
        else
          let b := elemBitOffset code j
          (decodeElem code ((viewLE v (u * ub + b / 8) 2 >>> (b % 8)) % 2 ^ widthOf code)).scale ((sc : Int) - 127))
  else
    [(127, (List.range n).map fun i => decodeElem code (if code = 0xA then viewLE v (8 * i) 6 else viewLE v (elemBytes code * i) (elemBytes code)))]

/-- A run on the wire from its units' scale bytes and element codes. -/
def packRun (code : Nat) (us : List (Nat × List Nat)) : List Byte :=
  if isScaled code then
    (us.map fun u => packElems (widthOf code) u.2).flatten ++ us.map fun u => BitVec.ofNat 8 u.1
  else (us.map fun u => (u.2.map fun c => leBytes (elemBytes code) c).flatten).flatten

/-- One unit rounded at scale X: its codes and conditions (R92 steps 1, 3 to 5, FLUSH 0). src is the format whose largest
finite value stands for an infinity under SAT 1, and such an element counts as saturated. -/
def roundUnit (code : Nat) (sat : Bool) (src : Nat) (x : Int) (vs : List Num) : List Conv :=
  vs.map fun v =>
    let c := convertElem code sat false .rne src ((replaceInf sat src v).scale (-x))
    if isInf v && sat then { c with sat := true } else c

/-- What a list of conversions counts. -/
def sumCounts (cs : List Conv) : Counts := cs.foldl (fun a c => a.add c.counts) ({} : Counts)

/-- An element that does not lie within the largest finite value (R379): saturated, or left infinite. -/
def beyond (code : Nat) (c : Conv) : Bool := c.sat || isInf (decodeElem code c.bits)

/-- A block of which nothing but NaN can be told: scale 0xFF and the canonical NaN of the format in every element (R75). -/
def nanUnit (code n : Nat) : Nat × List Nat := (255, List.replicate n (canonNaN code))

/-- A hop's output for one unit (R378 step 3, R379): scale, codes, counts and whether it bumped. A WA48 sum stands as it is
(R86). Infinities that SAT 1 would replace count as saturated in a NaN block too (R92). -/
def hopUnit (code : Nat) (sat : Bool) (sc : Nat) (sums : List Num) : (Nat × List Nat) × Counts :=
  let noInf := (fmtOf code).special != .ieee || code == 5
  if code = 0xA then ((127, sums.map fmtWA48.roundBits), { nan := (sums.filter (· == .nan)).length })
  else if !isScaled code then
    let cs := sums.map fun w => convertElem code sat false .rne 0xA w
    ((127, cs.map (·.bits)), sumCounts cs)
  else if sc = 255 ∨ sums.any fun x => x == .nan || (isInf x && !sat && noInf) then
    (nanUnit code sums.length, { nan := sums.length, sat := if sat then (sums.filter isInf).length else 0 })
  else
    let x := (sc : Int) - 127
    let cs := roundUnit code sat 0xA x sums
    if (cs.any (beyond code)) && decide (x < 127) then
      let cs := roundUnit code sat 0xA (x + 1) sums
      ((sc + 1, cs.map (·.bits)), { sumCounts cs with bumps := 1 })
    else ((sc, cs.map (·.bits)), sumCounts cs)

/-- One block of a start member requantised at X + h, at 127 at most (R378): its source is FMT_A itself. A block that is
NaN by its scale or by an element becomes a NaN block. -/
def startUnit (code h : Nat) (sat : Bool) (sc : Nat) (vs : List Num) : (Nat × List Nat) × Counts :=
  if sc = 255 ∨ vs.any (· == .nan) then
    (nanUnit code vs.length, { nan := vs.length, sat := if sat then (vs.filter isInf).length else 0 })
  else
    let sc := min 254 (sc + h)
    let cs := roundUnit code sat code ((sc : Int) - 127) vs
    ((sc, cs.map (·.bits)), sumCounts cs)

/-- A start member's run (R378): as it stands, or each block requantised. -/
def startRun (code blk h : Nat) (sat : Bool) (n : Nat) (bs : List Byte) : List Byte × Counts :=
  if isScaled code && h != 0 then
    let us := (runUnits code blk n bs).map fun u => startUnit code h sat u.1 u.2
    (packRun code (us.map (·.1)), us.foldl (fun a u => a.add u.2) {})
  else (bs, {})

/-- The canonical NaN of a format for a run of n elements, on the wire. -/
def nanRun (code blk n : Nat) : List Byte :=
  if isScaled code then
    let ue := unitElems code blk
    packRun code ((List.range (ceilDiv n ue)).map fun u => nanUnit code (min ue (n - u * ue)))
  else (List.replicate n (leBytes (elemBytes code) (canonNaN code))).flatten

/-! ### The frame header (R375) -/

/-- What a REDUCE frame's type-specific header says. -/
structure RedHead where
  tag : Nat
  off : Nat
  count : Nat
  fmt : Nat
  blk : Nat
  ord : Bool
  fsync : Bool
  bumped : Bool
  flags : Nat
  cfirst : Nat
  ccount : Nat
  nc : Nat
  deriving DecidableEq, Repr

def redHead (t : Nat) : RedHead :=
  { tag := bf t 15 0, off := bf t 37 16, count := bf t 59 38, fmt := bf t 63 60, blk := bit t 64, ord := bit t 65 == 1,
    fsync := bit t 66 == 1, bumped := bit t 67 == 1, flags := bf t 71 68, cfirst := bf t 89 72, ccount := bf t 107 90, nc := bf t 125 108 }

def b2n (b : Bool) : Nat := if b then 1 else 0

def redTspec (h : RedHead) : Nat :=
  h.tag % 2 ^ 16 + 2 ^ 16 * (h.off % 2 ^ 22) + 2 ^ 38 * (h.count % 2 ^ 22) + 2 ^ 60 * (h.fmt % 16) + 2 ^ 64 * (h.blk % 2) +
    2 ^ 65 * b2n h.ord + 2 ^ 66 * b2n h.fsync + 2 ^ 67 * b2n h.bumped + 2 ^ 68 * (h.flags % 16) + 2 ^ 72 * (h.cfirst % 2 ^ 18) +
    2 ^ 90 * (h.ccount % 2 ^ 18) + 2 ^ 108 * (h.nc % 2 ^ 18)

/-- The live step-overflow and stale-shard flags of a cluster, as FLAGS carries them (R376). -/
def liveTwo (s : State) (cl : Nat) : Nat := b2n (liveFlag s cl 0) + 2 * b2n (liveFlag s cl 1)
def liveFour (s : State) (cl : Nat) : Nat := bf (s.reg (seqReg cl Reg.FLAGS)) 3 0

/-- A frame towards member m of a group (log entry 42: DADDR names the member's core). -/
def redFrame (s : State) (m : Member) (h : RedHead) (payload : List Byte) : Frame :=
  { type := 1, vc := 0, src := selfId s, dst := m.pkg, daddr := nsAddr (epCl m.ep) (epCore m.ep) 0, tspec := redTspec h, payload := payload }

/-! ### Members and buckets (R373) -/

/-- The REDUCE in flight of a tag at a core. -/
def redFlight (s : State) (cl core tag : Nat) : Option (Flight × RedWork) :=
  s.seq.flights.findSome? fun f =>
    match f.work with
    | .reduce r => if f.cl == cl && redCore f.entry == core && r.tag == tag then some (f, r) else none
    | _ => none

/-- The members of a list on this package, by index. -/
def localMembers (s : State) (l : List Byte) : List Nat :=
  (List.range (glP l)).filter fun i => (glMember l i).pkg == selfId s

def joinBucket (s : State) (tag : Nat) (l : List Byte) : State :=
  match s.net.buckets.find? fun b => b.tag == tag with
  | none => { s with net.buckets := s.net.buckets ++ [{ tag := tag, list := l, joined := [glOwn l], done := [] }] }
  | some _ =>
    { s with net.buckets := s.net.buckets.map fun b => if b.tag = tag then { b with joined := b.joined ++ [glOwn l] } else b }

/-- A member has completed; the bucket goes when every member of the package has. -/
def leaveBucket (s : State) (tag own : Nat) : State :=
  { s with net.buckets := s.net.buckets.filterMap fun b =>
      if b.tag = tag then
        let b := { b with done := b.done ++ [own] }
        if (localMembers s b.list).all fun i => b.done.contains i then none else some b
      else some b }

/-! ### The owner's conversion (R378 step 4, R380, R383) -/

/-- A byte, counted from a tensor's first line, that holds nothing but padding of its last block (R79, R372). -/
def paddingByte (code blk n off : Nat) : Bool :=
  let r := n % unitElems code blk
  isScaled code && r != 0 &&
    decide (unitOffset code blk (n / unitElems code blk) + ceilDiv (r * widthOf code) 8 ≤ off) &&
    decide (off < unitOffset code blk (n / unitElems code blk) + unitBytes code blk)

/-- The values of a shard's sums converted into FMT_D and written to DST, the padding of its last block left as it was
(R372). With P = 1 the values are those of SRC, else sums in WA48 (R378). -/
def writeShard (s : State) (f : Flight) (r : RedWork) (vs : List Num) : State :=
  let e := f.entry
  let m := glMember r.list r.own
  let core := redCore e
  let src := if glP r.list = 1 then Ent.fmtA e else 0xA
  let t := convertTensor (convParams e f.seed src (Ent.grad e)) (fun i => m.first + i) (fun _ => true) vs
  let ws := t.writes.filter fun w => !paddingByte (Ent.fmtD e) (Ent.blkD e) vs.length w.1
  let s := nsWriteImage s (flightCtx s f core) f.cl core (Ent.rdDst e) ws
  let s := noteCounts s f.cl core (Ent.grad e) t.counts
  setWork s f.id (.reduce { r with need := 0, written := true, parts := [], counts := r.counts.add t.counts })

/-- Every element of the shard becomes the canonical NaN of FMT_D, and the live step-overflow flag is set (R204, R377,
R385). -/
def writeNaNShard (s : State) (f : Flight) (r : RedWork) : State :=
  let m := glMember r.list r.own
  setLiveFlag (writeShard s f r (List.replicate m.len Num.nan)) f.cl 0 true

/-- The local contribution of a member: the values of n elements from element off. -/
def contribution (s : State) (f : Flight) (off n : Nat) : List Num :=
  let e := f.entry
  let v := nsView s (actingSlot s f.cl) f.cl (redCore e) (Ent.rdSrc e)
  (List.range n).map fun i => elemValue v (Ent.fmtA e) (Ent.blkA e) (Ent.rdCount e) (off + i)

/-- A member's contribution as it travels. -/
def contribRun (s : State) (f : Flight) (off n : Nat) : List Byte :=
  let e := f.entry
  tensorRun (nsView s (actingSlot s f.cl) f.cl (redCore e) (Ent.rdSrc e)) (Ent.fmtA e) (Ent.blkA e) (Ent.rdCount e) off n

/-- The values that parts of one member give for a shard, in order of offset. -/
def partValues (parts : List RedPart) (member : Nat) : List Num :=
  (sortBy (fun a b => decide (a.off ≤ b.off)) (parts.filter fun p => p.member == member)).flatMap fun p =>
    (runUnits 0xA 0 (p.bytes.length / 8) p.bytes).flatMap (·.2)

/-- The element's partials combined as tree(0, nc) combines subtrees (R201, R380; fuel: the depth). -/
def combineTree (leaf : Nat → Nat → Option Num) : Nat → Nat → Nat → Num
  | 0, _, _ => .nan
  | n + 1, lo, m =>
    match leaf lo m with
    | some x => x
    | none =>
      if m ≤ 1 then .nan
      else
        let h := treeSplit m
        waAdd (combineTree leaf n lo h) (combineTree leaf n (lo + h) (m - h))

/-- The shard of an ordered reduction, every partial at hand (R380). -/
def orderedShard (s : State) (f : Flight) (r : RedWork) : State :=
  let ms := glMembers r.list
  let m := glMember r.list r.own
  let cols := ms.zipIdx.map fun (x : Member × Nat) =>
    (x.1.cfirst, x.1.ccount, if x.2 = r.own then contribution s f m.first m.len else partValues r.parts x.2)
  let vs := (List.range m.len).map fun i =>
    combineTree (fun lo k => (cols.find? fun c => c.1 == lo && c.2.1 == k).map fun c => getNth Num.nan c.2.2 i) 20 0 (glNc r.list)
  writeShard s f r vs

/-! ### Sending (R367, R378, R380, R382, R385) -/

/-- A frame on its way within the package: the member it is for and the link it came by. -/
structure Hop where
  frame : Frame
  link : Option Nat
  deriving DecidableEq, Repr

/-- The place in its set of links that a REDUCE's next frame towards a package takes (R367), and the step to the next. -/
def RedWork.turnFor (r : RedWork) (d : Nat) : Nat := ((r.turns.find? fun x => x.1 == d).map (·.2)).getD 0
def RedWork.turned (r : RedWork) (d : Nat) : RedWork :=
  { r with turns := (r.turns.filter fun x => x.1 != d) ++ [(d, r.turnFor d + 1)] }
def redTurn (s : State) (id d : Nat) : Nat :=
  match (s.seq.flights.find? fun x => x.id == id).map Flight.work with
  | some (Work.reduce r) => r.turnFor d
  | _ => 0
def takeTurn (s : State) (id d : Nat) : State :=
  match (s.seq.flights.find? fun x => x.id == id).map Flight.work with
  | some (Work.reduce r) => setWork s id (.reduce (r.turned d))
  | _ => s

/-- A frame from a flight towards its member: over the links, each REDUCE taking its own set towards a package in ascending
turn (R367), or on within the package. A member that no link reaches gets nothing. -/
def sendRed (s : State) (f : Flight) (fr : Frame) : State × List Hop :=
  let fr := { fr with tslot := (actingSlot s f.cl).getD 0 }
  if fr.dst = selfId s then (s, [{ frame := fr, link := none }])
  else
    let ls := sourceLinks s fr.dst (Ent.rdLinks f.entry)
    if ls.isEmpty then (s, [])
    else
      let out := getNth 0 ls (redTurn s f.id fr.dst % ls.length)
      (sendOn (takeTurn s f.id fr.dst) out { frame := fr, owner := some f.id }, [])

/-- The runs of a shard, as (offset, elements). -/
def shardRuns (code blk : Nat) (m : Member) : List (Nat × Nat) :=
  let n := frameElems code blk
  (List.range (ceilDiv m.len (max 1 n))).map fun i => (m.first + i * n, min n (m.len - i * n))

/-- Frames from a flight, one after another. -/
def sendAll (s : State) (f : Flight) (frs : List Frame) : State × List Hop :=
  frs.foldl (fun (a : State × List Hop) fr =>
    let r := sendRed a.1 f fr
    (r.1, a.2 ++ r.2)) (s, [])

/-- The header of a member's own frames. A flag synchronisation reads neither CANON nor the shard fields (R382). -/
def ownHead (s : State) (f : Flight) (r : RedWork) (off : Nat) : RedHead :=
  let e := f.entry
  let me := glMember r.list r.own
  let ord := Ent.canon e && !Ent.rdFsync e
  { tag := r.tag, off := off, count := Ent.rdCount e, fmt := Ent.fmtA e, blk := Ent.blkA e, ord := ord,
    fsync := Ent.rdFsync e, bumped := false, flags := if Ent.rdFsync e then liveFour s f.cl else liveTwo s f.cl,
    cfirst := if ord then me.cfirst else 0, ccount := if ord then me.ccount else 0, nc := if ord then glNc r.list else 0 }

/-- The next member of a ring. -/
def ringNext (r : RedWork) : Member := glMember r.list ((r.own + 1) % glP r.list)

/-- A first frame of a member: where it goes, its offset and bytes, and what its own requantisation counts. -/
structure StartFrame where
  dest : Member
  off : Nat
  bytes : List Byte
  counts : Counts := {}

/-- The first frames of a member: the first pass of a flag synchronisation, every other member's shard of a canonical REDUCE, or the
ring's first run (R378, R380, R382). -/
def startFrames (s : State) (f : Flight) (r : RedWork) : List StartFrame :=
  let e := f.entry
  let p := glP r.list
  if Ent.rdFsync e then (if r.own = 0 then [{ dest := ringNext r, off := 0, bytes := [] }] else [])
  else if Ent.canon e then
    (((glMembers r.list).zipIdx.filter fun (x : Member × Nat) => x.2 != r.own).flatMap fun (x : Member × Nat) =>
      (shardRuns (Ent.fmtA e) (Ent.blkA e) x.1).map fun o => { dest := x.1, off := o.1, bytes := contribRun s f o.1 o.2 })
  else
    (shardRuns (Ent.fmtA e) (Ent.blkA e) (glMember r.list ((r.own + p - 1) % p))).map fun o =>
      let x := startRun (Ent.fmtA e) (Ent.blkA e) (glHead r.list) (Ent.sat e) o.2 (contribRun s f o.1 o.2)
      { dest := ringNext r, off := o.1, bytes := x.1, counts := x.2 }

/-- The member of a list whose shard holds an element. -/
def shardOf (l : List Byte) (off : Nat) : Option Nat :=
  (List.range (glP l)).find? fun i =>
    let m := glMember l i
    decide (m.first ≤ off) && decide (off < m.first + m.len)

/-- An event of a REDUCE's entry that names a tag and a package. -/
def postRed (s : State) (f : Flight) (cause tag pkg : Nat) : State :=
  let c := flightCtx s f (redCore f.entry)
  post s c.page { c.event s cause pkg with tag := tag, pkg := pkg }

/-- Conditions of a hop, kept for the record (R379, R383). -/
def noteHop (s : State) (f : Flight) (c : Counts) : State :=
  noteCounts s f.cl (redCore f.entry) (Ent.grad f.entry) c

/-- A flag synchronisation's frame at a member (R382). Member 0 turns the first round into the second and takes the
second off the ring (log entry 43). -/
def fsyncAt (s : State) (f : Flight) (r : RedWork) (h : RedHead) : State × List Hop :=
  let put := fun (s : State) => (List.range 4).foldl (fun s b => setSyncFlag s f.cl b (bit h.flags b == 1)) s
  let on := fun (s : State) (flags : Nat) => sendRed s f (redFrame s (ringNext r) { h with flags := flags } [])
  let r' := { r with passes := r.passes + 1 }
  let s := setWork s f.id (.reduce r')
  if r.own = 0 then
    if r.passes = 0 then on (put s) h.flags else (s, [])
  else if r.passes = 0 then on s (h.flags ||| liveFour s f.cl)
  else on (put s) h.flags

/-- A partial of an ordered reduction at its owner (R204, R380). -/
def orderedAt (s : State) (f : Flight) (r : RedWork) (fr : Frame) (h : RedHead) (n : Nat) : State :=
  let who := (glMembers r.list).zipIdx.find? fun (x : Member × Nat) =>
    x.2 != r.own && x.1.pkg == fr.src && x.1.cfirst == h.cfirst && x.1.ccount == h.ccount
  match who with
  | none => if r.written then s else writeNaNShard (postRed s f Cause.subtreeMisaligned r.tag fr.src) f r
  | some (_, i) =>
    if r.written then s
    else if h.nc ≠ glNc r.list ∨ (r.parts.any fun p => p.member == i && p.off == h.off) then
      writeNaNShard (postRed s f Cause.subtreeMisaligned r.tag fr.src) f r
    else
      let r := { r with parts := r.parts ++ [{ member := i, off := h.off, bytes := fr.payload.take (8 * n) }], need := r.need - n }
      let s := setWork s f.id (.reduce r)
      if r.need = 0 then orderedShard s f r else s

/-- A run at a member of a ring (R378, R379): the owner keeps the sums, and converts when all have come; another adds and
passes it on. -/
def ringAt (s : State) (f : Flight) (r : RedWork) (fr : Frame) (h : RedHead) (o n : Nat) : State × List Hop :=
  let e := f.entry
  let us := runUnits (Ent.fmtA e) (Ent.blkA e) n fr.payload
  let loc := contribution s f h.off n
  if o = r.own then
    if r.written then (s, [])
    else
      let s := if h.bumped then noteSticky s f.cl (redCore e) 16 else s
      let sums := List.zipWith waAdd (us.flatMap (·.2)) loc
      let r := { r with
        parts := r.parts ++ [{ member := r.own, off := h.off, bytes := packRun 0xA [(127, sums.map fmtWA48.roundBits)] }]
        need := r.need - n }
      let s := setWork s f.id (.reduce r)
      (if r.need = 0 then writeShard s f r (partValues r.parts r.own) else s, [])
  else
    let ue := if isScaled (Ent.fmtA e) then unitElems (Ent.fmtA e) (Ent.blkA e) else max 1 n
    let outs := us.zipIdx.map fun (u : (Nat × List Num) × Nat) =>
      hopUnit (Ent.fmtA e) (Ent.sat e) u.1.1 (List.zipWith waAdd u.1.2 (loc.drop (u.2 * ue)))
    let c := outs.foldl (fun a u => a.add u.2) ({} : Counts)
    let s := noteHop s f c
    let s := setWork s f.id (.reduce { r with rest := r.rest - n, counts := r.counts.add c })
    let h' := { ownHead s f r h.off with bumped := h.bumped || c.bumps != 0 }
    sendRed s f (redFrame s (ringNext r) h' (packRun (Ent.fmtA e) (outs.map (·.1))))

/-- A frame that disagrees with the member's REDUCE (R377): one for the own shard makes it NaN; another goes on with its run
as the canonical NaN of the format the frame names. -/
def mismatchAt (s : State) (f : Flight) (r : RedWork) (fr : Frame) (h : RedHead) (o n : Nat) : State × List Hop :=
  let s := postRed s f Cause.bucketMismatch r.tag fr.src
  if o = r.own then (if r.written then s else writeNaNShard s f r, [])
  else
    let s := setWork s f.id (.reduce { r with rest := r.rest - n })
    sendRed s f (redFrame s (ringNext r) { h with flags := liveTwo s f.cl ||| 1 } (nanRun h.fmt h.blk n))

/-- Elements of the run that a frame carries, by its own FMT and BLK: as many as a full frame holds or as its shard still
has (R375). -/
def runOf (h : RedHead) (m : Member) : Nat := min (frameElems h.fmt h.blk) (m.first + m.len - h.off)

/-- The frame disagrees with the member's REDUCE (R377). -/
def frameDisagrees (e : Nat) (h : RedHead) : Bool :=
  h.fsync || Ent.rdFsync e || h.count != Ent.rdCount e || h.fmt != Ent.fmtA e || h.blk != Ent.blkA e || h.ord != Ent.canon e

/-- What the member makes of a frame goes on to the next member of the ring: the partial sums of another's shard, a mismatched run,
and the passes of a flag synchronisation (R377, R380, R382). -/
def passesOn (r : RedWork) (e : Nat) (h : RedHead) : Bool :=
  if h.fsync && Ent.rdFsync e then r.own != 0 || r.passes == 0
  else match shardOf r.list h.off with
    | none => false
    | some o => o != r.own && (frameDisagrees e h || !h.ord)

/-- The link by which a REDUCE frame passes through the adder of its member to another package (R357, R358). -/
def passLink (s : State) (fr : Frame) : Option Nat :=
  let h := redHead fr.tspec
  match redFlight s (nsCluster fr.daddr) (nsCore fr.daddr) h.tag with
  | none => none
  | some (f, r) =>
    let next := (ringNext r).pkg
    let ls := sourceLinks s next (Ent.rdLinks f.entry)
    if next = selfId s ∨ !passesOn r f.entry h ∨ ls.isEmpty then none else some (getNth 0 ls (redTurn s f.id next % ls.length))

/-- A frame cannot pass now: link out has no credits for it, or frames of its virtual channel wait before it (R358). -/
def passHeld (s : State) (fr : Frame) : Bool :=
  match passLink s fr with
  | none => false
  | some out =>
    let k := s.link out
    !(canLeave k fr && !k.waking && k.tx.all fun x => x.frame.vc != fr.vc)

/-- A frame at a member that has registered its tag (R376 to R382). -/
def redAt (s : State) (f : Flight) (r : RedWork) (fr : Frame) : State × List Hop :=
  let h := redHead fr.tspec
  let e := f.entry
  let s := if bit h.flags 0 = 1 then setLiveFlag s f.cl 0 true else s
  let s := if bit h.flags 1 = 1 then setLiveFlag s f.cl 1 true else s
  if h.fsync ∧ Ent.rdFsync e then fsyncAt s f r h
  else match shardOf r.list h.off with
    | none => (postRed s f Cause.bucketMismatch r.tag fr.src, [])
    | some o =>
      let m := glMember r.list o
      let n := runOf h m
      if frameDisagrees e h then
        mismatchAt s f r fr h o n
      else if h.ord then (orderedAt s f r fr h n, [])
      else ringAt s f r fr h o n

/-- A frame is held in the receive buffer of the link it came by (R358). -/
def holdRx (s : State) (l : Nat) (f : Frame) : State := setLink s l { s.link l with rx := (s.link l).rx ++ [f] }

/-- Frames at members of this package, with those that follow from them (fuel: the hops). A frame whose tag is not
registered at its member is held (R374); one that came by a link and cannot pass on stays in its receive buffer (R358). -/
def runHops (s : State) : Nat → List Hop → State
  | 0, _ => s
  | _, [] => s
  | n + 1, x :: xs =>
    let cl := nsCluster x.frame.daddr
    let core := nsCore x.frame.daddr
    match redFlight s cl core (redHead x.frame.tspec).tag with
    | none =>
      runHops { s with net.held := s.net.held ++ [{ frame := x.frame, cl := cl, core := core, link := x.link, turn := s.turn }] } n xs
    | some (f, r) =>
      match x.link, passHeld s x.frame with
      | some l, true => runHops (holdRx s l x.frame) n xs
      | _, _ =>
        let s := match x.link with | none => s | some l => freeFlits s l x.frame
        let y := redAt s f r x.frame
        runHops y.1 n (xs ++ y.2)

/-- Hops that a set of frames can make within the package: each passes a member at most twice. -/
def hopFuel (xs : List Hop) : Nat := 4096 * xs.length + 4096

/-- The first frames with their heads: each carries the live flags at the moment it leaves, its own requantisation noted before (R376). -/
def flagFrames (s : State) (f : Flight) (r : RedWork) (xs : List StartFrame) : State × List Frame :=
  xs.foldl (fun (a : State × List Frame) x =>
    let s := noteHop a.1 f x.counts
    (s, a.2 ++ [redFrame s x.dest (ownHead s f r x.off) x.bytes])) (s, [])

/-- The frames held for a member that registers now. -/
def heldFor (s : State) (cl core tag : Nat) : List Hop :=
  (s.net.held.filter fun h => h.cl == cl && h.core == core && (redHead h.frame.tspec).tag == tag).map fun h => { frame := h.frame, link := h.link }
def dropHeld (s : State) (cl core tag : Nat) : State :=
  { s with net.held := s.net.held.filter fun h => !(h.cl == cl && h.core == core && (redHead h.frame.tspec).tag == tag) }

/-! ### The entries -/

/-- "no route" for each remote member that the entry sends to and cannot reach (R385). -/
def checkReach (s : State) (f : Flight) (frs : List Frame) (r : RedWork) : State :=
  ((frs.map (·.dst) ++ (if Ent.canon f.entry && !Ent.rdFsync f.entry then [] else [(ringNext r).pkg])).eraseDups.filter fun d =>
    d != selfId s && (sourceLinks s d (Ent.rdLinks f.entry)).isEmpty).foldl (fun s d => postRed s f Cause.noRoute r.tag d) s

/-- A REDUCE registers, sends what it starts, and takes the frames held for it (R373, R374). -/
def startReduce (s : State) (cl p i e : Nat) (l : List Byte) : State :=
  let ms := glMembers l
  let P := glP l
  let own := glOwn l
  let me := glMember l own
  let prev := (own + P - 1) % P
  let total := (ms.zipIdx.map fun (x : Member × Nat) => if x.2 = own ∨ x.2 = prev then 0 else x.1.len).foldl (· + ·) 0
  let fs := Ent.rdFsync e
  let r : RedWork :=
    { tag := Ent.rdBtag e, own := own, list := l, turn := s.turn
      need := if fs then 0 else if Ent.canon e then me.len * (P - 1) else if P = 1 then 0 else me.len
      rest := if fs || Ent.canon e then 0 else total
      written := fs || me.len == 0 }
  let id := s.seq.nextId
  let core := redCore e
  let c := entryCtx s cl p i core
  let lines := coreLines cl core (Ent.rdGlist e) (ceilDiv (32 + 32 * P) 256) ++
    (if fs then [] else coreLines cl core (Ent.rdSrc e) (redSrcLines e))
  let s := joinBucket (nsNote s c lines) r.tag l
  let s := issueFlight s cl p i e [.reduction] (Ent.cores e) (.reduce r)
  match s.seq.flights.find? fun f => f.id == id with
  | none => s
  | some f =>
    if P = 1 then
      if fs then setWork ((List.range 4).foldl (fun s b => setSyncFlag s cl b (liveFlag s cl b)) s) id (.reduce { r with passes := 2 })
      else writeShard s f r (contribution s f me.first me.len)
    else
      let xs := startFrames s f r
      let a := flagFrames s f r xs
      let s := checkReach a.1 f a.2 r
      let s := setWork s id (.reduce { r with counts := xs.foldl (fun c x => c.add x.counts) r.counts })
      let out := sendAll s f a.2
      let xs := out.2 ++ heldFor s cl core r.tag
      runHops (dropHeld out.1 cl core r.tag) (hopFuel xs) xs

/-- A REDUCE of a row: blocked, rejected, refused, or started. -/
def withReduce (s : State) (cl p : Nat) (mine : Nat → Bool) : State :=
  withEntry s cl p (fun e => Ent.type e == 5 && mine e) fun i e =>
    let l := groupList s cl e
    if !readyFor s cl p e [.reduction] (Ent.cores e) then blockProg s cl p
    else match redReject s cl e l with
      | some c => rejectEntry s cl p i c (redCore e)
      | none =>
        if redOutside s cl e l then issueNothing (refuseEntry s cl p i Cause.outsidePartition (tblAddr cl i)) cl p i
        else if !canJoin s (Ent.rdBtag e) l then blockProg s cl p
        else startReduce s cl p i e l

/-- REDUCE_THROUGHPUT (R378, R379). -/
def execReduceThroughput (cl p : Nat) (s : State) : Res :=
  .next (withReduce s cl p fun e => !Ent.rdFsync e && !Ent.canon e)

/-- REDUCE_ORDERED (R380). -/
def execReduceOrdered (cl p : Nat) (s : State) : Res :=
  .next (withReduce s cl p fun e => !Ent.rdFsync e && Ent.canon e)

/-- FLAG_SYNC (R382). -/
def execFlagSync (cl p : Nat) (s : State) : Res := .next (withReduce s cl p fun e => Ent.rdFsync e)

/-- A REDUCE leaves: record, bucket, token (R99, R383). -/
def endReduce (s : State) (f : Flight) (r : RedWork) : State :=
  let c := flightCtx s f (redCore f.entry)
  let s := if Ent.rdFsync f.entry then s else addRecord s c f.cl (Ent.nrec f.entry) r.counts
  let s := leaveBucket (removeFlight s f.id) r.tag r.own
  if Ent.rdPost f.entry then postToken s f.cl (Ent.rdPctr f.entry) else s

/-- The whole of a REDUCE's part has been done. -/
def redDone (s : State) (f : Flight) (r : RedWork) : Bool :=
  (if Ent.rdFsync f.entry then decide (2 ≤ r.passes) else r.written && r.rest == 0) && framesAcked s f.id

/-- REDUCE_COMPLETE (R382, R383). -/
def execReduceComplete (f : Nat) (s : State) : Res :=
  .next (match flightOf s f (fun e => Ent.type e == 5) with
    | none => s
    | some fl =>
      match fl.work with
      | .reduce r => if redDone s fl r then endReduce s fl r else s
      | _ => removeFlight s f)

/-- REDUCTION_TIMEOUT (R385): 4,096 turns after issue. A flag synchronisation has no shard to write. -/
def execReductionTimeout (f : Nat) (s : State) : Res :=
  .next (match s.seq.flights.find? fun x => x.id == f with
    | none => s
    | some fl =>
      match fl.work with
      | .reduce r =>
        if s.turn < r.turn + 4096 ∨ redDone s fl r then s
        else
          let s := if Ent.rdFsync fl.entry then setLiveFlag s fl.cl 0 true else writeNaNShard s fl r
          let r := match (s.seq.flights.find? fun x => x.id == f).map (·.work) with | some (.reduce q) => q | _ => r
          endReduce (postRed s fl Cause.reductionTimeout r.tag 0) fl r
      | _ => s)

/-- BUCKET_ORPHANED (R374): frame n of those held has waited 4,096 turns. -/
def execBucketOrphaned (n : Nat) (s : State) : Res :=
  .next (match s.net.held[n]? with
    | none => s
    | some h =>
      if s.turn < h.turn + 4096 then s
      else
        let s := { s with net.held := s.net.held.eraseIdx n }
        let s := match h.link with | none => s | some l => freeFlits s l h.frame
        let l := h.link.getD 0
        post s (linkPage l)
          { cause := Cause.bucketOrphaned, die := 56 + l / 4, time := s.time.now, op1 := (redHead h.frame.tspec).tag,
            tag := (redHead h.frame.tspec).tag, pkg := h.frame.src, link := l, partition := h.link.map fun l => l / 3 })

/-- A REDUCE that came by link l is cut through its member's adder to link out: the conditions of R357, and no ENC frame. -/
def cutsAdder (s : State) (l out : Nat) (f : Frame) : Bool := cutPath s l out f && !f.enc

/-- A REDUCE for a member of this package: one that passes on is cut through the adder, or held in its receive buffer until its
conditions hold (R357, R358). -/
def takeReduce (s : State) (l : Nat) (f : Frame) : State :=
  let run := runHops s (hopFuel [{ frame := f, link := some l }]) [{ frame := f, link := some l }]
  match passLink s f with
  | none => run
  | some out => if cutsAdder s l out f then run else holdRx s l f

/-- A REDUCE that fails at this package while it is cut through an adder: the outgoing frame is completed with STOMP set (R354). -/
def stompAdder (s : State) (l : Nat) (f : Frame) (a : Arrival) : State :=
  if f.type = 1 ∧ arrivalFails a ∧ f.dst = selfId s ∧ f.seq = (s.link l).expect ∧ fabricUp s l then
    match passLink s f with
    | none => s
    | some out => if cutsAdder s l out f then stompTo s out f else s
  else s

/-- REDUCE_FRAME (R354, R357, R358, R374, R376 to R382, R477, R513). -/
def execReduceFrame (l : Nat) (f : Frame) (a : Arrival) (s : State) : Res :=
  .next (receiveFrame (stompAdder s l f a) l f a 1 true fun s => takeReduce s l f)

end Sys2Proof.Machine
end

