-- ==== Sys2Proof/Machine/Gather.lean ====
section
/-! DEFINITION. Shard images and gathers: GATHER, its requests and responses, and its completion (R69, R292 to R297,
R358, R477). A local image is read in the step that issues the entry. -/

namespace Sys2Proof.Machine

/-! ### Shard images (R292, R293) -/

/-- The stamp, format code, block bit and element count of an image's header. -/
structure ImageHead where
  stamp : Nat
  fmt : Nat
  blk : Nat
  count : Nat
  deriving DecidableEq, Repr

def imageHead (v : ByteView) : ImageHead :=
  { stamp := viewLE v 0 4, fmt := bf (v 4).toNat 3 0, blk := bit (v 4).toNat 4, count := viewLE v 8 4 * viewLE v 12 4 }

/-- The 256 bytes of a header line (R292). -/
def headBytes (stamp fmt blk layout rows klen : Nat) : List Byte :=
  leBytes 4 stamp ++ leBytes 1 (fmt + 16 * blk) ++ leBytes 1 layout ++ leBytes 2 0 ++ leBytes 4 rows ++ leBytes 4 klen ++ leBytes 240 0

/-- The data bytes of an image of n elements: whole panels. -/
def imageLen (fmt blk n : Nat) : Nat := 256 * tensorLines fmt blk n

/-- A transport element in E4M3 (R295): exact. -/
def widenElem (code bits : Nat) : Nat := (convertElem 3 true false .rne code (decodeElem code bits)).bits

/-- The panels of an image in the compute format: a copy, or each element re-encoded under its block's scale byte
(R295). -/
def computeImage (tfmt cfmt blk n : Nat) (data : List Byte) : List ByteWrite :=
  if cfmt = tfmt then data.zipIdx.map fun ((b, i) : Byte × Nat) => (i, b)
  else
    let v : ByteView := fun i => getNth 0 data i
    let ue := unitElems tfmt blk
    let units := ceilDiv n ue
    let one := fun (u : Nat) =>
      let es := (List.range ue).map fun j => widenElem tfmt (elemBits v tfmt blk n (u * ue + j))
      ((packElems 8 es).zipIdx.map fun ((b, k) : Byte × Nat) => (unitOffset cfmt blk u + k, b)) ++
        [(scaleOffset cfmt blk units u, v (scaleOffset tfmt blk units u))]
    let zeros := if units = 0 then [] else
      (List.range (255 - (units - 1) % 256)).map fun k => (scaleOffset cfmt blk units (units - 1) + 1 + k, (0 : Byte))
    ((List.range units).map one).flatten ++ zeros

/-! ### The source list (R294, R296) -/

/-- Whether an entry of the list breaks its layout: a bit that must be zero, or a header that is no line. -/
structure ListEntry where
  pkg : Nat
  count : Nat
  addr : Nat
  bad : Bool
  deriving DecidableEq, Repr

def listEntryAt (v : ByteView) (i : Nat) : ListEntry :=
  let g := fun (o n : Nat) => viewLE v (16 * i + o) n
  { pkg := g 0 2 % 1024, count := g 4 4, addr := g 8 8 % 2 ^ 39,
    bad := decide (1024 ≤ g 0 2) || g 2 2 != 0 || decide (2 ^ 39 ≤ g 8 8) || g 8 8 % 256 != 0 }

/-- The list of a core as it is read: the entries to fetch, each with the line its output begins at, how many were read,
and the places of those that are not fetched; none where it passes the core's last line (fuel: entries to the end). -/
structure SourceList where
  srcs : List GatherSource := []
  skipped : List (Nat × Bool) := []
  read : Nat := 0
  lines : Nat := 0
  deriving DecidableEq, Repr

def readList (v : ByteView) (core cfmt blk dst : Nat) : Nat → Nat → SourceList → Option SourceList
  | _, 0, a => some a
  | 0, _, _ => none
  | n + 1, left, a =>
    let e := listEntryAt v a.read
    let a' := { a with read := a.read + 1 }
    if left < e.count then some { a' with skipped := a.skipped ++ [(a.read, false)] }
    else if e.count = 0 then readList v core cfmt blk dst n left { a' with skipped := a.skipped ++ [(a.read, false)] }
    else
      let k := tensorLines cfmt blk e.count
      if e.bad then readList v core cfmt blk dst n (left - e.count) { a' with skipped := a.skipped ++ [(a.read, true)], lines := a.lines + k }
      else
        let src : GatherSource := { core := core, idx := a.read, pkg := e.pkg, count := e.count, addr := e.addr, line := dst + a.lines }
        readList v core cfmt blk dst n (left - e.count) { a' with srcs := a.srcs ++ [src], lines := a.lines + k }

/-- The list of core k for a GATHER. -/
def gatherList (s : State) (cl e k : Nat) : Option SourceList :=
  readList (nsView s (actingSlot s cl) cl k (Ent.gaSlist e)) k (Ent.gaCfmt e) (Ent.gaCblk e) (Ent.gaDst e)
    (16 * (16384 - Ent.gaSlist e)) (Ent.gaCount e) {}

/-! ### Rejection (R28, R295) -/

def gatherReserved (e : Nat) : Bool :=
  decide (4 < Ent.gaTfmt e) || Ent.gaCblk e != Ent.gaTblk e ||
    !(Ent.gaCfmt e == Ent.gaTfmt e || (decide (Ent.gaTfmt e ≤ 2) && Ent.gaCfmt e == 3))

/-- The first core whose list or output passes its last line. -/
def gatherOut (s : State) (cl e : Nat) : Option Nat :=
  (setBits (Ent.cores e) 16).find? fun k =>
    match gatherList s cl e k with
    | none => true
    | some a => decide (16384 < Ent.gaDst e + a.lines)

/-! ### Staleness (R69, R296, R297) -/

/-- The GATHER that a flight holds. -/
def gatherOf (s : State) (id : Nat) : Option (Flight × GatherWork) :=
  match s.seq.flights.find? fun f => f.id == id with
  | none => none
  | some f => match f.work with | .gather g => some (f, g) | _ => none

def setSource (s : State) (id : Nat) (g : GatherWork) (src : GatherSource) : State :=
  setWork s id (.gather { g with srcs := g.srcs.map fun x => if x.core == src.core && x.idx == src.idx then src else x })

/-- An image is stale: the live flag is set, and the first of a GATHER posts "stale shard" with the stamp expected in the
low word and the stamp found in the high word of the first operand. -/
def noteStale (s : State) (id core pkg found : Nat) : State :=
  match gatherOf s id with
  | none => s
  | some (f, g) =>
    let s := setLiveFlag s f.cl 1 true
    if g.stale then s
    else
      let c := flightCtx s f core
      let s := post s c.page { c.event s Cause.staleShard (Ent.gaStamp f.entry + 2 ^ 32 * found) with pkg := pkg }
      setWork s id (.gather { g with stale := true })

/-! ### Images read (R28, R263, R296, R297) -/

/-- Why an image is refused by its M-die: outside the group for a local source, above D or in the catch share, or in an
enabled region. -/
def imageRefuse (s : State) (parts : Option (List Nat)) (a n : Nat) : Option (Nat × Option Nat) :=
  let w := gWindow a
  let o := a % 2 ^ 36
  if (parts.map fun l => !l.contains w).getD false then some (Cause.outsidePartition, none)
  else if gSize s w < o + n then some (Cause.outsideMemory, none)
  else if gCatch s w < o + n then some (Cause.catchRegion, none)
  else match (regionsOver s a n).head? with
    | some r => some (Cause.tenantMismatch, some r.slot)
    | none => none

/-- The header disagrees with the entry. -/
def headBad (h : ImageHead) (tfmt tblk count : Nat) : Bool := h.fmt != tfmt || h.blk != tblk || h.count != count

/-- An image has come whole: it is written, and compared. -/
def imageCame (s : State) (id : Nat) (src : GatherSource) (data : List Byte) (stale : Option Nat) : State :=
  match gatherOf s id with
  | none => s
  | some (f, g) =>
    let e := f.entry
    let s := setSource s id g { src with done := true, got := [] }
    let s := nsWriteImage s (flightCtx s f src.core) f.cl src.core src.line (computeImage (Ent.gaTfmt e) (Ent.gaCfmt e) (Ent.gaTblk e) src.count data)
    match stale with
    | some found => noteStale s id src.core src.pkg found
    | none => s

/-- An image that does not come: its part of DST stays, and the GATHER is stale. -/
def imageRefused (s : State) (id : Nat) (src : GatherSource) : State :=
  match gatherOf s id with
  | none => s
  | some (_, g) => noteStale (setSource s id g { src with done := true, got := [] }) id src.core src.pkg 0

/-- A source on the gathering package (R294); one that a retraining channel holds waits (R257). -/
def gatherLocal (s : State) (id : Nat) (src : GatherSource) : State :=
  match gatherOf s id with
  | none => s
  | some (f, _) =>
    let e := f.entry
    let c := flightCtx s f src.core
    let n := 256 + imageLen (Ent.gaTfmt e) (Ent.gaTblk e) src.count
    if gHeld s src.addr n then s
    else match imageRefuse s (some (groupParts s (partOf f.cl))) src.addr n with
    | some r => imageRefused (postRefusal s c src.addr r) id src
    | none =>
      let h := imageHead fun i => gByte s (src.addr + i)
      let data := gBytes s (src.addr + 256) (n - 256)
      let stale := h.stamp != Ent.gaStamp e || headBad h (Ent.gaTfmt e) (Ent.gaTblk e) src.count
      imageCame (gNote s c src.addr n) id src data (if stale then some h.stamp else none)

/-! ### Frames (R294, R296; the layout of their TSPEC is log entry 44) -/

/-- Where an image goes: the line of its output. -/
def gatherPlace (cl core line : Nat) : Nat := nsAddr cl core (256 * line)

def reqTspec (stamp idx place tfmt tblk count : Nat) : Nat :=
  stamp + 2 ^ 32 * (idx % 65536) + 2 ^ 48 * place + 2 ^ 84 * tfmt + 2 ^ 88 * tblk + 2 ^ 89 * count
/-- A response names its source's place in the list, both stamps of the header, as read before and after the data, its block,
and whether the header disagrees with the request or the image is refused. -/
def respTspec (before after idx block : Nat) (stale refused : Bool) : Nat :=
  before % 2 ^ 32 + 2 ^ 32 * (idx % 65536) + 2 ^ 48 * (after % 2 ^ 32) + 2 ^ 80 * block + (if stale then 2 ^ 104 else 0) +
    (if refused then 2 ^ 105 else 0)

/-- A request for one image of another package, the turn-th of the entry to that package (R367). An unreachable source never answers
(R297). -/
def gatherRemote (s : State) (id turn : Nat) (src : GatherSource) : State :=
  match gatherOf s id with
  | none => s
  | some (f, _) =>
    let e := f.entry
    let ls := sourceLinks s src.pkg (Ent.gaLinks e)
    if ls.isEmpty then s
    else
      sendTurns s ls (some id) turn
        [{ type := 3, vc := 2, src := selfId s, dst := src.pkg, tslot := (actingSlot s f.cl).getD 0, daddr := src.addr, dsp := 1,
           tspec := reqTspec (Ent.gaStamp e) src.idx (gatherPlace f.cl src.core src.line) (Ent.gaTfmt e) (Ent.gaTblk e) src.count }]

/-- The responses to a request: the image's data in payloads of 4,096 bytes, or a refusal. -/
def responseFrames (s : State) (f : Frame) (before after : Nat) (stale refused : Bool) (data : List Byte) : List Frame :=
  let mk := fun (block : Nat) (bs : List Byte) =>
    ({ type := 4, vc := 2, src := selfId s, dst := f.src, tslot := f.tslot, daddr := bf f.tspec 83 48,
       tspec := respTspec before after (bf f.tspec 47 32) block stale refused, payload := bs } : Frame)
  if data.isEmpty then [mk 0 []] else (chunks 4096 data).zipIdx.map fun (c : List Byte × Nat) => mk c.2 c.1

/-- Frames go back to the source of a request, where a link leads to it. -/
def sendBack (s : State) (f : Frame) (fs : List Frame) : State :=
  let ls := sourceLinks s f.src 0xFFFFFF
  if ls.isEmpty then s else sendFrames s ls none fs

/-- The element format, block bit and element count that a request names. -/
def reqFmt (f : Frame) : Nat := bf f.tspec 87 84
def reqBlk (f : Frame) : Nat := bit f.tspec 88
def reqCount (f : Frame) : Nat := bf f.tspec 112 89

/-- The response frames of the image of n bytes that a request names: its header is read before its data and again after it. -/
def imageFrames (s : State) (f : Frame) (n : Nat) : List Frame :=
  let head := imageHead fun i => gByte s (f.daddr + i)
  let data := gBytes s (f.daddr + 256) (n - 256)
  let again := imageHead fun i => gByte s (f.daddr + i)
  responseFrames s f head.stamp again.stamp (headBad head (reqFmt f) (reqBlk f) (reqCount f)) false data

/-- A request for an image of n bytes is answered, or refused (R296, R297); it waits for a channel that retrains (R257). -/
def answerGather (s : State) (c : Ctx) (f : Frame) (n : Nat) : State :=
  if gHeld s f.daddr n then { s with net.asks := s.net.asks ++ [f] }
  else match imageRefuse s none f.daddr n with
    | some r => sendBack (postRefusal s c f.daddr r) f (responseFrames s f 0 0 true true [])
    | none => sendBack (gNote s c f.daddr n) f (imageFrames s f n)

/-- A request at the M-die that owns the image (R296, R297). -/
def askImage (s : State) (f : Frame) : State :=
  let w := gWindow f.daddr
  answerGather s { page := memPage w, die := 48 + w, partition := some w, slot := none } f
    (256 + imageLen (reqFmt f) (reqBlk f) (reqCount f))
def takeGatherReq (s : State) (l : Nat) (f : Frame) : State := askImage (freeFlits s l f) f

/-- The flight and source that a response answers. -/
def responseFor (s : State) (f : Frame) : Option (Flight × GatherSource) :=
  let place := f.daddr
  let cl := nsCluster place
  let core := nsCore place
  let mine := fun (x : GatherSource) =>
    x.core == core && x.idx % 65536 == bf f.tspec 47 32 && x.pkg == f.src && !x.done && gatherPlace cl core x.line == place
  (s.seq.flights.filterMap fun fl =>
    match fl.work with
    | .gather g => if fl.cl == cl then (g.srcs.find? mine).map fun x => (fl, x) else none
    | _ => none).head?

/-- The data of an image in order, where all of it has come. -/
def assembled (n : Nat) (got : List (Nat × List Byte)) : Option (List Byte) :=
  let all := (sortBy (fun a b => decide (a.1 ≤ b.1)) got).flatMap fun (x : Nat × List Byte) => x.2
  if n ≤ all.length then some (all.take n) else none

/-- The stamp that a response shows to differ from STAMP, or to stand in a header that disagrees (R296). -/
def staleStamp (stamp : Nat) (f : Frame) : Option Nat :=
  let before := f.tspec % 2 ^ 32
  let after := bf f.tspec 79 48
  if before ≠ stamp then some before else if after ≠ stamp then some after
  else if bit f.tspec 104 = 1 then some before else none

/-- A response at the gathering core (R296); one that answers nothing is dropped. -/
def takeGatherResp (s : State) (l : Nat) (f : Frame) : State :=
  let s := freeFlits s l f
  match responseFor s f with
  | none => s
  | some (fl, src) =>
    if bit f.tspec 105 = 1 then imageRefused s fl.id src
    else
      let block := bf f.tspec 103 80
      let got := src.got.filter (fun (x : Nat × List Byte) => x.1 != block) ++ [(block, f.payload)]
      let e := fl.entry
      let found := src.found.orElse fun _ => staleStamp (Ent.gaStamp e) f
      match assembled (imageLen (Ent.gaTfmt e) (Ent.gaTblk e) src.count) got with
      | some data => imageCame s fl.id src data found
      | none => (match fl.work with
          | .gather g => setSource s fl.id g { src with got := got, found := found }
          | _ => s)

/-- GATHER_REQUEST and GATHER_RESPONSE (R296, R358, R477, R513). -/
def execGatherRequest (l : Nat) (f : Frame) (a : Arrival) (s : State) : Res :=
  .next (receiveFrame s l f a 3 false fun s => takeGatherReq s l f)
def execGatherResponse (l : Nat) (f : Frame) (a : Arrival) (s : State) : Res :=
  .next (receiveFrame s l f a 4 true fun s => takeGatherResp s l f)

/-! ### The entry -/

/-- The list lines that a core reads. -/
def gatherNote (s : State) (cl p i e k n : Nat) : State :=
  nsNote s (entryCtx s cl p i k) (coreLines cl k (Ent.gaSlist e) (ceilDiv n 16))

/-- A GATHER issues: its lists are read, its entries fetched, and those that are not fetched make it stale. -/
def startGather (s : State) (cl p i e : Nat) : State :=
  let lists := (setBits (Ent.cores e) 16).filterMap fun k => (gatherList s cl e k).map fun a => (k, a)
  let id := s.seq.nextId
  let srcs := lists.flatMap fun (x : Nat × SourceList) => x.2.srcs
  let s := lists.foldl (fun s (x : Nat × SourceList) => gatherNote s cl p i e x.1 x.2.read) s
  let s := issueFlight s cl p i e [.gather] (Ent.cores e) (.gather { srcs := srcs, turn := s.turn })
  let s := lists.foldl (fun s (x : Nat × SourceList) => x.2.skipped.foldl (fun s (k : Nat × Bool) =>
    let s := if k.2 then postCtx s (entryCtx s cl p i x.1) Cause.reservedEncoding (nsAddr cl x.1 (256 * Ent.gaSlist e + 16 * k.1)) else s
    noteStale s id x.1 (selfId s) 0) s) s
  srcs.zipIdx.foldl (fun s (x : GatherSource × Nat) =>
    if x.1.pkg = selfId s then gatherLocal s id x.1
    else gatherRemote s id ((srcs.take x.2).filter fun y => y.pkg == x.1.pkg).length x.1) s

/-- GATHER (R28, R294 to R297). -/
def execGather (cl p : Nat) (s : State) : Res :=
  .next (withEntry s cl p (fun e => Ent.type e == 6) fun i e =>
    if !readyFor s cl p e [.gather] (Ent.cores e) then blockProg s cl p
    else if gatherReserved e then rejectEntry s cl p i Cause.reservedEncoding (lowCore e)
    else match gatherOut s cl e with
      | some k => rejectEntry s cl p i Cause.outOfRange k
      | none =>
        if (setBits (Ent.gaLinks e) 24).any fun l => !sameGroup s (partOf cl) (l / 3) then
          issueNothing (refuseEntry s cl p i Cause.outsidePartition (tblAddr cl i)) cl p i
        else startGather s cl p i e)

/-- GATHER_COMPLETE (R297). -/
def execGatherComplete (f : Nat) (s : State) : Res :=
  .next (match flightOf s f (fun e => Ent.type e == 6) with
    | none => s
    | some fl =>
      match fl.work with
      | .gather g =>
        if g.srcs.all fun x => x.done then
          let s := removeFlight s f
          if Ent.gaPost fl.entry then postToken s fl.cl (Ent.gaPctr fl.entry) else s
        else s
      | _ => removeFlight s f)

/-- GATHER_SOURCE_LOST (R297): source n of the GATHER has not answered for 4,096 turns. -/
def execGatherSourceLost (f n : Nat) (s : State) : Res :=
  .next (match gatherOf s f with
    | none => s
    | some (fl, g) =>
      match g.srcs[n]? with
      | none => s
      | some src =>
        if src.done ∨ s.turn < g.turn + 4096 then s
        else
          let e := fl.entry
          let c := flightCtx s fl src.core
          let s := setSource s f g { src with done := true, got := [] }
          let s := nsWriteRun s c (gatherPlace fl.cl src.core src.line) (leBytes (imageLen (Ent.gaCfmt e) (Ent.gaCblk e) src.count) 0)
          let s := post s c.page { c.event s Cause.gatherSourceLost src.addr with pkg := src.pkg }
          noteStale s f src.core src.pkg 0)

end Sys2Proof.Machine
end

