-- ==== Sys2Proof/Machine/Control.lean ====
section
/-! DEFINITION. The control entries: WAIT_TURN, WAIT_TOKEN, GATE, HINT, MARK, JUMP and END, and the timeout and the
ageing of a program (R54, R56, R65 to R73, R216, R470). -/

namespace Sys2Proof.Machine

/-- A control entry met by the row of its type t: it issues when DEP and FENCE hold. -/
def withControl (s : State) (cl p t : Nat) (k : Nat → Nat → State) : State :=
  withEntry s cl p (fun e => Ent.type e == t) fun i e =>
    if !readyFor s cl p e [] 0 then blockProg s cl p else k i e

/-- The turn an entry names (R63, R67). -/
def namedTurn (s : State) (cl p e : Nat) : Nat :=
  match Ent.ctlSrc e with
  | 0 => Ent.ctlTurn e
  | 1 => ((s.prog cl p).base.getD 0 + Ent.ctlTurn e) % 2 ^ 54
  | _ => s.reg64 (seqReg cl (Reg.TURN + 8 * Ent.ctlTreg e))

/-- A program held by a wait that charges a cause: PROG_STATE shows which, and the effective priority returns to base (R54,
R65). -/
def holdProg (s : State) (cl p code cause : Nat) (w : Wait) : State :=
  if progEnabled s cl p then
    setProgState (setProg s cl p { s.prog cl p with wait := w, cause := cause, prio := (s.prog cl p).low, age := 0 }) cl p code
  else s

/-- The base turn a completed WAIT_TURN leaves (R67). -/
def setBase (s : State) (cl p t : Nat) : State :=
  if progEnabled s cl p then setProg s cl p { s.prog cl p with base := some t } else s

/-- A WAIT_TURN whose turn has begun is late, but in the first two cycles of that turn it is released as by the
boundary (R66, R570; log entry 26). -/
def waitLate (s : State) (cl t : Nat) : Bool := decide (t < s.dieTurn (cl / 9)) || decide (1024 * t + 1 < s.time.now)

/-- WAIT_TURN (R66). -/
def execWaitTurn (cl p : Nat) (s : State) : Res :=
  .next (withControl s cl p 0x09 fun i e =>
    let t := namedTurn s cl p e
    if t ≤ s.dieTurn (cl / 9) then
      let s' := noteIssue (setBase s cl p t) cl p i none
      if waitLate s cl t then post s' (clPage 0x12 cl) { (entryCtx s cl p i 0).event s Cause.turnMissed t with slot1 := none }
      else s'
    else holdProg (noteIssue s cl p i none) cl p 2 (Ent.ctlCause e) (.turn t))

/-- WAIT_TOKEN (R68): complete at once where the counter holds the target, without holding the program (R54); else the program
waits. -/
def execWaitToken (cl p : Nat) (s : State) : Res :=
  .next (withControl s cl p 0x0A fun i e =>
    let s' := noteIssue s cl p i none
    let c := Ent.wtCtr e
    let limit := if Ent.wtTimeout e = 0 then none else some (s.dieTurn (cl / 9) + Ent.wtTimeout e + 1)
    if Ent.wtTarget e ≤ s.token cl c then takeTokens s' cl c (Ent.wtTarget e)
    else holdProg s' cl p 3 (Ent.ctlCause e) (.token c (Ent.wtTarget e) limit))

/-- A program whose token wait has met its timeout halts in state 8 (R68). -/
def timeoutProg (s : State) (cl p : Nat) : State :=
  match (s.prog cl p).wait with
  | .token ctr _ limit =>
    if waitOpen s cl limit then s else stopProg (postCtx s (entryCtx s cl p (progPC s cl p - 1) 0) Cause.tokenTimeout ctr) cl p 8
  | _ => s

/-- TOKEN_TIMEOUT (R68). -/
def execTokenTimeout (cl p : Nat) (s : State) : Res := .next (timeoutProg s cl p)

/-! ### GATE and the loss scale (R70, R71, R216) -/

/-- A register of cluster cl's loss-scale page. -/
def lsReg (cl off : Nat) : Nat := clPage 0x15 cl + off

def sigmaOf (s : State) (cl : Nat) : Int := signed 8 (bf (s.reg (lsReg cl Reg.LS_STATE)) 7 0)
def cleanOf (s : State) (cl : Nat) : Nat := bf (s.reg (lsReg cl Reg.LS_STATE)) 31 16

/-- The state word of σ, σ_step and the clean count. -/
def lsState (sigma step : Int) (clean : Nat) : Nat := unsigned 8 sigma + 2 ^ 8 * unsigned 8 step + 2 ^ 16 * (clean % 65536)

/-- 2^σ as binary32 in every word of the loss-scale lines (R216, R217). -/
def writeLossScale (s : State) (cl : Nat) (sigma : Int) : State :=
  let r := s.reg (lsReg cl Reg.LS_LINE)
  let w := leBytes 4 (fmtFP32.roundBits (.fin false 1 sigma))
  let n := 64 * bf r 24 18
  let c : Ctx := { page := lsReg cl 0, die := cl / 9, cluster := cl % 9, core := bf r 17 14,
                   partition := some (partOf cl), slot := actingSlot s cl }
  nsWriteRun s c (nsAddr cl (bf r 17 14) (256 * bf r 13 0)) (List.replicate n w).flatten

/-- The update of the loss-scale state at an overflow GATE (R216); the floor is filed against the entry c (R571). -/
def updateLossScale (s : State) (c : Ctx) (cl : Nat) : State :=
  let sigma := sigmaOf s cl
  let lim := s.reg (lsReg cl Reg.LS_LIMITS)
  let lo := signed 8 (bf lim 7 0)
  let hi := signed 8 (bf lim 15 8)
  let clean := cleanOf s cl + 1
  let put := fun (s : State) (sg : Int) (cn : Nat) =>
    writeLossScale (setReg s (lsReg cl Reg.LS_STATE) (lsState sg sigma cn)) cl sg
  if syncFlag s cl 0 then
    let s := incReg s (lsReg cl Reg.LS_SKIPS) 1
    if lo < sigma then put s (sigma - 1) 0 else put (postCtx s c Cause.lossScaleFloor 0) sigma 0
  else if bf lim 31 16 ≤ clean then
    if sigma < hi then put (incReg s (lsReg cl Reg.LS_GROWS) 1) (sigma + 1) 0 else put s sigma 0
  else put s sigma clean

/-- GATE (R70, R216). -/
def execGate (cl p : Nat) (s : State) : Res :=
  .next (withControl s cl p 0x0B fun i e =>
    if !gateReady s cl p then blockProg s cl p
    else
      let f := Ent.gtFlag e
      let taken := if Ent.gtSync e then syncFlag s cl f else liveFlag s cl f
      let ls := f == 0 && Ent.gtSync e && Ent.gtClr e && bit (s.reg (lsReg cl Reg.LS_CTRL)) 0 == 1
      let s := if ls then updateLossScale s (entryCtx s cl p i 0) cl else s
      let s := if Ent.gtClr e && decide (f ≤ 1) then setSyncFlag (setLiveFlag s cl f false) cl f false else s
      if taken then
        if 2047 < i + 1 + Ent.gtSkip e then
          stopProg (postCtx (noteIssue s cl p i (some i)) (entryCtx s cl p i 0) Cause.skipBeyondTable (tblAddr cl i)) cl p 7
        else noteIssue s cl p i (some (i + 1 + Ent.gtSkip e))
      else noteIssue s cl p i none)

/-! ### HINT, MARK, JUMP, END -/

/-- HINT (R72, R470): a lead of 49 to 488 turns raises VARM of the partition until DUR turns after the heavy phase's
turn; any other lead is a marker. -/
def execHint (cl p : Nat) (s : State) : Res :=
  .next (withControl s cl p 0x0C fun i e =>
    let t := namedTurn s cl p e
    let now := s.dieTurn (cl / 9)
    let s := noteIssue s cl p i none
    if now + 49 ≤ t ∧ t ≤ now + 488 then
      let q := partOf cl
      let stop := t + Ent.hintDur e
      incReg
        { s with
          power.varm := sset zeroAt s.power.varm q (max (sget zeroAt s.power.varm q) stop)
          power.hints := s.power.hints ++ [(q, stop, Ent.hintLevel e)] }
        (hPage 9 + Reg.PWR_HINTS) 1
    else incReg s (hPage 9 + Reg.PWR_MARKS) 1)

/-- The 48-bit idle counter of a cause (R395). -/
def idleCount (s : State) (cl c : Nat) : Nat := s.reg64 (clPage 0x17 cl + Reg.IDLE + 8 * c) % 2 ^ 48

/-- The 128 bytes of a MARK (R73). -/
def markRecord (s : State) (cl p e : Nat) : List Byte :=
  let conf := confPresent s
  leBytes 4 (Ent.markMarker e) ++ leBytes 2 ((cl / 9) * 1024 + (cl % 9) * 64) ++ leBytes 1 p ++ leBytes 1 (if conf then 1 else 0) ++
    leBytes 8 s.time.now ++ leBytes 8 (s.reg64 (seqReg cl Reg.ISSUED_LO)) ++
    ((List.range 12).map fun c => leBytes 6 (if conf then 0 else idleCount s cl c)).flatten ++ leBytes 32 0

/-- MARK (R28, R73): the record is written at DADDR, and the issue it counts is its own. -/
def execMark (cl p : Nat) (s : State) : Res :=
  .next (withControl s cl p 0x0D fun i e =>
    let a := Ent.markAddr e
    let s' := noteIssue s cl p i none
    if sameGroup s (partOf cl) (partOf (nsCluster a)) then nsWriteRun s' (entryCtx s cl p i (nsCore a)) a (markRecord s' cl p e)
    else postCtx s' (entryCtx s cl p i 0) Cause.outsidePartition a)

/-- JUMP (R51). -/
def execJump (cl p : Nat) (s : State) : Res :=
  .next (withControl s cl p 0x0E fun i e => noteIssue s cl p i (some (Ent.jumpTarget e)))

/-- END (R50, R52). -/
def execEndEntry (cl p : Nat) (s : State) : Res :=
  .next (withControl s cl p 0x0F fun i e =>
    let s := noteIssue s cl p i (some i)
    let s := if Ent.endEvt e then postCtx s (entryCtx s cl p i 0) Cause.programEnd (tblAddr cl i) else s
    stopProg s cl p 6)

/-- PRIORITY_AGEING (R54): cycles in which a program was ready and did not issue advance its ageing counter; each time it reaches
AGE_INTERVAL the effective priority rises by one level, to 7 at most, and the counter restarts. A program whose entry is held, by
queue room too, does not age (log entry 156). -/
def execPriorityAgeing (cl : Nat) (x : Contender) (s : State) : Res :=
  let p := x.slot
  .next (if runnable s cl p ∧ !entryHeld s cl p then
    let n := (s.prog cl p).age + x.cycles
    let i := max 1 (bf (s.reg (seqReg cl Reg.AGE_INTERVAL)) 15 0)
    setProg s cl p { s.prog cl p with prio := min 7 ((s.prog cl p).prio + n / i), age := n % i }
  else s)

end Sys2Proof.Machine
end

