-- ==== Sys2Proof/Machine/Move.lean ====
section
/-! DEFINITION. MOVE, activation spill and expansion, and their completion (R28, R48, R62, R68, R191 to R194, R199,
R263, R265, R269, R574). The source is read in the step that issues the entry; the destination is written when the
entry completes. -/

namespace Sys2Proof.Machine

/-! ### Places (R62) -/

/-- A near-SRAM address field that names a core of the package. -/
def nsFieldOk (a : Nat) : Bool := decide (a < 2 ^ 36) && decide (bf a 29 26 ≤ 8) && decide (bf a 35 30 ≤ 47)

/-- A table-memory address field of a whole entry. -/
def tblFieldOk (a : Nat) : Bool :=
  decide (a < 2 ^ 26) && decide (bf a 19 16 ≤ 8) && decide (bf a 25 20 ≤ 47) && a % 32 == 0

/-- An address field in its space: 0 near SRAM, 1 GDDR7, 2 table memory (R62, R63). -/
def fieldOk (space a : Nat) : Bool :=
  match space with
  | 0 => nsFieldOk a
  | 1 => decide (a < 2 ^ 39)
  | _ => tblFieldOk a

/-- The cluster of a table-memory address. -/
def tblCluster (a : Nat) : Nat := bf a 25 20 * 9 + bf a 19 16

/-- The reserved encodings of a MOVE (R62, R63, R194): a reserved space, SPILL with other spaces, a length that is no
multiple of 32, an address field beyond its space; the source of a token-only MOVE is not checked (R574). -/
def moveReserved (e : Nat) : Bool :=
  decide (1 < Ent.mvSsp e) || Ent.mvDsp e == 3 ||
    (Ent.mvSpill e && !((Ent.mvSsp e == 0 && Ent.mvDsp e == 1) || (Ent.mvSsp e == 1 && Ent.mvDsp e == 0))) ||
    decide (9 < Ent.mvCfmt e) || Ent.mvLen e % 32 != 0 ||
    !fieldOk (Ent.mvDsp e) (Ent.mvDst e) || (Ent.mvLen e != 0 && !fieldOk (Ent.mvSsp e) (Ent.mvSrc e))

/-- A span passes the end of the near SRAM or table memory it names (R574). -/
def spanOut (space a n : Nat) : Bool :=
  match space with
  | 0 => decide (2 ^ 22 < a % 2 ^ 22 + n)
  | 1 => false
  | _ => decide (65536 < a % 65536 + n)

/-- A near-SRAM or table-memory place lies outside the issuing cluster's partition group (R28). -/
def placeOutside (s : State) (cl space a : Nat) : Bool :=
  match space with
  | 0 => !sameGroup s (partOf cl) (partOf (nsCluster a))
  | 1 => false
  | _ => !sameGroup s (partOf cl) (partOf (tblCluster a))

/-- Why a side of a MOVE is refused: the cause, the slot named second and the address (R28, R263, R265, R574). -/
def sideRefuse (s : State) (cl space a n : Nat) : Option ((Nat × Option Nat) × Nat) :=
  if spanOut space a n then some ((Cause.outOfRange, none), a)
  else if placeOutside s cl space a then some ((Cause.outsidePartition, none), a)
  else if space = 1 then (gRefuse s (actingSlot s cl) (groupParts s (partOf cl)) a n false).map fun r => (r, a)
  else none

/-- The refusal of a MOVE from src for n bytes to dst for m bytes, the source first. -/
def moveRefuse (s : State) (cl e n m : Nat) : Option ((Nat × Option Nat) × Nat) :=
  match sideRefuse s cl (Ent.mvSsp e) (Ent.mvSrc e) n with
  | some r => some r
  | none => sideRefuse s cl (Ent.mvDsp e) (Ent.mvDst e) m

/-- A refused MOVE: its event is posted, no token is, and the entry completes (R28, R574). -/
def refuseMove (s : State) (cl p i : Nat) (r : (Nat × Option Nat) × Nat) : State :=
  let c := entryCtx s cl p i 0
  let s :=
    if r.1.1 = Cause.outOfRange ∨ r.1.1 = Cause.outsidePartition then post s c.page { c.event s r.1.1 r.2 with slot2 := r.1.2 }
    else postRefusal s c r.2 r.1
  issueNothing s cl p i

/-! ### Reading the source -/

/-- The bytes of a source (R62). -/
def moveBytes (s : State) (cl e : Nat) : List Byte :=
  if Ent.mvSsp e = 0 then nsBytes s (actingSlot s cl) (Ent.mvSrc e) (Ent.mvLen e) else gBytes s (Ent.mvSrc e) (Ent.mvLen e)

/-- The line addresses of a near-SRAM span. -/
def spanLines (a n : Nat) : List Nat :=
  if n = 0 then [] else (List.range ((a + n - 1) / 256 + 1 - a / 256)).map fun i => 256 * (a / 256 + i)

/-- What reading the source counts and posts. -/
def noteSource (s : State) (cl p i e : Nat) : State :=
  let c := entryCtx s cl p i 0
  if Ent.mvSsp e = 0 then nsNote s c (spanLines (Ent.mvSrc e) (Ent.mvLen e)) else gNote s c (Ent.mvSrc e) (Ent.mvLen e)

/-- The source of a MOVE lies in a channel that is held: the entry waits for the channel (R257). -/
def sourceHeld (s : State) (e : Nat) : Bool := Ent.mvSsp e == 1 && gHeld s (Ent.mvSrc e) (Ent.mvLen e)

/-- A MOVE met by its row, ready, and no reserved encoding. -/
def withMove (s : State) (cl p : Nat) (mine : Nat → Bool) (k : Nat → Nat → State) : State :=
  withEntry s cl p (fun e => Ent.type e == 3 && mine e) fun i e =>
    if !readyFor s cl p e [.transfer] 0 || sourceHeld s e then blockProg s cl p
    else if moveReserved e then rejectEntry s cl p i Cause.reservedEncoding 0
    else k i e

def isSpill (e : Nat) : Bool := Ent.mvSpill e && Ent.mvSsp e == 0 && Ent.mvDsp e == 1
def isExpand (e : Nat) : Bool := Ent.mvSpill e && Ent.mvSsp e == 1 && Ent.mvDsp e == 0

/-- A MOVE of no bytes: it only posts its token (R574). -/
def tokenOnly (s : State) (cl p i e : Nat) : State :=
  if placeOutside s cl (Ent.mvDsp e) (Ent.mvDst e) then
    refuseMove s cl p i ((Cause.outsidePartition, none), Ent.mvDst e)
  else issueFlight s cl p i e [.transfer] 0 (.data [])

/-- MOVE (R574). -/
def execMove (cl p : Nat) (s : State) : Res :=
  .next (withMove s cl p (fun e => !isSpill e && !isExpand e) fun i e =>
    if Ent.mvLen e = 0 then tokenOnly s cl p i e
    else match moveRefuse s cl e (Ent.mvLen e) (Ent.mvLen e) with
      | some r => refuseMove s cl p i r
      | none => issueFlight (noteSource s cl p i e) cl p i e [.transfer] 0 (.data (moveBytes s cl e)))

/-! ### Spill (R191, R192) -/

/-- The spill descriptor line, or an image header: row length in units of 32 elements and row count. -/
structure SpillShape where
  len32 : Nat
  rows : Nat
  deriving DecidableEq, Repr

/-- Elements of a row. -/
def SpillShape.rowLen (h : SpillShape) : Nat := 32 * h.len32

/-- The rows kept, in order, by the bitmap that begins at byte `at` of a view: a set bit elides. -/
def keptRows (v : ByteView) (base rows : Nat) : List Nat :=
  (List.range rows).filter fun r => bit (v (base + r / 8)).toNat (r % 8) == 0

/-- Bytes of an image's bitmap. -/
def bitmapBytes (rows : Nat) : Nat := ceilDiv rows 256 * 32

/-- Bytes of an image of kept rows (R192). -/
def imageBytes (cfmt : Nat) (h : SpillShape) (kept : Nat) : Nat :=
  32 + bitmapBytes h.rows + 256 * tensorLines cfmt 0 (kept * h.rowLen)

/-- A run of bytes from writes at offsets, zero elsewhere. -/
def layBytes (n : Nat) (ws : List ByteWrite) : List Byte :=
  let m := ssetAll byteZero [] ws
  (List.range n).map fun i => sget byteZero m i

/-- The image of an activation (R192), and the conditions of its conversions (R191). -/
def spillImage (cfmt : Nat) (h : SpillShape) (desc src : ByteView) : List Byte × Counts :=
  let kept := keptRows desc 8 h.rows
  let xs := kept.flatMap fun r => (List.range h.rowLen).map fun j => elemValue src 6 0 (h.rows * h.rowLen) (r * h.rowLen + j)
  let p : ConvParams := { code := cfmt, blk := 0, sat := true, flush := false, src := 6 }
  let t := convertAll p xs
  let header := leBytes 1 cfmt ++ leBytes 1 0 ++ leBytes 2 h.len32 ++ leBytes 2 h.rows ++ leBytes 2 kept.length ++ leBytes 24 0
  let bitmap := (List.range (bitmapBytes h.rows)).map fun b =>
    BitVec.ofNat 8 (((List.range 8).filter fun j => 8 * b + j < h.rows && !kept.contains (8 * b + j)).foldl (fun a j => a + 2 ^ j) 0)
  (header ++ bitmap ++ layBytes (256 * tensorLines cfmt 0 (kept.length * h.rowLen)) t.writes, t.counts)

/-- ACTIVATION_SPILL (R191 to R194). -/
def execActivationSpill (cl p : Nat) (s : State) : Res :=
  .next (withMove s cl p isSpill fun i e =>
    if Ent.mvLen e = 0 then tokenOnly s cl p i e
    else
      let slot := actingSlot s cl
      let core := 2 ^ 22 * (Ent.mvSrc e / 2 ^ 22)
      let desc : ByteView := fun off => nsByte s slot (core + 256 * Ent.mvZmask e + off)
      let h : SpillShape := { len32 := viewLE desc 0 2, rows := viewLE desc 2 2 }
      let cfmt := Ent.mvCfmt e
      if viewLE desc 4 4 != 0 || h.rows == 0 || decide (1984 < h.rows) || Ent.mvLen e != h.rows * h.rowLen * 2 ||
          !(decide (1 ≤ cfmt) && decide (cfmt ≤ 3)) then
        rejectEntry s cl p i Cause.spillSize 0
      else
        let n := imageBytes cfmt h (keptRows desc 8 h.rows).length
        match moveRefuse s cl e (Ent.mvLen e) n with
        | some r => refuseMove s cl p i r
        | none =>
          let im := spillImage cfmt h desc fun off => nsByte s slot (Ent.mvSrc e + off)
          let s := nsNote (noteSource s cl p i e) (entryCtx s cl p i (nsCore (Ent.mvSrc e))) [core + 256 * Ent.mvZmask e]
          issueFlight (noteSticky s cl (nsCore (Ent.mvSrc e)) im.2.sticky) cl p i e [.transfer] 0 (.data im.1))

/-! ### Expansion (R193) -/

/-- The expanded tensor: kept rows as the image holds them, elided rows zero (R193). -/
def expandImage (cfmt : Nat) (h : SpillShape) (img : ByteView) : List Byte :=
  let kept := keptRows img 32 h.rows
  let panels : ByteView := fun off => img (32 + bitmapBytes h.rows + off)
  let per := h.len32
  let kUnits := kept.length * per
  let units := h.rows * per
  let ub := unitBytes cfmt 0
  let ws := kept.zipIdx.flatMap fun ((r, k) : Nat × Nat) => (List.range per).flatMap fun j =>
    ((List.range ub).map fun b => (unitOffset cfmt 0 (r * per + j) + b, panels (unitOffset cfmt 0 (k * per + j) + b))) ++
      [(scaleOffset cfmt 0 units (r * per + j), panels (scaleOffset cfmt 0 kUnits (k * per + j)))]
  layBytes (256 * tensorLines cfmt 0 (units * 32)) ws

/-- SPILL_EXPAND (R193, R194): the image is checked, read and expanded. -/
def execSpillExpand (cl p : Nat) (s : State) : Res :=
  .next (withMove s cl p isExpand fun i e =>
    if Ent.mvLen e = 0 then tokenOnly s cl p i e
    else match moveRefuse s cl e 32 (Ent.mvLen e) with
      | some r => refuseMove s cl p i r
      | none =>
        let img : ByteView := fun off => gByte s (Ent.mvSrc e + off)
        let h : SpillShape := { len32 := viewLE img 2 2, rows := viewLE img 4 2 }
        let cfmt := Ent.mvCfmt e
        let kept := (keptRows img 32 h.rows).length
        if (img 0).toNat != cfmt || (img 1) != 0 || h.rows == 0 || decide (1984 < h.rows) || viewLE img 6 2 != kept ||
            viewLE img 8 24 != 0 || !(decide (1 ≤ cfmt) && decide (cfmt ≤ 3)) ||
            Ent.mvLen e != 256 * tensorLines cfmt 0 (h.rows * h.rowLen) then
          rejectEntry s cl p i Cause.spillSize 0
        else match moveRefuse s cl e (imageBytes cfmt h kept) (Ent.mvLen e) with
          | some r => refuseMove s cl p i r
          | none =>
            issueFlight (gNote s (entryCtx s cl p i 0) (Ent.mvSrc e) (imageBytes cfmt h kept)) cl p i e [.transfer] 0
              (.data (expandImage cfmt h img)))

/-! ### Completion (R52, R68, R199) -/


/-- The cluster that receives a MOVE's token (R63). -/
def moveTokenCluster (cl e : Nat) : Nat :=
  match Ent.mvDsp e with
  | 0 => nsCluster (Ent.mvDst e)
  | 1 => cl
  | _ => tblCluster (Ent.mvDst e)

/-- Writes a MOVE's bytes at its destination; a write into a range being sanded is refused when it reaches the M-die
(R269). True where it was written. -/
def deliverMove (s : State) (f : Flight) (bs : List Byte) : State × Bool :=
  let e := f.entry
  let c := flightCtx s f 0
  let d := Ent.mvDst e
  if bs.isEmpty then (s, true)
  else match Ent.mvDsp e with
    | 0 => (nsWriteRun s { c with core := nsCore d } d bs, true)
    | 1 =>
      if sanding s d bs.length then (postRefusal s c d (Cause.sanding, none), false)
      else (gLand s c d bs, true)
    | _ => (tblWrite s (tblCluster d) (d % 65536) bs, true)

/-- The bytes of a MOVE go to a channel that is held (R257). -/
def moveHeld (s : State) (e : Nat) (bs : List Byte) : Bool := Ent.mvDsp e == 1 && gHeld s (Ent.mvDst e) bs.length

/-- MOVE_COMPLETE (R52, R68, R199): not before a channel that its bytes go to has retrained (R257). -/
def execMoveComplete (f : Nat) (s : State) : Res :=
  .next (match flightOf s f (fun e => Ent.type e == 3) with
    | none => s
    | some fl =>
      match fl.work with
      | .data bs =>
        if moveHeld s fl.entry bs then s else
        let r := deliverMove s fl bs
        let s := removeFlight r.1 f
        if r.2 && Ent.mvPost fl.entry then postToken s (moveTokenCluster fl.cl fl.entry) (Ent.mvPctr fl.entry) else s
      | _ => removeFlight s f)

end Sys2Proof.Machine
end

