-- ==== Sys2Proof/Machine/Switch.lean ====
section
/-! DEFINITION. The switch plan: descriptors, their conversion, pieces and images, the deadline and the abort, and a piece
at its destination (R265, R298 to R304, R306). A descriptor is taken, converted and delivered in one step. -/

namespace Sys2Proof.Machine

def swDone (s : State) (w : Nat) : Nat := bf (s.reg (swReg w Reg.SW_STATE)) 27 8
def swPlan (s : State) (w : Nat) : Nat := s.reg64 (swReg w Reg.SW_PLAN_LO) % 2 ^ 39
def swCount (s : State) (w : Nat) : Nat := bf (s.reg (swReg w Reg.SW_COUNT)) 19 0

/-- The M-die acts under the slot of its job (R265). -/
def swCtx (s : State) (w : Nat) : Ctx := { page := swPage w, die := 48 + w, partition := some w, slot := slotOfPart s w }

/-! ### Descriptors (R299) -/

structure SwitchDesc where
  src : Nat
  rows : Nat
  klen : Nat
  fmt : Nat
  blk : Nat
  layout : Nat
  send : Bool
  image : Bool
  post : Bool
  pctr : Nat
  dpkg : Nat
  stamp : Nat
  dst : Nat
  img : Nat
  links : Nat
  reserved : Bool
  deriving DecidableEq, Repr

/-- The descriptor in 64 bytes, and whether a bit that must be zero is set. -/
def switchDesc (v : ByteView) : SwitchDesc :=
  let g := viewLE v
  let b := g 0x10 1
  { src := g 0 8 % 2 ^ 39, rows := g 8 4 % 2 ^ 24, klen := g 12 4 % 2 ^ 24, fmt := bf b 3 0, blk := bit b 4, layout := bit b 5,
    send := bit b 6 == 1, image := bit b 7 == 1, post := bit (g 0x11 1) 0 == 1, pctr := bf (g 0x11 1) 5 1, dpkg := g 0x12 2 % 1024,
    stamp := g 0x14 4, dst := g 0x18 8 % 2 ^ 36, img := g 0x20 8 % 2 ^ 39, links := g 0x28 4 % 2 ^ 24,
    reserved := decide (2 ^ 39 ≤ g 0 8) || decide (2 ^ 24 ≤ g 8 4) || decide (2 ^ 24 ≤ g 12 4) || decide (64 ≤ g 0x11 1) ||
      decide (1024 ≤ g 0x12 2) || decide (2 ^ 36 ≤ g 0x18 8) || decide (2 ^ 39 ≤ g 0x20 8) || decide (2 ^ 24 ≤ g 0x28 4) || g 0x2C 20 != 0 }

def switchDescAt (s : State) (w i : Nat) : SwitchDesc := switchDesc fun k => gByte s (swPlan s w + 64 * i + k)

def SwitchDesc.elems (d : SwitchDesc) : Nat := d.rows * d.klen
/-- Bytes of the masters' panels, and of the converted ones. -/
def SwitchDesc.srcLen (d : SwitchDesc) : Nat := 256 * tensorLines 8 0 d.elems
def SwitchDesc.outLen (d : SwitchDesc) : Nat := 256 * tensorLines d.fmt d.blk d.elems

/-- A descriptor that breaks R299. -/
def SwitchDesc.broken (d : SwitchDesc) : Bool :=
  d.reserved || d.rows == 0 || d.klen % (if d.layout = 1 then 64 else if d.blk = 1 then 16 else 32) != 0 || decide (5 < d.fmt) ||
    (d.layout == 1 && d.rows % 40 != 0) || (d.image && d.fmt == 5) || d.stamp == 0 || d.dst % 256 != 0 || d.img % 256 != 0 ||
    (d.send && !nsFieldOk d.dst)

/-- A refusal: the cause, the slot named second, and the address named, none for the descriptor's own. -/
structure SwitchRefusal where
  cause : Nat
  slot2 : Option Nat := none
  addr : Option Nat := none
  deriving DecidableEq, Repr

/-- Why M-die w refuses a descriptor (R28, R263, R265, R302). -/
def switchRefuse (s : State) (w : Nat) (d : SwitchDesc) : Option SwitchRefusal :=
  let img := (if d.image then imageRefuse s (some (groupParts s w)) d.img (256 + d.outLen) else none)
  if d.broken then some { cause := Cause.reservedEncoding }
  else if d.src % 256 ≠ 0 then some { cause := Cause.groupMisaligned }
  else if gWindow d.src ≠ w then some { cause := Cause.outsideMemory, addr := some d.src }
  else match gRefuse s (slotOfPart s w) [w] d.src d.srcLen false, img with
    | some r, _ => some { cause := r.1, slot2 := r.2, addr := some d.src }
    | none, some r => some { cause := r.1, slot2 := r.2, addr := some d.img }
    | none, none =>
      if d.send && decide (2 ^ 22 < d.dst % 2 ^ 22 + d.outLen) then some { cause := Cause.outOfRange }
      else if d.image && sanding s d.img (256 + d.outLen) then some { cause := Cause.sanding, addr := some d.img }
      else if d.send && (setBits d.links 24).any fun l => !sameGroup s w (l / 3) then some { cause := Cause.outsidePartition }
      else if d.send && d.dpkg != selfId s && (sourceLinks s d.dpkg d.links).isEmpty then some { cause := Cause.noRoute }
      else none

/-! ### Conversion (R300) -/

/-- The masters in master order: every element of a group that holds 0x7E00 makes its block a NaN block. -/
def masterValues (v : ByteView) (n : Nat) : List Num :=
  ((chunks 128 (tensorValues v 8 0 n)).map fun g => if g.any fun x => x == Num.nan then g.map fun _ => Num.nan else g).flatten

/-- The master index of element i of the output: rows as they stand, or the tiles of R104. -/
def masterIndex (d : SwitchDesc) (i : Nat) : Nat :=
  if d.layout = 0 then i
  else
    let kt := d.klen / 64
    let col := i / 64
    let tile := col / 40
    (40 * (tile / kt) + col % 40) * d.klen + 64 * (tile % kt) + i % 64

/-- The converted bytes, whole lines, with the counts and the NaN blocks. -/
def switchConvert (d : SwitchDesc) (v : ByteView) : List Byte × Counts × Nat :=
  let ms := masterValues v d.elems
  let vs := (List.range d.elems).map fun i => getNth Num.zero ms (masterIndex d i)
  let t := convertAll { code := d.fmt, blk := d.blk, sat := true, flush := false, src := 8 } vs
  (layBytes d.outLen t.writes, t.counts, ((chunks (unitElems d.fmt d.blk) vs).filter fun b => b.any fun x => x == Num.nan).length)

/-! ### Pieces (R301, R302; the layout of their TSPEC is log entry 44) -/

def pieceTspec (d : SwitchDesc) (len : Nat) (slot : Option Nat) : Nat :=
  d.pctr + (if d.post then 2 ^ 5 else 0) + 2 ^ 6 * d.dst + 2 ^ 42 * len + (if slot.isSome then 2 ^ 65 else 0)

def pieceFrames (s : State) (d : SwitchDesc) (slot : Option Nat) (bs : List Byte) : List Frame :=
  let mk := fun (off : Nat) (p : List Byte) =>
    ({ type := 5, vc := 1, src := selfId s, dst := d.dpkg, tslot := slot.getD 0, daddr := d.dst + off,
       tspec := pieceTspec d bs.length slot, payload := p } : Frame)
  if bs.isEmpty then [mk 0 []] else (chunks 4096 bs).zipIdx.map fun (c : List Byte × Nat) => mk (4096 * c.2) c.1

/-- The destination group's slot is the sending job's. -/
def pieceOk (s : State) (cl : Nat) (slot : Option Nat) : Bool := actingSlot s cl == slot

/-- The piece has come whole: its token, and the event of a refusal (R302). -/
def endPiece (s : State) (cl ctr : Nat) (post' ok : Bool) (dst src : Nat) (slot : Option Nat) : State :=
  let s := if ok then s else
    post s (clPage 0x12 cl)
      { cause := Cause.outsidePartition, die := cl / 9, time := s.time.now, partition := some (partOf cl), op1 := dst, pkg := src,
        slot1 := slot, slot2 := actingSlot s cl }
  if post' then postToken s cl ctr else s

/-- A piece for the own package travels over the mesh, within the group of M-die 48 + w (R28, R301). -/
def localPiece (s : State) (w : Nat) (d : SwitchDesc) (slot : Option Nat) (bs : List Byte) : State :=
  let cl := nsCluster d.dst
  let ok := bs.isEmpty || (pieceOk s cl slot && sameGroup s w (partOf cl))
  let s := if ok then nsWriteRun s (epCtx s cl (nsCore d.dst)) d.dst bs else s
  endPiece s cl d.pctr d.post ok d.dst (selfId s) slot

def sendPiece (s : State) (w : Nat) (d : SwitchDesc) (slot : Option Nat) (bs : List Byte) : State :=
  if d.dpkg = selfId s then localPiece s w d slot bs
  else
    let ls := sourceLinks s d.dpkg d.links
    if ls.isEmpty then s else sendFrames s ls none (pieceFrames s d slot bs)

/-- A piece frame at the package that receives it. -/
def takePiece (s : State) (l : Nat) (f : Frame) : State :=
  let s := freeFlits s l f
  let base := bf f.tspec 41 6
  let len := bf f.tspec 64 42
  let slot := if bit f.tspec 65 = 1 then some f.tslot else none
  let cl := nsCluster base
  if !nsFieldOk base || !nsFieldOk f.daddr || nsCluster f.daddr != cl then s
  else
    let ok := len == 0 || pieceOk s cl slot
    let fits := decide (f.daddr % 2 ^ 22 + f.payload.length ≤ 2 ^ 22)
    let s := if ok && fits then nsWriteRun s (epCtx s cl (nsCore f.daddr)) f.daddr f.payload else s
    let mine := fun (x : PieceCount) => x.src == f.src && x.base == base
    let got := ((s.net.pieces.find? mine).map (·.got)).getD 0 + f.payload.length
    let rest := s.net.pieces.filter fun x => !mine x
    if got < len then { s with net.pieces := rest ++ [{ src := f.src, base := base, got := got }] }
    else endPiece { s with net.pieces := rest } cl (f.tspec % 32) (bit f.tspec 5 == 1) ok base f.src slot

/-- SWITCH_PIECE (R301, R302, R358, R477, R513). -/
def execSwitchPiece (l : Nat) (f : Frame) (a : Arrival) (s : State) : Res :=
  .next (receiveFrame s l f a 5 true fun s => takePiece s l f)

/-! ### The plan (R298, R302, R304) -/

/-- The plan ends: 2 done, 3 aborted. -/
def endPlan (s : State) (w st : Nat) : State :=
  let s := setReg (setField s (swReg w Reg.SW_STATE) 1 0 st) (swReg w Reg.SW_ABORT) 0
  setReg64 (setReg s (swReg w Reg.SW_CTRL) 0) (swReg w Reg.SW_END_LO) s.turn

/-- A refused descriptor (R302): its cause and "switch descriptor refused" are posted, and its token still goes. -/
def refuseSwitch (s : State) (w i : Nat) (d : SwitchDesc) (r : SwitchRefusal) : State :=
  let c := swCtx s w
  let s := match r.addr with
    | some a => postRefusal s c a (r.cause, r.slot2)
    | none => post s c.page { c.event s r.cause (swPlan s w + 64 * i) with pkg := if r.cause = Cause.noRoute then d.dpkg else 0 }
  let s := incReg (post s c.page (c.event s Cause.switchDescriptorRefused i)) (swReg w Reg.SW_REFUSED) 1
  if d.post && d.send && nsFieldOk d.dst then sendPiece s w d (slotOfPart s w) [] else s

/-- A descriptor converted: its image, its piece and its counts. -/
def runSwitch (s : State) (w : Nat) (d : SwitchDesc) : State :=
  let c := swCtx s w
  let r := switchConvert d fun k => gByte s (d.src + k)
  let s := gNote s c d.src d.srcLen
  let s := if d.image then
      gWrite (gWrite s c (d.img + 256) r.1) c d.img (headBytes d.stamp d.fmt d.blk d.layout d.rows d.klen)
    else s
  let s := if d.send then sendPiece s w d (slotOfPart s w) r.1 else s
  let s := incReg (incReg (incReg s (swReg w Reg.SW_SAT) r.2.1.sat) (swReg w Reg.SW_NAN) r.2.2) (swReg w Reg.SW_BUMPS) r.2.1.bumps
  incReg64 s (swReg w Reg.SW_BYTES_LO) 64 (257 * ceilDiv d.elems 128)

/-- Descriptor i, read and acted on; one that lies above D, in the catch share or in a region of another slot is refused unread
(R263, R265). -/
def takeSwitch (s : State) (w i : Nat) : State :=
  let a := swPlan s w + 64 * i
  match gRefuse s (slotOfPart s w) [w] a 64 false with
  | some r =>
    let c := swCtx s w
    incReg (post (postRefusal s c a r) c.page (c.event s Cause.switchDescriptorRefused i)) (swReg w Reg.SW_REFUSED) 1
  | none =>
    let d := switchDescAt s w i
    let s := gNote s (swCtx s w) a 64
    match switchRefuse s w d with
    | some r => refuseSwitch s w i d r
    | none => runSwitch s w d

/-- The channels that descriptor i of a plan reads or writes are not held (R257). -/
def switchHeld (s : State) (w i : Nat) : Bool :=
  let d := switchDescAt s w i
  gHeld s (swPlan s w + 64 * i) 64 || gHeld s d.src d.srcLen || (d.image && gHeld s d.img (256 + d.outLen))

/-- SWITCH_DESCRIPTOR (R298, R300 to R304): the next of the plan of M-die w, or its abort. -/
def execSwitchDescriptor (w : Nat) (s : State) : Res :=
  .next (if 8 ≤ w ∨ swState s w ≠ 1 then s
    else if s.reg (swReg w Reg.SW_ABORT) = 1 then endPlan s w 3
    else if switchHeld s w (swDone s w) then s
    else
      let i := swDone s w
      let s := takeSwitch s w i
      let s := setField s (swReg w Reg.SW_STATE) 27 8 (i + 1)
      if swCount s w ≤ i + 1 then endPlan s w 2 else s)

/-- The deadline turn has come and the plan runs (R304). -/
def checkOverrun (s : State) (w t : Nat) : State :=
  let dl := s.reg64 (swReg w Reg.SW_DL_LO) % 2 ^ 54
  if swState s w = 1 ∧ dl ≠ 0 ∧ dl ≤ t ∧ bit (s.reg (swReg w Reg.SW_STATE)) 4 = 0 then
    let s := setField s (swReg w Reg.SW_STATE) 4 4 1
    post s (swPage w) ((swCtx s w).event s Cause.switchOverrun (swDone s w))
  else s

/-- SWITCH_OVERRUN (R304). -/
def execSwitchOverrun (w : Nat) (s : State) : Res := .next (if w < 8 then checkOverrun s w s.turn else s)

end Sys2Proof.Machine
end

