-- ==== Sys2Proof/Machine/Tenants.lean ====
section
/-! DEFINITION. The root of trust and the tenant slots: measurements, quotes, loading and parting (R422 to R450). Keys
and signatures stand as numbers and opaque results (log entry 60). -/

namespace Sys2Proof.Machine

/-! ### Measurements (R426) -/

def attReg (off : Nat) : Nat := hPage 7 + off
def attBit (s : State) (b : Nat) : Bool := bit (s.reg (attReg Reg.ATT_STATE)) b == 1
def setAtt (s : State) (b : Nat) (v : Bool) : State :=
  setReg s (attReg Reg.ATT_STATE) (setBit (s.reg (attReg Reg.ATT_STATE)) b v)

/-- The 32 bytes of measurement register r. -/
def mrBytes (s : State) (r : Nat) : List Byte :=
  (List.range 8).flatMap fun i => leBytes 4 (s.reg (attReg (Reg.MR + 32 * r + 4 * i)))

def setMr (s : State) (r : Nat) (bs : List Byte) : State :=
  (List.range 8).foldl (fun s i => setReg s (attReg (Reg.MR + 32 * r + 4 * i)) (leNat ((bs.drop (4 * i)).take 4))) s

/-- MR := SHA3-256(MR ‖ d). -/
def extendMr (s : State) (r : Nat) (d : List Byte) : State := setMr s r (sha3 (mrBytes s r ++ d))

/-- MR2 is extended by a configuration entry: kind 1 ownership, 2 slot loaded, 3 slot parted, 4 region entry (log entry
56); the entry of an admission stands as kind 0. -/
def extendConfig (s : State) (kind slot parts conf turn : Nat) : State :=
  extendMr s 2 (sha3 (Config.configEntry kind slot parts conf turn))

/-! ### Slots (R436 to R441, R448) -/

def slotDefault (_ : Nat) : SlotKeys := {}
def keysOf (s : State) (k : Nat) : SlotKeys := sget slotDefault s.tenant.keys k
def setKeys (s : State) (k : Nat) (v : SlotKeys) : State :=
  { s with tenant.keys := sset slotDefault s.tenant.keys k v }

/-- A slot that is confidential and present (R448). -/
def slotConf (s : State) (k : Nat) : Bool := slotState s k != 0 && bit (s.reg (slotKey Reg.SLOT_STATE k)) 3 == 1
def confMask (s : State) : Nat := ((List.range 64).filter fun k => slotConf s k).foldl (fun m k => m + 2 ^ k) 0

/-- CONF_MASK and CONF_PRESENT follow the slots. -/
def refreshConf (s : State) : State :=
  let m := confMask s
  let s := setReg (setReg s (hPage 8 + Reg.CONF_MASK_LO) m) (hPage 8 + Reg.CONF_MASK_HI) (m / 2 ^ 32)
  setAtt s 5 (m != 0)

/-- The link key in the staging store, byte 0 lowest. -/
def stagedKey (s : State) : Nat := ((List.range 8).map fun i => sget zeroAt s.tenant.staging i * 2 ^ (32 * i)).foldl (· + ·) 0

def slotField (s : State) (k hi lo v : Nat) : State := setField s (slotKey Reg.SLOT_STATE k) hi lo v

/-- Slot k is loaded by the commit of turn t (R436, R438): fresh keys, the staged link key, counters at zero. -/
def loadSlot (s : State) (k t : Nat) : State :=
  let n := s.tenant.loads + 1
  let cfg := s.reg (slotKey Reg.SLOT_CFG k)
  let s := setKeys s k
    { load := n, data := Config.freshKey (4 * n), tweak := Config.freshKey (4 * n + 1), far := Config.freshKey (4 * n + 2),
      link := stagedKey s }
  let s := { s with tenant.loads := n, tenant.staging := [], tenant.ivs := s.tenant.ivs.filter fun e => e.1 / 32 != k }
  let s := setReg (setReg s (slotKey Reg.SLOT_SERIAL_LO k) 0) (slotKey Reg.SLOT_SERIAL_HI k) 0
  let s := slotField (slotField (slotField (slotField s k 1 0 1) k 2 2 1) k 3 3 (bit cfg 2)) k 31 16 0
  refreshConf (extendConfig s 2 k (bf cfg 15 8) (bit cfg 2) t)

/-! ### Parting (R442 to R447) -/

/-- The clusters of the partitions of a mask. -/
def clustersOf (parts : Nat) : List Nat := (List.range 432).filter fun cl => bit parts (partOf cl) == 1

/-- Programs of the clusters of a mask halt; switch plans of its M-dies stop (R304, R442 step 1). -/
def haltGroup (s : State) (parts : Nat) : State := (clustersOf parts).foldl (fun s cl => haltMask s cl 255 5) s
def stopPlans (s : State) (parts : Nat) : State :=
  (setBits parts 8).foldl (fun s w => if swState s w = 1 then endPlan s w 3 else s) s

/-- The model slots of a tenant slot are disabled. -/
def disableModels (s : State) (k parts : Nat) : State :=
  (List.range 64).foldl (fun s m =>
    let c := s.reg (blkKey Reg.BLK_CFG m)
    if bit c 0 = 1 ∧ bf c 9 4 = k ∧ bf c 23 16 &&& parts ≠ 0 then setFieldBoth s (blkKey Reg.BLK_CFG m) 0 0 0 else s) s

/-- JOB_PIN of partition p: base version, adapter version and index, model slot, VALID (R286). -/
def jobPinKey (p : Nat) : Nat := blkPage + Reg.JOB_PIN + 8 * p
def jobFpinKey (p : Nat) : Nat := blkPage + Reg.JOB_FPIN + 4 * p

/-- The pins of a pair of JOB_PIN words, and of a JOB_FPIN word, taken or released. -/
def moveJobPin (s : State) (w0 w1 : Nat) (up : Bool) : State :=
  if bit w0 31 = 0 then s
  else pinAdapter (pinBase s (bf w0 25 20) (bf w0 19 0) up) (bf w0 25 20) (some (bf w1 31 20)) (bf w1 19 0) up
def moveFpin (s : State) (w : Nat) (up : Bool) : State :=
  if bit w 31 = 0 then s else pinBase s (bf w 25 20) (bf w 19 0) up

/-- JOB_PIN and JOB_FPIN of partition p are cleared. -/
def clearJobPins (s : State) (p : Nat) : State :=
  let s := moveJobPin s (s.reg (jobPinKey p)) (s.reg (jobPinKey p + 4)) false
  let s := moveFpin s (s.reg (jobFpinKey p)) false
  setBoth (setBoth (setBoth s (jobPinKey p) 0) (jobPinKey p + 4) 0) (jobFpinKey p) 0

/-- Entries that hold descriptors of an engine: MOVE, XCHG, REDUCE and GATHER (R442 step 2). -/
def hasDescriptor (f : Flight) : Bool := decide (3 ≤ Ent.type f.entry) && decide (Ent.type f.entry ≤ 6)

/-- A flight in a cluster of a mask. -/
def inGroup (parts : Nat) (f : Flight) : Bool := bit parts (partOf f.cl) == 1

/-- Flights are dropped: they complete at the drop, their frames that wait to leave go with them, buckets that nothing
registers any longer go (R443), and what waited for their units goes on (R173). -/
def dropFlights (s : State) (mine : Flight → Bool) : State :=
  let gone := (s.seq.flights.filter mine).map fun f => f.id
  let fs := s.seq.flights.filter fun f => !mine f
  let live := fs.filterMap fun f => match f.work with | .reduce r => some r.tag | _ => none
  settleUnits
    { s with
      seq.flights := fs
      net.links := s.net.links.map fun e =>
        (e.1, { e.2 with tx := e.2.tx.filter fun x => (match x.owner with | none => true | some o => !gone.contains o) })
      net.buckets := s.net.buckets.filter fun b => live.contains b.tag }

/-- The writes of a group's MOVEs that M-dies have accepted and hold behind channels that retrain (R257, R442 step 3). -/
def acceptedMoves (s : State) (parts : Nat) : List HeldWrite :=
  s.seq.flights.filterMap fun f =>
    match f.work with
    | .data bs =>
      if inGroup parts f && Ent.type f.entry == 3 && !bs.isEmpty && moveHeld s f.entry bs && flightFirst s f then
        some { ctx := flightCtx s f 0, addr := Ent.mvDst f.entry, bytes := bs } else none
    | _ => none

/-- The table copies of a group go, and its sampler's records that wait for rings. -/
def dropCopies (s : State) (parts : Nat) : State :=
  let gone := s.seq.copies.filter fun c => bit parts (partOf c.cl) == 1
  gone.foldl (fun s c => setField s (seqReg c.cl Reg.TBL_CTRL) 31 31 0)
    { s with seq.copies := s.seq.copies.filter fun c => !gone.contains c }

/-- Descriptors queued for a group of partitions go, the writes that M-dies have accepted stay (R442 steps 2 and 3, R528). -/
def dropGroup (s : State) (parts : Nat) : State :=
  let held := acceptedMoves s parts
  let s := dropFlights (dropCopies s parts) fun f => inGroup parts f && hasDescriptor f
  { s with mem.waiting := s.mem.waiting ++ held }

/-- The sampler's records of a group that wait for rings are dropped (R442 step 2). -/
def dropRecords (s : State) (parts : Nat) : State :=
  { s with
    seq.flights := s.seq.flights.map fun f =>
      match f.work with
      | .records _ => if inGroup parts f then { f with work := .records [] } else f
      | _ => f }

/-- The descriptors that a group's entries and table copies have queued, and no M-die has accepted a write of (R447 count 1). -/
def descriptorsHeld (s : State) (parts : Nat) : Nat :=
  (s.seq.flights.filter fun f => inGroup parts f && hasDescriptor f).length - (acceptedMoves s parts).length +
    (s.seq.copies.filter fun c => bit parts (partOf c.cl) == 1).length

/-- REDUCE frames held for buckets of the group are discarded (R447). -/
def dropHeldReduces (s : State) (parts : Nat) : State :=
  { s with net.held := s.net.held.filter fun h => bit parts (partOf h.cl) == 0 }

/-- A load of the group: its list lies in a window of the group. -/
def loadOfGroup (parts : Nat) (l : Load) : Bool := bit parts (gWindow l.list) == 1

/-- The storage engines' work for slot k and its windows, dropped, with the host reads it waited for. -/
def dropStorage (s : State) (k parts : Nat) : State :=
  let host := s.storage.host.filter fun x => x.slot == some k
  { s with
    storage.loads := s.storage.loads.filter fun l => !loadOfGroup parts l
    storage.far := s.storage.far.filter fun x => x.slot != some k
    storage.host := s.storage.host.filter fun x => x.slot != some k
    port.reads := s.port.reads.filter fun x => !(host.any fun t => x.why == .store t.id) }

/-- Loads, far transfers and host transfers of slot k in progress. -/
def storageHeld (s : State) (k parts : Nat) : Nat :=
  (s.storage.loads.filter fun l => loadOfGroup parts l).length + (s.storage.far.filter fun x => x.slot == some k).length +
    (s.storage.host.filter fun x => x.slot == some k).length

/-- The rings of slot k. -/
def ringsOf (s : State) (k parts : Nat) : List Nat :=
  (List.range 4096).filter fun n => ringSlot s n == k && ringKind s n != 0 && ringParts s n &&& parts != 0

/-- The pools of slot k. -/
def poolsOf (s : State) (k : Nat) : List Nat := (List.range 16).filter fun p => kvpOn s p && kvpSlot s p == k

/-- The lists of pool k go, and all its frames are free (R338, R340). -/
def dropPool (s : State) (k : Nat) : State :=
  let s := ((List.range (kvpLists s k)).filter fun j => (listHead s k j).valid).foldl (fun s j =>
    setList s k j { listHead s k j with valid := false }) s
  ((List.range (kvpFrames s k)).filter fun i => dKind (pageDesc s k i) != 0).foldl (fun s i => setDesc s k i 0) s

/-- Requests, families, prefixes, lists and parked entries of slot k go without records, their pins are released, and the
commands left in its queues are dropped (R338, R442 step 2). -/
def dropServing (s : State) (k parts : Nat) : State :=
  let ps := poolsOf s k
  let rs := s.serving.reqs.filter fun r => ps.contains r.pool
  let s := rs.foldl (fun s r => if r.st == .parked || r.st == .restoring || r.st == .parking then s else releasePins s r) s
  let s := (ringsOf s k parts).foldl (fun s n =>
    let r := s.ring n
    setRing s n { r with cons := if ringKind s n = 2 then r.prod else r.cons, fetched := if ringKind s n = 2 then r.prod else r.fetched, pend := [], held := [] }) s
  let s := ps.foldl dropPool s
  { s with
    serving.done := s.serving.done.filter fun e => !(ringsOf s k parts).contains e.1
    serving.reqs := s.serving.reqs.filter fun r => !ps.contains r.pool
    serving.fams := s.serving.fams.filter fun e => (match e.2 with | none => true | some f => !ps.contains f.pool)
    serving.pfxs := s.serving.pfxs.filter fun e => (match e.2 with | none => true | some f => !ps.contains f.pool)
    serving.parked := s.serving.parked.filter fun e => (match e.2 with | none => true | some f => !ps.contains f.pool)
    serving.freeing := s.serving.freeing.filter fun e => !ps.contains e.1
    port.reads := s.port.reads.filter fun x =>
      (match x.why with | .commands n => !(ringSlot s n == k && ringParts s n &&& parts != 0) | .store _ => true) }

/-- What step 2 drops of the serving state: requests, their lists and parked entries, summed (R447). -/
def servingHeld (s : State) (k : Nat) : Nat :=
  let ps := poolsOf s k
  let rs := s.serving.reqs.filter fun r => ps.contains r.pool
  rs.length + ((rs.filter fun r => r.st != .parked).map fun r => r.h).foldl (· + ·) 0 +
    (s.serving.parked.filter fun e => (match e.2 with | none => false | some f => ps.contains f.pool)).length

/-- Parting begins at the boundary of turn P (R442 steps 1 and 2). -/
def beginPart (s : State) (k t : Nat) : State :=
  let parts := slotParts s k
  let s := slotField (slotField s k 1 0 2) k 31 24 3
  let s := { s with tenant.parting := sset zeroAt s.tenant.parting k t }
  let s := (List.range 7).foldl (fun s i => setReg s (slotKey (Reg.PART_CNT + 4 * i) k) 0) s
  let s := stopPlans (haltGroup s parts) parts
  let s := (setBits parts 8).foldl clearJobPins (disableModels s k parts)
  let n := descriptorsHeld s parts + storageHeld s k parts
  let s := setReg (setReg s (slotKey (Reg.PART_CNT + 4) k) n) (slotKey (Reg.PART_CNT + 8) k) (servingHeld s k)
  dropServing (dropStorage (dropRecords (dropHeldReduces (dropGroup s parts) parts) parts) k parts) k parts

/-- The writes of slot k that M-dies have accepted and not performed (R442, R444). -/
def heldOf (s : State) (k : Nat) : List HeldWrite := s.mem.waiting.filter fun x => x.ctx.slot == some k

/-- Every unit of slot k reports quiet: it holds no entry or table copy of the slot's clusters, no transfer of the slot, and no
write of it that waits at an M-die. -/
def slotQuiet (s : State) (k : Nat) : Bool :=
  let parts := slotParts s k
  (s.seq.flights.all fun f => !inGroup parts f) && (s.seq.copies.all fun c => bit parts (partOf c.cl) == 0) &&
    storageHeld s k parts == 0 && (heldOf s k).isEmpty

/-- Ranges in region-entry order (R268). -/
def byEntry (a b : SandRange) : Bool := decide ((a.parting.map (·.2)).getD 16 ≤ (b.parting.map (·.2)).getD 16)

/-- Ranges join a parting list: in region-entry order, behind a range in progress (R268). -/
def joinParting (l q : List SandRange) : List SandRange :=
  match l with
  | r :: rest => if r.left < r.size then r :: sortBy byEntry (rest ++ q) else sortBy byEntry (l ++ q)
  | [] => sortBy byEntry q

/-- The regions of slot k in M-die w are queued for sanding, the parting list first (R268, R442 step 7). -/
def queueRegions (s : State) (k w : Nat) : State :=
  let rs := (regions s w).zipIdx.filter fun x => x.1.enable && x.1.slot == k
  if rs.isEmpty then s
  else
    let q := rs.map fun x => ({ base := x.1.base, size := x.1.size, left := x.1.size, urgent := true, parting := some (k, x.2) } : SandRange)
    let s := if (sandRanges s w).isEmpty then sandMark s w else s
    refreshSand { s with mem.partList := sset nilAt s.mem.partList w (joinParting (sget nilAt s.mem.partList w) q) } w 3

/-- The slot's rings are zeroed and returned to unused (R442 step 7). -/
def zeroRing (s : State) (n : Nat) : State :=
  let lo := ringBase s n
  let hi := lo + recordBytes (ringKind s n) * ringCap s n
  let s := { s with serving.ringMem := s.serving.ringMem.filter fun e => decide (e.1 < lo) || decide (hi ≤ e.1) }
  setBoth (setRing s n {}) (ringReg Reg.RING_CFG n) 0

/-- Steps 5 to 7 at one boundary (R442 to R445): the keys go, the slot is retired, what its cores still computed is
cleared, the writes that M-dies still hold are dropped and counted as forced, the epoch advances, regions and rings are taken
back. -/
def zeroise (s : State) (k : Nat) : State :=
  let parts := slotParts s k
  let s := incReg (setKeys s k {}) (slotKey (Reg.PART_CNT + 16) k) (heldOf s k).length
  let s := dropCopies { s with mem.waiting := s.mem.waiting.filter fun x => x.ctx.slot != some k } parts
  let s := dropStorage (dropFlights s (inGroup parts)) k parts
  let s := { s with seq.arrays := s.seq.arrays.filter fun e => bit parts (partOf (e.1 / 16)) == 0 }
  let s := slotField (slotField (slotField s k 1 0 3) k 2 2 0) k 31 24 7
  let s := advanceEpoch s k
  let s := (List.range 8).foldl (fun s w => queueRegions s k w) s
  (ringsOf s k parts).foldl zeroRing s

/-- P of a parting. -/
def partingTurn (s : State) (k : Nat) : Nat := sget zeroAt s.tenant.parting k

/-- KEY_ZEROISE (R442): the first boundary after every unit reports quiet. -/
def execKeyZeroise (k : Nat) (s : State) : Res :=
  .next (if k < 64 ∧ slotState s k = 2 ∧ slotQuiet s k ∧ partingTurn s k < s.turn then zeroise s k else s)

/-- FORCED_ZEROISE (R444): at P + 16. -/
def execForcedZeroise (k : Nat) (s : State) : Res :=
  .next (if k < 64 ∧ slotState s k = 2 ∧ !slotQuiet s k ∧ partingTurn s k + 16 ≤ s.turn then zeroise s k else s)

/-- The region entries of slot k are disabled (R442 step 8). -/
def disableRegions (s : State) (k : Nat) : State :=
  (List.range 8).foldl (fun s w =>
    ((regions s w).zipIdx.filter fun x => x.1.enable && x.1.slot == k).foldl (fun s x =>
      setFieldBoth s (memPage w + Reg.REGION + 8 * x.2) 15 15 0) s) s

/-- A range of slot k's parting is still to be sanded. -/
def partingLeft (s : State) (k : Nat) : Bool :=
  (List.range 8).any fun w => (sget nilAt s.mem.partList w).any fun r => r.parting.any fun x => x.1 == k

/-- PARTING_COMPLETE (R442 step 8, R447, R527): the last range is sanded. -/
def execPartingComplete (k : Nat) (s : State) : Res :=
  .next (if 64 ≤ k ∨ slotState s k ≠ 3 ∨ partingLeft s k then s
    else
      let parts := slotParts s k
      let conf := bit (s.reg (slotKey Reg.SLOT_STATE k)) 3
      let p := partingTurn s k
      let s := disableRegions s k
      let s := setFieldBoth s (slotKey Reg.SLOT_CFG k) 15 8 0
      let s := slotField (slotField s k 3 0 0) k 31 16 0
      let s := extendConfig (refreshConf s) 3 k parts conf s.turn
      let s := { s with tenant.parting := sset zeroAt s.tenant.parting k 0 }
      let s := post s (hPage 8)
        { cause := Cause.partingComplete, die := 63, time := s.time.now, partition := lowPart parts, slot1 := some k, op1 := p }
      let rcl := s.reg (hPage 0x0F + Reg.RCL_STATE)
      if bf rcl 2 0 = 4 ∧ bf rcl 15 8 &&& parts ≠ 0 then
        setField { s with reclaim.parted := s.turn } (hPage 0x0F + Reg.RCL_STATE) 2 0 5
      else s)

/-! ### The signed objects of flash and the identity key (R422 to R424) -/

/-- The vendor key and the test record that flash holds. -/
def vendorKey (s : State) : List Byte := (List.range 1312).map fun i => flashByte s i
def testRecord (s : State) : List Byte := (List.range 0x100000).map fun i => flashByte s (0x100000 + i)

/-- The identity public key. -/
def idKey (s : State) : List Byte := padTo 1312 0 (Config.publicKey s.tenant.seed)

/-! ### Quotes (R427, R428) -/

/-- The bytes of a text. -/
def ascii (t : String) : List Byte := t.toList.map fun c => BitVec.ofNat 8 c.toNat

/-- The message that FIPS 204 signs under a context string. -/
def fipsMessage (ctx : String) (m : List Byte) : List Byte := [0] ++ leBytes 1 (ascii ctx).length ++ ascii ctx ++ m

/-- The first 0x180 bytes of a quote. -/
def quoteBody (s : State) (report : List Byte) : List Byte :=
  leBytes 4 1 ++ leBytes 4 (s.reg (hPage 1 + Reg.ID_VALUE)) ++ leBytes 8 s.time.now ++ padTo 32 0 report ++
    (List.range 8).flatMap (mrBytes s) ++ leBytes 4 (s.reg (attReg Reg.ATT_STATE)) ++ leBytes 4 0 ++
    ((List.range 8).flatMap fun p => leBytes 1 ((slotOfPart s p).getD 255)) ++ leBytes 8 (confMask s) ++ leBytes 24 0 ++
    sha3 (idKey s)

/-- A quote: the body and its signature, hedged afresh; ATT_QUOTES counts it. -/
def makeQuote (s : State) (report : List Byte) : State × List Byte :=
  let b := quoteBody s report
  let sig := padTo 2420 0 (Config.sign s.tenant.seed (fipsMessage "MDN-T64 quote" b) s.freeCount)
  (incReg { s with freeCount := s.freeCount + 1 } (attReg Reg.ATT_QUOTES) 1, b ++ sig)

/-! ### Port keys (R429 to R432) -/

/-- ATTESTATION_REQUEST (R425, R428, R429): the quote and the encapsulation key of a fresh pair. -/
def execAttestationRequest (h : PortHead) (tag : Nat) (nonce : List Byte) (s : State) : Res :=
  .next (withPort s 0xA h fun s =>
    if portKeyed s ∨ !attBit s 0 then s
    else
      let ek := padTo 1184 0 (Config.encapsKey s.freeCount)
      let s := { s with freeCount := s.freeCount + 1 }
      let q := makeQuote s (sha3 (nonce ++ ek))
      let s := { q.1 with port.exchange := some { tag := tag, quote := q.2, ek := ek } }
      sendPort (sendPort s { type := 0xA, tag := tag, payload := q.2 }) { type := 9, tag := tag, payload := ek })

/-- KEY_ESTABLISHMENT (R429, R430): a ciphertext of the length of ML-KEM-768 decapsulates; any other fails. -/
def execKeyEstablishment (h : PortHead) (tag : Nat) (ct : List Byte) (s : State) : Res :=
  .next (withPort s 9 h fun s =>
    if portKeyed s then s
    else match s.port.exchange with
      | none => dropPort s
      | some x =>
        let s := { s with port.exchange := none }
        if ct.length ≠ 1088 then dropPort s
        else
          let ss := padTo 32 0 (Config.sharedSecret x.ek ct)
          let t := sha3 (x.quote ++ x.ek ++ ct)
          let s := { s with
            port.down := leNat (sha3 (ascii "WLS down" ++ ss ++ t))
            port.up := leNat (sha3 (ascii "WLS up" ++ ss ++ t))
            port.salt := leNat ((sha3 (ascii "WLS salt" ++ ss ++ t)).take 4)
            port.downCtr := 0, port.upCtr := 0 }
          let s := setField (setAtt s 1 true) (portReg Reg.PORT_STATE) 2 2 1
          sendPort s { type := 9, tag := tag })

/-! ### Mailbox requests of the trusted domain (R433) -/

/-- QUOTE (R425, R428). -/
def execQuote (h : PortHead) (tag : Nat) (nonce : List Byte) (s : State) : Res :=
  .next (withMail s h tag 0x20 fun s =>
    if !attBit s 0 then s
    else
      let q := makeQuote s nonce
      answer q.1 tag 0x20 Mail.done 0 q.2)

/-- IDENTITY (R433): the identity public key and the endorsement of the test record. -/
def execIdentityReq (h : PortHead) (tag : Nat) (s : State) : Res :=
  .next (withMail s h tag 0x21 fun s =>
    answer s tag 0x21 Mail.done 0 (idKey s ++ padTo 2420 0 (Config.endorsement (testRecord s))))

/-- SLOT_LOAD (R432, R433, R439, R441): the request writes the page's shadow and its link key, and waits for the commit. -/
def execSlotLoad (h : PortHead) (tag slot conf parts : Nat) (key : List Byte) (s : State) : Res :=
  .next (withMail s h tag 0x22 fun s =>
    if !admitted s then reply s tag 0x22 Mail.notAdmitted
    else if 63 < slot ∨ 1 < conf ∨ 255 < parts ∨ key.length ≠ 32 then reply s tag 0x22 Mail.reservedEncoding
    else if (commitOf s (hPage 8)).isSome then reply s tag 0x22 Mail.busy
    else
      let s := setShd s (slotKey Reg.SLOT_CFG slot) (1 + 4 * conf + 256 * parts)
      let ws := (List.range 8).map fun i => (i, leNat ((key.drop (4 * i)).take 4))
      let s := { s with tenant.staging := ssetAll zeroAt s.tenant.staging ws }
      awaitCommit (addCommit s (hPage 8) none) tag 0x22 (hPage 8))

/-- SLOT_PART (R432, R433, R441, R442). -/
def execSlotPart (h : PortHead) (tag slot turn : Nat) (s : State) : Res :=
  .next (withMail s h tag 0x23 fun s =>
    if !admitted s then reply s tag 0x23 Mail.notAdmitted
    else if 63 < slot ∨ 2 ^ 54 ≤ turn then reply s tag 0x23 Mail.reservedEncoding
    else if slotState s slot ≠ 1 then
      let s := post s (hPage 8) { cause := Cause.slotBusy, die := 63, time := s.time.now, slot1 := some slot }
      reply s tag 0x23 Mail.refused
    else if (commitOf s (hPage 8)).isSome then reply s tag 0x23 Mail.busy
    else
      let s := setShd s (slotKey Reg.SLOT_CFG slot) (setBf (s.reg (slotKey Reg.SLOT_CFG slot)) 1 0 2)
      reply (addCommit s (hPage 8) (if turn = 0 then none else some turn)) tag 0x23 Mail.accepted)

/-- EXTEND (R426, R433). -/
def execExtend (h : PortHead) (tag r : Nat) (bytes : List Byte) (s : State) : Res :=
  .next (withMail s h tag 0x24 fun s =>
    if r < 5 ∨ 7 < r ∨ bytes.length ≠ 32 then reply s tag 0x24 Mail.reservedEncoding
    else reply (extendMr s r bytes) tag 0x24 Mail.done)

/-- REKEY (R431): the answer leaves under the old keys. -/
def execRekey (h : PortHead) (tag : Nat) (s : State) : Res :=
  .next (withMail s h tag 0x25 fun s =>
    let s := reply s tag 0x25 Mail.done
    let next := fun (k : Nat) => leNat (sha3 (ascii "WLS rekey" ++ leBytes 32 k))
    { s with port.down := next s.port.down, port.up := next s.port.up, port.downCtr := 0, port.upCtr := 0 })

/-- DEBUG_AUTH (R450). -/
def execDebugAuth (h : PortHead) (tag : Nat) (token : List Byte) (s : State) : Res :=
  .next (withMail s h tag 0x26 fun s =>
    if attBit s 0 && !confPresent s && Config.vendorVerifies (vendorKey s) (sha3 (idKey s) ++ mrBytes s 3) token then
      reply (setAtt (extendMr s 3 (sha3 token)) 3 true) tag 0x26 Mail.done
    else reply s tag 0x26 Mail.refused)

/-- ADMIT of the trusted domain (R432, R433). -/
def execTrustedDomainAdmit (h : PortHead) (tag : Nat) (s : State) : Res :=
  .next (withMail s h tag 0x27 fun s =>
    if !attBit s 0 then reply s tag 0x27 Mail.refused
    else reply (extendConfig (setAtt s 2 true) 0 0 0 0 s.turn) tag 0x27 Mail.done)

end Sys2Proof.Machine
end

