-- ==== Sys2Proof/Machine/Commit.lean ====
section
/-! DEFINITION. Commits: what refuses the commit of each page, what one changes when it takes effect, and the outstanding
commits of a boundary (R30, R46, R47, R50, R58, R199, R222, R266 to R274, R279 to R286, R298, R323, R339, R344, R369, R412,
R440, R441, R468, R476, R480, R499, R521, R538 to R543, R549, R573). -/

namespace Sys2Proof.Machine

/-! ### The fields of a page (R538, R541) -/

/-- The one-shot bits of a register (R541). -/
def oneShot (ty off : Nat) : Nat :=
  if ty = 0x08 ∧ off = Reg.SLOT_CFG then 3
  else if ty = 0x0A ∧ off = Reg.PS_CTRL then 2 ^ 31
  else if ty = 0x12 ∧ off = Reg.TBL_CTRL then 2 ^ 31
  else if ty = 0x15 ∧ off = Reg.LS_CTRL then 2
  else if ty = 0x18 ∧ off = Reg.SAND_CTRL then 2 ^ 31
  else if ty = 0x19 ∧ off = Reg.SW_CTRL then 1
  else if ty = 0x1A ∧ off = Reg.LINK_CTRL then 16
  else if ty = 0x1B ∧ off = Reg.BLK_CTRL then 3
  else 0

/-- The SH fields of a page that differ from reset, in effect or in the shadow. -/
def shKeys (s : State) (ty page : Nat) : List Nat :=
  (((s.regs.live.map fun e => e.1) ++ s.regs.shadow.map fun e => e.1).filter fun k =>
    addrPage k == page && (regRow ty (addrOff k)).any fun r => r.acc == .sh).eraseDups

/-- A field takes its shadow value; its one-shot bits join those in effect and leave the shadow. -/
def commitKey (ty : Nat) (s : State) (k : Nat) : State :=
  let m := oneShot ty (addrOff k)
  let v := s.shd k
  setShd (setReg s k ((v - (v &&& m)) + ((s.reg k ||| v) &&& m))) k (v - (v &&& m))

/-- The one-shot bits leave the shadow of a refused commit. -/
def clearShots (ty : Nat) (s : State) (k : Nat) : State :=
  let v := s.shd k
  setShd s k (v - (v &&& oneShot ty (addrOff k)))

/-- A field whose shadow differs from the value in effect. -/
def moved (s : State) (k : Nat) : Bool := s.shd k != s.reg k

/-- The items of a register of a selector page that a key list names, ascending. -/
def itemsOf (keys : List Nat) : List Nat := sortBy (fun a b => decide (a ≤ b)) ((keys.map keyItem).eraseDups)

/-! ### Refusals -/

/-- A refused commit: its cause, and the slot, tag and partition that the cause names. -/
structure Refuse where
  cause : Nat
  slot : Option Nat := none
  tag : Nat := 0
  part : Option Nat := none
  deriving DecidableEq, Repr

/-- A refusal by cause alone, where a condition holds. -/
def refuseIf (b : Bool) (cause : Nat) : Option Refuse := if b then some { cause := cause } else none

/-- The first refusal of a list: the manual gives no order of several reasons to refuse one commit, and the order of each page's
list is the model's (log entry 121). -/
def firstRefuse (l : List (Option Refuse)) : Option Refuse := l.findSome? id

/-! ### Checks of the headstock's pages -/

/-- The fabric time page (R43, R573). -/
def checkTime (s : State) : Option Refuse :=
  let r := s.shd (ftReg Reg.FT_ROLE)
  refuseIf (bf r 1 0 == 3 || (bf r 1 0 == 0 && decide (24 ≤ bf r 12 8))) Cause.reservedEncoding

/-- The shadow of PART_OWN. -/
def ownShd (s : State) (p : Nat) : Nat := s.shd (hPage 4 + Reg.PART_OWN + 4 * p)
def ownMoved (s : State) (p : Nat) : Bool :=
  bf (ownShd s p) 1 0 != partKind s p || bf (ownShd s p) 6 4 != partGroup s p

/-- Two partitions that a commit of the partition page would put into one group (log entry 62). -/
def joined (s : State) (p q : Nat) : Bool :=
  bf (ownShd s p) 1 0 != 0 && bf (ownShd s q) 1 0 != 0 && bf (ownShd s p) 6 4 == bf (ownShd s q) 6 4

/-- A reclaim's hand-over falls at the boundary at hand (R527, R549). -/
def handOverDue (s : State) : Bool :=
  bf (s.reg (hPage 0x0F + Reg.RCL_STATE)) 2 0 == 5 && decide (s.reclaim.parted < s.turn) && !s.catching.caught

/-- The partition page (R30, R549). A regrouping concerns the partitions whose own KIND or GROUP changes, and a job group's
partitions may differ in JSTATE (log entry 165). -/
def checkOwn (s : State) : Option Refuse :=
  let ps := List.range 8
  firstRefuse
    [refuseIf (ps.any fun p => bf (ownShd s p) 1 0 == 3 || decide (4 < bf (ownShd s p) 10 8)) Cause.reservedEncoding,
      refuseIf (ps.any fun p => ps.any fun q =>
        joined s p q && (bf (ownShd s p) 1 0 != bf (ownShd s q) 1 0 ||
          (bf (ownShd s p) 1 0 == 2 && slotOfPart s p != slotOfPart s q))) Cause.reservedEncoding,
      refuseIf (ps.any fun p => bf (ownShd s p) 1 0 != 0 && bit (s.reg (hPage 4 + Reg.PART_HEALTH + 4 * p)) 0 == 1)
        Cause.reservedEncoding,
      refuseIf (ps.any fun p => ownMoved s p && !partQuiet s p) Cause.partitionBusy,
      refuseIf (handOverDue s) Cause.partitionBusy]

/-- The route page (R369). -/
def checkRoute (s : State) : Option Refuse :=
  refuseIf (moved s (rtReg Reg.RT_SELF) && (List.range 24).any fun l => fabricUp s l) Cause.linkBusy

/-- The key-slot page (R440, R441). -/
def checkSlot (s : State) (ks : List Nat) (k : Nat) : Option Refuse :=
  let v := s.shd (slotKey Reg.SLOT_CFG k)
  let parts := bf v 15 8
  let no := fun (c : Nat) => some ({ cause := c, slot := some k, part := lowPart parts } : Refuse)
  if bf v 1 0 = 3 then no Cause.reservedEncoding
  else if bit v 0 = 1 then
    if slotState s k ≠ 0 then no Cause.slotBusy
    else if parts = 0 ∨ (List.range 64).any fun j => slotState s j != 0 && slotParts s j &&& parts != 0 then no Cause.slotOverlap
    else if ks.any fun j => j != k && bit (s.shd (slotKey Reg.SLOT_CFG j)) 0 == 1 && bf (s.shd (slotKey Reg.SLOT_CFG j)) 15 8 &&& parts != 0 then
      no Cause.slotOverlap
    else if bit v 2 = 1 ∧ attBit s 3 then no Cause.debugEnabled
    else none
  else if bit v 1 = 1 ∧ slotState s k ≠ 1 then no Cause.slotBusy
  else none

def checkSlots (s : State) (keys : List Nat) : Option Refuse :=
  let ks := (itemsOf keys).filter fun k => decide (k < 64)
  firstRefuse (ks.map fun k => checkSlot s ks k)

/-- The power page (R468, R573). -/
def checkPower (s : State) : Option Refuse :=
  let cap := s.shd (pwrReg Reg.PWR_CAP)
  let win := s.shd (pwrReg Reg.PWR_WINDOW)
  let shares := sumList ((ownedParts s).map fun p => s.shd (pwrReg (Reg.PWR_SHARE + 4 * p)))
  firstRefuse
    [refuseIf (decide (cap < shares)) Cause.shareExceedsCap,
      refuseIf (decide (cap < 3000) || decide (12000 < cap) || decide (win < 1) || decide (30 < win)) Cause.reservedEncoding,
      refuseIf ((List.range 8).any fun p => decide (11 < bf (s.shd (pwrReg (Reg.OP_REQ + 4 * p))) 3 0)) Cause.reservedEncoding,
      refuseIf (s.shd (pwrReg Reg.AGE_PERIOD) == 0) Cause.reservedEncoding]

/-- An entry, descriptor, switch plan or exchange of the package is queued or in flight, or a program is neither ended nor
halted (R476). -/
def packageBusy (s : State) : Bool :=
  !(enabledProgs s).isEmpty || !s.seq.flights.isEmpty || !s.seq.copies.isEmpty ||
    ((List.range 8).any fun w => swState s w == 1) || !s.net.xchg.isEmpty || !s.net.mirror.isEmpty

/-- The power state page (R476): a target of Run is ignored. -/
def checkState (s : State) : Option Refuse :=
  let v := s.shd (psReg Reg.PS_CTRL)
  let t := bf v 1 0
  if bit v 31 = 0 ∨ t = 0 then none
  else if psState s ≠ 0 ∨ psEntering s ∨ packageBusy s then some { cause := Cause.powerStateBusy }
  else if t = 3 then
    if ((List.range 64).any fun k => slotState s k != 0) || !(ownedParts s).isEmpty || !s.storage.loads.isEmpty || !s.storage.far.isEmpty ||
        (List.range 8).any fun w => !(sandRanges s w).isEmpty then some { cause := Cause.powerStateBusy }
    else match s.storage.targets with
      | [] => none
      | (n, _) :: _ => some { cause := Cause.storageTargetsRegistered, tag := n }
  else none

/-- A commit of the pair page sets the pairing anew: more than SOLO changes. -/
def pairMoved (s : State) : Bool :=
  let c := pairReg Reg.PAIR_CTRL
  setBit (s.shd c) 1 false != setBit (s.reg c) 1 false ||
    (wordsFrom Reg.PAIR_PARTNER 5).any fun o => moved s (pairReg o)

/-- A link that is set to fabric mode, up or not. -/
def fabricSet (s : State) (l : Nat) : Bool := decide (l < 24) && bf (s.reg (linkReg l Reg.LINK_CTRL)) 1 0 == 1

/-- The pair page (R521, R573). A commit that changes SOLO alone sets no pairing. What the partner holds cannot be checked here (log
entry 164). -/
def checkPairing (s : State) : Option Refuse :=
  let c := s.shd (pairReg Reg.PAIR_CTRL)
  let slot := bf c 13 8
  let parts := bf c 23 16
  let ls := s.shd (pairReg Reg.PAIR_LINKS)
  let l1 := bf ls 4 0
  let l2 := bf ls 12 8
  let base := s.shd64 (pairReg Reg.PAIR_MBASE_LO) % 2 ^ 39
  let size := 2 * (mib2 * (bf (s.shd (pairReg Reg.PAIR_MSIZE)) 15 0 + 1))
  let w := gWindow base
  if base % mib2 ≠ 0 then some { cause := Cause.reservedEncoding }
  else if bit c 0 = 0 ∨ !pairMoved s then none
  else firstRefuse
    [refuseIf (l1 == l2 || !fabricSet s l1 || !fabricSet s l2) Cause.reservedEncoding,
      refuseIf (bit parts (l1 / 3) == 0 || bit parts (l2 / 3) == 0) Cause.reservedEncoding,
      refuseIf (slotState s slot != 1 || (keysOf s slot).load == 0 || slotParts s slot != parts || bit parts w == 0) Cause.tenantMismatch,
      refuseIf (decide (gCatch s w < base % 2 ^ 36 + size)) Cause.reservedEncoding,
      refuseIf (!(regionsOver s base size).isEmpty) Cause.tenantMismatch]

/-! ### Checks of the cluster pages -/

/-- The table copy that a commit asks for: GO, destination, count, source. -/
def copyAsked (s : State) (cl : Nat) : Option TableCopy :=
  let v := s.shd (seqReg cl Reg.TBL_CTRL)
  if bit v 31 = 0 then none
  else some { cl := cl, dst := bf v 10 0, count := bf v 22 12 + 1, src := s.shd64 (seqReg cl Reg.TBL_SRC_LO) % 2 ^ 39 }

/-- The sequencer page (R50, R57, R58, R573). -/
def checkSeq (s : State) (cl : Nat) : Option Refuse :=
  firstRefuse
    [refuseIf ((List.range 8).any fun p => bf (s.shd (progReg cl p)) 13 11 == 7) Cause.reservedEncoding,
      refuseIf (s.shd (seqReg cl Reg.AGE_INTERVAL) == 0 || s.shd (seqReg cl Reg.TBL_SRC_LO) % 32 != 0) Cause.reservedEncoding,
      match copyAsked s cl with
      | none => none
      | some c =>
        if 2048 < c.dst + c.count then some { cause := Cause.outOfRange }
        else
          refuseIf ((List.range 8).any fun p =>
            progEnabled s cl p && decide (c.dst ≤ progPC s cl p) && decide (progPC s cl p < c.dst + c.count)) Cause.tableBusy]

/-- The loss-scale page (R222). -/
def checkLoss (s : State) (cl : Nat) : Option Refuse :=
  let lim := s.shd (lsReg cl Reg.LS_LIMITS)
  let lo := signed 8 (bf lim 7 0)
  let hi := signed 8 (bf lim 15 8)
  let line := s.shd (lsReg cl Reg.LS_LINE)
  let n := bf line 24 18
  let sg := signed 8 (bf (s.shd (lsReg cl Reg.LS_LOAD)) 7 0)
  firstRefuse
    [refuseIf (decide (lo < -64) || decide (64 < lo) || decide (hi < -64) || decide (64 < hi) || decide (hi < lo)) Cause.reservedEncoding,
      refuseIf (bf lim 31 16 == 0 || decide (64 < n)) Cause.reservedEncoding,
      refuseIf (n != 0 && decide (16384 < bf line 13 0 + n)) Cause.outOfRange,
      refuseIf (bit (s.shd (lsReg cl Reg.LS_CTRL)) 1 == 1 &&
        (decide (sg < -64) || decide (64 < sg) || decide (sg < lo) || decide (hi < sg))) Cause.reservedEncoding]

/-! ### Checks of the M-die pages -/

/-- Region entry r of M-die w as its shadow stands. -/
def regionShd (s : State) (w r : Nat) : Region :=
  regionOf (s.shd (memPage w + Reg.REGION + 8 * r)) (s.shd (memPage w + Reg.REGION + 8 * r + 4))
def regionsShd (s : State) (w : Nat) : List Region := (List.range 16).map fun r => regionShd s w r
def regionMoved (s : State) (w r : Nat) : Bool := regionShd s w r != getNth (regionShd s w r) (regions s w) r

/-- MEM_CATCH.FULL in effect and in the shadow (R273). -/
def catchFull (s : State) (w : Nat) : Bool := bit (s.reg (memPage w + Reg.MEM_CATCH)) 0 == 1
def catchFullShd (s : State) (w : Nat) : Bool := bit (s.shd (memPage w + Reg.MEM_CATCH)) 0 == 1

/-- Runs of units meet. -/
def unitsMeet (a n b m : Nat) : Bool := decide (a < b + m) && decide (b < a + n)

def regionsOverlap : List Region → Bool
  | [] => false
  | r :: rs => (r.enable && rs.any fun q => q.enable && unitsMeet r.base r.size q.base q.size) || regionsOverlap rs

/-- A span of GDDR7 touches a region of window w. -/
def spanIn (w : Nat) (r : Region) (a n : Nat) : Bool :=
  gWindow a == w && decide (mib2 * r.base < a % 2 ^ 36 + n) && decide (a % 2 ^ 36 < mib2 * (r.base + r.size))

/-- A descriptor of a running switch plan that has not been taken reads or writes a region. -/
def planTraffic (s : State) (w : Nat) (r : Region) : Bool :=
  swState s w == 1 && (List.range (swCount s w)).any fun i =>
    let d := switchDescAt s w i
    decide (swDone s w ≤ i) && (spanIn w r (swPlan s w + 64 * i) 64 || spanIn w r d.src d.srcLen ||
      (d.image && spanIn w r d.img (256 + d.outLen)))

/-- The pages or the metadata area of pool k meet a region. -/
def poolSpanIn (s : State) (w : Nat) (r : Region) (k : Nat) : Bool :=
  spanIn w r (65536 * kvpBase s k) (65536 * kvpFrames s k) ||
    spanIn w r (65536 * kvpMeta s k) (65536 * ceilDiv (16 * kvpFrames s k) 65536 + 32 * kvpLists s k)

/-- The bytes that a MOVE writes at its destination: of a spill those of its image (R192, R574). -/
def mvOutLen (f : Flight) : Nat :=
  match f.work with
  | .data bs => bs.length
  | _ => Ent.mvLen f.entry

/-- A session that parks or is restored moves the pages of its pool; a load writes its destinations. -/
def storageTraffic (s : State) (w : Nat) (r : Region) : Bool :=
  (s.serving.parked.any fun e => e.2.any fun p => p.moving && poolSpanIn s w r p.pool) ||
    s.storage.loads.any fun l => spanIn w r l.list (32 * l.n) || l.desc.any fun d => spanIn w r d.dst (4096 * d.exts)

/-- Traffic into a region is queued or in flight (R266): a MOVE, a page of an attention, a far or host transfer, a table copy, a
switch plan, a session that parks or is restored, a load. A GATHER reads images outside every region (R297). -/
def regionTraffic (s : State) (w : Nat) (r : Region) : Bool :=
  (s.seq.flights.any fun f =>
    let e := f.entry
    (Ent.type e == 3 && ((Ent.mvSsp e == 1 && spanIn w r (Ent.mvSrc e) (Ent.mvLen e)) || (Ent.mvDsp e == 1 && spanIn w r (Ent.mvDst e) (mvOutLen f)))) ||
      (Ent.type e == 7 && (setBits f.cores 16).any fun c => poolSpanIn s w r (handlePool (coreHandle e c)))) ||
    (s.mem.waiting.any fun x => spanIn w r x.addr x.bytes.length) ||
    (s.storage.far.any fun x => spanIn w r x.gaddr (4096 * x.exts)) || (s.storage.host.any fun x => spanIn w r x.gaddr x.len) ||
    (s.seq.copies.any fun c => spanIn w r c.src (32 * c.count)) || planTraffic s w r || storageTraffic s w r

/-- A region entry that the commit changes and leaves enabled overlaps a range queued for sanding (R269). -/
def regionSanding (s : State) (w r : Nat) : Bool :=
  let x := regionShd s w r
  x.enable && regionMoved s w r && (sandRanges s w).any fun q => unitsMeet x.base x.size q.base q.size

/-- A commit disables or moves a region into which traffic is queued or in flight (R266). -/
def regionInUse (s : State) (w r : Nat) : Bool :=
  let old := getNth (regionShd s w r) (regions s w) r
  let new := regionShd s w r
  old.enable && (!new.enable || old.base != new.base) && regionTraffic s w old

/-- A region entry that the commit enables, moves, resizes or gives a new slot must name a slot of the owner of the window
(R266). -/
def regionSlotBad (s : State) (w r : Nat) : Bool :=
  let x := regionShd s w r
  x.enable && regionMoved s w r && slotOfPart s w != some x.slot

/-- The line that MEM_CSLOT names breaks a condition of R199. -/
def cslotBad (s : State) (w : Nat) : Bool :=
  let v := s.shd (memPage w + Reg.MEM_CSLOT)
  let a := 256 * bf v 27 0
  let top := dataUnits s w - shareUnits (catchFullShd s w)
  moved s (memPage w + Reg.MEM_CSLOT) && bit v 31 == 1 &&
    (partKind s w != 2 || decide (mib2 * top < a + 256) ||
      (regionsShd s w).any fun r => r.enable && decide (mib2 * r.base < a + 256) && decide (a < mib2 * (r.base + r.size)))

/-- The memory page (R199, R266, R268, R274, R573). -/
def checkMem (s : State) (w : Nat) : Option Refuse :=
  let rs := List.range 16
  let d := dataUnits s w
  let full := catchFullShd s w
  let change := full != catchFull s w
  let top := d - shareUnits full
  let sc := s.shd (memPage w + Reg.SAND_CTRL)
  let go := bit sc 31 == 1
  let gives := change && !full
  let queued := (sget nilAt s.mem.sand w).length
  firstRefuse
    [refuseIf (change && (partKind s w != 0 ||
        ((regionsShd s w).any fun r => r.enable && unitsMeet r.base r.size top (shareUnits full)) ||
        (sandRanges s w).any fun r => unitsMeet r.base r.size top (shareUnits full))) Cause.catchRegionBusy,
      refuseIf (regionsOverlap (regionsShd s w)) Cause.regionOverlap,
      refuseIf (rs.any fun r => regionMoved s w r && (regionShd s w r).enable && decide (top < (regionShd s w r).base + (regionShd s w r).size))
        Cause.regionOverlap,
      refuseIf (rs.any fun r => regionSlotBad s w r) Cause.regionOverlap,
      refuseIf (rs.any fun r => regionInUse s w r || regionSanding s w r) Cause.regionBusy,
      refuseIf (go && decide (d < bf (s.shd (memPage w + Reg.SAND_BASE)) 14 0 + bf sc 14 0 + 1)) Cause.outsideMemory,
      refuseIf ((go && decide (16 ≤ queued)) || (gives && decide (16 < queued + (if go then 2 else 1)))) Cause.sandingQueueFull,
      refuseIf (s.shd (memPage w + Reg.SAND_AGE) == 0 || cslotBad s w) Cause.reservedEncoding]

/-- The descriptor of a plan as the shadow names it. -/
def shdPlan (s : State) (w : Nat) : Nat := s.shd64 (swReg w Reg.SW_PLAN_LO) % 2 ^ 39
def shdDesc (s : State) (w i : Nat) : SwitchDesc := switchDesc fun k => gByte s (shdPlan s w + 64 * i + k)

/-- The switch page (R298, R573). -/
def checkSwitch (s : State) (w : Nat) : Option Refuse :=
  let go := bit (s.shd (swReg w Reg.SW_CTRL)) 0 == 1
  let plan := shdPlan s w
  let n := s.shd (swReg w Reg.SW_COUNT)
  firstRefuse
    [refuseIf (s.shd (swReg w Reg.SW_PLAN_LO) % 64 != 0) Cause.reservedEncoding,
      refuseIf (go && swState s w == 1) Cause.switchBusy,
      refuseIf (go && (partKind s w != 2 || gWindow plan != w || decide (2 ^ 36 < plan % 2 ^ 36 + 64 * n))) Cause.outsidePartition,
      refuseIf (go && (List.range n).any fun i =>
        (gRefuse s (slotOfPart s w) [w] (plan + 64 * i) 64 false).isNone &&
        let d := shdDesc s w i
        gWindow d.src != w || decide (2 ^ 36 < d.src % 2 ^ 36 + d.srcLen)) Cause.outsidePartition]

/-! ### Checks of the link, blank, queue, pool and port pages -/

/-- A descriptor of a running switch plan that has not been taken names link l. -/
def planNames (s : State) (w l : Nat) : Bool :=
  swState s w == 1 && (List.range (swCount s w)).any fun i => decide (swDone s w ≤ i) && bit (switchDescAt s w i).links l == 1

/-- What names link l: entries in flight, frames that wait or are not acknowledged, switch plans, the descriptors of loads that
are not done, far transfers, and sessions that are parked or restored (R344). -/
def linkNamed (s : State) (l : Nat) : Bool :=
  (s.seq.flights.any fun f =>
    let e := f.entry
    (Ent.type e == 4 && bit (Ent.xLinks e) l == 1) || (Ent.type e == 5 && bit (Ent.rdLinks e) l == 1) ||
      (Ent.type e == 6 && bit (Ent.gaLinks e) l == 1)) ||
    !(s.link l).tx.isEmpty || ((s.link l).replay.any fun x => x.owner.isSome) || ((List.range 8).any fun w => planNames s w l) ||
    (s.storage.loads.any fun d => (d.desc.any fun x => bit x.links l == 1) || (d.exts.any fun x => x.link == l) ||
      (List.range d.n).any fun i => decide (d.idx ≤ i) && bit (loadDesc fun k => gByte s (d.list + 32 * i + k)).1.links l == 1) ||
    (s.storage.far.any fun x => (s.target x.target).any fun t => t.link == l) ||
    s.serving.parked.any fun e => e.2.any fun p =>
      p.moving && (s.target (bf (s.reg (kvpReg Reg.FAR_TGT p.pool)) 7 0)).any fun t => t.link == l

/-- The link page (R344, R573). -/
def checkLink (s : State) (l : Nat) : Option Refuse :=
  let m := bf (s.shd (linkReg l Reg.LINK_CTRL)) 1 0
  let old := bf (s.reg (linkReg l Reg.LINK_CTRL)) 1 0
  let others := (List.range 24).filter fun k => k != l && bf (s.reg (linkReg k Reg.LINK_CTRL)) 1 0 == 2
  let no := fun (b : Bool) (c : Nat) => if b then some ({ cause := c, part := some (l / 3) } : Refuse) else none
  firstRefuse
    [no (m == 3) Cause.reservedEncoding,
      no (m != old && linkNamed s l) Cause.linkBusy,
      no (m == 2 && decide (8 ≤ others.length)) Cause.storageLimit,
      no ((m == 0 || m == 2) && m != old && ftRole s == 0 && ftParent s == l) Cause.timeParent]

/-- A model slot, or an adapter of it, holds a pin. -/
def anyPin (s : State) (m : Nat) : Bool :=
  s.regs.live.any fun e =>
    addrPage e.1 == blkPage && e.2 != 0 &&
      ((keyItem e.1 == m && (addrOff e.1 == Reg.BLK_PINS_CUR || addrOff e.1 == Reg.BLK_PINS_PREV)) ||
        (keyItem e.1 % 64 == m && (addrOff e.1 == Reg.ADP_PINS_CUR || addrOff e.1 == Reg.ADP_PINS_PREV)))

/-- A JOB_PIN or JOB_FPIN of partition p names a version that is not live (R282). -/
def pinsDead (s : State) (p : Nat) : Bool :=
  let w0 := s.shd (jobPinKey p)
  let w1 := s.shd (jobPinKey p + 4)
  let f := s.shd (jobFpinKey p)
  ((moved s (jobPinKey p) || moved s (jobPinKey p + 4)) && bit w0 31 == 1 &&
      (!baseLive s (bf w0 25 20) (bf w0 19 0) || (bf w1 19 0 != 0 && !adapterLive s (bf w0 25 20) (bf w1 31 20) (bf w1 19 0)))) ||
    (moved s (jobFpinKey p) && bit f 31 == 1 && !baseLive s (bf f 25 20) (bf f 19 0))

/-- An adapter of a private model is named (R286). -/
def adapterNamed (s : State) (keys : List Nat) : Bool :=
  let shared := fun (m : Nat) => bit (s.shd (blkKey Reg.BLK_CFG m)) 1 == 1
  (keys.any fun k => addrOff k == Reg.BLK_CTRL && decide (2 ^ 20 ≤ keyItem k) && s.shd k != 0 && !shared (keyItem k % 64)) ||
    (List.range 8).any fun p =>
      bit (s.shd (jobPinKey p)) 31 == 1 && bf (s.shd (jobPinKey p + 4)) 19 0 != 0 && !shared (bf (s.shd (jobPinKey p)) 25 20)

/-- The blank page (R282, R286). The TSLOT of a BLK_CFG is not held to the slot of its PARTS (log entry 166). -/
def checkBlank (s : State) (keys : List Nat) : Option Refuse :=
  firstRefuse
    ([refuseIf ((List.range 8).any fun p => pinsDead s p) Cause.blankNotLive] ++
      ((List.range 64).map fun m =>
        let k := blkKey Reg.BLK_CFG m
        if moved s k && (s.shd k / 2 != s.reg k / 2) && anyPin s m then
          some { cause := Cause.blankBusy, tag := m, part := lowPart (bf (s.reg k) 23 16) } else none) ++
      [refuseIf (adapterNamed s keys) Cause.reservedEncoding])

/-- The descriptor of ring n as its shadow stands: kind, size, slot, parts, base, pair. -/
structure RingShd where
  kind : Nat
  size : Nat
  slot : Nat
  parts : Nat
  base : Nat
  pair : Nat
  deriving DecidableEq, Repr

def ringShd (s : State) (n : Nat) : RingShd :=
  let c := s.shd (ringReg Reg.RING_CFG n)
  let b := s.shd (ringReg Reg.RING_BASE n)
  { kind := bf c 1 0, size := bf c 7 4, slot := bf c 13 8, parts := bf c 23 16, base := 1024 * bf b 14 0, pair := bf b 27 16 }
def RingShd.bytes (r : RingShd) : Nat := if r.kind = 0 then 0 else recordBytes r.kind * 2 ^ (r.size + 5)
def ringMoved (s : State) (n : Nat) : Bool :=
  moved s (ringReg Reg.RING_CFG n) || moved s (ringReg Reg.RING_BASE n) || moved s (ringReg Reg.RING_HOST_LO n) ||
    moved s (ringReg Reg.RING_HOST_HI n)

/-- The slot that a ring names is the one of its partitions; a group without a slot names a slot that is empty (log entry
59). -/
def slotNamed (s : State) (slot parts : Nat) : Bool :=
  if slotState s slot = 0 then (setBits parts 8).all fun p => slotOfPart s p == none
  else (setBits parts 8).all fun p => slotOfPart s p == some slot

/-- A command queue as the commit would leave it is paired with a ring that is no event queue of its group. -/
def pairBroken (s : State) (n : Nat) : Bool :=
  let r := ringShd s n
  let q := ringShd s r.pair
  r.kind == 2 && (q.kind != 3 || q.parts != r.parts)

/-- Ring n as a commit would leave it (R308, R339). -/
def checkRing (s : State) (n : Nat) : Option Refuse :=
  let r := ringShd s n
  let no := fun (b : Bool) (c : Nat) => if b then some ({ cause := c, tag := n, part := lowPart r.parts } : Refuse) else none
  firstRefuse
    [no (decide (11 < r.size) || s.shd (ringReg Reg.RING_HOST_LO n) % 64 != 0) Cause.reservedEncoding,
      no (r.kind != 0 && (decide (0x1800000 < r.base + r.bytes) || (List.range 4096).any fun m =>
        m != n && (ringShd s m).kind != 0 && unitsMeet r.base r.bytes (ringShd s m).base (ringShd s m).bytes)) Cause.ringOverlap,
      no (if ringKind s n = 1 then (s.ring n).bound else
        ringKind s n != 0 && (ringUsed (s.ring n) != 0 || !(s.ring n).pend.isEmpty || !(s.ring n).held.isEmpty)) Cause.ringBusy,
      no (r.parts != 0 && !slotNamed s r.slot r.parts) Cause.tenantMismatch,
      no (pairBroken s n) Cause.reservedEncoding]

/-- The queue page (R339): each ring that the commit changes, and the pair of each command queue whose ring it changes. -/
def checkRings (s : State) (keys : List Nat) : Option Refuse :=
  let ns := (itemsOf keys).filter fun n => decide (n < 4096) && ringMoved s n
  firstRefuse ((ns.map fun n => checkRing s n) ++
    ((List.range 4096).filter fun n => !ns.contains n && ns.contains (ringShd s n).pair && pairBroken s n).map fun n =>
      some { cause := Cause.reservedEncoding, tag := n, part := lowPart (ringShd s n).parts })

/-- Every unit of a span lies in enabled regions of a slot, in a window of a mask (R323). -/
def spanInSlot (s : State) (a n slot parts : Nat) : Bool :=
  bit parts (gWindow a) == 1 && decide (a % 2 ^ 36 + n ≤ 2 ^ 36) &&
    (List.range (if n = 0 then 0 else (a + n - 1) / mib2 + 1 - a / mib2)).all fun i =>
      (regionAt s (mib2 * (a / mib2 + i))).any fun r => r.slot == slot

/-- Pool k as a commit would leave it lies where R323 asks. -/
def poolPlaced (s : State) (k : Nat) : Bool :=
  let c := s.shd (kvpReg Reg.KVP_CFG k)
  let slot := bf c 13 8
  let parts := bf c 23 16
  let frames := bf (s.shd (kvpReg Reg.KVP_FRAMES k)) 22 0
  let lists := bf (s.shd (kvpReg Reg.KVP_LISTS k)) 25 0
  slotState s slot == 1 && slotParts s slot == parts &&
    spanInSlot s (65536 * bf (s.shd (kvpReg Reg.KVP_BASE k)) 22 0) (65536 * frames) slot parts &&
    spanInSlot s (65536 * bf (s.shd (kvpReg Reg.KVP_META k)) 22 0) (65536 * ceilDiv (16 * frames) 65536 + 32 * lists) slot parts

/-- A pool that holds a list, a family or a prefix. -/
def poolHolds (s : State) (k : Nat) : Bool :=
  kvpOn s k && ((List.range (kvpLists s k)).any fun j => (listHead s k j).valid)

/-- The SH registers of pool k. -/
def poolKeys (k : Nat) : List Nat :=
  ((wordsFrom Reg.KVP_CFG 14).filter fun o => (regRow 0x1D o).any fun r => r.acc == .sh).map fun o => kvpReg o k
def poolMoved (s : State) (k : Nat) : Bool := (poolKeys k).any fun x => moved s x

/-- The event queue that pool k names is assigned to another partition group (R29; log entry 122). -/
def evqForeign (s : State) (k : Nat) : Bool :=
  let n := bf (s.shd (kvpReg Reg.KVP_EVQ k)) 11 0
  ringKind s n != 0 && ringParts s n != 0 && ringParts s n &&& bf (s.shd (kvpReg Reg.KVP_CFG k)) 23 16 == 0

/-- The page engine page (R323, R573). -/
def checkPool (s : State) (k : Nat) : Option Refuse :=
  let parts := bf (s.shd (kvpReg Reg.KVP_CFG k)) 23 16
  let no := fun (b : Bool) (c : Nat) => if b then some ({ cause := c, tag := k, part := lowPart parts } : Refuse) else none
  let ttl := s.shd (kvpReg Reg.PX_TTL k)
  firstRefuse
    [no (s.shd (kvpReg Reg.PX_LIMIT k) == 0 || ttl == 0 || decide (86400 < ttl)) Cause.reservedEncoding,
      no (bit (s.shd (kvpReg Reg.KVP_CFG k)) 0 == 1 && !poolPlaced s k) Cause.tenantMismatch,
      no (bit (s.shd (kvpReg Reg.KVP_CFG k)) 0 == 1 && evqForeign s k) Cause.outsidePartition,
      no (poolHolds s k) Cause.poolBusy]
def checkPools (s : State) : Option Refuse :=
  firstRefuse (((List.range 16).filter fun k => poolMoved s k).map fun k => checkPool s k)

/-- The port page (R412). -/
def checkPort (s : State) : Option Refuse :=
  let bad := fun (k : Nat) (p : Option Nat) =>
    let v := s.shd k
    moved s k && bit v 31 == 1 && !(ringLive s (bf v 11 0) 3 && (p.all fun q => bit (ringParts s (bf v 11 0)) q == 1))
  refuseIf (bad (portReg Reg.PORT_EVQ) none || (List.range 8).any fun p => bad (portReg (Reg.PORT_EVQ_P + 4 * p)) (some p))
    Cause.reservedEncoding

/-- What refuses the commit of a page in a state, by the page's chapter. -/
def checkPage (s : State) (page ty inst : Nat) : Option Refuse :=
  let d := addrDie page
  match ty with
  | 0x03 => checkTime s
  | 0x04 => checkOwn s
  | 0x05 => checkRoute s
  | 0x08 => checkSlots s (shKeys s ty page)
  | 0x09 => checkPower s
  | 0x0A => checkState s
  | 0x0E => checkPairing s
  | 0x12 => checkSeq s (9 * d + inst)
  | 0x15 => checkLoss s (9 * d + inst)
  | 0x18 => checkMem s (d - 48)
  | 0x19 => checkSwitch s (d - 48)
  | 0x1A => checkLink s (4 * (d - 56) + inst)
  | 0x1B => checkBlank s (shKeys s ty page)
  | 0x1C => checkRings s (shKeys s ty page)
  | 0x1D => checkPools s
  | 0x1E => checkPort s
  | _ => none

end Sys2Proof.Machine
end

