-- ==== Sys2Proof/Machine/Apply.lean ====
section
/-! DEFINITION. Commits in effect: what the commit of each page does beside its fields, refusals, the commits that are due,
publications, and the rows whose happening is a commit (R30, R42, R44, R46, R47, R50, R58, R70, R220, R266, R268, R270, R274,
R279 to R286, R298, R344 to R346, R395, R426, R436 to R442, R461, R468, R476, R480, R484, R499, R521, R539 to R543). -/

namespace Sys2Proof.Machine

/-! ### Effects of the headstock's pages -/

/-- The delay of a follower's parent link, with FT_ASYM (R39). -/
def showDelay (s : State) : State :=
  if ftRole s = 0 then
    setReg s (ftReg Reg.FT_DELAY)
      (unsigned 32 ((s.reg (linkReg (ftParent s) Reg.LINK_DELAY) : Int) + signed 32 (s.reg (ftReg Reg.FT_ASYM))))
  else s

/-- A change of FT_ROLE clears ACQUIRED. A package that becomes a follower may step its count once (R499); a follower with a new
parent steers by rate alone (R42). A new source's misses are counted anew. -/
def roleChanged (s0 s : State) : State :=
  let s := setFt
    { s with
      time.mayStep := ftRole s == 0 && ftRole s0 != 0
      time.mustStep := false
      time.near := 0
      time.loopsSilent := 0
      time.awaiting := false } 0 false
  if ftRole s = 0 then (if fabricUp s (ftParent s) then leaveHoldover s else s)
  else setReg s (ftReg Reg.FT_STATUS) (setBf (setBit (s.reg (ftReg Reg.FT_STATUS)) 2 false) 12 8 0)

/-- A commit of the alarm turn withdraws an alarm that has not fired, clears FT_STATUS.ALARM and sets the alarm anew (R44). -/
def alarmChanged (s : State) (t : Nat) : State :=
  let a := s.reg64 (ftReg Reg.FT_ALARM_LO) % 2 ^ 54
  setFt { s with time.alarmSet := false, time.alarm := if a = 0 then none else some (max a (if a < t then t + 1 else t)) } 3 false

def applyTime (s0 s : State) (t : Nat) : State :=
  let same := fun (o : Nat) => s0.reg (ftReg o) == s.reg (ftReg o)
  let s' := if same Reg.FT_ROLE then s else roleChanged s0 s
  let s' := if same Reg.FT_ROLE && same Reg.FT_ASYM then s' else showDelay s'
  if s0.time.alarmSet || !(same Reg.FT_ALARM_LO && same Reg.FT_ALARM_HI) then alarmChanged s' t else s'

/-- Shares of the partitions owned after a change of ownership that sum above the cap are posted (R468). -/
def noteShares (s : State) : State :=
  if capW s < shareSum s then postPwr s Cause.shareExceedsCap (shareSum s) 0 else s

def ownChanged (s0 s : State) (p : Nat) : Bool := partKind s0 p != partKind s p || partGroup s0 p != partGroup s p

def applyOwn (s0 s : State) (t : Nat) : State :=
  let ps := (List.range 8).filter fun p => ownChanged s0 s p
  if ps.isEmpty then s else noteShares (extendConfig s 1 0 (ps.foldl (fun m p => m + 2 ^ p) 0) 0 t)

/-- LOAD and PART of every slot of the commit (R436, R442). -/
def applySlots (s : State) (ks : List Nat) (t : Nat) : State :=
  ks.foldl (fun s k =>
    let c := s.reg (slotKey Reg.SLOT_CFG k)
    let s := if bit c 0 = 1 then loadSlot s k t else s
    let s := if bit c 1 = 1 then beginPart s k t else s
    setField s (slotKey Reg.SLOT_CFG k) 1 0 0) s

/-- A commit of the cap or the window starts the window average anew, be it with the value that stood (R461). -/
def applyPower (s0 s : State) : State :=
  if s0.power.capWritten then { s with power.counted := 0, power.capWritten := false } else s

/-- A PS_CTRL commit with target Run is ignored (R476). -/
def applyState (s : State) : State :=
  if bf (s.reg (psReg Reg.PS_CTRL)) 1 0 = 0 then setField s (psReg Reg.PS_CTRL) 31 31 0 else s

def applyPairing (s0 s : State) : State :=
  let c := s.reg (pairReg Reg.PAIR_CTRL)
  let put := fun (v : Nat) => setReg s (pairReg Reg.PAIR_STATE) v
  if bit c 0 = 0 then { put 0 with net.unacked := [] }
  else if pairMoved s0 then put 1
  else if pairState s = 2 ∨ pairState s = 3 then put (if bit c 1 = 1 then 3 else 2)
  else s

/-! ### Effects of the cluster pages -/

/-- A table copy starts, its source checked at its M-die (R58); a slot that is being parted starts none (R442). -/
def startCopy (s : State) (c : TableCopy) : State :=
  let slot := actingSlot s c.cl
  let w := gWindow c.src
  let ctx : Ctx := { page := memPage w, die := 48 + w, partition := some w, slot := slot }
  let bad := if slot.any fun k => slotParting s k then some (Cause.tenantMismatch, slot)
    else gRefuse s slot (groupParts s (partOf c.cl)) c.src (32 * c.count) false
  match bad with
  | some r => setField (postRefusal s ctx c.src r) (seqReg c.cl Reg.TBL_CTRL) 31 31 0
  | none => { s with seq.copies := s.seq.copies ++ [c] }

def applySeq (s0 s : State) (cl t : Nat) : State :=
  let s := (List.range 8).foldl (fun s p =>
    let on := progEnabled s cl p
    if on && !progEnabled s0 cl p then startProg s cl p t
    else if !on && progEnabled s0 cl p then stopProg s cl p 5
    else s) s
  let fc := s.reg (seqReg cl Reg.FLAG_CTRL)
  let s := setLiveFlag (setLiveFlag s cl 2 (bit fc 0 == 1)) cl 3 (bit fc 1 == 1)
  match copyAsked s0 cl with
  | none => s
  | some c => startCopy s c

/-- LOAD of the loss scale (R220, R221). -/
def applyLoss (s : State) (cl : Nat) : State :=
  if bit (s.reg (lsReg cl Reg.LS_CTRL)) 1 = 0 then s
  else
    let r := s.reg (lsReg cl Reg.LS_LOAD)
    let sg := signed 8 (bf r 7 0)
    let s := setReg s (lsReg cl Reg.LS_STATE) (lsState sg sg (bf r 31 16))
    writeLossScale (setField s (lsReg cl Reg.LS_CTRL) 1 1 0) cl sg

/-- SNAP_TURN (R395): once for each commit of the page. -/
def applySnap (s : State) (cl t : Nat) : State :=
  let a := s.reg64 (clPage 0x17 cl + Reg.SNAP_TURN_LO) % 2 ^ 54
  { s with seq.snaps := sset zeroAt s.seq.snaps cl (if a = 0 then 0 else max a (t + 1)) }

/-! ### Effects of the M-die pages -/

/-- A changed catch share: its base moves, and what it gives back is queued (R274). -/
def applyCatch (s0 s : State) (w : Nat) : State :=
  if catchFull s0 w = catchFull s w then s
  else
    let d := dataUnits s w
    let s := setField s (memPage w + Reg.MEM_CATCH_BASE) 14 0 (d - shareUnits (catchFull s w))
    if catchFull s w then s else queueSand s w (d - shareUnits true) (shareUnits true - shareUnits false) false

/-- SAND_CTRL.GO (R268). -/
def applySand (s : State) (w : Nat) : State :=
  let c := s.reg (memPage w + Reg.SAND_CTRL)
  if bit c 31 = 0 then s
  else setField (queueSand s w (bf (s.reg (memPage w + Reg.SAND_BASE)) 14 0) (bf c 14 0 + 1) (bit c 16 == 1)) (memPage w + Reg.SAND_CTRL) 31 31 0

def applyMem (s0 s : State) (w t : Nat) : State :=
  let rs := (List.range 16).filter fun r => regionMoved s0 w r
  let s := rs.foldl (fun s r =>
    let x := regionShd s0 w r
    extendConfig s 4 x.slot (slotParts s x.slot) (if slotConf s x.slot then 1 else 0) t) s
  applySand (applyCatch s0 s w) w

/-- SW_CTRL.GO (R298): the counters of the latest plan begin at zero. -/
def applySwitch (s0 s : State) (w : Nat) : State :=
  if bit (s0.shd (swReg w Reg.SW_CTRL)) 0 = 0 then s
  else
    let s := clearRegs s (swPage w) (wordsFrom Reg.SW_REFUSED 6)
    let s := setReg s (swReg w Reg.SW_STATE) 1
    if swCount s w = 0 then endPlan s w 2 else s

/-! ### Effects of the link, blank, queue and pool pages -/

/-- A fenced link stays fenced until RETRAIN or the next bring-up (R346). -/
def fenced (s : State) (l : Nat) : Bool := decide (4 ≤ linkStateOf s l) && decide (linkStateOf s l ≤ 6)

/-- A new mode: the link retrains in it, or goes off (R344, R345). -/
def newMode (s : State) (l : Nat) : State :=
  let m := bf (s.reg (linkReg l Reg.LINK_CTRL)) 1 0
  let s := setField (setField s (linkReg l Reg.LINK_STATE) 2 0 (if m = 0 then 0 else 1)) (linkReg l Reg.LINK_STATE) 4 3 0
  let s := showHealth (setLink s l {}) l
  checkPair (if ftRole s = 0 ∧ ftParent s = l then enterHoldover s else s)

/-- RETRAIN (R346, R353): an up link retrains, a fenced one trains again. -/
def retrain (s : State) (l : Nat) : State :=
  let st := linkStateOf s l
  let s := setField s (linkReg l Reg.LINK_CTRL) 4 4 0
  if st = 2 ∨ st = 3 then showHealth (setField (setLink s l { s.link l with again := true }) (linkReg l Reg.LINK_STATE) 2 0 7) l
  else if 4 ≤ st ∧ st ≤ 6 then setField s (linkReg l Reg.LINK_STATE) 2 0 1
  else s

def applyLink (s0 s : State) (l : Nat) : State :=
  let mode := fun (x : State) => bf (x.reg (linkReg l Reg.LINK_CTRL)) 1 0
  let s' := if mode s0 = mode s ∨ fenced s l then s else newMode s l
  if bit (s'.reg (linkReg l Reg.LINK_CTRL)) 4 = 1 then retrain s' l else s'

/-- Changed JOB_PIN and JOB_FPIN words move their pins (R282). -/
def applyPins (s0 s : State) : State :=
  (List.range 8).foldl (fun s p =>
    let k := jobPinKey p
    let f := jobFpinKey p
    let s := if s0.reg k = s.reg k ∧ s0.reg (k + 4) = s.reg (k + 4) then s
      else moveJobPin (moveJobPin s (s.reg k) (s.reg (k + 4)) true) (s0.reg k) (s0.reg (k + 4)) false
    if s0.reg f = s.reg f then s else moveFpin (moveFpin s (s.reg f) true) (s0.reg f) false) s

/-- A changed ring begins empty (R339). -/
def applyRings (s0 s : State) (keys : List Nat) : State :=
  ((itemsOf keys).filter fun n => decide (n < 4096) && ringMoved s0 n).foldl (fun s n => setRing s n {}) s

def applyPools (s0 s : State) : State :=
  ((List.range 16).filter fun k => poolMoved s0 k && kvpOn s k).foldl countPool s

/-- What the commit of a page does beside its fields: s0 is the state before it, s the state with the fields in effect. -/
def applyPage (s0 s : State) (page ty inst t : Nat) : State :=
  let d := addrDie page
  match ty with
  | 0x03 => applyTime s0 s t
  | 0x04 => applyOwn s0 s t
  | 0x08 => applySlots s ((itemsOf (shKeys s0 ty page)).filter fun k => decide (k < 64)) t
  | 0x09 => applyPower s0 s
  | 0x0A => applyState s
  | 0x0E => applyPairing s0 s
  | 0x12 => applySeq s0 s (9 * d + inst) t
  | 0x15 => applyLoss s (9 * d + inst)
  | 0x17 => applySnap s (9 * d + inst) t
  | 0x18 => applyMem s0 s (d - 48) t
  | 0x19 => applySwitch s0 s (d - 48)
  | 0x1A => applyLink s0 s (4 * (d - 56) + inst)
  | 0x1B => applyPins s0 s
  | 0x1C => applyRings s0 s (shKeys s0 ty page)
  | 0x1D => applyPools s0 s
  | _ => s

/-! ### A commit at its boundary (R46, R47, R539 to R543) -/

/-- The record of a refused commit (R572), or another event of a page. -/
def pageEvent (s : State) (page ty inst : Nat) (cause op1 : Nat) : Event :=
  { cause := cause, die := addrDie page, time := s.time.now,
    partition := if ty = 0x1A then some ((4 * (addrDie page - 56) + inst) / 3) else partOfDie (addrDie page), op1 := op1 }

/-- What a page shows of a commit that it refuses, and the event of the refusal (R541, R572). -/
def noteRefused (s : State) (page ty inst turn : Nat) (r : Refuse) : State :=
  let st := page + Reg.F_STATUS
  let s := setEvent (setReg s st (setBf (setBit (s.reg st) 2 true) 31 16 r.cause)) page 2
  let s := incReg s (hPage 2 + Reg.SUM_REFUSED) 1
  let e := pageEvent s page ty inst r.cause (turn + 2 ^ 56 * ty)
  post s page { e with slot1 := r.slot, tag := r.tag, partition := e.partition.orElse fun _ => r.part }

/-- A refused commit (R541). -/
def refuseCommit (s : State) (page ty inst : Nat) (c : Commit) (r : Refuse) : State :=
  let s := (shKeys s ty page).foldl (clearShots ty) s
  let s := if ty = 8 then { s with tenant.staging := [] } else s
  let s := if ty = 0x0A then incReg s (psReg Reg.PS_REFUSED) 1 else s
  answerWaiting (noteRefused s page ty inst (c.turn.getD 0) r) page Mail.refused

/-- An armed commit that takes effect after its turn (R47, R536). -/
def noteLate (s : State) (page ty inst t : Nat) (c : Commit) : State :=
  match c.turn with
  | none => s
  | some a => if a < t then post (setEvent s page 3) page (pageEvent s page ty inst Cause.turnMissed a) else s

/-- A commit that takes effect at the boundary of turn t. -/
def takeCommit (s : State) (page ty inst t : Nat) (c : Commit) : State :=
  let s1 := (shKeys s ty page).foldl (commitKey ty) s
  let s1 := applyPage s s1 page ty inst t
  let st := page + Reg.F_STATUS
  let s1 := setEvent (setReg s1 st (setBit (s1.reg st) 2 false)) page 1
  answerWaiting (noteLate s1 page ty inst t c) page Mail.done

/-- An outstanding commit comes to its boundary, with the refusal that its checks gave. -/
def doCommit (s : State) (t : Nat) (c : Commit) (r : Option Refuse) : State :=
  let s := dropCommit s c.page
  match pageType (addrDie c.page) (addrPageIdx c.page) with
  | none => s
  | some (ty, inst) =>
    match r with
    | some x => refuseCommit s c.page ty inst c x
    | none => takeCommit s c.page ty inst t c

/-- The refusal of a commit in a state. -/
def judge (s : State) (page : Nat) : Option Refuse :=
  match pageType (addrDie page) (addrPageIdx page) with
  | none => none
  | some (ty, inst) => checkPage s page ty inst

/-- A commit enables a program of its page. -/
def enables (s : State) (cl : Nat) : Bool := (List.range 8).any fun p => !progEnabled s cl p && bit (s.shd (progReg cl p)) 31 == 1

/-- A commit that the package accepts only from ready on (R489, R500): one that enables a program, loads a table, gives a partition an
owner, starts a switch plan, or trains a link into fabric or storage mode. -/
def fromReady (s : State) (page : Nat) : Bool :=
  let d := addrDie page
  (pageType d (addrPageIdx page)).any fun x =>
    match x.1 with
    | 0x04 => (List.range 8).any fun p => ownMoved s p && bf (ownShd s p) 1 0 != 0
    | 0x12 => enables s (9 * d + x.2) || (copyAsked s (9 * d + x.2)).isSome
    | 0x19 => bit (s.shd (swReg (d - 48) Reg.SW_CTRL)) 0 == 1
    | 0x1A => bf (s.shd (linkReg (4 * (d - 56) + x.2) Reg.LINK_CTRL)) 1 0 != 0
    | _ => false

/-- A commit that is held: its die is gated or off, it enables a program while the package sleeps (R480, R543), or it waits for ready
(log entry 158). -/
def heldCommit (s : State) (page : Nat) : Bool :=
  let d := addrDie page
  let seq := (pageType d (addrPageIdx page)).any fun x => x.1 == 0x12 && enables s (9 * d + x.2)
  (d < 48 && decide (2 ≤ psState s)) || (48 ≤ d && d < 63 && psState s == 3) || (seq && sleeping s) ||
    (!ready s && fromReady s page)

/-- A commit that is due at the boundary of turn t. -/
def dueCommit (s : State) (t : Nat) (c : Commit) : Bool :=
  (match c.turn with | none => true | some a => decide (a ≤ t)) && !heldCommit s c.page

/-- Step 2 of R46 on the dies that the strobe has reached: every check is made against the state before the boundary. -/
def commitStep (s : State) (t : Nat) (reached : Nat → Bool) : State :=
  (s.regs.commits.filter fun c => reached (addrDie c.page) && dueCommit s t c).foldl (fun s' c => doCommit s' t c (judge s c.page)) s

/-! ### Publications (R279 to R281, R285, R286) -/

/-- The successor of a version (R279). -/
def successor (v : Nat) : Nat := if v = 0 ∨ v = 1048575 then 1 else v + 1

/-- The condition of R279 that fails: 1 slot disabled, 2 previous live, 3 not the successor. -/
def pubFails (s : State) (m cur prev new : Nat) : Option Nat :=
  if bit (s.reg (blkKey Reg.BLK_CFG m)) 0 = 0 then some 1
  else if s.reg prev ≠ 0 then some 2
  else if s.reg new ≠ successor (s.reg cur) then some 3
  else none

/-- An event of the P-die that names a model slot. -/
def postModel (s : State) (m cause op1 : Nat) : State :=
  let c := s.reg (blkKey Reg.BLK_CFG m)
  post s blkPage { cause := cause, die := 62, time := s.time.now, partition := lowPart (bf c 23 16), op1 := op1, tag := m }

/-- A publication refused: HOLD, or AHOLD, is set (R281). -/
def refusePub (s : State) (m st hold why : Nat) : State :=
  let s := setReg s st (setBit (s.reg st) hold true)
  let s := setField s (blkKey Reg.BLK_STATE m) 7 4 why
  postModel (incReg s (blkPage + Reg.BLK_REFUSALS) 1) m Cause.publicationRefused why

/-- The current version becomes the previous, with its pins. -/
def movePub (s : State) (cur prev pinsCur pinsPrev new : Nat) : State :=
  setReg (setReg (setReg (setReg s prev (s.reg cur)) pinsPrev (s.reg pinsCur)) cur (s.reg new)) pinsCur 0

/-- The publication of model m's base blank. -/
def publishBase (s : State) (m : Nat) : State :=
  let k := fun (o : Nat) => blkKey o m
  let s := setField s (k Reg.BLK_CTRL) 0 0 0
  match pubFails s m (k Reg.BLK_CUR) (k Reg.BLK_PREV) (k Reg.BLK_PUB_VER) with
  | some why => refusePub s m (k Reg.BLK_STATE) 0 why
  | none =>
    let s := movePub s (k Reg.BLK_CUR) (k Reg.BLK_PREV) (k Reg.BLK_PINS_CUR) (k Reg.BLK_PINS_PREV) (k Reg.BLK_PUB_VER)
    setField s (k Reg.BLK_STATE) 0 0 0

/-- The publication of adapter a of model m (R285). -/
def publishAdapter (s : State) (m a : Nat) : State :=
  let k := fun (o : Nat) => adpKey o m a
  let s := setReg s (adpBits Reg.BLK_CTRL m a) 0
  match pubFails s m (k Reg.ADP_CUR) (k Reg.ADP_PREV) (k Reg.ADP_PUB_VER) with
  | some why => refusePub s m (adpBits Reg.BLK_STATE m a) 1 why
  | none =>
    let s := movePub s (k Reg.ADP_CUR) (k Reg.ADP_PREV) (k Reg.ADP_PINS_CUR) (k Reg.ADP_PINS_PREV) (k Reg.ADP_PUB_VER)
    setReg s (adpBits Reg.BLK_STATE m a) 0

/-- The items of a blank-page register with a value in effect other than zero. -/
def blkItems (s : State) (off : Nat) : List Nat :=
  (s.regs.live.filter fun e => addrPage e.1 == blkPage && addrOff e.1 == off && e.2 != 0).map fun e => keyItem e.1

/-- Step 3 of R46: the publications that commits have asked for. -/
def publications (s : State) : State :=
  (blkItems s Reg.BLK_CTRL).foldl (fun s i =>
    if i < 64 then (if bit (s.reg (blkKey Reg.BLK_CTRL i)) 0 = 1 then publishBase s i else s)
    else if 2 ^ 20 ≤ i then publishAdapter s ((i - 2 ^ 20) % 64) ((i - 2 ^ 20) / 64)
    else s) s

/-- After step 3, previous versions without pins retire (R280, R285). -/
def retireBlanks (s : State) : State :=
  let s := (blkItems s Reg.BLK_PREV).foldl (fun s m =>
    if s.reg (blkKey Reg.BLK_PINS_PREV m) = 0 then
      let v := s.reg (blkKey Reg.BLK_PREV m)
      postModel (setReg s (blkKey Reg.BLK_PREV m) 0) m Cause.blankRetired v
    else s) s
  (blkItems s Reg.ADP_PREV).foldl (fun s i =>
    if s.reg (blkKey Reg.ADP_PINS_PREV i) = 0 then
      let v := s.reg (blkKey Reg.ADP_PREV i)
      postModel (setReg s (blkKey Reg.ADP_PREV i) 0) (i % 64) Cause.blankRetired v
    else s) s

/-! ### The start of a power state (R476, R486) -/

/-- Entry begins where a commit has asked for it. -/
def beginEntry (s : State) : State :=
  let v := s.reg (psReg Reg.PS_CTRL)
  if bit v 31 = 0 then s
  else
    let s := setField s (psReg Reg.PS_CTRL) 31 31 0
    incReg { setPs s 4 4 1 with wake.target := bf v 1 0 } (psReg Reg.PS_ENTRIES) 1

/-! ### Table copies end -/

/-- TABLE_LOADED (R48, R58): the oldest copy of a cluster completes. -/
def execTableLoaded (cl : Nat) (s : State) : Res :=
  .next (match s.seq.copies.find? fun c => c.cl == cl with
    | none => s
    | some c =>
      if gHeld s c.src (32 * c.count) then s else
      let w := gWindow c.src
      let ctx : Ctx := { page := memPage w, die := 48 + w, partition := some w, slot := actingSlot s cl }
      let bs := gBytes s c.src (32 * c.count)
      let s := tblWrite (gNote s ctx c.src (32 * c.count)) cl (32 * c.dst) bs
      let s := { s with seq.copies := s.seq.copies.erase c }
      let s := if s.seq.copies.any fun x => x.cl == cl then s else setField s (seqReg cl Reg.TBL_CTRL) 31 31 0
      postOf s (clPage 0x12 cl) Cause.tableLoaded (tblAddr cl c.dst))

end Sys2Proof.Machine
end

