-- ==== Sys2Proof/Machine/Reclaim.lean ====
section
/-! DEFINITION. Reclaim: the request, its stages, the forced stop, the deadline and the hand-over (R526 to R530). -/

namespace Sys2Proof.Machine

def rclReg (off : Nat) : Nat := hPage 0x0F + off
/-- RCL_STATE: 0 idle, 1 stopping, 2 confirming, 3 held, 4 parting, 5 handing over, 6 done, 7 failed. -/
def rclState (s : State) : Nat := bf (s.reg (rclReg Reg.RCL_STATE)) 2 0
def rclMask (s : State) : Nat := bf (s.reg (rclReg Reg.RCL_STATE)) 15 8
def rclDeadline (s : State) : Nat := s.reg64 (rclReg Reg.RCL_DL_LO) % 2 ^ 54
def setRcl (s : State) (v : Nat) : State := setField s (rclReg Reg.RCL_STATE) 2 0 v
def rclRunning (s : State) : Bool := decide (1 ≤ rclState s) && decide (rclState s ≤ 5)

/-- The mask that a list of partitions makes. -/
def maskOf (ps : List Nat) : Nat := ps.foldl (fun m p => m + 2 ^ p) 0

/-- A mask is one whole partition group owned by one job (R526). -/
def wholeJobGroup (s : State) (mask : Nat) : Bool :=
  match lowPart mask with
  | none => false
  | some p => partKind s p == 2 && maskOf (groupParts s p) == mask

/-- An event of the reclaim: it names the group by its lowest partition (R571). -/
def postRcl (s : State) (cause op1 mask : Nat) : State :=
  post s (hPage 0x0F) { cause := cause, die := 63, time := s.time.now, partition := lowPart mask, op1 := op1 }

/-- The tenant slot of the reclaimed group. -/
def rclSlot (s : State) : Option Nat := (lowPart (rclMask s)).bind fun p => slotOfPart s p

/-- The committed step of a group: MEM_CSTEP of its lowest M-die that names a commit slot, else 0 (R199, R527). -/
def committedStep (s : State) (mask : Nat) : Nat :=
  match (setBits mask 8).find? fun w => bit (s.reg (memPage w + Reg.MEM_CSLOT)) 31 == 1 with
  | none => 0
  | some w => s.reg64 (memPage w + Reg.MEM_CSTEP_LO)

def showStep (s : State) : State := setReg64 s (rclReg Reg.RCL_STEP_LO) (committedStep s (rclMask s))

/-- No mirror exchange of the group is outstanding (R527). -/
def mirrorIdle (s : State) (mask : Nat) : Bool :=
  s.net.mirror.isEmpty && s.net.unacked.all fun ep => bit mask (partOf (epCl ep)) == 0

/-- The group is quiet (R527 stage 2). -/
def groupQuiet (s : State) (mask : Nat) : Bool :=
  ((setBits mask 8).all fun p => partQuiet s p) && (pairState s != 1 || mirrorIdle s mask)

/-- Stage 4 begins: the slot is parted at the next boundary; a group without a slot is handed over (R527). -/
def startParting (s : State) : State :=
  match rclSlot s with
  | some _ => setRcl s 4
  | none => setRcl { s with reclaim.parted := s.turn } 5

/-- The C-dies and M-dies of a mask of partitions. -/
def groupDies (mask : Nat) : List Nat := ((List.range 48).filter fun d => bit mask (partOfC d) == 1) ++ (setBits mask 8).map fun p => 48 + p

/-- The tenant slot of a mask's lowest partition. -/
def partsSlot (s : State) (mask : Nat) : Option Nat := (lowPart mask).bind fun p => slotOfPart s p

/-- RECLAIM (R432, R526, R530): one that will part a slot needs admission. -/
def execReclaim (h : PortHead) (tag mask : Nat) (hold : Bool) (deadline : Nat) (s : State) : Res :=
  .next (withMail s h tag 0x30 fun s =>
    if rclRunning s then reply s tag 0x30 Mail.busy
    else if deadline ≤ s.turn ∨ s.turn + 58593750 < deadline ∨ 2 ^ 54 ≤ deadline then reply s tag 0x30 Mail.reservedEncoding
    else if 256 ≤ mask ∨ !wholeJobGroup s mask then reply (postRcl s Cause.groupMismatch mask 0) tag 0x30 Mail.refused
    else if (partsSlot s mask).isSome && !admitted s then reply s tag 0x30 Mail.notAdmitted
    else
      let s := setReg s (rclReg Reg.RCL_STATE) (1 + 256 * mask)
      let s := setReg64 (setReg64 s (rclReg Reg.RCL_DL_LO) deadline) (rclReg Reg.RCL_STEP_LO) 0
      reply { s with reclaim := { hold := hold, accepted := s.turn, stopping := groupDies mask } } tag 0x30 Mail.accepted)

/-- Stage 1 on a die: reclaim-pending is committed in the clusters of a C-die, and prevails over a commit of FLAG_CTRL at the same
boundary (log entry 167); the switch plan of an M-die is aborted (R304, R527). -/
def stopDie (s : State) (d : Nat) : State :=
  if d < 48 then
    (List.range 9).foldl (fun s j =>
      setLiveFlag (setFieldBoth s (seqReg (9 * d + j) Reg.FLAG_CTRL) 1 1 1) (9 * d + j) 3 true) s
  else askAbort s (d - 48)

/-- Stage 1 at the boundary of turn t, on the dies of the group that its strobe reaches; the headstock goes on to stage 2 at its own
boundary (R527, R570). -/
def stopReclaimed (s : State) (t : Nat) (reached : Nat → Bool) : State :=
  if t ≤ s.reclaim.accepted then s
  else
    let s := (s.reclaim.stopping.filter reached).foldl stopDie
      { s with reclaim.stopping := s.reclaim.stopping.filter fun d => !reached d }
    if rclState s = 1 ∧ reached 63 then setRcl s 2 else s

/-- GROUP_QUIET (R527 stages 2 and 3). -/
def execGroupQuiet (s : State) : Res :=
  .next (if rclState s = 2 ∧ groupQuiet s (rclMask s) then
    let s := showStep s
    if s.reclaim.hold then postRcl (setRcl s 3) Cause.reclaimStopped 0 (rclMask s) else startParting s
  else s)

/-- RECLAIM_GO (R527, R530). -/
def execReclaimGo (h : PortHead) (tag : Nat) (s : State) : Res :=
  .next (withMail s h tag 0x31 fun s =>
    if rclState s = 3 then reply (startParting s) tag 0x31 Mail.done else reply s tag 0x31 Mail.refused)

/-- Stage 4 at the boundary of turn t (R442, R527). -/
def partReclaimed (s : State) (t : Nat) : State :=
  if rclState s = 4 then
    match rclSlot s with
    | some k => if slotState s k = 1 then beginPart s k t else s
    | none => s
  else s

/-- RECLAIM_FORCED_STOP (R528): programs halt, queued descriptors and loads of the group go, parting follows. -/
def execReclaimForcedStop (s : State) : Res :=
  .next (if 1 ≤ rclState s ∧ rclState s ≤ 3 ∧ rclDeadline s ≤ s.turn + 1953125 ∧ (rclState s = 3 ∨ !groupQuiet s (rclMask s)) then
    let m := rclMask s
    let s := dropGroup (stopPlans (haltGroup s m) m) m
    let s := { s with storage.loads := s.storage.loads.filter fun l => !loadOfGroup m l }
    let s := incReg (showStep s) (rclReg Reg.RCL_FORCED) 1
    startParting (postRcl s Cause.reclaimForcedStop 0 m)
  else s)

/-- The deadline check at the boundary of turn t (R46, R529). -/
def reclaimDeadline (s : State) (t : Nat) : State :=
  if rclRunning s ∧ rclDeadline s ≤ t ∧ !s.reclaim.late then
    postRcl { s with reclaim.late := true } Cause.reclaimLate (rclDeadline s) (rclMask s)
  else s

/-- RECLAIM_LATE (R529). -/
def execReclaimLate (s : State) : Res := .next (reclaimDeadline s s.turn)

/-- Ownership passes to serving (R527 stage 5, R549). -/
def passToServing (s : State) (mask : Nat) : State :=
  (setBits mask 8).foldl (fun s p =>
    let k := hPage 4 + Reg.PART_OWN + 4 * p
    setFieldBoth (setFieldBoth (setFieldBoth s k 1 0 1) k 6 4 (partGroup s p)) k 10 8 4) s

/-- The hand-over takes place: a commit of the partition page, and the end of the reclaim (R527). -/
def passOver (s : State) : State :=
  let m := rclMask s
  let s := noteShares (extendConfig (passToServing s m) 1 0 m 0 s.turn)
  let s := setReg (setRcl { s with reclaim.stopping := [] } 6) (rclReg Reg.RCL_TIME) (s.turn - s.reclaim.accepted)
  postRcl (setEvent s (hPage 4) 1) Cause.reclaimComplete (s.reg64 (rclReg Reg.RCL_STEP_LO)) m

/-- The hand-over at the first boundary after parting completed, judged in the state s0 before it: it is refused once while a
partition of the group is not quiet, and comes at the first boundary at which all are (R30, R527, R549; log entry 171). A caught
package hands nothing over (R529). -/
def handOver (s0 s : State) : State :=
  if !handOverDue s0 then s
  else if (setBits (rclMask s0) 8).all fun p => partQuiet s0 p then passOver s
  else if s.reclaim.busy then s
  else
    noteRefused { s with reclaim.busy := true } (hPage 4) 4 0 s.turn
      { cause := Cause.partitionBusy, part := lowPart (rclMask s0) }

/-- HAND_OVER (R527): where it is still due. -/
def execHandOver (s : State) : Res := .next (handOver s s)

/-- A catch during a reclaim: no hand-over takes place (R529). -/
def failReclaim (s : State) : State :=
  if rclRunning s then postRcl (setRcl s 7) Cause.reclaimFailed 0 (rclMask s) else s

end Sys2Proof.Machine
end

