-- ==== Sys2Proof/Machine/Catch.lean ====
section
/-! DEFINITION. The belt's frames and lanes, the catch and its dump (R25, R410, R492, R510 to R518, R530, R543). -/

namespace Sys2Proof.Machine

/-! ### The catch (R510, R511, R513, R514, R543) -/

def bootStep (s : State) : Nat := bf (s.reg (hPage 0x0B + Reg.BOOT_STEP)) 3 0

/-- A channel of window w has failed. -/
def channelLost (s : State) (w : Nat) : Bool := (List.range 8).any fun k => chState s w k == 2

/-- The dump goes to flash (R492, R514). -/
def dumpToFlash (s : State) : Bool :=
  decide (bootStep s < 8) || s.catching.regionHeld || (List.range 8).any fun w => dataUnits s w == 0 || channelLost s w

/-- What the engines hold is abandoned: transfers, table copies, plans and frames of the package's own (R511). -/
def abandonTransfers (s : State) : State :=
  let s := (s.seq.copies.map fun c => c.cl).foldl (fun s cl => setField s (seqReg cl Reg.TBL_CTRL) 31 31 0) s
  let s := stopPlans (dropFlights s hasDescriptor) 255
  { s with
    seq.copies := []
    storage.loads := [], storage.far := [], storage.host := []
    port.reads := []
    net.links := s.net.links.map fun e => (e.1, { e.2 with tx := e.2.tx.filter fun x => x.frame.src != selfId s })
    net.held := [], net.buckets := [], net.xchg := [], net.pieces := [], net.mirror := [], net.unacked := [] }

/-- Outstanding commits are withdrawn, and the requests that waited for them are answered (R543). -/
def withdrawCommits (s : State) : State :=
  let pages := (s.port.mbox.map fun w => w.page).eraseDups
  pages.foldl (fun s p => answerWaiting s p Mail.refused) { s with regs.commits := [] }

/-- The dump begins (R511, R514, R518): while flash holds a dump that another would replace, only the new cause is shown. After the
trip none is written (R473). -/
def beginDump (s : State) (cause die : Nat) : State :=
  let flash := dumpToFlash s
  let later := s.catching.regionHeld || s.catching.flashHeld
  if s.power.tripped then s
  else
  let s := setReg s (catchReg Reg.CATCH_CAUSE) (cause % 65536 + 65536 * (die % 64))
  if flash && s.catching.flashHeld then setField s (catchReg Reg.CATCH_STATE) 4 4 1
  else
    let full := !flash && (List.range 8).any fun w => catchFull s w
    let s := setReg s (catchReg Reg.CATCH_STATE)
      (1 + (if full then 4 else 0) + (if flash || s.catching.flashHeld then 8 else 0) + (if later then 16 else 0))
    let s := setReg (setReg64 s (catchReg Reg.CATCH_TURN_LO) s.turn) (catchReg Reg.CATCH_SHARES) 0
    { s with catching.dump := some (s.time.now, cause % 65536, die % 64, flash) }

/-- A catch is raised (R511); a package that is caught raises none again. -/
def raiseCatch (s : State) (cause die : Nat) : State :=
  if s.catching.caught then s
  else
    let s := if portUp s then post s (hPage 0x0C) { cause := Cause.caught, die := 63, time := s.time.now } else s
    let s := sbEvent { s with catching.caught := true } 2
    let s := (enabledProgs s).foldl (fun s e => haltProg s e.1 e.2 5) s
    beginDump (failReclaim (withdrawCommits (abandonTransfers s))) cause die

/-- CATCH (R510, R511): a fatal error that no other row names, with its cause and die. -/
def execCaught (cause die : Nat) (s : State) : Res := .next (if s.stopped then s else raiseCatch s cause die)

/-! ### The dump (R511, R512, R515 to R517) -/

/-- Bytes of a die's section (R516). -/
def sectionBytes (d : Nat) : Nat := if d < 56 then 0x800000 else if d = 62 then 0x2000000 else 0x400000

/-- The dies dumped into share p, in directory order (R515). -/
def shareDies (p : Nat) : List Nat :=
  partDies p ++ [48 + p] ++ ((List.range 6).filter fun i => 4 * i / 3 == p).map (fun i => 56 + i) ++
    (if p = 3 then [62] else []) ++ (if p = 7 then [63] else [])

/-- The sections of a list of dies one after another from an offset: die and offset. -/
def layOut : Nat → List Nat → List (Nat × Nat)
  | _, [] => []
  | o, d :: ds => (d, o) :: layOut (o + sectionBytes d) ds

def shareLayout (p : Nat) : List (Nat × Nat) := layOut 4096 (shareDies p)

/-- A section of die d holds what R517 zeroes. -/
def sectionZeroed (s : State) (d : Nat) : Bool :=
  (List.range 64).any fun k => slotConf s k &&
    (if d < 48 then bit (slotParts s k) (partOfC d) == 1
     else d == 62 && !(ringsOf s k (slotParts s k)).isEmpty)

/-- A directory entry (R515). -/
def directoryEntry (d off len : Nat) (written zeroed : Bool) : List Byte :=
  leBytes 1 d ++ leBytes 1 ((if written then 1 else 0) + (if zeroed then 2 else 0)) ++ leBytes 6 0 ++ leBytes 8 off ++
    leBytes 8 len ++ leBytes 8 0

/-- The header of a share, or of the reduced dump: 32 bytes and the directory, zeros to its end (R515, R517). -/
def dumpHeader (n share flags cause t0 : Nat) (entries : List (List Byte)) : List Byte :=
  padTo n 0 (leBytes 4 1 ++ leBytes 1 share ++ leBytes 1 flags ++ leBytes 2 cause ++ leBytes 8 t0 ++ leBytes 1 entries.length ++
    leBytes 15 0 ++ entries.flatten)

/-- Bytes that a dump engine stores in GDDR7, outside every region. -/
def putGddr (s : State) (a : Nat) (bs : List Byte) : State :=
  let gs := granules a bs.length
  { s with
    mem.gddr := ssetAll byteZero s.mem.gddr (bs.zipIdx.map fun ((b, i) : Byte × Nat) => (a + i, b))
    mem.gKey := gs.foldl (fun m g => sset zeroAt m g 0) s.mem.gKey
    mem.gErr := gs.foldl (fun m g => sset zeroAt m g 0) s.mem.gErr }

/-- A byte of a die's region image: what firmware reads at its offset, zero where no page exists (R516). -/
def regionByte (s : State) (d o : Nat) : Byte :=
  match pageType d (o / 4096) with
  | none => 0
  | some (ty, _) =>
    BitVec.ofNat 8 ((pageRead s .firmware ty (0x100000 * d + o / 4096 * 4096) (o % 4096 / 4 * 4)).2 / 256 ^ (o % 4))

/-- An entry of the parked-session table (R331). -/
def parkedBytes (p : Parked) : List Byte :=
  leBytes 4 p.req ++ leBytes 2 (p.ring % 4096 + 4096 * p.pool) ++ leBytes 1 (p.model % 64 + 64 * p.st) ++
    leBytes 1 (p.pfx.getD 0xFF) ++ leBytes 4 (p.base % 2 ^ 20 + 2 ^ 20 * p.adapter.getD 0) ++ leBytes 4 (p.adp % 2 ^ 20) ++
    leBytes 4 p.first ++ leBytes 4 p.exts ++
    leBytes 8 (p.expiry % 2 ^ 54 + (if p.preempted then 2 ^ 54 else 0) + (if p.evict then 2 ^ 55 else 0))

/-- A byte of ring memory lies in a ring of a confidential slot (R517). -/
def confRing (s : State) (o : Nat) : Bool :=
  (List.range 4096).any fun n => ringKind s n != 0 && slotConf s (ringSlot s n) && decide (ringBase s n ≤ o) &&
    decide (o < ringBase s n + recordBytes (ringKind s n) * ringCap s n)

/-- The links of O-die o, 56 to 61. -/
def dieLinks (o : Nat) : List Nat := (List.range 4).map fun i => 4 * (o - 56) + i

/-- The unit state of C-die d (R516): program counters and slots, unit queues with what they hold, token counters, and the cell
registers and accumulators of its cores. -/
def unitState (s : State) (d : Nat) : List (Nat × Prog) × List Flight × List Nat × List (Nat × ArrayState) :=
  (s.seq.progs.filter fun e => e.1 / 72 == d, s.seq.flights.filter fun f => f.cl / 9 == d,
    (List.range 9).flatMap fun j => (List.range 16).map fun k => s.reg (seqReg (9 * d + j) (Reg.TOKEN + 4 * k)),
    s.seq.arrays.filter fun e => e.1 / 144 == d)

/-- The controller queues and the sanding queue of M-die 48 + w, and the pieces that its switch plan awaits (R516). -/
def memoryState (s : State) (w : Nat) : List HeldWrite × List SandRange × List PieceCount × List (Nat × Bool) :=
  (s.mem.waiting.filter fun h => gWindow h.addr == w, sandRanges s w, s.net.pieces, s.mem.crc.filter fun e => e.1 / 8 == w)

/-- The replay buffers of an O-die's links, and the bucket registrations (R516); the route table is registers. -/
def opticState (s : State) (o : Nat) : List (Nat × LinkState) × List Bucket × List HeldReduce :=
  (s.net.links.filter fun e => (dieLinks o).contains e.1, s.net.buckets, s.net.held)

/-- The blank directory and the pool state of the P-die (R516). -/
def poolState (s : State) : List (Nat × Nat) × List (Nat × Option Family) × List (Nat × Option Prefix) × List (Nat × Nat) × List Request :=
  (s.regs.live.filter fun e => addrDie e.1 == 62 && decide (2 ^ 26 ≤ e.1), s.serving.fams, s.serving.pfxs, s.serving.freeing, s.serving.reqs)

/-- The event store and the control loops' history of the headstock (R516). -/
def headState (s : State) : List Event × List Nat := (s.belt.store, s.power.hist)

/-- Byte o of the unit state of C-die d: cell registers, accumulators, output stages and vector buffers are zero where the section is
zeroed (R516, R517; log entry 61). -/
def unitByte (s : State) (t0 d o : Nat) : Byte :=
  if sectionZeroed s d && Config.valuePart o then 0 else Config.dumpByte t0 d (unitState s d) o

/-- Byte o of die d's section in the dump of tick t₀ (R516, R517): the region image first, then what has a layout, in the order
that the table lists it; the rest is laid out by Config.dumpByte from the state that it shows (log entry 61). -/
def sectionByte (s : State) (t0 d o : Nat) : Byte :=
  let u := o - 0x100000
  if o < 0x100000 then regionByte s d o
  else if d < 48 then
    let v := u - 0x90000
    let line := v / 2
    if u < 0x90000 then sget byteZero s.mem.table (tblKey (9 * d + u / 65536) (u % 65536))
    else if v < 0x480000 then
      BitVec.ofNat 8 (nsTag s (nsAddr (9 * d + line / 262144) (line / 16384 % 16) (256 * (line % 16384))) / 256 ^ (v % 2))
    else unitByte s t0 d (v - 0x480000)
  else if d < 56 then Config.dumpByte t0 d (memoryState s (d - 48)) u
  else if d < 62 then Config.dumpByte t0 d (opticState s d) u
  else if d = 62 then
    let v := u - 0x1800000
    if u < 0x1800000 then (if confRing s u then 0 else sget byteZero s.serving.ringMem u)
    else if v < 0x200000 then ((sget (fun _ => none) s.serving.parked (v / 32)).map fun p => (parkedBytes p).getD (v % 32) 0).getD 0
    else Config.dumpByte t0 d (poolState s) (v - 0x200000)
  else Config.dumpByte t0 d (headState s) u

/-- The first n bytes of die d's section. -/
def dieSection (s : State) (t0 d n : Nat) : List Byte := (List.range n).map fun i => sectionByte s t0 d i

/-- The address of share p. -/
def shareBase (s : State) (p : Nat) : Nat := 2 ^ 36 * p + gCatch s p

/-- The sections of the dies in a mask are written into share p. -/
def writeSections (s : State) (p t0 dies : Nat) : State :=
  ((shareLayout p).filter fun e => bit dies e.1 == 1).foldl (fun s' e =>
    putGddr s' (shareBase s' p + e.2) (dieSection s t0 e.1 (sectionBytes e.1))) s

/-- A near-SRAM byte as the full extension holds it: whatever its tag, zero where a confidential slot's (R516, R517). -/
def extByte (s : State) (a : Nat) : Byte :=
  let tag := nsTag s a
  if tag / 64 ≠ 1023 ∧ slotConf s (tag % 64) then 0 else sget byteZero s.mem.ns a

/-- The near SRAM of partition p, in C-die, cluster and core order (R516). -/
def writeExtension (s : State) (p : Nat) : State :=
  let base := shareBase s p + ((shareLayout p).map fun e => sectionBytes e.1).foldl (· + ·) 4096
  let cores := (partDies p).flatMap fun d => (List.range 144).map fun i => (9 * d + i / 16, i % 16)
  cores.zipIdx.foldl (fun s' (x : (Nat × Nat) × Nat) =>
    putGddr s' (base + 2 ^ 22 * x.2) ((List.range (2 ^ 22)).map fun i => extByte s (nsAddr x.1.1 x.1.2 i))) s

def shareWhole (p dies : Nat) : Bool := (shareDies p).all fun d => bit dies d == 1

/-- Share p is written: sections, extension and header. -/
def writeShare (s : State) (p cause t0 dies : Nat) : State :=
  let full := catchFull s p
  let whole := shareWhole p dies
  let es := (shareLayout p).map fun e =>
    directoryEntry e.1 e.2 (sectionBytes e.1) (bit dies e.1 == 1) (sectionZeroed s e.1)
  let h := dumpHeader 4096 p ((if full then 1 else 0) + (if whole then 2 else 0)) cause t0 es
  let s' := writeSections s p t0 dies
  let s' := if full then writeExtension s' p else s'
  putGddr s' (shareBase s p) h

/-- The reduced dump: 64 KiB of header, the H-die's section, then 960 KiB of every other die (R517). -/
def reducedLayout : List (Nat × Nat × Nat) :=
  (63, 0x10000, 0x400000) :: (List.range 63).map fun d => (d, 0x410000 + 0xF0000 * d, 0xF0000)

/-- The n bytes of die d in the reduced dump: the H-die's section, and the live mirrors of the pages of another die in the order of
their offsets (R517; log entry 61). -/
def reducedSection (s : State) (t0 d n : Nat) : List Byte :=
  if d = 63 then dieSection s t0 d n
  else
    let pages := (List.range 256).filter fun i => (pageType d i).isSome
    (List.range n).map fun o =>
      match pages[o / 2048]? with
      | some i => regionByte s d (4096 * i + 2048 + o % 2048)
      | none => Config.dumpByte t0 d () o

def writeReduced (s : State) (cause t0 dies : Nat) : State :=
  let es := reducedLayout.map fun e => directoryEntry e.1 e.2.1 e.2.2 (bit dies e.1 == 1) (sectionZeroed s e.1)
  let whole := reducedLayout.all fun e => bit dies e.1 == 1
  let h := dumpHeader 0x10000 0 (if whole then 2 else 0) cause t0 es
  let put := fun (m : List Host.Cell) (a : Nat) (bs : List Byte) =>
    ssetAll flashDefault m (bs.zipIdx.map fun ((b, i) : Byte × Nat) => (reducedBase + a + i, b))
  let done := reducedLayout.filter fun e => bit dies e.1 == 1
  { s with boot.flash := done.foldl (fun m e => put m e.2.1 (reducedSection s t0 e.1 e.2.2)) (put s.boot.flash 0 h) }

/-- Die d writes its own section unbidden (R512): into its share, or in the reduced form into flash where R514 gives it, unless flash
holds a dump. -/
def writeOwn (s : State) (d : Nat) : State :=
  if !dumpToFlash s then
    ((List.range 8).filter fun p => (shareDies p).contains d).foldl (fun s p => writeSections s p s.time.now (2 ^ d)) s
  else if s.catching.flashHeld then s
  else { s with boot.flash := ((reducedLayout.filter fun e => e.1 == d).foldl (fun m e =>
      ssetAll flashDefault m ((reducedSection s s.time.now d e.2.2).zipIdx.map fun ((b, i) : Byte × Nat) => (reducedBase + e.2.1 + i, b)))
      s.boot.flash) }

/-- CATCH_DUMP_COMPLETE (R511, R515 to R518): the dies whose sections are written. -/
def execCatchDumpComplete (dies : Nat) (s : State) : Res :=
  .next (match s.catching.dump with
    | none => s
    | some (t0, cause, _, flash) =>
      let s := { s with catching.dump := none }
      let s := setField s (catchReg Reg.CATCH_STATE) 1 0 2
      if flash then
        let s := writeReduced { s with catching.flashHeld := true } cause t0 dies
        postOf s (hPage 0x0C) Cause.catchDumpReduced 0
      else
        let ws := liveWindows s
        let s := ws.foldl (fun s p => writeShare s p cause t0 dies) s
        let good := maskOf (ws.filter fun p => shareWhole p dies)
        let s := setReg s (catchReg Reg.CATCH_SHARES) (good + 256 * (maskOf ws - good))
        let s := { s with catching.regionHeld := true, catching.full := maskOf (ws.filter fun p => catchFull s p) }
        postOf s (hPage 0x0C) Cause.catchDumpComplete 0)

/-- STROBE_LOSS_DUMP (R512): a die without a strobe for 4 turns halts its programs and writes its own section, once for each loss of
the strobe. -/
def execStrobeLossDump (d : Nat) (s : State) : Res :=
  .next (if 63 ≤ d ∨ s.stopped ∨ sget zeroAt s.time.missed d < 4 ∨ s.catching.lone.contains d then s
    else
      let s := if d < 48 then (List.range 9).foldl (fun s j => haltMask s (9 * d + j) 255 5) s else s
      let s := { s with catching.lone := s.catching.lone ++ [d] }
      writeOwn s d)

/-! ### Mailbox requests (R530) -/

/-- CATCH_INFO: the catch page from 0x100 to 0x11B. -/
def execCatchInfo (h : PortHead) (tag : Nat) (s : State) : Res :=
  .next (withMail s h tag 0x35 fun s =>
    answer s tag 0x35 Mail.done 0 ((List.range 7).flatMap fun i => leBytes 4 (s.reg (hPage 0x0C + 0x100 + 4 * i))))

/-- CATCH_RELEASE (R518, R530); a write of the register is a REGISTER_WRITE. -/
def execCatchRelease (h : PortHead) (tag : Nat) (s : State) : Res :=
  .next (withMail s h tag 0x36 fun s =>
    if dumping s then reply s tag 0x36 Mail.refused
    else reply (releaseCatch s) tag 0x36 Mail.done)

/-! ### The belt (R25, R410) -/

/-- Die d's frames reach the headstock: power is there, and for the dies that the trip stops, their clocks run (R473). -/
def beltRuns (s : State) (d : Nat) : Bool :=
  s.boot.pwrgood && !s.boot.inReset && (d == 63 || !s.power.tripped) && !s.belt.down.contains d

def beltTries (s : State) (d : Nat) : Nat := sget zeroAt s.belt.tries d
def setTries (s : State) (d n : Nat) : State := { s with belt.tries := sset zeroAt s.belt.tries d n }

/-- BELT_CRC_RETRY (R25): an attempt at the frame on die d's lane fails its CRC, and the frame is sent again. A first
attempt is another frame's: the failures of the one before it no longer count. -/
def execBeltCrcRetry (b : BeltAttempt) (s : State) : Res :=
  let d := b.die
  .next (if d < 63 ∧ beltRuns s d ∧ b.attempt ≤ 3 ∧ (b.attempt = 1 ∨ b.attempt = beltTries s d + 1) then setTries s d b.attempt else s)

/-- BELT_LANE_DOWN (R25, R510): the fourth attempt fails. The cause that CATCH_CAUSE shows has no code of R504: a free
value (log entry 63). -/
def execBeltLaneDown (d : Nat) (s : State) : Res :=
  .next (if d < 63 ∧ beltRuns s d ∧ beltTries s d = 3 then
    let s := { setTries s d 0 with belt.down := s.belt.down ++ [d] }
    let f := fresh s
    raiseCatch f.1 f.2 d
  else s)

/-- EVENT_FRAME (R25, R410): the oldest record of die d reaches the headstock. -/
def execEventFrame (d : Nat) (s : State) : Res :=
  .next (if !beltRuns s d then s
    else match sget nilAt s.belt.queues d with
      | [] => s
      | e :: rest => deliverEvent (setTries { s with belt.queues := sset nilAt s.belt.queues d rest } d 0) e)

/-- EVENT_OVERFLOW (R25, R410): space has returned to die d's queue, or to the headstock store (d = 64), after losses. -/
def execEventOverflow (d : Nat) (s : State) : Res :=
  .next (
    let q := sget nilAt s.belt.queues (min d 63)
    let mk := fun (n : Nat) => ({ cause := Cause.eventOverflow, die := min d 63, time := s.time.now, partition := partOfDie d, count := n } : Event)
    if d = 64 then
      if s.belt.storeLost = 0 ∨ 4096 ≤ s.belt.store.length ∨ 256 ≤ q.length then s
      else { s with belt.storeLost := 0, belt.queues := sset nilAt s.belt.queues 63 (q ++ [mk s.belt.storeLost]) }
    else
      let n := sget zeroAt s.belt.lost d
      if 64 < d ∨ n = 0 ∨ 256 ≤ q.length then s
      else { s with belt.lost := sset zeroAt s.belt.lost d 0, belt.queues := sset nilAt s.belt.queues d (q ++ [mk n]) })

end Sys2Proof.Machine
end

