-- ==== Sys2Proof/Machine/States.lean ====
section
/-! DEFINITION. Power states: the end of an entry, the wake sources with rows of their own, the stages of a wake and the
return to Run; a mirrored pair's return (R42, R251, R420, R475 to R482, R524). -/

namespace Sys2Proof.Machine

/-! ### Entry (R475, R476, R481) -/

/-- Links and port go dark on reaching Rest, VCORE0 to VCORE7 and VOPT are turned off, and fabric time goes into holdover (R42, R475,
R482, R555). A fenced link stays so (R346). -/
def goDark (s : State) : State :=
  let s := (List.range 24).foldl (fun s l =>
    if fenced s l then s else showHealth (setField (setLink s l {}) (linkReg l Reg.LINK_STATE) 2 0 0) l) s
  let s := setField s (portReg Reg.PORT_STATE) 1 0 0
  checkPair (enterHoldover { s with power.supplyOff := true, power.steps := [], power.late := [] })

/-- ENTRY_COMPLETE (R475, R481): the state is reached; a latched wake is replayed at once. -/
def execEntryComplete (s : State) : Res :=
  .next (if s.stopped ∨ !psEntering s then s
    else
      let t := s.wake.target % 4
      let latched := psLatched s
      let s := setPs (setPs (setPs s 1 0 t) 4 4 0) 6 6 0
      let s := if t = 3 then goDark s else s
      if latched then beginWake s else s)

/-! ### Wake sources (R477, R478, R480) -/

/-- WAKE_N_FALL (R420, R477). -/
def execWakeNFall (s : State) : Res := .next (if s.stopped then s else wakeSource s 3 0)

/-- The package rests, or enters Rest: the detectors of the receive fibres act. -/
def detecting (s : State) : Bool := psState s == 3 || (psEntering s && s.wake.target == 3)

/-- WAKE_PATTERN (R477, R478): eight periods on fibre 0 of link l, or on lane 0 of the port, which is link 24. -/
def execWakePattern (l : Nat) (s : State) : Res :=
  .next (if s.stopped ∨ 24 < l ∨ !detecting s then s
    else if l = 24 then wakeSource s 1 0 else wakeSource s 0 l)

/-- WAKE_PATTERN_END (R478): the links of a mask that sent the pattern transmit again. -/
def execWakePatternEnd (mask : Nat) (s : State) : Res :=
  .next (((setBits mask 24).filter fun l => (s.link l).waking).foldl (fun s l =>
    drainLink (setLink s l { s.link l with waking := false }) l) s)

/-- PORT_WAKE_FRAME (R400, R477): a wake frame, in Idle and Nap. -/
def execPortWakeFrame (h : PortHead) (s : State) : Res :=
  .next (withPort s 0xC h fun s => if psState s = 3 then s else wakeSource s 1 0)

/-- The wake time of a state in turns (R480). -/
def wakeTurns (st : Nat) : Nat := getNth 0 [0, 1, 49, 19532] st

/-- The state that is reached, or being entered. -/
def comingState (s : State) : Nat := if psEntering s then s.wake.target else psState s

/-- ARMED_COMMIT_WAKE (R480): a page's armed commit enables a program and its turn is the wake time away, or less. -/
def execArmedCommitWake (page : Nat) (s : State) : Res :=
  .next (
    let seq := (pageType (addrDie page) (addrPageIdx page)).any fun x => x.1 == 0x12 && enables s (9 * addrDie page + x.2)
    match commitOf s page with
    | some { turn := some a, .. } =>
      if !s.stopped ∧ seq ∧ sleeping s ∧ a ≤ s.turn + wakeTurns (comingState s) then wakeSource s 5 0 else s
    | _ => s)

/-! ### The stages (R479, R482) -/

/-- What leaving Rest leaves: near SRAM and table memory hold nothing, tags are void, no program is enabled, time is to be
acquired again, and links and port retrain (R251, R482). -/
def leaveRest (s : State) : State :=
  let s := (enabledProgs s).foldl (fun s e => haltProg s e.1 e.2 5) s
  let s := { setFt s 0 false with
    mem.ns := [], mem.tags := [], mem.nsErr := [], mem.table := [], mem.tableErr := []
    seq.arrays := [], time.near := 0, time.mayStep := ftRole s == 0, time.mustStep := ftRole s == 0 }
  let s := (List.range 24).foldl (fun s l =>
    if wantedMode s l = 0 ∨ fenced s l then s else setField s (linkReg l Reg.LINK_STATE) 2 0 1) s
  setField s (portReg Reg.PORT_STATE) 1 0 1

/-- Run is reached. -/
def reachRun (s : State) : State :=
  let s' := setReg { s with wake.attempts := 0 } (psReg Reg.PS_STATE) 0
  if psState s = 3 then leaveRest s' else s'

/-- WAKE_STAGE_READY (R479): the next stage begins, or Run is reached; the regulator stage leaves every rail at the code of the point in
effect. -/
def execWakeStageReady (s : State) : Res :=
  .next (if s.stopped ∨ !psWaking s then s
    else
      let n := nextStage (psState s) (psStage s)
      let s := if psStage s = 1 then settleRails s else s
      if n = 0 then reachRun s else { setPs s 10 8 n with wake.attempts := 1 })

/-- WAKE_STAGE_RETRY (R479): the stage is repeated once. -/
def execWakeStageRetry (s : State) : Res :=
  .next (if !s.stopped ∧ psWaking s ∧ s.wake.attempts = 1 then { s with wake.attempts := 2 } else s)

/-- WAKE_STALLED (R479, R510): the second attempt fails too. -/
def execWakeStalled (s : State) : Res :=
  .next (if !s.stopped ∧ psWaking s ∧ s.wake.attempts = 2 ∧ !s.catching.caught then
    raiseCatch (postOf s (hPage 0x0A) Cause.wakeStalled (psStage s)) Cause.wakeStalled 63
  else s)

/-! ### The pair (R524) -/

/-- MIRROR_RESUMED (R524): a pair link is up again and the partner answers. Where the partner was not lost, it has been caught in
between, and the mirror is lost (log entry 132). -/
def execMirrorResumed (s : State) : Res :=
  .next (if pairState s = 1 then loseMirror s
  else if (pairState s = 2 ∨ pairState s = 3) ∧ !(pairUp s).isEmpty then
    postOf (setReg s (pairReg Reg.PAIR_STATE) 1) (hPage 0x0E) Cause.mirrorResumed 0
  else s)

end Sys2Proof.Machine
end

