-- ==== Sys2Proof/Machine/Boot.lean ====
section
/-! DEFINITION. Power, reset and bring-up: the steps, recovery, ready, and the training and acknowledgement of the port
(R251, R345, R352, R399, R400, R420 to R426, R458, R488 to R501, R545). -/

namespace Sys2Proof.Machine

def bootReg (off : Nat) : Nat := hPage 0x0B + off
def setStep (s : State) (n : Nat) : State := setField s (bootReg Reg.BOOT_STEP) 3 0 n

/-- The first failure, with its die (R501). -/
def bootFail (s : State) (code die : Nat) : State :=
  if bf (s.reg (bootReg Reg.BOOT_FAIL)) 7 0 = 0 then setReg s (bootReg Reg.BOOT_FAIL) (code + 256 * die) else s

/-! ### Power and reset (R420, R421, R426, R446, R491, R545) -/

/-- A start: step 2 begins (R488, R501). -/
def startUp (s : State) : State :=
  let k := bootReg Reg.BOOT_STARTS
  let s := setReg s k (setBf (s.reg k) 15 0 (satAdd 16 (bf (s.reg k) 15 0) 1))
  { s with boot.began := s.time.now }

/-- A field of the catch page. -/
def catchField (k : Nat) : Bool := addrPage k == hPage 0x0C && decide (0x100 ≤ addrOff k)

/-- What power-off leaves: flash with its ageing record and a reduced dump that is held there, with the catch page's fields (R518, R545);
the presence of REFCLK, the waiting commands and the model's own counters. -/
def coldState (s : State) (good : Bool) : State :=
  let w : State :=
    { pending := s.pending, freeCount := s.freeCount
      regs := { live := s.regs.live.filter fun e => s.catching.flashHeld && catchField e.1 }
      tenant := { loads := s.tenant.loads }
      power := { copyA := s.power.copyA, copyB := s.power.copyB }
      time := { refclk := s.time.refclk }
      catching := { flashHeld := s.catching.flashHeld }
      boot := { pwrgood := good, flash := s.boot.flash } }
  if s.catching.flashHeld then setReg w (catchReg Reg.CATCH_STATE) 10 else w

/-- PWRGOOD_RISE (R488): step 2 begins, and BOOT_STARTS counts from here (R501; log entry 88). -/
def execPwrgoodRise (s : State) : Res := .next (if s.boot.pwrgood then s else coldState s true)

/-- PWRGOOD_FALL (R420, R475): the package is off at once, and THERMTRIP_N is released. -/
def execPwrgoodFall (s : State) : Res := .next (if s.boot.pwrgood then coldState s false else s)

/-- A dump is held. -/
def dumpHeld (s : State) : Bool := s.catching.regionHeld || s.catching.flashHeld

/-- The registers that RESET_N keeps: the energy counter, BOOT_STARTS, and the fields of the catch page while a dump is
held (R545). -/
def keptKeys (s : State) (k : Nat) : Bool :=
  k == pwrReg Reg.PWR_ENERGY_LO || k == pwrReg Reg.PWR_ENERGY_HI || k == bootReg Reg.BOOT_STARTS ||
    (dumpHeld s && catchField k)

/-- What RESET_N leaves (R420, R491, R545): the always-on logic, the fabric time count, the energy counter, a held dump
and BOOT_STARTS beside what power-off leaves; GDDR7 as it stands; the trip, which only power-off ends. A latched wake is
discarded (R483). -/
def warmState (s : State) : State :=
  let w : State := { coldState s true with
    regs := { live := s.regs.live.filter fun e => keptKeys s e.1 }
    mem := { gddr := s.mem.gddr, gKey := s.mem.gKey, gErr := s.mem.gErr }
    time := { now := s.time.now, exchanged := s.time.exchanged, refclk := s.time.refclk, alarm := none }
    catching := { regionHeld := s.catching.regionHeld, flashHeld := s.catching.flashHeld, full := s.catching.full }
    sideband := { s.sideband with wake := false }
    board := s.board }
  let w := { w with
    power.tripped := s.power.tripped, power.intEnergy := s.power.intEnergy
    power.rails := s.power.rails, power.fixed := s.power.fixed, power.supplyOff := s.power.supplyOff
    boot.inReset := true }
  if dumpHeld s then setField w (catchReg Reg.CATCH_STATE) 1 0 2 else w

/-- RESET_N_ASSERT (R420, R421, R491): no effect while PWRGOOD is low. -/
def execResetNAssert (s : State) : Res := .next (if s.boot.pwrgood ∧ !s.boot.inReset then warmState s else s)

/-- The instructions that take effect only while RESET_N is asserted (R419). -/
def TapInstr.underReset : TapInstr → Bool
  | .extest | .clamp | .highz | .extestPulse | .extestTrain => true
  | .idcode | .bypass | .samplePreload => false

/-- RESET_N_RELEASE (R419, R491): step 2 begins; the TAP executes BYPASS in place of what needs RESET_N. -/
def execResetNRelease (s : State) : Res :=
  .next (if !s.boot.pwrgood ∨ !s.boot.inReset then s
    else
      let s := startUp { s with boot.inReset := false }
      if s.board.tap.underReset then { s with board.tap := .bypass, board.tdo := 0 } else s)

/-! ### The firmware image (R493, R497) -/

def fwBase : Nat := 0x1000000
def fwMax : Nat := 0x2000000
def fwBytes (s : State) (off n : Nat) : List Byte := (List.range n).map fun i => flashByte s (fwBase + off + i)
def fwWord (s : State) (off : Nat) : Nat := leNat (fwBytes s off 4)

/-- Header, body and signature of the image in flash, at most the image area. -/
def fwBody (s : State) : Nat := min (fwWord s 8) (fwMax - 2484)
def fwSigned (s : State) : List Byte := fwBytes s 0 (64 + fwBody s)
def fwSignature (s : State) : List Byte := fwBytes s (64 + fwBody s) 2420
def fwWhole (s : State) : List Byte := fwSigned s ++ fwSignature s

/-- The image in flash verifies (R493). -/
def fwVerifies (s : State) : Bool :=
  fwWord s 0 == 1 && decide (fwWord s 8 ≤ fwMax - 2484) && ((fwBytes s 0x18 40).all fun b => b == 0) &&
    Config.vendorVerifies (vendorKey s) (fipsMessage "MDN-T64 firmware" (fwSigned s)) (fwSignature s)

/-- Management processors start from the image in flash: step 4 begins. -/
def runImage (s : State) : State := setStep (setReg s (bootReg Reg.BOOT_FW_VER) (fwWord s 4)) 4

/-! ### Steps 3 and 4 (R425, R426, R458, R493, R494, R496) -/

/-- The port is served from mask ROM and trains. -/
def serveRecovery (s : State) : State :=
  let k := portReg Reg.PORT_STATE
  setReg { s with boot.recovery := some (0, 0) } k (setBf (setBit (s.reg k) 3 true) 1 0 1)

/-- Recovery begins (R493). -/
def enterRecovery (s : State) : State :=
  let k := bootReg Reg.BOOT_STARTS
  let s := serveRecovery (setAtt (bootFail s 2 63) 4 true)
  setReg s k (setBf (s.reg k) 31 16 (satAdd 16 (bf (s.reg k) 31 16) 1))

/-- Step 3 ends: the image is hashed into MR0 and verified. -/
def endStep3 (s : State) : State :=
  let s := extendMr s 0 (sha3 (fwWhole s))
  if fwVerifies s then runImage s else enterRecovery s

/-- The SHA3-256 hash of the vendor key that mask ROM holds, and the check of step 2 against it (R422). -/
def romHash : List Byte := sha3 ((List.range 1312).map Config.vendorKey)
def keyAccepted (s : State) : Bool := sha3 (vendorKey s) == romHash

/-- The identity key is derived from the PUF and the test record (R424), and matches where its hash is the one that the record
holds (R425). -/
def deriveKey (s : State) : State := { s with tenant.seed := Config.seedOf s.boot.puf (testRecord s) }
def idMatches (s : State) : Bool := sha3 (idKey s) == Config.recordIdHash (testRecord s)

/-- A copy of the ageing record verifies by the identity key (R423). -/
def copyOk (s : State) (c : AgeCopy) : Bool := Config.idVerifies (idKey s) (Config.ageMessage c.seq c.offsets) c.sig

/-- The copy of the ageing record that step 4 uses: of those that verify, the one with the higher sequence number (R496). -/
def ageRecord (s : State) : Option AgeCopy :=
  match copyOk s s.power.copyA, copyOk s s.power.copyB with
  | true, true => some (if s.power.copyB.seq < s.power.copyA.seq then s.power.copyA else s.power.copyB)
  | true, false => some s.power.copyA
  | false, true => some s.power.copyB
  | false, false => none

/-- The offsets of step 4: those of the ageing record, or 8 steps and a re-plan due where no copy verifies (R458). -/
def loadOffsets (s : State) : State :=
  match ageRecord s with
  | some r => { s with power.offsets := r.offsets }
  | none =>
    { bootFail s 4 63 with
      power.replanDue := true
      power.offsets := (List.range 48).flatMap fun d => (List.range 12).map fun k => (offsetKey d k, 8) }

/-- A fixed rail's setting: the test record's, within 5 % of the figure (R552). -/
def fixedSetting (rec : List Byte) (i : Nat) : Nat :=
  let n := getNth 0 fixedNominal i
  max (n * 95 / 100) (min (n * 105 / 100) (Config.recordTrim rec i))

/-- The fixed rails are set from the test record (R453, R552). -/
def trimRails (s : State) : State := { s with power.fixed := (List.range 8).map (fixedSetting (testRecord s)) }

/-- Step 4 ends: the test record, the identity, the ageing record, the fixed rails, and the partition rails at OP11. -/
def endStep4 (s : State) : State :=
  if !Config.recordVerifies (vendorKey s) (testRecord s) then
    let s := serveRecovery { bootFail s 3 63 with boot.stopped := true }
    setReg64 s (hPage 1 + Reg.ID_SERIAL_LO) 0
  else
    let s := deriveKey (extendMr s 1 (sha3 (testRecord s)))
    let s := if idMatches s then setAtt s 0 true else postOf s (hPage 7) Cause.identityFailure 0
    let s := setReg (showOffsets (loadOffsets s)) (pwrReg Reg.PWR_OP) 11
    setStep (settleRails (trimRails s)) 5

/-! ### Steps 5 to 8 (R33, R258, R261, R268, R345, R399, R489 to R491) -/

/-- Partition p is withheld from ownership (R33, R490). -/
def withholdPart (s : State) (p : Nat) : State :=
  let k := hPage 4 + Reg.PART_HEALTH + 4 * p
  let b := bootReg Reg.BOOT_WITHHELD
  let s := setReg s k (setBit (s.reg k) 0 true)
  setReg s b (setBit (s.reg b) p true)

/-- C-die d is shown failed, by its place in its partition (R548). -/
def showFailedDie (s : State) (d : Nat) : State :=
  let k := hPage 4 + Reg.PART_HEALTH + 4 * partOfC d
  setReg (withholdPart s (partOfC d)) k
    (setBit ((withholdPart s (partOfC d)).reg k) (2 + (partDies (partOfC d)).findIdx (· == d)) true)

def loseMDie (s : State) (p : Nat) : State :=
  let k := hPage 4 + Reg.PART_HEALTH + 4 * p
  let s := withholdPart s p
  setReg s k (setBit (s.reg k) 1 true)

/-- The four links of O-die d are fenced dark. -/
def darkODie (s : State) (d : Nat) : State :=
  (List.range 4).foldl (fun s j =>
    let l := 4 * (d - 56) + j
    showHealth (postLink (setField s (linkReg l Reg.LINK_STATE) 2 0 4) l Cause.dark 0 1 0 0) l) s

/-- A failure for which R504 has no cause of its own is posted with a free one (R490, log entry 63). -/
def postFailed (s : State) (d : Nat) : State :=
  let f := fresh s
  post f.1 (hPage 0x0B) { cause := f.2 % 65536, die := d, time := s.time.now, partition := partOfDie d }

/-- The outcome of a die's failure at steps 5 and 6 (R490). -/
def failDie (s : State) (code d : Nat) : State :=
  if d = 62 then { bootFail s 10 62 with boot.stopped := true }
  else
    let s := postFailed (bootFail s code d) d
    if d < 48 then showFailedDie s d
    else if d < 56 then loseMDie s (d - 48)
    else darkODie s d

/-- Step 5 ends: the belt lanes are up or marked failed; without REFCLK it does not (R491). -/
def endStep5 (s : State) (x : StepEnd) : State :=
  if !s.time.refclk then bootFail s 1 63
  else
    let ds := (x.failed.filter fun d => decide (d < 63)).eraseDups
    let s := ds.foldl (fun s d => failDie s 5 d) { s with belt.down := ds }
    if s.boot.stopped then s else setStep s 6

/-- An edge between two C-dies fails; it is named by one of them (R490). -/
def failEdge (s : State) (d : Nat) : State := (List.range 8).foldl withholdPart (postFailed (bootFail s 6 d) d)

/-- Every program slot of the package is disabled (R488). -/
def disablePrograms (s : State) : State :=
  (enabledProgs s).foldl (fun s (e : Nat × Nat) =>
    setProg (setProgState (setFieldBoth s (progReg e.1 e.2) 31 31 0) e.1 e.2 0) e.1 e.2 {}) s

/-- Step 6 ends: the mesh is trained, tags are cleared, table memory is cleared and programs are disabled (R18, R251). -/
def endStep6 (s : State) (x : StepEnd) : State :=
  let ds := (x.failed.filter fun d => (decide (d < 48) || d == 62) && !s.belt.down.contains d).eraseDups
  let s := ds.foldl (fun s d => failDie s 6 d) s
  let s := ((x.edges.filter fun d => decide (d < 48)).eraseDups).foldl failEdge s
  let s := { s with mem.ns := [], mem.tags := [], mem.nsErr := [], mem.table := [], mem.tableErr := [] }
  let s := disablePrograms s
  if s.boot.stopped then s else setStep s 7

/-- Units of a channel's data (R261). -/
def channelUnits (clamshell : Bool) : Nat := if clamshell then 3840 else 1920

/-- Window w after training: its mode and channels, its map, and the sanding of all but a held dump (R261, R262, R268). -/
def openWindow (s : State) (w live : Nat) (clamshell : Bool) : State :=
  let n := (setBits live 8).length
  let d := n * channelUnits clamshell
  let p := memPage w
  let s := setReg s (p + Reg.MEM_MODE) ((if clamshell then 1 else 0) + 4 + 256 * live)
  let s := setReg s (p + Reg.MEM_CH_STATE) (((List.range 8).filter fun k => bit live k == 0).foldl (fun m k => m + 4 ^ k) 0)
  let s := setReg (setReg s (p + Reg.MEM_DATA_SIZE) d) (p + Reg.MEM_CATCH_BASE) (d - shareUnits false)
  let h := hPage 4 + Reg.PART_HEALTH + 4 * w
  let s := setReg s h (setBf (s.reg h) 15 8 live)
  let s := ((List.range 8).filter fun k => bit live k == 0).foldl (fun s k =>
    post (bootFail s 7 (48 + w)) p ((memCtx w).event s Cause.channelFailed (channelBase s w k))) s
  if n = 0 then s else queueSand s w 0 (if s.catching.regionHeld then heldBase s w else d) false

/-- Step 7 ends: GDDR7 is trained, and the port begins to train (R399, R412). -/
def endStep7 (s : State) (x : StepEnd) : State :=
  let ws := (List.range 8).filter fun w => bit (s.reg (hPage 4 + Reg.PART_HEALTH + 4 * w)) 1 == 0
  let live := fun (w : Nat) => getNth 255 x.channels w % 256
  let s := ws.foldl (fun s w => openWindow s w (live w) x.clamshell) s
  let present := maskOf (ws.filter fun w => live w != 0)
  let s := setReg s (hPage 1 + Reg.ID_MEM) ((if x.clamshell then 1 else 0) + 256 * present)
  setStep (setField s (portReg Reg.PORT_STATE) 1 0 1) 8

/-- Step 8 ends: links and port are trained. -/
def endStep8 (s : State) (x : StepEnd) : State :=
  let ts := x.links.zipIdx.filter fun e => decide (e.2 < 24) && !s.belt.down.contains (56 + e.2 / 4)
  let s := ts.foldl (fun s e =>
    let s := endTraining s e.2 0 e.1
    if 4 ≤ linkStateOf s e.2 ∧ linkStateOf s e.2 ≤ 6 then bootFail s 8 (56 + e.2 / 4) else s) s
  let s := setPortLanes s x.portDark
  setStep (if x.portDark % 4 = 3 then bootFail s 9 62 else s) 9

/-- BRING_UP_STEP_END (R488): the step in progress meets its end, step 2 where the vendor key's hash is the one in mask ROM
(R422); step 9 ends with READY. -/
def execBringUpStepEnd (x : StepEnd) (s : State) : Res :=
  .next (if s.stopped ∨ s.boot.stopped ∨ s.boot.recovery.isSome ∨ s.catching.caught then s
    else match bootStep s with
      | 2 => if keyAccepted s then setStep { s with boot.puf := x.puf } 3 else s
      | 3 => endStep3 s
      | 4 => endStep4 s
      | 5 => endStep5 s x
      | 6 => endStep6 s x
      | 7 => endStep7 s x
      | 8 => endStep8 s x
      | _ => s)

/-! ### Ready (R488, R497, R500, R501) -/

/-- The default configuration block of the image in use (R497). -/
def defaultBlock (s : State) : List Byte :=
  if fwWord s 12 = 0 then [] else fwBytes s (64 + fwWord s 12) (fwBody s - fwWord s 12)

/-- A default goes to its shadow and its page commits (R497). -/
def putDefault (s : State) (item key hi lo : Nat) : State :=
  if fwWord s 12 = 0 then s
  else match Config.imageDefault (defaultBlock s) item with
    | none => s
    | some v =>
      let s := setShd s key (setBf (s.shd key) hi lo v)
      if (commitOf s (addrPage key)).isSome then s else addCommit s (addrPage key) none

def commitDefaults (s : State) : State :=
  let s := (List.range 24).foldl (fun s l => putDefault s l (linkReg l Reg.LINK_CTRL) 1 0) s
  putDefault (putDefault (putDefault s 24 (pwrReg Reg.PWR_CAP) 15 0) 25 (pwrReg Reg.PWR_WINDOW) 4 0) 26 (pwrReg Reg.AGE_PERIOD) 15 0

/-- READY (R488, R500, R501): time is acquired and every window is sanded. -/
def execReady (s : State) : Res :=
  .next (if s.stopped ∨ s.catching.caught ∨ bootStep s ≠ 9 ∨ !ftFlag s 0 ∨ !((List.range 8).all fun w => (sandRanges s w).isEmpty) then s
    else
      let s := setReg (setStep s 10) (bootReg Reg.BOOT_TIME) (min (2 ^ 24 - 1) ((s.time.now - s.boot.began) / 10000))
      commitDefaults (publishCeiling (postOf s (hPage 0x0B) Cause.ready 0)))

/-! ### Recovery frames (R493, R494) -/

/-- The answer to a recovery frame: status, and the offset expected next. -/
def answerRecovery (s : State) (tag status : Nat) : State :=
  sendPort s { type := 0xB, tag := tag, arg0 := (s.boot.recovery.map (·.1)).getD 0, arg1 := 256 * status }

/-- A recovery frame that is taken; outside recovery it is discarded and counted. -/
def withRecovery (s : State) (h : PortHead) (k : State → Nat → Nat → State) : State :=
  withPort s 0xB h fun s =>
    match s.boot.recovery with
    | none => dropPort s
    | some (got, total) => k s got total

/-- RECOVERY_CHUNK (R493, R494). -/
def execRecoveryChunk (h : PortHead) (tag off total : Nat) (bytes : List Byte) (s : State) : Res :=
  .next (withRecovery s h fun s got whole =>
    let n := bytes.length
    if off ≠ got ∨ n = 0 ∨ 4096 < n ∨ fwMax < total ∨ total < off + n ∨ (n < 4096 ∧ off + n ≠ total) ∨ (got ≠ 0 ∧ total ≠ whole) then
      answerRecovery s tag 1
    else
      let ws := bytes.zipIdx.map fun ((b, i) : Byte × Nat) => (fwBase + off + i, b)
      answerRecovery { s with boot.flash := ssetAll flashDefault s.boot.flash ws, boot.recovery := some (off + n, total) } tag 0)

/-- RECOVERY_COMMIT (R494). -/
def execRecoveryCommit (h : PortHead) (tag off total : Nat) (s : State) : Res :=
  .next (withRecovery s h fun s got whole =>
    if got = 0 ∨ got ≠ whole ∨ total ≠ whole ∨ (off ≠ 0 ∧ off ≠ got) then answerRecovery s tag 1
    else if fwVerifies s then
      let s := answerRecovery (extendMr s 4 (sha3 (fwWhole s))) tag 2
      if s.boot.stopped then s
      else runImage (setField { s with boot.recovery := none } (portReg Reg.PORT_STATE) 3 3 0)
    else answerRecovery { s with boot.recovery := some (0, 0) } tag 3)

/-- RECOVERY_STATUS (R493). -/
def execRecoveryStatus (h : PortHead) (tag : Nat) (s : State) : Res :=
  .next (withRecovery s h fun s _ _ => answerRecovery s tag 0)

/-! ### The port's training and acknowledgements (R352, R353, R399, R400) -/

/-- PORT_TRAINING (R399): the frames not acknowledged are sent again. -/
def execPortTraining (dark : Nat) (s : State) : Res :=
  .next (if s.stopped ∨ (bf (s.reg (portReg Reg.PORT_STATE)) 1 0 ≠ 1 ∧ bootStep s ≠ 8) then s
    else
      let s := incReg s (portReg Reg.PORT_REPLAYS) (portSent s.port.tx).length
      setPortLanes { s with port.tries := 0, port.nak := false } dark)

/-- The port frames left after a cumulative acknowledgement of SEQ q, if q stands among those that have left. -/
def portAcked (tx : List PortFrame) (q : Nat) : List PortFrame :=
  if (portSent tx).any fun f => f.seq == q then tx.drop (tx.findIdx (fun f => f.seq == q) + 1) else tx

/-- PORT_LINK_CONTROL (R352, R353, R400): an acknowledgement, and a NAK that names the first SEQ lacked: the frames that had left
are sent again from there. -/
def execPortLinkControl (ack : Nat) (nak : Option Nat) (s : State) : Res :=
  .next (if !portUp s then s
    else
      let tx := portAcked s.port.tx ack
      let s := { s with port.tx := tx, port.tries := if tx.length = s.port.tx.length then s.port.tries else 0 }
      match nak with
      | none => s
      | some q =>
        let sent := (portSent s.port.tx).length
        let tx := if (portSent s.port.tx).any (fun f => f.seq == q) then portAcked s.port.tx ((q + 4095) % 4096) else s.port.tx
        let again := sent - (s.port.tx.length - tx.length)
        incReg { s with port.tx := tx, port.tries := s.port.tries + (if again = 0 then 0 else 1) } (portReg Reg.PORT_REPLAYS) again)

end Sys2Proof.Machine
end

