-- ==== Sys2Proof/Machine/Board.lean ====
section
/-! DEFINITION. The board's side: the I3C sideband and the test access port (R414, R415, R419). -/

namespace Sys2Proof.Machine

/-! ### The sideband (R414, R415) -/

/-- The sideband answers: power is there and its pins are driven. -/
def sbRuns (s : State) : Bool := s.boot.pwrgood && !s.sideband.highZ

/-- SB_STATE. -/
def sbState (s : State) : Nat :=
  psState s + (if ready s then 8 else 0) + (if s.catching.caught then 16 else 0) + (if admitted s then 32 else 0) +
    (if portUp s then 64 else 0)

/-- A private read of register index i, with the latch of SB_ENERGY_LO; power and energy are coarsened as the mailbox's
are (R449). SB_CAP shows the cap from step 4 on, where the controllers begin (R488; log entry 173). No row of the table reads the
sideband: this is what such a read returns, and latches. -/
def sbRead (s : State) (i : Nat) : State × Nat :=
  match i with
  | 0x00 => (s, s.reg (hPage 1 + Reg.ID_VALUE))
  | 0x04 => (s, sbState s)
  | 0x08 => (s, coarseWord s Reg.PWR_NOW (s.reg (pwrReg Reg.PWR_NOW)) % 65536)
  | 0x0C =>
    ({ s with sideband.latch := coarseWord s Reg.PWR_ENERGY_HI (s.reg (pwrReg Reg.PWR_ENERGY_HI)) },
      coarseWord s Reg.PWR_ENERGY_LO (s.reg (pwrReg Reg.PWR_ENERGY_LO)))
  | 0x10 => (s, s.sideband.latch)
  | 0x14 => (s, bf (s.reg (pwrReg Reg.PWR_TJ)) 7 0)
  | 0x18 => (s, ((List.range 8).map fun w => bf (s.reg (memPage w + Reg.MEM_TEMP)) 7 0).foldl max 0)
  | 0x1C => (s, if bf (s.reg (hPage 0x0B + Reg.BOOT_STEP)) 3 0 < 4 then 0 else capW s)
  | 0x20 => (s, if s.sideband.wake then 1 else 0)
  | 0x24 => (s, s.sideband.events)
  | _ => (s, 0)

/-- SB_WAKE (R414, R477): the bit reads 1 until the wake begins. -/
def execSbWake (s : State) : Res :=
  .next (if !sbRuns s ∨ s.boot.inReset ∨ !sleeping s then s
    else wakeSource (if psWaking s then s else { s with sideband.wake := true }) 2 0)

/-- SB_EVENTS_CLEAR (R414). -/
def execSbEventsClear (v : Nat) (s : State) : Res :=
  .next (if !sbRuns s then s
    else
      let e := s.sideband.events &&& (15 - v % 16)
      { s with sideband.events := e, sideband.irq := s.sideband.irq && e != 0 })

/-- SIDEBAND_FAULT (R415). -/
def execSidebandFault (s : State) : Res :=
  .next (if !sbRuns s ∨ s.boot.inReset then s
    else postOf { s with sideband.highZ := true, sideband.faults := s.sideband.faults + 1 } (hPage 2) Cause.sidebandFault 0)

/-- SIDEBAND_RETEST (R415): the bus is found free, or still low. -/
def execSidebandRetest (ok : Bool) (s : State) : Res :=
  .next (if s.sideband.highZ ∧ ok then { s with sideband.highZ := false } else s)

/-- DYNAMIC_ADDRESS_ASSIGNMENT (R414): 7 bits. -/
def execDynamicAddressAssignment (a : Nat) (s : State) : Res :=
  .next (if sbRuns s then { s with sideband.addr := a % 128 } else s)

/-! ### JTAG (R419) -/

/-- An instruction is loaded into the TAP; outside RESET_N those that need it execute as BYPASS. tdo is the data register
it selects as captured: the boundary register, the identification code, or the bypass bit. -/
def loadTap (s : State) (i : TapInstr) (data : Nat) : State :=
  if !s.boot.pwrgood then s
  else if i.underReset && !s.boot.inReset then { s with board.tap := .bypass, board.tdo := 0 }
  else { s with board.tap := i, board.tdo := data }

def execBypass (s : State) : Res := .next (loadTap s .bypass 0)
def execIdcode (s : State) : Res := .next (loadTap s .idcode 0x20640B3D)

/-- SAMPLE/PRELOAD captures the pins, whose levels are the operand. -/
def execSamplePreload (pins : Nat) (s : State) : Res := .next (loadTap s .samplePreload pins)
def execExtest (pins : Nat) (s : State) : Res := .next (loadTap s .extest pins)
def execClamp (s : State) : Res := .next (loadTap s .clamp 0)
def execHighz (s : State) : Res := .next (loadTap s .highz 0)

/-- EXTEST_PULSE and EXTEST_TRAIN (IEEE 1149.6). -/
def execExtestPulse (pins : Nat) (s : State) : Res := .next (loadTap s .extestPulse pins)
def execExtestTrain (pins : Nat) (s : State) : Res := .next (loadTap s .extestTrain pins)

/-- TRST_N_ASSERT: the TAP's reset state selects the identification register. -/
def execTrstNAssert (s : State) : Res := .next (if s.boot.pwrgood then { s with board.tap := .idcode, board.tdo := 0x20640B3D } else s)

/-- DEBUG_INSTRUCTION (R419, R449, R450): without authorisation, and while a confidential tenant is present, it does
nothing. What an authorised one does the manual does not say: the model refuses it by name. -/
def execDebugInstruction (s : State) : Res := if attBit s 3 && !confPresent s then .refused .debugAuthorised else .next s

end Sys2Proof.Machine
end

