-- ==== Sys2Proof/Machine/Mailbox.lean ====
section
/-! DEFINITION. Mailbox requests that read and write registers, pair packages and set power (R407, R408, R456, R460, R461, R468,
R476 to R478, R484, R521, R524, R530). -/

namespace Sys2Proof.Machine

/-! ### Registers (R22, R23, R407, R408) -/

/-- The mailbox status of a belt STATUS (R406). -/
def mailStatus (st : Nat) : Nat := if st = 0 then Mail.done else if st = 1 then Mail.noSuchRegister else Mail.accessRefused

/-- Words read one after another: the first STATUS other than 0, and the words. -/
def readWords (s : State) (addr n : Nat) : State × Nat × List Nat :=
  (List.range n).foldl (fun (a : State × Nat × List Nat) i =>
    let r := hubRead a.1 .mailbox (addr + 4 * i)
    (r.1, (if a.2.1 = 0 then r.2.1 else a.2.1), a.2.2 ++ [r.2.2])) (s, 0, [])

/-- REG_READ (R407). -/
def execRegRead (h : PortHead) (tag addr n : Nat) (s : State) : Res :=
  .next (withMail s h tag 1 fun s =>
    if n = 0 ∨ 16 < n ∨ addr % 4 ≠ 0 then reply s tag 1 Mail.reservedEncoding
    else
      let r := readWords s addr n
      if r.2.1 = 0 then answer r.1 tag 1 Mail.done 0 (r.2.2.flatMap (leBytes 4)) else reply r.1 tag 1 (mailStatus r.2.1))

/-- Words written one after another, and the first STATUS other than 0. -/
def writeWords (s : State) (addr : Nat) (ws : List Nat) : State × Nat :=
  ws.zipIdx.foldl (fun (a : State × Nat) (w : Nat × Nat) =>
    let r := hubWrite a.1 .mailbox (addr + 4 * w.2) (w.1 % 2 ^ 32)
    (answerWithdrawn a.1 r.1 (addrPage (addr + 4 * w.2)), if a.2 = 0 then r.2 else a.2)) (s, 0)

/-- REG_WRITE (R407). -/
def execRegWrite (h : PortHead) (tag addr : Nat) (words : List Nat) (s : State) : Res :=
  .next (withMail s h tag 2 fun s =>
    if words.isEmpty ∨ 16 < words.length ∨ addr % 4 ≠ 0 then reply s tag 2 Mail.reservedEncoding
    else
      let r := writeWords s addr words
      reply r.1 tag 2 (mailStatus r.2))

/-- The address of an SH field (R408). -/
def isShadow (a : Nat) : Bool :=
  decide (a < 0x4000000) && a % 4 == 0 && decide (addrOff a < 0x800) &&
    match pageType (addrDie a) (addrPageIdx a) with
    | none => false
    | some (ty, _) => (regRow ty (addrOff a)).any fun r => r.acc == .sh

/-- Another commit of the page is outstanding than an arming for a turn, none for a GO (R408, R539). -/
def commitBusy (s : State) (page : Nat) (t : Option Nat) : Bool :=
  match commitOf s page with
  | none => false
  | some c => !(t.isSome && c.turn == t)

/-- COMMIT_TURN takes the turn and the page is armed (R408). -/
def armPage (s : State) (page : Nat) (t : Option Nat) : State :=
  let s := match t with | none => s | some a => setReg64 s (page + Reg.F_COMMIT_TURN_LO) a
  askCommit s page t

/-- ARM (R408): all pairs or nothing. -/
def execArm (h : PortHead) (tag turn : Nat) (pairs : List (Nat × Nat)) (s : State) : Res :=
  .next (withMail s h tag 3 fun s =>
    let pages := (pairs.map fun x => addrPage x.1).eraseDups
    if pairs.isEmpty ∨ 32 < pairs.length ∨ 2 ^ 54 ≤ turn ∨ !(pairs.all fun x => isShadow x.1) then
      reply s tag 3 Mail.reservedEncoding
    else if pairs.any fun x => writeStatus s .mailbox x.1 != 0 then reply s tag 3 Mail.accessRefused
    else if pages.any fun p => commitBusy s p (some turn) then
      reply ((pages.filter fun p => commitBusy s p (some turn)).foldl (fun s p => setEvent s p 5) s) tag 3 Mail.busy
    else
      let s := pairs.foldl (fun s x => (hubWrite s .mailbox x.1 (x.2 % 2 ^ 32)).1) s
      reply (pages.foldl (fun s p => armPage s p (some turn)) s) tag 3 Mail.done)

/-- A request that writes SH fields of one page, arms it, or commits it at the next boundary for turn 0, and waits for the
commit (R484, R530). -/
def commitFor (s : State) (tag op page turn : Nat) (write : State → State) : State :=
  let t := if turn = 0 then none else some turn
  if 2 ^ 54 ≤ turn then reply s tag op Mail.reservedEncoding
  else if writeStatus s .mailbox (page + 0x100) ≠ 0 then reply s tag op Mail.accessRefused
  else if commitBusy s page t then reply (setEvent s page 5) tag op Mail.busy
  else awaitCommit (armPage (write s) page t) tag op page

/-! ### Pairing (R521, R524, R530) -/

def pairPage : Nat := hPage 0x0E

/-- PAIR_SET: PARTS are those of the slot, which it uses (R432). What does not fit a field of the pair page is refused as the commit
would be (R521). -/
def execPairSet (h : PortHead) (tag partner l0 l1 base size slot : Nat) (s : State) : Res :=
  .next (withMail s h tag 0x32 fun s =>
    if !admitted s then reply s tag 0x32 Mail.notAdmitted
    else if 1024 ≤ partner ∨ 32 ≤ l0 ∨ 32 ≤ l1 ∨ 2 ^ 39 ≤ base ∨ size = 0 ∨ 65536 < size ∨ 64 ≤ slot then
      reply (noteRefused s pairPage 0x0E 0 s.turn { cause := Cause.reservedEncoding }) tag 0x32 Mail.refused
    else commitFor s tag 0x32 pairPage 0 fun s =>
      let solo := bit (s.shd (pairReg Reg.PAIR_CTRL)) 1
      let s := setShd s (pairReg Reg.PAIR_CTRL) (1 + 2 * solo + 256 * slot + 65536 * slotParts s slot)
      let s := setShd (setShd s (pairReg Reg.PAIR_PARTNER) partner) (pairReg Reg.PAIR_LINKS) (l0 + 256 * l1)
      let s := setShd (setShd s (pairReg Reg.PAIR_MBASE_LO) base) (pairReg Reg.PAIR_MBASE_HI) (base / 2 ^ 32)
      setShd s (pairReg Reg.PAIR_MSIZE) (size - 1))

/-- One bit of PAIR_CTRL's shadow. -/
def setPairBit (s : State) (b : Nat) (v : Bool) : State :=
  setShd s (pairReg Reg.PAIR_CTRL) (setBit (s.shd (pairReg Reg.PAIR_CTRL)) b v)

/-- PAIR_CLEAR. -/
def execPairClear (h : PortHead) (tag : Nat) (s : State) : Res :=
  .next (withMail s h tag 0x33 fun s =>
    if !s.net.mirror.isEmpty ∨ !s.net.unacked.isEmpty then reply s tag 0x33 Mail.busy
    else commitFor s tag 0x33 pairPage 0 fun s => setPairBit s 0 false)

/-- PAIR_SOLO. -/
def execPairSolo (h : PortHead) (tag : Nat) (solo : Bool) (s : State) : Res :=
  .next (withMail s h tag 0x34 fun s => commitFor s tag 0x34 pairPage 0 fun s => setPairBit s 1 solo)

/-! ### Power (R456, R460, R461, R468, R476 to R478, R484) -/

/-- CAP_SET. -/
def execCapSet (h : PortHead) (tag cap window turn : Nat) (s : State) : Res :=
  .next (withMail s h tag 0x38 fun s =>
    commitFor s tag 0x38 (hPage 9) turn fun s =>
      setShd (setShd { s with power.capWritten := true } (pwrReg Reg.PWR_CAP) (min 65535 cap)) (pwrReg Reg.PWR_WINDOW) (min 31 window))

/-- SHARE_SET. -/
def execShareSet (h : PortHead) (tag : Nat) (shares : List Nat) (turn : Nat) (s : State) : Res :=
  .next (withMail s h tag 0x39 fun s =>
    if shares.length ≠ 8 then reply s tag 0x39 Mail.reservedEncoding
    else commitFor s tag 0x39 (hPage 9) turn fun s =>
      shares.zipIdx.foldl (fun s (x : Nat × Nat) => setShd s (pwrReg (Reg.PWR_SHARE + 4 * x.2)) (x.1 % 65536)) s)

/-- OP_SET: point 0xFF clears VALID. -/
def execOpSet (h : PortHead) (tag mask point turn : Nat) (s : State) : Res :=
  .next (withMail s h tag 0x3A fun s =>
    if 11 < point ∧ point ≠ 0xFF then reply s tag 0x3A Mail.refused
    else commitFor s tag 0x3A (hPage 9) turn fun s =>
      (setBits mask 8).foldl (fun s p =>
        let k := pwrReg (Reg.OP_REQ + 4 * p)
        setShd s k (if point = 0xFF then setBit (s.shd k) 31 false else point + 2 ^ 31)) s)

/-- STATE_SET: target 0 wakes from Idle and Nap. -/
def execStateSet (h : PortHead) (tag target turn : Nat) (s : State) : Res :=
  .next (withMail s h tag 0x3B fun s =>
    if 3 < target then reply s tag 0x3B Mail.reservedEncoding
    else if target = 0 then reply (mailboxWake s) tag 0x3B Mail.done
    else commitFor s tag 0x3B (hPage 0x0A) turn fun s => setShd s (psReg Reg.PS_CTRL) (target + 2 ^ 31))

/-- POWER_READ: the readings as the power page shows them to the mailbox (R449; the order of the payload is log entry 65). -/
def execPowerRead (h : PortHead) (tag : Nat) (s : State) : Res :=
  .next (withMail s h tag 0x3C fun s =>
    let rd := fun (o : Nat) => coarseWord s o (s.reg (pwrReg o))
    let now := rd Reg.PWR_NOW
    answer s tag 0x3C Mail.done (capW s + 2 ^ 32 * bf (rd Reg.PWR_AVG) 15 0)
      (leBytes 4 (bf now 15 0) ++ leBytes 4 (bf now 31 16) ++ leBytes 4 (rd Reg.PWR_ENERGY_LO) ++ leBytes 4 (rd Reg.PWR_ENERGY_HI) ++
        leBytes 4 (ceilNow s) ++ leBytes 4 (pointNow s) ++ leBytes 4 (rd Reg.PWR_PACE) ++ leBytes 4 (rd Reg.PWR_STATUS)))

/-- REPLAN (R456). -/
def execReplan (h : PortHead) (tag turn : Nat) (s : State) : Res :=
  .next (withMail s h tag 0x3D fun s =>
    if 2 ^ 54 ≤ turn then reply s tag 0x3D Mail.reservedEncoding
    else if s.power.replan.isSome then reply s tag 0x3D Mail.busy
    else reply (makeReplan s turn) tag 0x3D Mail.accepted)

/-- WAKE_LINKS (R478). -/
def execWakeLinks (h : PortHead) (tag mask : Nat) (s : State) : Res :=
  .next (withMail s h tag 0x3E fun s =>
    if 2 ^ 24 ≤ mask then reply s tag 0x3E Mail.reservedEncoding else reply (sendPattern s mask) tag 0x3E Mail.done)

end Sys2Proof.Machine
end

