-- ==== Sys2Proof/Machine/Boundary.lean ====
section
/-! DEFINITION. The turn boundary and what is named to it, and the package idle page (R43, R44, R46, R66, R68, R303, R304,
R334, R395, R449, R455, R456, R470, R476, R512, R527, R529). -/

namespace Sys2Proof.Machine

/-! ### Idle and busy counters (R394, R395) -/

/-- The counter of a cause, 0 to 11, or of busy cycles, 12. -/
def idleReg (cl c : Nat) : Nat := clPage 0x17 cl + (if c < 12 then Reg.IDLE + 8 * c else Reg.BUSY_LO)

/-- The leading program of a cluster: enabled, with the highest effective priority, ties to the lower slot (R394). -/
def leadProg (s : State) (cl : Nat) : Option Nat :=
  (List.range 8).foldl (fun a p =>
    if !progEnabled s cl p then a
    else match a with
      | none => some p
      | some q => if (s.prog cl q).prio < (s.prog cl p).prio then some p else a) none

/-- The cause that an entry in flight charges, 12 where it charges none (R394). -/
def flightCause (e : Nat) : Nat :=
  match Ent.type e with
  | 0 => 7
  | 2 => if needsSkew e then 7 else 12
  | 3 => 2
  | 4 => 0
  | 5 => 1
  | 6 => 3
  | 7 => 2
  | 8 => 10
  | _ => 12

/-- The earliest entry of a list, or the earlier one that occupies its unit (R394). -/
def earliestCause (s : State) (fs : List Flight) : Nat :=
  match fs.head? with
  | none => 12
  | some f =>
    if flightFirst s f then flightCause f.entry
    else
      let before := s.seq.flights.filter fun g =>
        decide (g.id < f.id) && g.cl == f.cl && g.units.any fun u => f.units.contains u
      flightCause ((before.head?.map (·.entry)).getD f.entry)

/-- The entries of the full queue of a unit that holds an entry for a mask of cores: that of the lowest core without room, or the
cluster's transfer queue (R51, R394). -/
def fullQueue (s : State) (cl cores : Nat) (u : UnitId) : List Flight :=
  let fs := s.seq.flights.filter fun f => f.cl == cl && f.units.contains u
  if u = .transfer then fs
  else match (setBits cores 16).find? fun k => !unitRoom s cl (2 ^ k) u with
    | none => fs
    | some k => fs.filter fun f => bit f.cores k == 1

/-- The cause of a program's next entry that is held: by DEP, FENCE or a GATE on an entry not complete, else by the full queue of a
unit, or as a REDUCE behind an earlier bucket of its tag (R373, R394). An ATTN step that waits for its pages to be free of other
steps waits for allocation; one whose data waits for a channel, and such a MOVE, waits for memory (R150, R257). -/
def heldCause (s : State) (cl p : Nat) : Nat :=
  let e := entryAt s cl (progPC s cl p)
  let mine := inFlight s cl p
  let n := (s.prog cl p).issued
  if !depOk s cl p e then earliestCause s (mine.filter fun f => f.seq == n - Ent.dep e)
  else if !fenceOk s cl p e then earliestCause s mine
  else if Ent.type e = 0x0B ∧ !gateReady s cl p then
    earliestCause s (mine.filter fun f => Ent.type f.entry == 5 || Ent.type f.entry == 6)
  else match (entryUnits e).find? fun u => !unitRoom s cl (entryCores e) u with
    | some u => earliestCause s (fullQueue s cl (entryCores e) u)
    | none =>
      if bucketHeld s cl e then 1
      else if Ent.type e = 7 ∧ truncateWaits s cl e then 4
      else if (Ent.type e = 7 ∧ pagesHeld s e) ∨ (Ent.type e = 3 ∧ sourceHeld s e) then 2
      else 12

/-- A commit armed for a later turn would enable a program of a cluster (R394 rule 5). -/
def enablingArmed (s : State) (cl : Nat) : Bool :=
  match commitOf s (clPage 0x12 cl) with
  | some { turn := some a, .. } => decide (s.turn < a) && enables s cl
  | _ => false

/-- Rules 4 and 5 of R394: what a cycle counts as that no droop, unit or pacing takes; none where it is not counted. -/
def leadCause (s : State) (cl : Nat) : Option Nat :=
  match leadProg s cl with
  | none => if enablingArmed s cl then some 9 else none
  | some p => some (if (s.prog cl p).wait == .none then heldCause s cl p else (s.prog cl p).cause)

/-- A counter of 48 bits, which wraps. -/
def addIdle (s : State) (cl c n : Nat) : State :=
  let k := idleReg cl c
  if n = 0 then s else setReg64 s k ((s.reg64 k + n) % 2 ^ 48)

/-- The cycles of the turn that ends in one cluster, none where its clocks are gated, by the rules of R394: stretched by droop, busy, paced, and the rest under the
cause of the leading program (log entry 125); the cycles that entries waited on jumps (R232), and the sampler on rings (R162). -/
def chargeCluster (s : State) (c : Charge) : State :=
  if 432 ≤ c.cl ∨ clockGated s (c.cl / 9) then s
  else
    let rest := leadCause s c.cl
    let s := addIdle (addIdle (addIdle s c.cl 6 c.stretched) c.cl 12 c.busy) c.cl 5 c.paced
    let s := match rest with | none => s | some x => if x ≤ 12 then addIdle s c.cl x c.rest else s
    incReg (incReg s (clPage 0x16 c.cl + Reg.RS_JUMPWAIT) c.jumpWait) (clPage 0x14 c.cl + Reg.SMP_RINGWAIT) c.ringWait

def chargeIdle (s : State) (cs : List Charge) : State := cs.foldl chargeCluster s

/-- Step 1: the copies named to turn t (R395). -/
def takeSnaps (s : State) (t : Nat) (reached : Nat → Bool) : State :=
  (s.seq.snaps.filter fun e => decide (e.2 ≤ t) && reached (e.1 / 9)).foldl (fun s e =>
    let s := (List.range 12).foldl (fun s c =>
      setReg64 s (clPage 0x17 e.1 + Reg.SNAP + 8 * c) (s.reg64 (clPage 0x17 e.1 + Reg.IDLE + 8 * c))) s
    { s with seq.snaps := sset zeroAt s.seq.snaps e.1 0 }) s

/-- PACKAGE_IDLE_UPDATE (R395): once in every interval of 976,563 turns. -/
def execPackageIdleUpdate (s : State) : Res :=
  .next (
    let turnKey := hPage 6 + Reg.PKG_IDLE_TURN_LO
    if s.stopped ∨ s.turn / 976563 ≤ s.reg64 turnKey / 976563 then s
    else
      let s := (List.range 13).foldl (fun s c =>
        let sum := sumList ((List.range 432).map fun cl => s.reg64 (idleReg cl c) % 2 ^ 48)
        setReg64 s (hPage 6 + (if c < 12 then Reg.PKG_IDLE + 8 * c else Reg.PKG_BUSY_LO)) (sum % 2 ^ 64)) s
      setReg64 s turnKey s.turn)

/-! ### The strobe (R43, R512) -/

/-- The dies of a mask that the strobe reaches: the headstock, and those whose lane is up and whose clocks run. -/
def strobed (s : State) (mask d : Nat) : Bool :=
  decide (d < 64) && bit mask d == 1 && (d == 63 || (!s.power.tripped && !s.belt.down.contains d))

/-- The strobe of turn t reaches die d. -/
def reach (s : State) (d t : Nat) : State :=
  { s with
    time.dieTurn := sset zeroAt s.time.dieTurn d t, time.missed := sset zeroAt s.time.missed d 0
    catching.lone := s.catching.lone.filter fun x => x != d }

/-- Turn t begins: at tick 1,024 · t, on the dies reached; the others have missed a strobe more. -/
def strobe (s : State) (t : Nat) (reached : Nat → Bool) : State :=
  (List.range 64).foldl (fun s d =>
    if reached d then reach s d t else { s with time.missed := sset zeroAt s.time.missed d (sget zeroAt s.time.missed d + 1) })
    { s with time.now := 1024 * t }

/-! ### Step 5 and what follows it -/

/-- The waits for a turn that has begun are released, with their base turns (R66, R67). -/
def releaseTurns (s : State) (t : Nat) (reached : Nat → Bool) : State :=
  s.seq.progs.foldl (fun s e =>
    let cl := e.1 / 8
    match e.2.wait with
    | .turn a => if a ≤ t ∧ reached (cl / 9) then setBase (endWait s cl (e.1 % 8)) cl (e.1 % 8) a else s
    | _ => s) s

/-- The token waits whose boundary has come halt (R68). -/
def timeoutTokens (s : State) (reached : Nat → Bool) : State :=
  s.seq.progs.foldl (fun s e => if reached (e.1 / 8 / 9) then timeoutProg s (e.1 / 8) (e.1 % 8) else s) s

/-- Parked entries whose expiry turn has begun end (R334). -/
def expireParked (s : State) (t : Nat) : State := s.serving.parked.foldl (fun s e => expireEntry s e.1 t) s

/-- The turn until which the switch plan of window w keeps VARM raised: it runs, or is armed to start within 400 turns
(R303). -/
def planUntil (s : State) (w t : Nat) : Nat :=
  if swState s w = 1 then t + 1
  else match planArmed s w with
    | some a => if a ≤ t + 400 then a else 0
    | none => 0

/-- The links that the pieces of window w's plan name, running or armed. -/
def planLinks (s : State) (w : Nat) : List Nat :=
  let live := swState s w = 1
  let base := (if live then swPlan s w else s.shd (swReg w Reg.SW_PLAN_LO) + 2 ^ 32 * s.shd (swReg w Reg.SW_PLAN_HI)) % 2 ^ 39
  let n := if live then swCount s w else bf (s.shd (swReg w Reg.SW_COUNT)) 19 0
  ((List.range n).flatMap fun i =>
    let d := switchDesc fun k => gByte s (base + 64 * i + k)
    if d.send then setBits d.links 24 else []).eraseDups

/-- The partitions whose supplies a plan pre-arms: the one of its M-die, and those whose links its pieces leave by, for the
O-dies (log entry 129). -/
def planParts (s : State) (w : Nat) : List Nat := w :: (planLinks s w).map (· / 3)

/-- The turn until which the switch plans keep VARM of partition p raised. -/
def planVarm (s : State) (p t : Nat) : Nat :=
  (((List.range 8).filter fun w => planUntil s w t != 0 && (planParts s w).contains p).map fun w => planUntil s w t).foldl max 0

/-- VARM and the hints at the boundary of turn t: VARM falls as its last turn begins (R417, R470). -/
def updateVarm (s : State) (t : Nat) : State :=
  let s := (List.range 8).foldl (fun s w =>
    let v := max (sget zeroAt s.power.varm w) (planVarm s w t)
    { s with power.varm := sset zeroAt s.power.varm w (if v ≤ t then 0 else v) }) s
  { s with power.hints := s.power.hints.filter fun h => decide (t < h.2.1) }

/-- What the headstock does at the boundary of turn t when the steps of R46 are done: re-plans, supplies, the interval's readings
and the entry to a power state. -/
def headBoundary (s : State) (t : Nat) : State :=
  let s := applyReplan s t
  let s := if t % 976563 = 0 then endInterval s else s
  beginEntry (updateVarm s t)

/-- The plans of the dies reached whose deadline has come (R304). -/
def planDeadlines (s : State) (t : Nat) (reached : Nat → Bool) : State :=
  (List.range 8).foldl (fun s w => if reached (48 + w) then checkOverrun s w t else s) s

/-- The five steps of R46 at the boundary of turn t on the dies reached, and what follows them there: publications are the P-die's,
the alarm, the reclaim and the operating point the headstock's (R570). -/
def boundary (s : State) (t : Nat) (reached : Nat → Bool) : State :=
  let s0 := takeSnaps (timeFrames s reached) t reached
  let s := stopReclaimed (commitStep s0 t reached) t reached
  let s := if reached 63 then updatePoint (partReclaimed (handOver s0 s) t) t else s
  let s := if reached 62 then retireBlanks (publications s) else s
  let s := if reached 63 then reclaimDeadline (fireAlarm s t) t else s
  let s := timeoutTokens (releaseTurns s t reached) reached
  let s := planDeadlines (if reached 62 then expireParked s t else s) t reached
  if reached 63 then headBoundary s t else s

/-- TURN_BOUNDARY (R43, R46, R570): turn t begins, and its strobe reaches the dies of a mask; the cycles charged in the turn that
ends. A die that the mask leaves out has missed the strobe, unless a commit's row names its arrival later in the turn. Under
RESET_N only the count goes on (R498). -/
def execTurnBoundary (mask : Nat) (charges : List Charge) (s : State) : Res :=
  .next (
    let t := s.turn + 1
    if !s.boot.pwrgood then s
    else if s.boot.inReset then { s with time.now := 1024 * t }
    else
      let reached := strobed s mask
      boundary (strobe (chargeIdle s charges) t reached) t reached)

/-! ### Rows that are a commit (log entry 58) -/

/-- The page's commit comes to its boundary: the strobe of the turn at hand reaches the page's die now, having not reached it
before, and the boundary's steps run on that die (R45, R47, R570). Nothing happens where the commit is not due, or changes nothing
that the row names. -/
def commitRow (s : State) (page : Nat) (mine : Bool) : State :=
  let d := addrDie page
  match commitOf s page with
  | none => s
  | some c =>
    if mine && dueCommit s s.turn c && decide (s.dieTurn d < s.turn) && strobed s (2 ^ d) d then
      boundary (reach s d s.turn) s.turn fun x => x == d
    else s

/-- PROGRAM_ENABLE (R50). -/
def execProgramEnable (cl : Nat) (s : State) : Res :=
  .next (if cl < 432 then commitRow s (clPage 0x12 cl) (enables s cl) else s)

/-- PROGRAM_DISABLE (R50). -/
def execProgramDisable (cl : Nat) (s : State) : Res :=
  .next (if cl < 432 then
    commitRow s (clPage 0x12 cl) ((List.range 8).any fun p => progEnabled s cl p && bit (s.shd (progReg cl p)) 31 == 0) else s)

/-- TABLE_COPY (R58). -/
def execTableCopy (cl : Nat) (s : State) : Res :=
  .next (if cl < 432 then commitRow s (clPage 0x12 cl) (copyAsked s cl).isSome else s)

/-- OWNERSHIP_CHANGE (R30). -/
def execOwnershipChange (s : State) : Res := .next (commitRow s (hPage 4) ((List.range 8).any fun p => ownMoved s p))

/-- ROLE_CHANGE (R499). -/
def execRoleChange (s : State) : Res := .next (commitRow s (hPage 3) (moved s (ftReg Reg.FT_ROLE)))

/-- LOSS_SCALE_LOAD (R220). -/
def execLossScaleLoad (cl : Nat) (s : State) : Res :=
  .next (if cl < 432 then commitRow s (clPage 0x15 cl) (bit (s.shd (lsReg cl Reg.LS_CTRL)) 1 == 1) else s)

/-- SAND_QUEUE (R268). -/
def execSandQueue (w : Nat) (s : State) : Res :=
  .next (if w < 8 then commitRow s (memPage w) (bit (s.shd (memPage w + Reg.SAND_CTRL)) 31 == 1) else s)

/-- CATCH_SHARE_CHANGE (R274). -/
def execCatchShareChange (w : Nat) (s : State) : Res :=
  .next (if w < 8 then commitRow s (memPage w) (moved s (memPage w + Reg.MEM_CATCH)) else s)

/-- PUBLISH (R279 to R281): the commit and the publication of one boundary. -/
def execPublish (s : State) : Res :=
  .next (commitRow s blkPage ((List.range 64).any fun m => bit (s.shd (blkKey Reg.BLK_CTRL m)) 0 == 1))

/-- ADAPTER_PUBLISH (R285). -/
def execAdapterPublish (s : State) : Res :=
  .next (commitRow s blkPage
    (s.regs.shadow.any fun e => addrPage e.1 == blkPage && addrOff e.1 == Reg.BLK_CTRL && decide (2 ^ 20 ≤ keyItem e.1) && e.2 != 0))

/-- SWITCH_PLAN_START (R298). -/
def execSwitchPlanStart (w : Nat) (s : State) : Res :=
  .next (if w < 8 then commitRow s (swPage w) (bit (s.shd (swReg w Reg.SW_CTRL)) 0 == 1) else s)

/-- LINK_MODE_CHANGE (R344). -/
def execLinkModeChange (l : Nat) (s : State) : Res :=
  .next (if l < 24 then
    commitRow s (linkPage l) (bf (s.shd (linkReg l Reg.LINK_CTRL)) 1 0 != bf (s.reg (linkReg l Reg.LINK_CTRL)) 1 0) else s)

/-- LINK_RETRAIN (R346). -/
def execLinkRetrain (l : Nat) (s : State) : Res :=
  .next (if l < 24 then commitRow s (linkPage l) (bit (s.shd (linkReg l Reg.LINK_CTRL)) 4 == 1) else s)

/-- POWER_STATE_ENTRY (R476). -/
def execPowerStateEntry (s : State) : Res :=
  .next (commitRow s (hPage 0x0A) (bit (s.shd (psReg Reg.PS_CTRL)) 31 == 1))

/-- SLOT_CFG_LOAD and SLOT_CFG_PART (R438, R442). -/
def execSlotCfgLoad (s : State) : Res :=
  .next (commitRow s (hPage 8) ((List.range 64).any fun k => bit (s.shd (slotKey Reg.SLOT_CFG k)) 0 == 1))
def execSlotCfgPart (s : State) : Res :=
  .next (commitRow s (hPage 8) ((List.range 64).any fun k => bit (s.shd (slotKey Reg.SLOT_CFG k)) 1 == 1))

end Sys2Proof.Machine
end

