-- ==== Sys2Proof/Machine/Depart.lean ====
section
/-! DEFINITION. Frames that were held in a receive buffer and leave it, and wake frames (R357, R358, R477, R513). -/

namespace Sys2Proof.Machine

/-- A frame for near SRAM. -/
def frameNear (f : Frame) : Bool := f.type == 1 || (f.type == 2 && f.dsp == 0) || f.type == 4 || f.type == 5

/-- A wake frame wakes the package from Idle and Nap, and one that does is held, with its credits, until Run (R477). -/
def takeWake (s : State) (l : Nat) (f : Frame) : State :=
  if sleeping s ∧ psState s ≠ 3 ∧ bit (s.reg (psReg Reg.PS_WAKE_EN)) 0 = 1 then
    wakeSource (setLink s l { s.link l with rx := (s.link l).rx ++ [f] }) 0 l
  else freeFlits s l f

/-- A frame given to the unit it is for. -/
def deliverFrame (s : State) (l : Nat) (f : Frame) (tagOk : Bool) : State :=
  match f.type with
  | 1 => runHops s (hopFuel [{ frame := f, link := some l }]) [{ frame := f, link := some l }]
  | 2 => takeXchg s l f tagOk
  | 3 => takeGatherReq s l f
  | 4 => takeGatherResp s l f
  | 5 => takePiece s l f
  | 8 => takeWake s l f
  | _ => freeFlits s l f

/-- The first frame of a virtual channel leaves the buffer of link l. -/
def dropRx (s : State) (l : Nat) (f : Frame) : State := setLink s l { s.link l with rx := (s.link l).rx.erase f }

/-- HELD_FRAME_DEPARTURE (R357, R358): the first frame held on a virtual channel of link l leaves where its conditions
hold: a transit frame by its route, a frame for this package to its destination, a REDUCE that passes on through its adder. -/
def execHeldFrameDeparture (l vc : Nat) (tagOk : Bool) (s : State) : Res :=
  .next (match (s.link l).rx.find? fun f => f.vc == vc with
    | none => s
    | some f =>
      if f.dst ≠ selfId s then
        match transitLink s f with
        | none => dropNoRoute (dropRx s l f) l f
        | some out =>
          let k := s.link out
          if canLeave k f && !k.waking && k.tx.all (fun x => x.frame.vc != f.vc) then hopOn (dropRx s l f) l out f else s
      else if s.catching.caught then freeFlits (incReg (dropRx s l f) (catchReg Reg.CATCH_DROPS) 1) l f
      else if (frameNear f || f.type == 8) && sleeping s then s
      else if f.type == 1 && passHeld s f then s
      else deliverFrame (dropRx s l f) l f tagOk)

/-- The link by which a frame held in a receive buffer goes on: its route, or through its adder (R358, R367). -/
def onwardLink (s : State) (f : Frame) : Option Nat :=
  if f.dst ≠ selfId s then transitLink s f else if f.type = 1 then passLink s f else none

/-- A frame waits on link l for credits (R355): of those to be sent, of the replay buffer, or held in a receive buffer on its way. -/
def creditStall (s : State) (l : Nat) : Bool :=
  let k := s.link l
  (k.tx.any fun x => decide (creditsOf k x.frame.vc < flitsOf x.frame)) || k.resend != 0 ||
    (List.range 24).any fun i => (s.link i).rx.any fun f => onwardLink s f == some l && decide (creditsOf k f.vc < flitsOf f)

/-- CONTROL_FRAME (R350, R352, R353, R355, R365): a cumulative acknowledgement, a NAK naming the first SEQ lacked, and the flits freed
by virtual channel. Beside it, since the last one: the cycles in which ready frames waited for credits, the control frames that this
end has sent, and the codewords outside frames that have a SEQ (log entry 126). -/
def execControlFrame (l ack : Nat) (nak : Option Nat) (c : CreditReport) (s : State) : Res :=
  .next (if !fabricUp s l then s
    else
      let s := if creditStall s l then incReg s (linkReg l Reg.LINK_CRED_STALL) c.stall else s
      let s := noteCodewords s l c.corrected c.lost
      let s := incReg64 (incReg64 s (linkReg l Reg.LINK_RX_LO) 64 1) (linkReg l Reg.LINK_TX_LO) 64 c.sent
      let k := { ackUpTo (s.link l) ack with freed := padTo 4 0 (c.freed.map fun v => v % 65536) }
      drainLink (setLink s l (match nak with | none => k | some q => nakAt k q)) l)

/-- LINK_WAKE_FRAME (R358, R477). -/
def execLinkWakeFrame (l : Nat) (f : Frame) (a : Arrival) (s : State) : Res :=
  .next (receiveFrame s l f a 8 false fun s => deliverFrame s l { f with type := 8 } true)

end Sys2Proof.Machine
end

