-- ==== Sys2Proof/Machine/Hub.lean ====
section
/-! DEFINITION. The register transactions that have rows of their own: each is a write or a read through the belt hub
(R11, R23, R532), with the behaviour its register has. -/

namespace Sys2Proof.Machine

/-- What a write through the hub leaves. -/
def written (s : State) (m : Master) (a v : Nat) : State := answerWithdrawn s (hubWrite s m a v).1 (addrPage a)

/-- A cluster, a die and the like exist. -/
def clOk (cl : Nat) : Bool := decide (cl < 432)

/-- HALT (R57): the programs named halt at their next entry boundary, which is this step (log entry 29). -/
def execHalt (m : Master) (cl v : Nat) (s : State) : Res := .next (if clOk cl then written s m (seqReg cl Reg.HALT) v else s)

/-- COMMIT_GO, COMMIT_ARM and COMMIT_DISARM (R539). -/
def execCommitGo (m : Master) (page : Nat) (s : State) : Res := .next (written s m (page + Reg.F_COMMIT) 1)
def execCommitArm (m : Master) (page : Nat) (s : State) : Res := .next (written s m (page + Reg.F_COMMIT) 2)
def execCommitDisarm (m : Master) (page : Nat) (s : State) : Res := .next (written s m (page + Reg.F_COMMIT) 4)

/-- REGISTER_WRITE (R9, R11, R24, R532, R535, R538, R543). -/
def execRegisterWrite (m : Master) (addr v : Nat) (s : State) : Res := .next (written s m addr v)

/-- LOW_WORD_READ (R544). -/
def execLowWordRead (m : Master) (addr : Nat) (s : State) : Res := .next (hubRead s m addr).1

/-- ERR_CLR (R534): FW_ONLY is written as it stands. -/
def execErrClr (m : Master) (page : Nat) (s : State) : Res :=
  .next (written s m (page + Reg.F_CTRL) (2 + bit (s.reg (page + Reg.F_CTRL)) 0))

/-- EVENT_CLEAR (R536). -/
def execEventClear (m : Master) (page v : Nat) (s : State) : Res := .next (written s m (page + Reg.F_EVENT) v)

/-- CHECK_DRAW (R240, R241). -/
def execCheckDraw (m : Master) (cl : Nat) (s : State) : Res :=
  .next (if clOk cl then written s m (clPage 0x16 cl + Reg.RS_GO) 1 else s)

/-- CHECK_DRAW_DONE (R240). -/
def execCheckDrawDone (cl : Nat) (s : State) : Res :=
  .next (match sget noneAt s.seq.draws cl with
    | none => s
    | some (seed, stream, g) =>
      let page := clPage 0x16 cl
      let s := setReg (setReg s (page + Reg.RS_OUT) (draw (BitVec.ofNat 64 seed) stream g).toNat) (page + Reg.RS_STATUS) 1
      { s with seq.draws := sset noneAt s.seq.draws cl none })

/-- The clears of the counter pages. -/
def execCntClear (m : Master) (cl : Nat) (s : State) : Res :=
  .next (if clOk cl then written s m (clPage 0x14 cl + Reg.CNT_CLEAR) 1 else s)
def execNsClear (m : Master) (d : Nat) (s : State) : Res :=
  .next (if d < 48 then written s m (cPage 0x10 d + Reg.NS_CLEAR) 1 else s)
def execMemClear (m : Master) (w : Nat) (s : State) : Res :=
  .next (if w < 8 then written s m (memPage w + Reg.MEM_CLEAR) 1 else s)
def execQmClear (m : Master) (s : State) : Res := .next (written s m (ringPage + Reg.QM_CLEAR) 1)
def execPeClear (m : Master) (s : State) : Res := .next (written s m (pPage 0x1D + Reg.PE_CLEAR) 1)
def execLinkClear (m : Master) (l : Nat) (s : State) : Res :=
  .next (if l < 24 then written s m (linkPage l + Reg.LINK_CLEAR) 1 else s)
def execIdleClear (m : Master) (cl : Nat) (s : State) : Res :=
  .next (if clOk cl then written s m (clPage 0x17 cl + Reg.IDLE_CLEAR) 1 else s)
def execPwrClear (m : Master) (s : State) : Res := .next (written s m (pwrReg Reg.PWR_CLEAR) 1)
def execDieClear (m : Master) (d : Nat) (s : State) : Res :=
  .next (if d < 48 then written s m (cPage 0x11 d + Reg.DIE_CLEAR) 1 else s)
def execPortClear (m : Master) (s : State) : Res := .next (written s m (pPage 0x1E + Reg.PORT_CLEAR) 1)

/-- LINK_KEY_WRITE (R439): word i of the key goes to the staging store. -/
def execLinkKeyWrite (m : Master) (i v : Nat) (s : State) : Res :=
  .next (if i < 8 then written s m (hPage 8 + Reg.LINK_KEY + 4 * i) v else s)

/-- UNHOLD and UNHOLD_ADAPTER (R281, R285). -/
def execUnhold (m : Master) (s : State) : Res := .next (written s m (blkPage + Reg.BLK_UNHOLD) 1)
def execUnholdAdapter (m : Master) (s : State) : Res := .next (written s m (blkPage + Reg.BLK_UNHOLD) 2)

/-- SW_ABORT (R304). -/
def execSwAbort (m : Master) (w : Nat) (s : State) : Res :=
  .next (if w < 8 then written s m (mPage 0x19 w + Reg.SW_ABORT) 1 else s)

/-- PS_WAKE_LINKS (R478). -/
def execPsWakeLinks (m : Master) (v : Nat) (s : State) : Res := .next (written s m (hPage 0x0A + Reg.PS_WAKE_LINKS) v)

end Sys2Proof.Machine
end

