-- ==== Sys2Proof/Machine/Retrain.lean ====
section
/-! DEFINITION. The end of a channel's retraining, and what it held: accepted writes, images, FETCHes and the page engine's work
(R257, R258). -/

namespace Sys2Proof.Machine

/-- The images that waited for a channel are read: those of GATHERs of this package, and those that other packages have asked
for. -/
def serveImages (s : State) : State :=
  let s := s.seq.flights.foldl (fun s f =>
    match f.work with
    | .gather g => (g.srcs.filter fun x => x.pkg == selfId s && !x.done).foldl (fun s x => gatherLocal s f.id x) s
    | _ => s) s
  s.net.asks.foldl askImage { s with net.asks := [] }

/-- The FETCHes that waited for a channel are read. -/
def serveFetches (s : State) : State :=
  (s.storage.host.filter fun x => !x.store && decide (x.done < x.len)).foldl (fun s x => startFetch s x) s

/-- The loads that waited for a channel go on to the descriptor that it holds. -/
def serveLoads (s : State) : State :=
  (s.storage.loads.filter fun l => l.desc.isNone && decide (l.idx < l.n)).foldl (fun s l => startDescs s l.id (l.n - l.idx)) s

/-- What the queues of channels held, and no channel holds any longer, goes on in the order of R257: writes first, then reads. -/
def serveHeld (s : State) : State := settleServing (serveLoads (serveFetches (serveImages (finishMirrors (landWrites s)))))

/-- RETRAINING_COMPLETE (R257, R258): the channel is active, or has failed; what its queue held goes on. -/
def execRetrainingComplete (w k : Nat) (ok : Bool) (s : State) : Res :=
  .next (if 8 ≤ w ∨ 8 ≤ k ∨ chState s w k ≠ 3 then s
    else if ok then serveHeld (setChState s w k 0)
    else
      let s := setChState s w k 2
      serveHeld (post s (memPage w) ((memCtx w).event s Cause.channelFailed (channelBase s w k))))

end Sys2Proof.Machine
end

