-- ==== Sys2Proof/Machine/Dispatch.lean ====
section
/-! DEFINITION. One arm per row of the opcode table. -/

namespace Sys2Proof.Machine

/-- The effect of a command on everything but the queue. -/
def exec (i : Instr) (s : State) : Host.Outcome State Fault Refusal :=
  match i with
  | .pass cl p => Sys2Proof.Machine.execPass cl p s
  | .passComplete f => Sys2Proof.Machine.execPassComplete f s
  | .mvec cl p => Sys2Proof.Machine.execMvec cl p s
  | .mvecComplete f => Sys2Proof.Machine.execMvecComplete f s
  | .convert cl p => Sys2Proof.Machine.execConvert cl p s
  | .skewConversion cl p => Sys2Proof.Machine.execSkewConversion cl p s
  | .add cl p => Sys2Proof.Machine.execAdd cl p s
  | .multiply cl p => Sys2Proof.Machine.execMultiply cl p s
  | .multiplyAdd cl p => Sys2Proof.Machine.execMultiplyAdd cl p s
  | .multiplyImmediate cl p => Sys2Proof.Machine.execMultiplyImmediate cl p s
  | .rowMaximum cl p => Sys2Proof.Machine.execRowMaximum cl p s
  | .rowSum cl p => Sys2Proof.Machine.execRowSum cl p s
  | .exp cl p => Sys2Proof.Machine.execExp cl p s
  | .ln cl p => Sys2Proof.Machine.execLn cl p s
  | .reciprocalSquareRoot cl p => Sys2Proof.Machine.execReciprocalSquareRoot cl p s
  | .softmax cl p => Sys2Proof.Machine.execSoftmax cl p s
  | .rmsNormalisation cl p => Sys2Proof.Machine.execRmsNormalisation cl p s
  | .layerNormalisation cl p => Sys2Proof.Machine.execLayerNormalisation cl p s
  | .logProbability cl p => Sys2Proof.Machine.execLogProbability cl p s
  | .silu cl p => Sys2Proof.Machine.execSilu cl p s
  | .gelu cl p => Sys2Proof.Machine.execGelu cl p s
  | .moment cl p => Sys2Proof.Machine.execMoment cl p s
  | .master cl p => Sys2Proof.Machine.execMaster cl p s
  | .cacheRule cl p => Sys2Proof.Machine.execCacheRule cl p s
  | .dropout cl p => Sys2Proof.Machine.execDropout cl p s
  | .normalFillTable cl p => Sys2Proof.Machine.execNormalFillTable cl p s
  | .normalFillTransform cl p => Sys2Proof.Machine.execNormalFillTransform cl p s
  | .uniformFill cl p => Sys2Proof.Machine.execUniformFill cl p s
  | .vecComplete f => Sys2Proof.Machine.execVecComplete f s
  | .attnScores cl p => Sys2Proof.Machine.execAttnScores cl p s
  | .attnNormalise cl p => Sys2Proof.Machine.execAttnNormalise cl p s
  | .attnValues cl p => Sys2Proof.Machine.execAttnValues cl p s
  | .attnComplete f => Sys2Proof.Machine.execAttnComplete f s
  | .sample cl p => Sys2Proof.Machine.execSample cl p s
  | .sampleComplete f => Sys2Proof.Machine.execSampleComplete f s
  | .move cl p => Sys2Proof.Machine.execMove cl p s
  | .activationSpill cl p => Sys2Proof.Machine.execActivationSpill cl p s
  | .spillExpand cl p => Sys2Proof.Machine.execSpillExpand cl p s
  | .moveComplete f => Sys2Proof.Machine.execMoveComplete f s
  | .exchangeFixed cl p => Sys2Proof.Machine.execExchangeFixed cl p s
  | .dispatch cl p => Sys2Proof.Machine.execDispatch cl p s
  | .returnRows cl p => Sys2Proof.Machine.execReturnRows cl p s
  | .combine cl p => Sys2Proof.Machine.execCombine cl p s
  | .xchgComplete f => Sys2Proof.Machine.execXchgComplete f s
  | .reduceThroughput cl p => Sys2Proof.Machine.execReduceThroughput cl p s
  | .reduceOrdered cl p => Sys2Proof.Machine.execReduceOrdered cl p s
  | .flagSync cl p => Sys2Proof.Machine.execFlagSync cl p s
  | .reduceComplete f => Sys2Proof.Machine.execReduceComplete f s
  | .gather cl p => Sys2Proof.Machine.execGather cl p s
  | .gatherComplete f => Sys2Proof.Machine.execGatherComplete f s
  | .waitTurn cl p => Sys2Proof.Machine.execWaitTurn cl p s
  | .waitToken cl p => Sys2Proof.Machine.execWaitToken cl p s
  | .tokenTimeout cl p => Sys2Proof.Machine.execTokenTimeout cl p s
  | .gate cl p => Sys2Proof.Machine.execGate cl p s
  | .hint cl p => Sys2Proof.Machine.execHint cl p s
  | .mark cl p => Sys2Proof.Machine.execMark cl p s
  | .jump cl p => Sys2Proof.Machine.execJump cl p s
  | .endEntry cl p => Sys2Proof.Machine.execEndEntry cl p s
  | .priorityAgeing cl p => Sys2Proof.Machine.execPriorityAgeing cl p s
  | .halt m cl v => Sys2Proof.Machine.execHalt m cl v s
  | .turnBoundary mask charges => Sys2Proof.Machine.execTurnBoundary mask charges s
  | .fabricTimeAlarm => Sys2Proof.Machine.execFabricTimeAlarm s
  | .parkedSessionExpiry e => Sys2Proof.Machine.execParkedSessionExpiry e s
  | .commitGo m page => Sys2Proof.Machine.execCommitGo m page s
  | .commitArm m page => Sys2Proof.Machine.execCommitArm m page s
  | .commitDisarm m page => Sys2Proof.Machine.execCommitDisarm m page s
  | .registerWrite m addr v => Sys2Proof.Machine.execRegisterWrite m addr v s
  | .lowWordRead m addr => Sys2Proof.Machine.execLowWordRead m addr s
  | .errClr m page => Sys2Proof.Machine.execErrClr m page s
  | .eventClear m page v => Sys2Proof.Machine.execEventClear m page v s
  | .programEnable cl => Sys2Proof.Machine.execProgramEnable cl s
  | .programDisable cl => Sys2Proof.Machine.execProgramDisable cl s
  | .tableCopy cl => Sys2Proof.Machine.execTableCopy cl s
  | .tableLoaded cl => Sys2Proof.Machine.execTableLoaded cl s
  | .ownershipChange => Sys2Proof.Machine.execOwnershipChange s
  | .roleChange => Sys2Proof.Machine.execRoleChange s
  | .lossScaleLoad cl => Sys2Proof.Machine.execLossScaleLoad cl s
  | .checkDraw m cl => Sys2Proof.Machine.execCheckDraw m cl s
  | .checkDrawDone cl => Sys2Proof.Machine.execCheckDrawDone cl s
  | .cntClear m cl => Sys2Proof.Machine.execCntClear m cl s
  | .nsClear m d => Sys2Proof.Machine.execNsClear m d s
  | .memClear m w => Sys2Proof.Machine.execMemClear m w s
  | .qmClear m => Sys2Proof.Machine.execQmClear m s
  | .peClear m => Sys2Proof.Machine.execPeClear m s
  | .linkClear m l => Sys2Proof.Machine.execLinkClear m l s
  | .idleClear m cl => Sys2Proof.Machine.execIdleClear m cl s
  | .pwrClear m => Sys2Proof.Machine.execPwrClear m s
  | .dieClear m d => Sys2Proof.Machine.execDieClear m d s
  | .portClear m => Sys2Proof.Machine.execPortClear m s
  | .linkKeyWrite m j v => Sys2Proof.Machine.execLinkKeyWrite m j v s
  | .packageIdleUpdate => Sys2Proof.Machine.execPackageIdleUpdate s
  | .timeFrame l f a phase step rate => Sys2Proof.Machine.execTimeFrame l f a phase step rate s
  | .delayRemeasure l r => Sys2Proof.Machine.execDelayRemeasure l r s
  | .acquired => Sys2Proof.Machine.execAcquired s
  | .holdover => Sys2Proof.Machine.execHoldover s
  | .timeExchange h tag t rate => Sys2Proof.Machine.execTimeExchange h tag t rate s
  | .timeNotAcquired => Sys2Proof.Machine.execTimeNotAcquired s
  | .refclkLost => Sys2Proof.Machine.execRefclkLost s
  | .refclkReturn => Sys2Proof.Machine.execRefclkReturn s
  | .beltCrcRetry b => Sys2Proof.Machine.execBeltCrcRetry b s
  | .beltLaneDown d => Sys2Proof.Machine.execBeltLaneDown d s
  | .eventOverflow d => Sys2Proof.Machine.execEventOverflow d s
  | .controlLoop r => Sys2Proof.Machine.execControlLoop r s
  | .measurementLost j => Sys2Proof.Machine.execMeasurementLost j s
  | .powerEstimateDisagrees => Sys2Proof.Machine.execPowerEstimateDisagrees s
  | .periodicReplan => Sys2Proof.Machine.execPeriodicReplan s
  | .droop d => Sys2Proof.Machine.execDroop d s
  | .droopRecovery d n => Sys2Proof.Machine.execDroopRecovery d n s
  | .vstepAck p => Sys2Proof.Machine.execVstepAck p s
  | .regulatorStepTimeout p => Sys2Proof.Machine.execRegulatorStepTimeout p s
  | .thermalTrip d => Sys2Proof.Machine.execThermalTrip d s
  | .powerStateEntry => Sys2Proof.Machine.execPowerStateEntry s
  | .entryComplete => Sys2Proof.Machine.execEntryComplete s
  | .wakeNFall => Sys2Proof.Machine.execWakeNFall s
  | .wakePattern l => Sys2Proof.Machine.execWakePattern l s
  | .armedCommitWake page => Sys2Proof.Machine.execArmedCommitWake page s
  | .wakeStageReady => Sys2Proof.Machine.execWakeStageReady s
  | .wakeStalled => Sys2Proof.Machine.execWakeStalled s
  | .pwrgoodRise => Sys2Proof.Machine.execPwrgoodRise s
  | .pwrgoodFall => Sys2Proof.Machine.execPwrgoodFall s
  | .resetNAssert => Sys2Proof.Machine.execResetNAssert s
  | .resetNRelease => Sys2Proof.Machine.execResetNRelease s
  | .bringUpStepEnd x => Sys2Proof.Machine.execBringUpStepEnd x s
  | .ready => Sys2Proof.Machine.execReady s
  | .recoveryChunk h tag off total bytes => Sys2Proof.Machine.execRecoveryChunk h tag off total bytes s
  | .recoveryCommit h tag off total => Sys2Proof.Machine.execRecoveryCommit h tag off total s
  | .recoveryStatus h tag => Sys2Proof.Machine.execRecoveryStatus h tag s
  | .gddr7CrcRetry a n attempt write => Sys2Proof.Machine.execGddr7CrcRetry a n attempt write s
  | .retrainingComplete w k ok => Sys2Proof.Machine.execRetrainingComplete w k ok s
  | .correctionWriteBack a => Sys2Proof.Machine.execCorrectionWriteBack a s
  | .sandQueue w => Sys2Proof.Machine.execSandQueue w s
  | .sandAgeing w => Sys2Proof.Machine.execSandAgeing w s
  | .sanded r => Sys2Proof.Machine.execSanded r s
  | .catchShareChange w => Sys2Proof.Machine.execCatchShareChange w s
  | .tagSweepComplete d k => Sys2Proof.Machine.execTagSweepComplete d k s
  | .producerDoorbell h tag n q => Sys2Proof.Machine.execProducerDoorbell h tag n q s
  | .consumerDoorbell h tag n q => Sys2Proof.Machine.execConsumerDoorbell h tag n q s
  | .hostReadRequest n => Sys2Proof.Machine.execHostReadRequest n s
  | .hostReadResponse h tag bytes => Sys2Proof.Machine.execHostReadResponse h tag bytes s
  | .hostReadTimeout tag => Sys2Proof.Machine.execHostReadTimeout tag s
  | .hostWrite n => Sys2Proof.Machine.execHostWrite n s
  | .pendingRecordPost n => Sys2Proof.Machine.execPendingRecordPost n s
  | .admitReq q => Sys2Proof.Machine.execAdmitReq q s
  | .cancel q => Sys2Proof.Machine.execCancel q s
  | .pause q => Sys2Proof.Machine.execPause q s
  | .resume q => Sys2Proof.Machine.execResume q s
  | .dropParked q => Sys2Proof.Machine.execDropParked q s
  | .prefixDef q => Sys2Proof.Machine.execPrefixDef q s
  | .prefixDrop q => Sys2Proof.Machine.execPrefixDrop q s
  | .familyDef q => Sys2Proof.Machine.execFamilyDef q s
  | .familyDrop q => Sys2Proof.Machine.execFamilyDrop q s
  | .sessionParked e => Sys2Proof.Machine.execSessionParked e s
  | .resumeRetry e => Sys2Proof.Machine.execResumeRetry e s
  | .restoreComplete e bad bytes => Sys2Proof.Machine.execRestoreComplete e bad bytes s
  | .publish => Sys2Proof.Machine.execPublish s
  | .adapterPublish => Sys2Proof.Machine.execAdapterPublish s
  | .unhold m => Sys2Proof.Machine.execUnhold m s
  | .unholdAdapter m => Sys2Proof.Machine.execUnholdAdapter m s
  | .load h tag list n => Sys2Proof.Machine.execLoad h tag list n s
  | .loadExtent n off x => Sys2Proof.Machine.execLoadExtent n off x s
  | .switchPlanStart w => Sys2Proof.Machine.execSwitchPlanStart w s
  | .switchDescriptor w => Sys2Proof.Machine.execSwitchDescriptor w s
  | .swAbort m w => Sys2Proof.Machine.execSwAbort m w s
  | .switchOverrun w => Sys2Proof.Machine.execSwitchOverrun w s
  | .switchPiece l f a => Sys2Proof.Machine.execSwitchPiece l f a s
  | .reduceFrame l f a => Sys2Proof.Machine.execReduceFrame l f a s
  | .xchgFrame l f a tagOk => Sys2Proof.Machine.execXchgFrame l f a tagOk s
  | .gatherRequest l f a => Sys2Proof.Machine.execGatherRequest l f a s
  | .gatherResponse l f a => Sys2Proof.Machine.execGatherResponse l f a s
  | .controlFrame l ack nak c => Sys2Proof.Machine.execControlFrame l ack nak c s
  | .linkWakeFrame l f a => Sys2Proof.Machine.execLinkWakeFrame l f a s
  | .heldFrameDeparture l vc tagOk => Sys2Proof.Machine.execHeldFrameDeparture l vc tagOk s
  | .replayLimit l => Sys2Proof.Machine.execReplayLimit l s
  | .linkTrainingComplete l t => Sys2Proof.Machine.execLinkTrainingComplete l t s
  | .modeMismatchRetry l t => Sys2Proof.Machine.execModeMismatchRetry l t s
  | .lightLoss l lane => Sys2Proof.Machine.execLightLoss l lane s
  | .linkModeChange l => Sys2Proof.Machine.execLinkModeChange l s
  | .linkRetrain l => Sys2Proof.Machine.execLinkRetrain l s
  | .bucketOrphaned n => Sys2Proof.Machine.execBucketOrphaned n s
  | .reductionTimeout f => Sys2Proof.Machine.execReductionTimeout f s
  | .gatherSourceLost f n => Sys2Proof.Machine.execGatherSourceLost f n s
  | .mirrorResumed => Sys2Proof.Machine.execMirrorResumed s
  | .storageFrame l f fill sent => Sys2Proof.Machine.execStorageFrame l f fill sent s
  | .congestionNotification n => Sys2Proof.Machine.execCongestionNotification n s
  | .congestionRecovery n => Sys2Proof.Machine.execCongestionRecovery n s
  | .priorityPause l prio => Sys2Proof.Machine.execPriorityPause l prio s
  | .portTraining dark => Sys2Proof.Machine.execPortTraining dark s
  | .portLinkControl ack nak => Sys2Proof.Machine.execPortLinkControl ack nak s
  | .portWakeFrame h => Sys2Proof.Machine.execPortWakeFrame h s
  | .attestationRequest h tag nonce => Sys2Proof.Machine.execAttestationRequest h tag nonce s
  | .keyEstablishment h tag ct => Sys2Proof.Machine.execKeyEstablishment h tag ct s
  | .regRead h tag addr n => Sys2Proof.Machine.execRegRead h tag addr n s
  | .regWrite h tag addr words => Sys2Proof.Machine.execRegWrite h tag addr words s
  | .arm h tag turn pairs => Sys2Proof.Machine.execArm h tag turn pairs s
  | .targetSet h tag n record => Sys2Proof.Machine.execTargetSet h tag n record s
  | .targetClear h tag n => Sys2Proof.Machine.execTargetClear h tag n s
  | .farPut h tag target a raddr rkey exts => Sys2Proof.Machine.execFarPut h tag target a raddr rkey exts s
  | .farGet h tag target a raddr rkey exts serial => Sys2Proof.Machine.execFarGet h tag target a raddr rkey exts serial s
  | .farTransferComplete n ends => Sys2Proof.Machine.execFarTransferComplete n ends s
  | .store h tag a caddr n slot => Sys2Proof.Machine.execStore h tag a caddr n slot s
  | .storeComplete n => Sys2Proof.Machine.execStoreComplete n s
  | .fetch h tag a caddr n slot => Sys2Proof.Machine.execFetch h tag a caddr n slot s
  | .fetchComplete n => Sys2Proof.Machine.execFetchComplete n s
  | .quote h tag nonce => Sys2Proof.Machine.execQuote h tag nonce s
  | .identityReq h tag => Sys2Proof.Machine.execIdentityReq h tag s
  | .slotLoad h tag slot conf parts key => Sys2Proof.Machine.execSlotLoad h tag slot conf parts key s
  | .slotPart h tag slot turn => Sys2Proof.Machine.execSlotPart h tag slot turn s
  | .extend h tag r bytes => Sys2Proof.Machine.execExtend h tag r bytes s
  | .rekey h tag => Sys2Proof.Machine.execRekey h tag s
  | .debugAuth h tag token => Sys2Proof.Machine.execDebugAuth h tag token s
  | .trustedDomainAdmit h tag => Sys2Proof.Machine.execTrustedDomainAdmit h tag s
  | .slotCfgLoad => Sys2Proof.Machine.execSlotCfgLoad s
  | .slotCfgPart => Sys2Proof.Machine.execSlotCfgPart s
  | .keyZeroise k => Sys2Proof.Machine.execKeyZeroise k s
  | .forcedZeroise k => Sys2Proof.Machine.execForcedZeroise k s
  | .partingComplete k => Sys2Proof.Machine.execPartingComplete k s
  | .reclaim h tag mask hold deadline => Sys2Proof.Machine.execReclaim h tag mask hold deadline s
  | .groupQuiet => Sys2Proof.Machine.execGroupQuiet s
  | .reclaimGo h tag => Sys2Proof.Machine.execReclaimGo h tag s
  | .handOver => Sys2Proof.Machine.execHandOver s
  | .reclaimForcedStop => Sys2Proof.Machine.execReclaimForcedStop s
  | .reclaimLate => Sys2Proof.Machine.execReclaimLate s
  | .pairSet h tag partner l0 l1 base size slot => Sys2Proof.Machine.execPairSet h tag partner l0 l1 base size slot s
  | .pairClear h tag => Sys2Proof.Machine.execPairClear h tag s
  | .pairSolo h tag solo => Sys2Proof.Machine.execPairSolo h tag solo s
  | .catchInfo h tag => Sys2Proof.Machine.execCatchInfo h tag s
  | .catchRelease h tag => Sys2Proof.Machine.execCatchRelease h tag s
  | .capSet h tag cap window turn => Sys2Proof.Machine.execCapSet h tag cap window turn s
  | .shareSet h tag shares turn => Sys2Proof.Machine.execShareSet h tag shares turn s
  | .opSet h tag mask point turn => Sys2Proof.Machine.execOpSet h tag mask point turn s
  | .stateSet h tag target turn => Sys2Proof.Machine.execStateSet h tag target turn s
  | .powerRead h tag => Sys2Proof.Machine.execPowerRead h tag s
  | .replan h tag turn => Sys2Proof.Machine.execReplan h tag turn s
  | .wakeLinks h tag mask => Sys2Proof.Machine.execWakeLinks h tag mask s
  | .psWakeLinks m v => Sys2Proof.Machine.execPsWakeLinks m v s
  | .caught cause die => Sys2Proof.Machine.execCaught cause die s
  | .strobeLossDump d => Sys2Proof.Machine.execStrobeLossDump d s
  | .catchDumpComplete dies => Sys2Proof.Machine.execCatchDumpComplete dies s
  | .sbWake => Sys2Proof.Machine.execSbWake s
  | .sbEventsClear v => Sys2Proof.Machine.execSbEventsClear v s
  | .sidebandFault => Sys2Proof.Machine.execSidebandFault s
  | .sidebandRetest ok => Sys2Proof.Machine.execSidebandRetest ok s
  | .bypass => Sys2Proof.Machine.execBypass s
  | .idcode => Sys2Proof.Machine.execIdcode s
  | .samplePreload pins => Sys2Proof.Machine.execSamplePreload pins s
  | .extest pins => Sys2Proof.Machine.execExtest pins s
  | .clamp => Sys2Proof.Machine.execClamp s
  | .highz => Sys2Proof.Machine.execHighz s
  | .extestPulse pins => Sys2Proof.Machine.execExtestPulse pins s
  | .extestTrain pins => Sys2Proof.Machine.execExtestTrain pins s
  | .eventFrame d => Sys2Proof.Machine.execEventFrame d s
  | .wakeStageRetry => Sys2Proof.Machine.execWakeStageRetry s
  | .commandAddressParityError w => Sys2Proof.Machine.execCommandAddressParityError w s
  | .debugInstruction => Sys2Proof.Machine.execDebugInstruction s
  | .trstNAssert => Sys2Proof.Machine.execTrstNAssert s
  | .dynamicAddressAssignment a => Sys2Proof.Machine.execDynamicAddressAssignment a s
  | .wakePatternEnd mask => Sys2Proof.Machine.execWakePatternEnd mask s
  | .priorityPauseExpiry l => Sys2Proof.Machine.execPriorityPauseExpiry l s

end Sys2Proof.Machine
end

