-- ==== Sys2Proof/Machine/Step.lean ====
section
/-! DEFINITION. One step: the command at the front of the queue, or an idle tick of fabric time (log entry 1). -/

namespace Sys2Proof.Machine

/-- A tick passes with nothing commanded: fabric time counts on inside the turn; a turn begins only with TURN_BOUNDARY
(R37, R43). Without power nothing counts. -/
def idle (s : State) : State :=
  if s.boot.pwrgood ∧ (s.time.now + 1) % 1024 ≠ 0 then { s with time.now := s.time.now + 1 } else s

/-- One step: the command at the front of the queue acts with the rest of the queue; an empty queue idles. -/
def step (s : State) : Host.Outcome State Fault Refusal :=
  match s.pending with
  | [] => .next (idle s)
  | c :: rest => exec c { s with pending := rest }

/-- The command that a word spells, at the front of the queue. -/
def State.withFetchWord (s : State) (nbits w : Nat) : State :=
  match decodeTableWord nbits w with
  | none => s
  | some c => { s with pending := c :: s.pending }

end Sys2Proof.Machine
end

