-- ==== Sys2Proof/Machine/Wire.lean ====
section
/-! DEFINITION. Frames as bits: the 128-bit frame of the belt and a register transaction on it (R22, R25), and the flits of a
fabric-mode link: header, payload and trailer, and the time frame (R347, R348, R350, R359), and the frame of
the Wailos port (R400). The rows of the table bring frames as
fields and a verdict; here the fields are laid out, and the verdict is formed from the bits. -/

namespace Sys2Proof.Machine

/-! ### Cyclic redundancy codes -/

/-- The remainder, n bits, of the low k bits of a number times x^n by x^n + poly, the highest bit first and beginning at zero: the
manual gives the polynomials of R22, R348 and R400 and no more (log entry 127). -/
def crc (n poly : Nat) : Nat → Nat → Nat
  | 0, _ => 0
  | k + 1, v =>
    let r := crc n poly k (v / 2)
    let top := (bit r (n - 1) + v) % 2
    (2 * r) % 2 ^ n ^^^ (if top = 1 then poly else 0)

/-! ### The belt (R22) -/

/-- The operations of the OP field; 0x8 to 0xF are reserved. -/
inductive BeltOp where
  | idle
  | read
  | write
  | readResponse
  | writeAck
  | telemetry
  | command
  | event
  deriving DecidableEq, Repr

def BeltOp.code : BeltOp → Nat
  | .idle => 0
  | .read => 1
  | .write => 2
  | .readResponse => 3
  | .writeAck => 4
  | .telemetry => 5
  | .command => 6
  | .event => 7

def beltOp (v : Nat) : Option BeltOp :=
  match v with
  | 0 => some .idle
  | 1 => some .read
  | 2 => some .write
  | 3 => some .readResponse
  | 4 => some .writeAck
  | 5 => some .telemetry
  | 6 => some .command
  | 7 => some .event
  | _ => none

/-- A belt frame's fields. -/
structure BeltFrame where
  op : BeltOp
  tag : Nat
  addr : Nat
  data : Nat
  status : Nat
  deriving DecidableEq, Repr

/-- Bits [111:0] of a frame. -/
def BeltFrame.body (f : BeltFrame) : Nat :=
  f.op.code + 2 ^ 4 * (f.tag % 2 ^ 8) + 2 ^ 12 * (f.addr % 2 ^ 32) + 2 ^ 44 * (f.data % 2 ^ 64) + 2 ^ 108 * (f.status % 2 ^ 4)

def beltCrc (body : Nat) : Nat := crc 16 0x1021 112 body

/-- The 128 bits of a frame. -/
def BeltFrame.word (f : BeltFrame) : Nat := f.body + 2 ^ 112 * beltCrc f.body

/-- What 128 bits on a lane say: nothing where the CRC fails, so that the frame is sent again (R25), or where OP is reserved. -/
def beltFrame (w : Nat) : Option BeltFrame :=
  if bf w 127 112 ≠ beltCrc (w % 2 ^ 112) then none
  else (beltOp (bf w 3 0)).map fun op =>
    { op := op, tag := bf w 11 4, addr := bf w 43 12, data := bf w 107 44, status := bf w 111 108 }

/-- A register transaction as its die answers it: the response carries the request's TAG, the word read and the STATUS (R22, R23);
other frames are no transactions. -/
def beltAnswer (s : State) (m : Master) (f : BeltFrame) : State × Option BeltFrame :=
  match f.op with
  | .read =>
    let r := hubRead s m f.addr
    (r.1, some { op := .readResponse, tag := f.tag, addr := f.addr, data := r.2.2, status := r.2.1 })
  | .write =>
    let r := hubWrite s m f.addr (f.data % 2 ^ 32)
    (r.1, some { op := .writeAck, tag := f.tag, addr := f.addr, data := 0, status := r.2 })
  | _ => (s, none)

/-- A response matches the request whose TAG it carries. -/
def beltMatches (request response : BeltFrame) : Bool :=
  response.tag == request.tag &&
    ((request.op == .read && response.op == .readResponse) || (request.op == .write && response.op == .writeAck))

/-! ### Flits of a fabric-mode link (R347, R348) -/

/-- Payload flits of a frame. -/
def payloadFlits (f : Frame) : Nat := ceilDiv f.payload.length 32

/-- The 256 bits of a header flit. -/
def headerFlit (f : Frame) : Nat :=
  f.type % 2 ^ 4 + 2 ^ 4 * (f.vc % 2 ^ 2) + (if f.enc then 2 ^ 6 else 0) + 2 ^ 8 * (f.src % 2 ^ 10) + 2 ^ 18 * (f.dst % 2 ^ 10) +
    2 ^ 28 * (f.tslot % 2 ^ 6) + 2 ^ 34 * (f.seq % 2 ^ 12) + 2 ^ 46 * payloadFlits f + 2 ^ 64 * (f.daddr % 2 ^ 39) +
    2 ^ 103 * (f.dsp % 2) + 2 ^ 128 * (f.tspec % 2 ^ 128)

/-- A header flit read: its fields and FLITS; none where TYPE is reserved, a reserved bit is set or FLITS is over 128. -/
def readHeader (w : Nat) : Option (Frame × Nat) :=
  let type := bf w 3 0
  let flits := bf w 53 46
  if type = 0 ∨ 8 < type ∨ bit w 7 = 1 ∨ bf w 63 54 ≠ 0 ∨ bf w 127 104 ≠ 0 ∨ 128 < flits then none
  else some
    ({ type := type, vc := bf w 5 4, enc := bit w 6 == 1, src := bf w 17 8, dst := bf w 27 18, tslot := bf w 33 28, seq := bf w 45 34
       daddr := bf w 102 64, dsp := bit w 103, tspec := bf w 255 128 }, flits)

/-- The CRC of a frame: over its header and payload flits as they are sent on the link. -/
def linkCrc (bs : List Byte) : Nat := crc 32 0x04C11DB7 (8 * bs.length) (leNat bs)

/-- The 32 bytes of a trailer flit. -/
def trailerFlit (code : Nat) (stomp : Bool) (gcm : List Byte) : List Byte :=
  leBytes 4 code ++ leBytes 1 (if stomp then 1 else 0) ++ leBytes 11 0 ++ padTo 16 0 gcm

/-- The bytes of a frame on a link: header, payload in whole flits, trailer; gcm is the tag of an ENC frame. -/
def frameBytes (f : Frame) (stomp : Bool) (gcm : List Byte) : List Byte :=
  let body := leBytes 32 (headerFlit f) ++ padTo (32 * payloadFlits f) 0 f.payload
  body ++ trailerFlit (linkCrc body) stomp (if f.enc then gcm else [])

/-- What the bytes of a frame say: its fields, and how it arrives; a bad CRC goes before STOMP, none where the header cannot be
read. -/
def readFrame (bs : List Byte) : Option (Frame × Arrival) :=
  match readHeader (leNat (bs.take 32)) with
  | none => none
  | some (f, flits) =>
    let body := bs.take (32 + 32 * flits)
    let tail := bs.drop (32 + 32 * flits)
    let f := { f with payload := body.drop 32 }
    some (f, if leNat (tail.take 4) ≠ linkCrc body then .crc 0 else if bit (leNat ((tail.drop 4).take 1)) 0 = 1 then .stomped 0 else .good 0)

/-- The header of a time frame: TYPE 7, SEQ zero, and its TSPEC (R347, R350, R359). -/
def timeHeader (src dst : Nat) (f : TimeFrame) : Frame :=
  { type := 7, src := src, dst := dst
    tspec := f.stamp % 2 ^ 64 + 2 ^ 64 * (f.depth % 2 ^ 5) + 2 ^ 80 * (f.turnaround % 2 ^ 16) + 2 ^ 96 * (f.echo % 2 ^ 32) }

/-- A time frame read from a header flit. -/
def readTime (f : Frame) : TimeFrame :=
  { stamp := bf f.tspec 63 0, depth := bf f.tspec 68 64, turnaround := bf f.tspec 95 80, echo := bf f.tspec 127 96 }

/-! ### Initialisation vectors (R360, R430, R439) -/

/-- The 96 bits of an XCHG frame's IV: SRC, the link by which it first left, and the counter of that link and slot. -/
def linkIv (src link ctr : Nat) : Nat := src % 2 ^ 10 + 2 ^ 10 * (link % 2 ^ 5) + 2 ^ 16 * (ctr % 2 ^ 64)

/-- The IV of the next XCHG frame of slot k that leaves on link l. -/
def nextLinkIv (s : State) (k l : Nat) : Nat := linkIv (selfId s) l (sget zeroAt s.tenant.ivs (32 * k + l))

/-- The IV of an encrypted port frame: the salt, and the frame counter of its direction. -/
def portIv (salt ctr : Nat) : Nat := ctr % 2 ^ 64 + 2 ^ 64 * (salt % 2 ^ 32)

/-- The IV of a far extent: its remote address and the write serial. -/
def farIv (raddr serial : Nat) : Nat := bf raddr 63 12 + 2 ^ 52 * (serial % 2 ^ 40)

/-- What an XCHG frame's tag covers beside its payload: the header flit with SEQ taken as zero. -/
def linkAad (f : Frame) : Nat := headerFlit { f with seq := 0 }

/-! ### The Wailos port (R400) -/

/-- The 32 bytes of a port frame's header, as a number. -/
def portHeader (f : PortFrame) : Nat :=
  f.type % 2 ^ 4 + (if f.enc then 2 ^ 4 else 0) + 2 ^ 8 * (f.seq % 2 ^ 12) + 2 ^ 32 * (f.payload.length % 2 ^ 13) +
    2 ^ 48 * (f.tag % 2 ^ 16) + 2 ^ 64 * (f.addr % 2 ^ 64) + 2 ^ 128 * (f.arg0 % 2 ^ 64) + 2 ^ 192 * (f.arg1 % 2 ^ 64)

/-- The bytes of a port frame: header, payload, the tag of an ENC frame, and the CRC over everything before it. -/
def portBytes (f : PortFrame) (gcm : List Byte) : List Byte :=
  let body := leBytes 32 (portHeader f) ++ f.payload ++ (if f.enc then padTo 16 0 gcm else [])
  body ++ leBytes 4 (linkCrc body)

/-- What the bytes of a port frame say: its fields, its tag and whether its CRC holds; none where TYPE or a bit is reserved, or
LEN is over 4,096 or no whole number of words. -/
def readPort (bs : List Byte) : Option (PortFrame × List Byte × Bool) :=
  let w := leNat (bs.take 32)
  let type := bf w 3 0
  let len := bf w 44 32
  let enc := bit w 4 == 1
  let body := bs.take (32 + len + (if enc then 16 else 0))
  if type = 0 ∨ 13 < type ∨ bf w 7 5 ≠ 0 ∨ bf w 31 20 ≠ 0 ∨ bf w 47 45 ≠ 0 ∨ 4096 < len ∨ len % 4 ≠ 0 then none
  else some
    ({ type := type, enc := enc, seq := bf w 19 8, tag := bf w 63 48, addr := bf w 127 64, arg0 := bf w 191 128, arg1 := bf w 255 192
       payload := (body.drop 32).take len }, body.drop (32 + len), leNat ((bs.drop body.length).take 4) == linkCrc body)

end Sys2Proof.Machine
end

