-- ==== Sys2Proof/Safety.lean ====
section
/-! DEFINITION. What claims call a safe run: the step answers a next state; the invariants that claims are stated with; and
the conditions under which a command has its own effect. -/

namespace Sys2Proof.Machine

/-- The machine goes on. -/
def Safe (s : State) : Prop := ∃ t, step s = .next t

/-! ### Invariants -/

/-- The board's pins and test access port stand as R419 and R420 have them: an instruction that needs RESET_N is in
effect only under RESET_N, BYPASS and IDCODE select their own data registers, and THERMTRIP_N is driven low exactly
while the trip of R473 stands. -/
abbrev State.boardOk (s : State) : Prop :=
  (s.board.tap.underReset = true → s.boot.inReset = true) ∧
  (s.board.tap = .bypass → s.board.tdo = 0) ∧
  (s.board.tap = .idcode → s.board.tdo = 0x20640B3D) ∧
  (s.board.thermtripN = true ↔ s.power.tripped = false)

/-- The memories of the package in canonical form. -/
abbrev State.memoryOk (s : State) : Prop :=
  Memory.wf s.mem.ns ∧ Memory.wf s.mem.gddr ∧ Memory.wf s.mem.table

/-- The register file in canonical form, in effect and in the shadow, each value a word of 32 bits. -/
abbrev State.regsOk (s : State) : Prop :=
  swf resetOf s.regs.live ∧ swf resetOf s.regs.shadow ∧ (∀ e ∈ s.regs.live, e.2 < 2 ^ 32) ∧ ∀ e ∈ s.regs.shadow, e.2 < 2 ^ 32

/-- The keys of a table rise strictly, so that each is listed once. -/
abbrev rising {α : Type} (m : List (Nat × α)) : Prop := m.Pairwise fun a b => a.1 < b.1

/-- Every table of the state, beside the registers and the memories, lists each of its keys once. -/
abbrev State.tablesOk (s : State) : Prop :=
  (rising s.belt.queues ∧ rising s.belt.lost ∧ rising s.belt.tries ∧ rising s.time.dieTurn ∧ rising s.time.missed) ∧
  (rising s.seq.progs ∧ rising s.seq.arrays ∧ rising s.seq.tokenOver ∧ rising s.seq.draws) ∧
  (rising s.mem.tags ∧ rising s.mem.nsErr ∧ rising s.mem.gKey ∧ rising s.mem.gErr ∧ rising s.mem.tableErr ∧ rising s.mem.sand ∧
    rising s.mem.partList ∧ rising s.mem.sandAged) ∧
  (rising s.tenant.keys ∧ rising s.tenant.ivs ∧ rising s.tenant.staging ∧ rising s.tenant.parting ∧ rising s.tenant.sweeps) ∧
  (rising s.power.silent ∧ rising s.power.senseRun ∧ rising s.power.varm ∧ rising s.power.offsets ∧
    rising s.power.copyA.offsets ∧ rising s.power.copyB.offsets ∧ rising s.power.rails) ∧
  rising s.boot.flash ∧ rising s.regs.latch ∧ rising s.seq.snaps ∧ rising s.net.links ∧ rising s.net.dropped ∧ rising s.storage.targets ∧ rising s.serving.rings ∧ rising s.serving.ringMem ∧
  rising s.serving.fams ∧ rising s.serving.pfxs ∧ rising s.serving.parked

/-! ### Entries -/

/-- Program p of cluster cl runs, and the entry e at its index i is one that its row may issue at once: no write is under
way over it, its code is good, it is no reserved encoding by its layout, and DEP, FENCE and the queues of its units hold
(R10, R49, R51, R59, R505). -/
def State.before (s : State) (cl p i e : Nat) (units : List UnitId) (cores : Nat) : Bool :=
  runnable s cl p && progPC s cl p == i && !entryBusy s cl i && entryErr s cl i != 2 &&
    entryAt s cl i == e && !Ent.noRow e && !Ent.layoutBad e && readyFor s cl p e units cores

/-- The program has stopped in a state of PROG_STATE (R50, R57): it is disabled in effect and in the shadow, waits for
nothing and holds no base turn. -/
def Stopped (t : State) (cl p code : Nat) : Prop :=
  progEnabled t cl p = false ∧ bit (t.shd (progReg cl p)) 31 = 0 ∧ progState t cl p = code ∧ (t.prog cl p).wait = .none ∧
  (t.prog cl p).base = none

/-- Die d has queued an event of a cause with a first operand, unless its queue is full (R25). -/
def PostedIn (s t : State) (d cause op1 : Nat) : Prop :=
  (sget nilAt t.belt.queues d).length < 256 →
    ∃ ev ∈ sget nilAt t.belt.queues d, ev.cause = cause ∧ ev.op1 = op1 ∧ ev.die = d ∧ ev.time = s.time.now

/-- Where a program stands that has issued its entry i and is neither ended nor redirected by it (R50, R56): at the next entry, ready;
at the end of the table it has halted in state 9, with the event. -/
def GoesOn (s t : State) (cl p i : Nat) : Prop :=
  (i < 2047 → progPC t cl p = i + 1 ∧ progState t cl p = 1) ∧
  (i = 2047 → progPC t cl p = 2047 ∧ Stopped t cl p 9 ∧ PostedIn s t (cl / 9) Cause.ranOffTable (tblAddr cl 2047))

/-- From s to t, entry e at index i of program p has issued to its units (R51, R52): it is in flight under the next
number, with its units and cores; the program goes on, and its count of entries issued advances by one. -/
def Issued (s t : State) (cl p i e : Nat) (units : List UnitId) (cores : Nat) : Prop :=
  (∃ f ∈ t.seq.flights, f.id = s.seq.nextId ∧ f.cl = cl ∧ f.prog = p ∧ f.seq = (s.prog cl p).issued ∧ f.idx = i ∧ f.entry = e ∧
    f.units = units ∧ f.cores = cores) ∧
  t.seq.nextId = s.seq.nextId + 1 ∧ GoesOn s t cl p i ∧ (t.prog cl p).issued = (s.prog cl p).issued + 1

/-- From s to t, entry e at index i of program p has issued to its units (R51, R52): the entries in flight are those of
s and then this one, with its work and its place among those that ask for a skew unit; the program goes on, and its
count of entries issued, and ISSUED, advance by one. -/
def IssuedAs (s t : State) (cl p i e : Nat) (units : List UnitId) (cores : Nat) (w : Work) (asked : Option Nat := none) : Prop :=
  t.seq.flights = s.seq.flights ++
    [{ id := s.seq.nextId, cl := cl, prog := p, seq := (s.prog cl p).issued, idx := i, entry := e,
       seed := s.reg64 (seqReg cl Reg.SEED_LO), units := units, cores := cores, work := w, asked := asked }] ∧
  t.seq.nextId = s.seq.nextId + 1 ∧ GoesOn s t cl p i ∧ (t.prog cl p).issued = (s.prog cl p).issued + 1 ∧
  t.reg64 (seqReg cl Reg.ISSUED_LO) = (s.reg64 (seqReg cl Reg.ISSUED_LO) + 1) % 2 ^ 64

/-- A control entry has issued: it addresses no unit, the program goes on at n, and ISSUED and
the program's own count advance by one. -/
def Passed (s t : State) (cl p n : Nat) : Prop :=
  t.seq.flights = s.seq.flights ∧ progPC t cl p = n ∧ (t.prog cl p).issued = (s.prog cl p).issued + 1 ∧
  t.reg64 (seqReg cl Reg.ISSUED_LO) = (s.reg64 (seqReg cl Reg.ISSUED_LO) + 1) % 2 ^ 64

/-- Of all registers, a control entry that does nothing else changes PC and PROG_STATE of its program and ISSUED. -/
def OnlyCounts (s t : State) (cl p : Nat) : Prop :=
  (∀ k, k ≠ seqReg cl Reg.ISSUED_LO → k ≠ seqReg cl Reg.ISSUED_LO + 4 → k ≠ seqReg cl Reg.PROG_STATE →
    k ≠ seqReg cl (Reg.PC + 4 * p) → t.reg k = s.reg k) ∧
  (∀ q < 8, q ≠ p → progState t cl q = progState s cl q) ∧ ∀ k, t.shd k = s.shd k

/-- The entry in flight under number f has left its units (R52): the other entries in flight, the programs, the
accumulators and the token counters' marks stand as they were. -/
def LeftUnits (s t : State) (f : Nat) : Prop :=
  t.seq = { s.seq with flights := s.seq.flights.filter fun x => x.id != f }

/-- Every entry in flight is of a cluster of the package, its number is lower than the next, and no two are alike. -/
abbrev State.idsOk (s : State) : Prop :=
  (∀ x ∈ s.seq.flights, x.id < s.seq.nextId ∧ x.cl < 432) ∧ s.seq.flights.Pairwise fun x y => x.id ≠ y.id

/-- An entry of a unit on these cores finds none before it on any of them (R52). -/
def State.headOf (s : State) (cl cores : Nat) (u : UnitId) : Bool :=
  s.seq.flights.all fun g => g.cl != cl || !g.units.contains u || g.cores &&& cores == 0

/-- A PASS of these cores finds none before it on the arrays but passes that run and that it follows without a gap (R52, R119). -/
def State.passFirst (s : State) (cl e : Nat) : Bool :=
  s.seq.flights.all fun g => g.cl != cl || !g.units.contains .array || g.cores &&& Ent.cores e == 0 || (g.runs && sameForm e g.entry)

/-- The skew units of these cores are free for an entry that asks now (R173). -/
def State.skewFree (s : State) (cl cores : Nat) : Bool :=
  s.seq.flights.all fun g => g.cl != cl || g.cores &&& cores == 0 || g.runs || g.asked.all fun m => decide (s.seq.nextAsk ≤ m)

/-- The place among those that ask for a skew unit of an entry that issues: it asks where none stands before it (R173). -/
def State.askNow (s : State) (cl e : Nat) (u : UnitId) : Option Nat :=
  if (if Ent.type e = 0 then s.passFirst cl e else s.headOf cl (Ent.cores e) u) && needsSkew e then some s.seq.nextAsk else none

/-- The array begins a PASS in the step that issues it: none stands before it but what it follows without a gap, and it holds the skew
units where it needs them (R52, R119, R129, R173). -/
def State.passBegins (s : State) (cl e : Nat) : Bool := s.passFirst cl e && (!needsSkew e || s.skewFree cl (Ent.cores e))

/-- As LeftUnits for an entry of a unit that others may wait for (R52, R119, R129, R173): the other entries stand as they were, but
for what they ask and what a PASS that now begins finds in its lines. A PASS that waited and has nothing before it begins, where it needs
no skew unit; and where no entry waits, nothing else changes. -/
def LeftTo (s t : State) (f : Nat) : Prop :=
  let rest := s.seq.flights.filter fun x => x.id != f
  let same := fun (x : Flight) => (x.id, x.cl, x.prog, x.seq, x.idx, x.entry, x.seed, x.units, x.cores)
  t.seq.flights.map same = rest.map same ∧ t.seq.progs = s.seq.progs ∧ t.seq.nextId = s.seq.nextId ∧
  t.seq.tokenOver = s.seq.tokenOver ∧ t.seq.copies = s.seq.copies ∧
  (s.idsOk → ∀ x ∈ rest, x.work = .waiting → needsSkew x.entry = false →
    nothingBefore { s with seq.flights := rest } x = true → ∃ y ∈ t.seq.flights, y.id = x.id ∧ y.runs = true) ∧
  ((∀ x ∈ rest, x.work ≠ .waiting ∧ (needsSkew x.entry = true → x.asked.isSome = true)) → LeftUnits s t f)

/-- As Posted, where one event of the same die may go before it. -/
def PostedLate (s t : State) (d cause op1 : Nat) : Prop :=
  (sget nilAt s.belt.queues d).length < 255 →
    ∃ ev ∈ sget nilAt t.belt.queues d, ev.cause = cause ∧ ev.op1 = op1 ∧ ev.die = d ∧ ev.time = s.time.now

/-- A program waits for tokens of counter c. -/
def onToken : Wait → Nat → Bool
  | .token c _ _, d => c == d
  | .turn _, _ => false
  | .none, _ => false

/-- Die d has queued an event of a cause with a first operand, where its queue had room for it (R25). -/
def Posted (s t : State) (d cause op1 : Nat) : Prop :=
  (sget nilAt s.belt.queues d).length < 256 →
    ∃ ev ∈ sget nilAt t.belt.queues d, ev.cause = cause ∧ ev.op1 = op1 ∧ ev.die = d ∧ ev.time = s.time.now

/-- A row of the opcode table that an entry of the schedule table stands for: the command, which entries are its own
(R60, R63, R64), and the units and cores that an entry of it takes a place in (R51). -/
structure EntryRow where
  command : Nat → Nat → Instr
  mine : State → Nat → Nat → Bool
  units : Nat → List UnitId
  cores : Nat → Nat

/-- A VEC row: VOP v, with the ROWLEN it names. -/
def vecEntryRow (c : Nat → Nat → Instr) (v : Nat) (rl : Nat → Bool := fun _ => true) : EntryRow :=
  ⟨c, fun _ _ e => Ent.type e == 2 && Ent.vop e == v && rl (Ent.rowlen e), fun _ => [.vector], Ent.cores⟩

/-- An ATTN row of a step. -/
def attnEntryRow (c : Nat → Nat → Instr) (step : Nat) : EntryRow :=
  ⟨c, fun _ _ e => Ent.type e == 7 && Ent.atStep e == step, fun e => [attnUnit e], Ent.cores⟩

/-- A MOVE row. -/
def moveEntryRow (c : Nat → Nat → Instr) (m : Nat → Bool) : EntryRow :=
  ⟨c, fun _ _ e => Ent.type e == 3 && m e, fun _ => [.transfer], fun _ => 0⟩

/-- An XCHG row, by the mode that its route list gives. -/
def xchgEntryRow (c : Nat → Nat → Instr) (m : Nat → Bool) : EntryRow :=
  ⟨c, fun s cl e => Ent.type e == 4 && m (xMode s cl e), fun _ => [.exchange], Ent.cores⟩

/-- A REDUCE row. -/
def reduceEntryRow (c : Nat → Nat → Instr) (m : Nat → Bool) : EntryRow :=
  ⟨c, fun _ _ e => Ent.type e == 5 && m e, fun _ => [.reduction], Ent.cores⟩

/-- A control row of a type. -/
def controlEntryRow (c : Nat → Nat → Instr) (t : Nat) : EntryRow := ⟨c, fun _ _ e => Ent.type e == t, fun _ => [], fun _ => 0⟩

/-- The rows of the VEC operations (R64). -/
def vecEntryRows : List EntryRow :=
  [vecEntryRow .convert 0x00 (· == 0), vecEntryRow .skewConversion 0x00 (· != 0), vecEntryRow .add 0x01,
    vecEntryRow .multiply 0x02, vecEntryRow .multiplyAdd 0x03, vecEntryRow .multiplyImmediate 0x04,
    vecEntryRow .rowMaximum 0x05, vecEntryRow .rowSum 0x06, vecEntryRow .exp 0x07, vecEntryRow .ln 0x08,
    vecEntryRow .reciprocalSquareRoot 0x09, vecEntryRow .softmax 0x0A, vecEntryRow .rmsNormalisation 0x0B,
    vecEntryRow .layerNormalisation 0x0C, vecEntryRow .logProbability 0x0D, vecEntryRow .silu 0x0E, vecEntryRow .gelu 0x0F,
    vecEntryRow .moment 0x10, vecEntryRow .master 0x11, vecEntryRow .cacheRule 0x12, vecEntryRow .dropout 0x13,
    vecEntryRow .normalFillTable 0x14 (· != 1), vecEntryRow .normalFillTransform 0x14 (· == 1), vecEntryRow .uniformFill 0x15]

/-- The rows of the entries that address units (R60, R63). -/
def unitEntryRows : List EntryRow :=
  [⟨.pass, fun _ _ e => Ent.type e == 0, fun _ => [.array], Ent.cores⟩,
    ⟨.mvec, fun _ _ e => Ent.type e == 1, fun _ => [.mvPath], Ent.cores⟩,
    attnEntryRow .attnScores 0, attnEntryRow .attnNormalise 1, attnEntryRow .attnValues 2,
    ⟨.sample, fun _ _ e => Ent.type e == 8, fun _ => [.sampler], fun _ => 1⟩,
    moveEntryRow .move (fun e => !isSpill e && !isExpand e), moveEntryRow .activationSpill isSpill, moveEntryRow .spillExpand isExpand,
    xchgEntryRow .exchangeFixed (fun m => m == 0 || decide (3 < m)), xchgEntryRow .dispatch (· == 1),
    xchgEntryRow .returnRows (· == 2), xchgEntryRow .combine (· == 3),
    reduceEntryRow .reduceThroughput (fun e => !Ent.rdFsync e && !Ent.canon e),
    reduceEntryRow .reduceOrdered (fun e => !Ent.rdFsync e && Ent.canon e), reduceEntryRow .flagSync Ent.rdFsync,
    ⟨.gather, fun _ _ e => Ent.type e == 6, fun _ => [.gather], Ent.cores⟩]

/-- The rows of the control entries (R60, R63). -/
def controlEntryRows : List EntryRow :=
  [controlEntryRow .waitTurn 0x09, controlEntryRow .waitToken 0x0A, controlEntryRow .gate 0x0B, controlEntryRow .hint 0x0C,
    controlEntryRow .mark 0x0D, controlEntryRow .jump 0x0E, controlEntryRow .endEntry 0x0F]

/-- Every row that an entry stands for. -/
def entryRows : List EntryRow := vecEntryRows ++ unitEntryRows ++ controlEntryRows

/-- Program p of cluster cl runs and meets the entry e at its index i, which is under no write and not uncorrectable,
and which its row does not reject for its layout (R10, R49, R505). -/
def State.meets (s : State) (cl p i e : Nat) : Bool :=
  runnable s cl p && progPC s cl p == i && !entryBusy s cl i && entryErr s cl i != 2 && entryAt s cl i == e && !Ent.noRow e

/-- What a VEC's cores write, as near SRAM holds it afterwards (R175, R249). -/
def vecMemory (s : State) (cl p i e : Nat) : State :=
  (setBits (Ent.cores e) 16).foldl (fun st k =>
    (vecCore e (s.reg64 (seqReg cl Reg.SEED_LO)) (sigmaStep s cl) (fun l => nsView s (actingSlot s cl) cl k l)).images.foldl
      (fun st (im : Nat × List ByteWrite) => nsWriteImage st (entryCtx s cl p i k) cl k im.1 im.2) st) s

/-- The core's part of a step of ATTN (R145 to R148). -/
def attnCore (a : AttnRun) (cl p i e c : Nat) : AttnRun :=
  match Ent.atStep e with
  | 0 => scoreCore a cl p i e c
  | 1 => normaliseCore a cl p i e c
  | _ => valueCore a cl p i e c

/-- The state in which a step of ATTN begins: step 0 opens the steps of its families (R321). -/
def attnOpened (s : State) (cl e : Nat) : State := if Ent.atStep e = 0 then openSteps s cl e else s

/-- What a step of ATTN leaves on the cores of CORES, and what it has counted, when it has looked at the lists it names (R145 to R148,
R259, R337). -/
def attnRun (s : State) (cl p i e : Nat) : State × Counts :=
  let r := (setBits (Ent.cores e) 16).foldl (fun a c => attnCore a cl p i e c)
    ({ state := noteLists (attnOpened s cl e) e (attnLists (attnOpened s cl e) e) } : AttnRun)
  (if Ent.atStep e = 0 then stallEntry r.state e else r.state, r.counts)

/-- What a SAMPLE leaves when it has acted on every row of its request table, and the records of its rows (R157 to R161). -/
def sampleRun (s : State) (cl p i e : Nat) : State × List (Nat × List Byte) :=
  let s := (setBits (Ent.cores e) 16).zipIdx.foldl (fun s (c : Nat × Nat) =>
    nsNote s (entryCtx s cl p i c.1) ((logitLines e c.2).map fun l => nsAddr cl c.1 (256 * l))) s
  let s := nsNote s (entryCtx s cl p i (lowCore e)) (coreLines cl (lowCore e) (Ent.smRaddr e) (ceilDiv (32 * Ent.smRows e) 256))
  (List.range (Ent.smRows e)).foldl (fun (a : State × List (Nat × List Byte)) row =>
    ((doRow a.1 cl p i e row).1, a.2 ++ (doRow a.1 cl p i e row).2.toList)) (s, [])

/-- A spill's descriptor, by its bytes, and the image that it makes of its source (R191, R192). -/
def spillDesc (s : State) (cl e : Nat) : ByteView :=
  fun off => nsByte s (actingSlot s cl) (2 ^ 22 * (Ent.mvSrc e / 2 ^ 22) + 256 * Ent.mvZmask e + off)
def spillBytes (s : State) (cl e : Nat) : List Byte :=
  (spillImage (Ent.mvCfmt e) { len32 := viewLE (spillDesc s cl e) 0 2, rows := viewLE (spillDesc s cl e) 2 2 } (spillDesc s cl e)
    fun off => nsByte s (actingSlot s cl) (Ent.mvSrc e + off)).1

/-- The tensor that an expansion makes of its image (R193). -/
def expandBytes (s : State) (e : Nat) : List Byte :=
  let img : ByteView := fun off => gByte s (Ent.mvSrc e + off)
  expandImage (Ent.mvCfmt e) { len32 := viewLE img 2 2, rows := viewLE img 4 2 } img

/-- The rows that an exchange sends, by its mode (R386 to R388). -/
def xchgBlocks (s : State) (cl e : Nat) : List XBlock :=
  match xMode s cl e with
  | 0 => fixedBlocks s cl e
  | 1 => dispatchBlocks s cl e
  | 2 => returnedBlocks s cl e
  | _ => []

/-- A run of an exchange's rows for this package whose place lies in its core, and in which no other run for the core lies. -/
def XBlock.lands (b : XBlock) (s : State) (bs : List XBlock) : Prop :=
  b.pkg = selfId s ∧ b.rcpt = false ∧ b.data ≠ [] ∧ b.byte + b.data.length ≤ 2 ^ 22 ∧
  ∀ x ∈ bs, x.pkg = selfId s → x.ep = b.ep → x = b ∨ x.byte + x.data.length ≤ b.byte ∨ b.byte + b.data.length ≤ x.byte

/-- What the issue of an exchange does beside issuing: its rows are sent, or its combined rows computed (R386 to R389). -/
def xchgRun (s : State) (cl p i e : Nat) : State :=
  let st := issueFlight s cl p i e [.exchange] (Ent.cores e) .none
  match xMode s cl e with
  | 0 => setWork (fixedRows st cl p i e s.seq.nextId) s.seq.nextId .none
  | 1 => setWork (dispatchRows st cl p i e s.seq.nextId) s.seq.nextId .none
  | 2 => setWork (returnBlocks st cl p i e s.seq.nextId) s.seq.nextId .none
  | _ => setWork (noteSticky (xNote st cl p i e) cl (xCore e) (combineBytes st cl e).2.sticky) s.seq.nextId
      (.data (combineBytes st cl e).1)

/-! ### What an entry leaves when it completes -/

/-- The outputs of a PASS, converted and written on each core, and their counts added into its record (R98, R114, R115). -/
def passWritten (s : State) (fl : Flight) (outs : List CoreOut) : State :=
  addRecord (outs.foldl (fun st o =>
      nsWriteImage st (flightCtx s fl o.core) fl.cl o.core (Ent.passOaddr fl.entry) (passImages fl.entry fl.seed o).1) s)
    (flightCtx s fl (lowCore fl.entry)) fl.cl (Ent.nrec fl.entry)
    (outs.foldl (fun a o => Counts.add (Counts.add a o.counts) (passImages fl.entry fl.seed o).2) {})

/-- The outputs of an MVEC, likewise (R98, R135, R137). -/
def mvecWritten (s : State) (fl : Flight) (outs : List CoreOut) : State :=
  addRecord (outs.foldl (fun st o =>
      nsWriteImage st (flightCtx s fl o.core) fl.cl o.core (Ent.mvOaddr fl.entry) (mvecImage fl.entry o).1) s)
    (flightCtx s fl (lowCore fl.entry)) fl.cl (Ent.nrec fl.entry)
    (outs.foldl (fun a o => Counts.add a (mvecImage fl.entry o).2) {})

/-- The checks of an activation spill beyond a MOVE's (R191, R192, R194): the descriptor's shape agrees with the entry,
and source and image may be used. -/
def spillOk (s : State) (cl e : Nat) : Bool :=
  let desc := spillDesc s cl e
  let h : SpillShape := { len32 := viewLE desc 0 2, rows := viewLE desc 2 2 }
  viewLE desc 4 4 == 0 && decide (1 ≤ h.rows) && decide (h.rows ≤ 1984) && Ent.mvLen e == h.rows * h.rowLen * 2 &&
    decide (1 ≤ Ent.mvCfmt e) && decide (Ent.mvCfmt e ≤ 3) &&
    (moveRefuse s cl e (Ent.mvLen e) (imageBytes (Ent.mvCfmt e) h (keptRows desc 8 h.rows).length)).isNone

/-- The checks of an expansion beyond a MOVE's (R193, R194): the image's header agrees with the entry, and image and
destination may be used. -/
def expandOk (s : State) (cl e : Nat) : Bool :=
  let img : ByteView := fun off => gByte s (Ent.mvSrc e + off)
  let h : SpillShape := { len32 := viewLE img 2 2, rows := viewLE img 4 2 }
  let kept := (keptRows img 32 h.rows).length
  (moveRefuse s cl e 32 (Ent.mvLen e)).isNone && (img 0).toNat == Ent.mvCfmt e && img 1 == 0 && decide (1 ≤ h.rows) &&
    decide (h.rows ≤ 1984) && viewLE img 6 2 == kept && viewLE img 8 24 == 0 && decide (1 ≤ Ent.mvCfmt e) &&
    decide (Ent.mvCfmt e ≤ 3) && Ent.mvLen e == 256 * tensorLines (Ent.mvCfmt e) 0 (h.rows * h.rowLen) &&
    (moveRefuse s cl e (imageBytes (Ent.mvCfmt e) h kept) (Ent.mvLen e)).isNone

/-! ### Register transactions -/

/-- A write that the hub performs is ignored by its page: one of the control node's to a random stream page while a confidential
tenant is present (R240, R448). -/
def State.hubIgnored (s : State) (m : Master) (a : Nat) : Bool :=
  m == .mailbox && confPresent s && (pageType (addrDie a) (addrPageIdx a)).any fun x => x.1 == 0x16

/-- A write of the word at off of a page is performed for the master (R407, R532, R535, R543). -/
def State.hubOk (s : State) (m : Master) (page off : Nat) : Bool :=
  writeStatus s m (page + off) == 0 && addrPage (page + off) == page && addrOff (page + off) == off && !s.hubIgnored m (page + off)

/-- From s to t the words named are zero, and no other register, in effect or in the shadow, and nothing else has
changed. -/
def Cleared (s t : State) (page : Nat) (offs : List Nat) : Prop :=
  (∀ o ∈ offs, t.reg (page + o) = 0) ∧ (∀ k, (∀ o ∈ offs, k ≠ page + o) → t.reg k = s.reg k) ∧ (∀ k, t.shd k = s.shd k) ∧
  t = { s with regs := t.regs }

/-! ### Links, the port and the command queues -/

/-- The corrected codewords of an arrival, and those that could not be corrected: one at least where a frame lies across any (R365). -/
def correctedOf : Arrival → Nat
  | .good n | .crc n | .fec n _ | .stomped n => n
def lostOf : Arrival → Nat
  | .fec _ m => max 1 m
  | _ => 0

/-- Frame f reaches the receiver of link l good and in order, is of a type, and is for this package, which takes it at
once (R351, R352, R366, R442, R477, R513). -/
def State.frameHere (s : State) (l : Nat) (f : Frame) (type : Nat) (near : Bool) : Bool :=
  fabricUp s l && f.type == type && f.seq == (s.link l).expect && f.dst == selfId s && !s.catching.caught &&
    (frameParting s f).isNone && !(near && sleeping s) && (s.link l).rx.all fun g => g.vc != f.vc || g.dst != selfId s

/-- The state once the link has taken the frame, with n corrected codewords (R352). -/
def State.taken (s : State) (l : Nat) (f : Frame) (n : Nat) : State := (takeFrame s l f (.good n)).1

/-- The port takes a frame of a type at once (R400, R401). -/
def State.portTakes (s : State) (type : Nat) (h : PortHead) : Bool := (takePort s type h).2

/-- The page engine of a queue's group waits for a channel that retrains (R257). -/
def State.queueHeld (s : State) (q : Nat) : Bool := (List.range 16).any fun p => poolOfQueue s q p && poolHeld s p

/-- The command c stands fetched at the front of command queue q, which has given none in this turn, with opcode op and no field set that it does not use
(R313). -/
def State.commandWaits (s : State) (q op : Nat) (c : List Byte) : Bool :=
  decide (q < 4096) && ringLive s q 2 && (s.ring q).cons != (s.ring q).fetched && (s.ring q).served != s.turn + 1 &&
    ringRead s (recordAt s q (s.ring q).cons) 64 == c && cmdByte c 0 1 == op && !cmdDirty c

/-- Such a command that the queue manager takes: no pool of the queue's group waits for a channel that retrains (R257, R313). -/
def State.command (s : State) (q op : Nat) (c : List Byte) : Bool := s.commandWaits q op c && !s.queueHeld q

/-- The command at the front of queue q has been taken, and the queue gives no other in this turn. -/
def Consumed (s t : State) (q : Nat) : Prop :=
  (t.ring q).cons = ((s.ring q).cons + 1) % 2 ^ 32 ∧ (t.ring q).served = s.turn + 1

/-- A frame of a type left by the port, with its TAG and arguments, after those that wait (R400). -/
def SentPort (s t : State) (type tag arg0 arg1 : Nat) : Prop :=
  ∃ g, t.port.tx = s.port.tx ++ [g] ∧ g.type = type ∧ g.tag = tag ∧ g.arg0 = arg0 ∧ g.arg1 = arg1 ∧ g.seq = s.port.nextSeq

/-- A row that brings a frame of a type by a link: the command, the type, and whether such a frame is for near SRAM (R347). -/
structure FrameRow where
  command : Nat → Frame → Arrival → Instr
  type : Nat
  near : Frame → Bool

/-- The rows that bring frames with a SEQ (R347, R351, R477). -/
def frameRows : List FrameRow :=
  [⟨.reduceFrame, 1, fun _ => true⟩, ⟨fun l f a => .xchgFrame l f a true, 2, fun f => f.dsp == 0⟩,
    ⟨fun l f a => .xchgFrame l f a false, 2, fun f => f.dsp == 0⟩, ⟨.gatherRequest, 3, fun _ => false⟩,
    ⟨.gatherResponse, 4, fun _ => true⟩, ⟨.switchPiece, 5, fun _ => true⟩, ⟨.linkWakeFrame, 8, fun _ => false⟩]

/-- The part of the REDUCE in flight under a number. -/
def redWork (s : State) (id : Nat) : Option RedWork :=
  (s.seq.flights.find? fun x => x.id == id).bind fun f => match f.work with | .reduce r => some r | _ => none

/-- A frame's head disagrees with the REDUCE of the member it comes to (R377). -/
def redDiffers (f : Flight) (h : RedHead) : Prop :=
  h.fsync = true ∨ Ent.rdFsync f.entry = true ∨ h.count ≠ Ent.rdCount f.entry ∨ h.fmt ≠ Ent.fmtA f.entry ∨ h.blk ≠ Ent.blkA f.entry ∨
    h.ord ≠ Ent.canon f.entry

/-- A frame brings a run of member o's shard to a REDUCE that it agrees with (R376, R377). -/
def redAgrees (f : Flight) (r : RedWork) (fr : Frame) (o : Nat) : Prop :=
  let h := redHead fr.tspec
  ¬ redDiffers f h ∧ shardOf r.list h.off = some o

/-- From s to t, of the sources of a GATHER the one of this core and place has become another (R294, R296). -/
def State.sourceIs (s t : State) (id : Nat) (old new : GatherSource) : Prop :=
  ∀ f g, gatherOf s id = some (f, g) → ∃ f' g', gatherOf t id = some (f', g') ∧
    g'.srcs = g.srcs.map fun x => if x.core == old.core && x.idx == old.idx then new else x

/-- A request reaches the management mailbox, which takes it (R400, R401, R406). -/
def State.mailOpen (s : State) (h : PortHead) : Bool := s.portTakes 6 h && decide (s.port.mbox.length < 64)

/-- One response left by the port, with the request's TAG, its opcode and a STATUS (R406). -/
def Answered (s t : State) (tag op status : Nat) : Prop :=
  ∃ g, t.port.tx = s.port.tx ++ [g] ∧ g.type = 7 ∧ g.tag = tag ∧ g.payload.take 2 = leBytes 1 op ++ leBytes 1 status

/-! ### Commits -/

/-- The page whose outstanding commit a row brings to its boundary, where that commit changes what the row names
(R46, R539). -/
def State.commitOfRow (s : State) : Instr → Option Nat
  | .programEnable cl => if cl < 432 ∧ enables s cl then some (clPage 0x12 cl) else none
  | .programDisable cl =>
    if cl < 432 ∧ ((List.range 8).any fun p => progEnabled s cl p && bit (s.shd (progReg cl p)) 31 == 0) then some (clPage 0x12 cl) else none
  | .tableCopy cl => if cl < 432 ∧ (copyAsked s cl).isSome then some (clPage 0x12 cl) else none
  | .ownershipChange => if (List.range 8).any fun p => ownMoved s p then some (hPage 4) else none
  | .roleChange => if moved s (ftReg Reg.FT_ROLE) then some (hPage 3) else none
  | .lossScaleLoad cl => if cl < 432 ∧ bit (s.shd (lsReg cl Reg.LS_CTRL)) 1 = 1 then some (clPage 0x15 cl) else none
  | .sandQueue w => if w < 8 ∧ bit (s.shd (memPage w + Reg.SAND_CTRL)) 31 = 1 then some (memPage w) else none
  | .catchShareChange w => if w < 8 ∧ moved s (memPage w + Reg.MEM_CATCH) then some (memPage w) else none
  | .adapterPublish =>
    if s.regs.shadow.any fun e => addrPage e.1 == blkPage && addrOff e.1 == Reg.BLK_CTRL && decide (2 ^ 20 ≤ keyItem e.1) && e.2 != 0
    then some blkPage else none
  | .publish => if (List.range 64).any fun m => bit (s.shd (blkKey Reg.BLK_CTRL m)) 0 == 1 then some blkPage else none
  | .switchPlanStart w => if w < 8 ∧ bit (s.shd (swReg w Reg.SW_CTRL)) 0 = 1 then some (swPage w) else none
  | .linkModeChange l =>
    if l < 24 ∧ bf (s.shd (linkReg l Reg.LINK_CTRL)) 1 0 ≠ bf (s.reg (linkReg l Reg.LINK_CTRL)) 1 0 then some (linkPage l) else none
  | .linkRetrain l => if l < 24 ∧ bit (s.shd (linkReg l Reg.LINK_CTRL)) 4 = 1 then some (linkPage l) else none
  | .powerStateEntry => if bit (s.shd (psReg Reg.PS_CTRL)) 31 = 1 then some (hPage 0x0A) else none
  | .slotCfgLoad => if (List.range 64).any fun k => bit (s.shd (slotKey Reg.SLOT_CFG k)) 0 == 1 then some (hPage 8) else none
  | .slotCfgPart => if (List.range 64).any fun k => bit (s.shd (slotKey Reg.SLOT_CFG k)) 1 == 1 then some (hPage 8) else none
  | _ => none

/-- The strobe of the turn at hand has not reached the page's die, and reaches it now (R43, R570). -/
def State.strobeComes (s : State) (page : Nat) : Bool :=
  decide (s.dieTurn (addrDie page) < s.turn) && strobed s (2 ^ addrDie page) (addrDie page)

/-- The page's die as the strobe reaches it: it sees the turn, its links send their time frames and its copies are taken; the
commits come next (R39, R46, R570). -/
def State.atStrobe (s : State) (page : Nat) : State :=
  let on := fun (d : Nat) => d == addrDie page
  takeSnaps (timeFrames (reach s (addrDie page) s.turn) on) s.turn on

/-- A commit of the page is outstanding and due, and the strobe now comes to its die (R46, R539, R570). -/
def State.commitComes (s : State) (page : Nat) : Bool :=
  ((commitOf s page).any fun c => dueCommit s s.turn c) && s.strobeComes page

/-- As commitComes, and no other commit of the die comes with it. -/
def State.aloneDue (s : State) (page : Nat) : Bool :=
  s.commitComes page && (((s.atStrobe page).regs.commits.filter fun k =>
    addrDie k.page == addrDie page && dueCommit (s.atStrobe page) s.turn k).map fun k => k.page) == [page]

/-- As aloneDue, and no check refuses the commit (R46, R539, R543). -/
def State.comes (s : State) (page : Nat) : Bool := s.aloneDue page && judge (s.atStrobe page) page == none

/-! ### Tenants, waking, waiting requests and bring-up -/

/-- Slot k has been zeroised (R442 steps 5 to 7): its keys are gone and it is retired; no entry of its clusters and no
transfer of its own is left, its cores' sums are cleared, its rings are unused, its regions wait for sanding before all
else, and its epoch advances, now or when the sweep in progress ends. -/
def Zeroised (s t : State) (k : Nat) : Prop :=
  keysOf t k = {} ∧ slotState t k = 3 ∧ bf (t.reg (slotKey Reg.SLOT_STATE k)) 31 24 = 7 ∧ bit (t.reg (slotKey Reg.SLOT_STATE k)) 2 = 0 ∧
  (∀ f ∈ t.seq.flights, inGroup (slotParts s k) f = false) ∧ (∀ x ∈ t.storage.far, x.slot ≠ some k) ∧
  (∀ x ∈ t.storage.host, x.slot ≠ some k) ∧ (∀ e ∈ t.seq.arrays, bit (slotParts s k) (partOf (e.1 / 16)) = 0) ∧
  (∀ n ∈ ringsOf s k (slotParts s k), ringKind t n = 0) ∧
  (∀ w < 8, sget nilAt t.mem.partList w =
    match (regions s w).zipIdx.filter fun x => x.1.enable && x.1.slot == k with
    | [] => sget nilAt s.mem.partList w
    | rs => joinParting (sget nilAt s.mem.partList w) (rs.map fun x =>
        ({ base := x.1.base, size := x.1.size, left := x.1.size, urgent := true, parting := some (k, x.2) } : SandRange))) ∧
  (anySweep s = false → slotEpoch t k = (slotEpoch s k + 1) % 1023 ∧ anySweep t = true) ∧
  (anySweep s = true → slotEpoch t k = slotEpoch s k ∧ t.tenant.heldAdvance = s.tenant.heldAdvance ++ [k])

/-- A wake source of bit b wakes the package at once: it sleeps, is neither entering a state nor waking, and the source is
enabled (R477, R479). -/
def State.wakesBy (s : State) (b : Nat) : Bool :=
  sleeping s && !psEntering s && !psWaking s && (decide (5 ≤ b) || bit (s.reg (psReg Reg.PS_WAKE_EN)) b == 1)

/-- The wake has begun at the first stage that the state needs, and PS_CAUSE names its source (R477, R479). -/
def WakeBegun (s t : State) (b : Nat) : Prop :=
  psWaking t = true ∧ psState t = psState s ∧ psStage t = (if psState s = 1 then 4 else 1) ∧ t.wake.attempts = 1 ∧
  t.sideband.wake = false ∧ bit (t.reg (psReg Reg.PS_CAUSE)) b = 1

/-- No commit of the page is outstanding, and the mailbox may write it, so that a request may commit it for a turn (R408, R484, R535). -/
def State.mayCommit (s : State) (page turn : Nat) : Bool :=
  (commitOf s page).isNone && writeStatus s .mailbox (page + 0x100) == 0 && decide (turn < 2 ^ 54)

/-- The request waits for its page, which is armed for the turn, or for the next boundary where the turn is 0 (R484). -/
def Awaits (s t : State) (tag op page turn : Nat) : Prop :=
  t.port.mbox = s.port.mbox ++ [{ tag := tag, op := op, page := page }] ∧
  commitOf t page = some { page := page, turn := if turn = 0 then none else some turn } ∧ t.port.tx = s.port.tx

/-- As Answered, where the request may have sent other frames first. -/
def AnsweredLast (t : State) (tag op status : Nat) : Prop :=
  ∃ g, t.port.tx.getLast? = some g ∧ g.type = 7 ∧ g.tag = tag ∧ g.payload.take 2 = leBytes 1 op ++ leBytes 1 status

/-- Bring-up goes on at its step (R488, R491). -/
def State.bringsUp (s : State) (step : Nat) : Bool :=
  !s.stopped && !s.boot.stopped && s.boot.recovery.isNone && !s.catching.caught && bootStep s == step

end Sys2Proof.Machine
end

