-- ==== Sys2Proof/WellFormed.lean ====
section
/-! DEFINITION. Commands whose operands lie in their ranges: cluster, program, die, window and link numbers that exist, and
values that fit the fields which carry them. -/

namespace Sys2Proof

/-- A value fits n bits. -/
def bits (n v : Nat) : Bool := decide (v < 2 ^ n)

/-- Clusters are numbered 0 to 431, program slots 0 to 7, windows 0 to 7 (R13, R47, R261). -/
def okCluster (cl : Nat) : Bool := decide (cl < 432)
def okProgram (p : Nat) : Bool := decide (p < 8)
def okWindow (w : Nat) : Bool := decide (w < 8)

/-- Links are numbered 0 to 23; 24 stands for the Wailos port (R342). -/
def okLink (l : Nat) : Bool := decide (l ≤ 24)

/-- A payload fits a frame (R347, R400). -/
def short (bs : List Byte) : Bool := decide (bs.length ≤ 4096)

/-- A NAK names a SEQ (R352). -/
def okNak (q : Option Nat) : Bool := q.all (bits 12)

/-- Attempts of a GDDR7 access or a belt frame (R25, R257). -/
def okTry (n : Nat) : Bool := decide (1 ≤ n) && decide (n ≤ 5)

/-- Cycles charged to clusters that exist (R394). -/
def okCharges (cs : List Charge) : Bool := cs.all fun c => okCluster c.cl

/-- The fields of a fabric frame's header (R347). -/
def Frame.wf (f : Frame) : Bool :=
  bits 4 f.type && bits 2 f.vc && bits 10 f.src && bits 10 f.dst && bits 6 f.tslot && bits 12 f.seq && bits 39 f.daddr && bits 1 f.dsp &&
    bits 128 f.tspec && short f.payload

/-- The fields of a time frame (R359). -/
def TimeFrame.wf (f : TimeFrame) : Bool := bits 64 f.stamp && bits 5 f.depth && bits 16 f.turnaround && bits 32 f.echo

/-- The fields of a MAC frame that the storage engines look at (R363, R364). -/
def StorageFrame.wf (f : StorageFrame) : Bool :=
  bits 48 f.mac && (f.vlan.all fun v => bits 12 v) && bits 16 f.udp && bits 128 f.ip && bits 24 f.qpn

def Training.wf (t : Training) : Bool :=
  bits 8 t.lanes && bits 32 t.laneMap && (t.peer.all fun x => bits 10 x.1 && bits 5 x.2.1 && bits 2 x.2.2) && bits 32 t.delay

/-- An error lies in a slice, granule or entry that the package has (R242, R261, R48). -/
def Upset.wf (u : Upset) : Bool :=
  match u.kind with
  | .nearSram => bits 31 u.place
  | .gddr7 => bits 34 u.place
  | .table => decide (u.place < 432 * 2048)

def LoopReadings.wf (r : LoopReadings) : Bool :=
  r.rails.length == r.railEst.length && r.partEst.length == 8 && r.partDyn.length == 8 && r.tj.length == 64 && r.mem.length == 8 && r.margin.length == 48 &&
    r.osc.length == 48 && r.sense.length == 8 && (r.devEcc.all fun x => okWindow x.1 && bits 32 x.2) && r.upsets.all Upset.wf

def StepEnd.wf (x : StepEnd) : Bool :=
  decide (x.puf.log2 < 65536) && (x.edges.all fun d => decide (d < 48)) && x.failed.all (bits 6) && x.channels.all (bits 8) && decide (x.links.length ≤ 24) && x.links.all Training.wf && bits 2 x.portDark

/-- A command is well formed. -/
def Instr.wf : Instr → Bool
  | .pass cl p => okCluster cl && okProgram p
  | .passComplete _ => true
  | .mvec cl p => okCluster cl && okProgram p
  | .mvecComplete _ => true
  | .convert cl p => okCluster cl && okProgram p
  | .skewConversion cl p => okCluster cl && okProgram p
  | .add cl p => okCluster cl && okProgram p
  | .multiply cl p => okCluster cl && okProgram p
  | .multiplyAdd cl p => okCluster cl && okProgram p
  | .multiplyImmediate cl p => okCluster cl && okProgram p
  | .rowMaximum cl p => okCluster cl && okProgram p
  | .rowSum cl p => okCluster cl && okProgram p
  | .exp cl p => okCluster cl && okProgram p
  | .ln cl p => okCluster cl && okProgram p
  | .reciprocalSquareRoot cl p => okCluster cl && okProgram p
  | .softmax cl p => okCluster cl && okProgram p
  | .rmsNormalisation cl p => okCluster cl && okProgram p
  | .layerNormalisation cl p => okCluster cl && okProgram p
  | .logProbability cl p => okCluster cl && okProgram p
  | .silu cl p => okCluster cl && okProgram p
  | .gelu cl p => okCluster cl && okProgram p
  | .moment cl p => okCluster cl && okProgram p
  | .master cl p => okCluster cl && okProgram p
  | .cacheRule cl p => okCluster cl && okProgram p
  | .dropout cl p => okCluster cl && okProgram p
  | .normalFillTable cl p => okCluster cl && okProgram p
  | .normalFillTransform cl p => okCluster cl && okProgram p
  | .uniformFill cl p => okCluster cl && okProgram p
  | .vecComplete _ => true
  | .attnScores cl p => okCluster cl && okProgram p
  | .attnNormalise cl p => okCluster cl && okProgram p
  | .attnValues cl p => okCluster cl && okProgram p
  | .attnComplete _ => true
  | .sample cl p => okCluster cl && okProgram p
  | .sampleComplete _ => true
  | .move cl p => okCluster cl && okProgram p
  | .activationSpill cl p => okCluster cl && okProgram p
  | .spillExpand cl p => okCluster cl && okProgram p
  | .moveComplete _ => true
  | .exchangeFixed cl p => okCluster cl && okProgram p
  | .dispatch cl p => okCluster cl && okProgram p
  | .returnRows cl p => okCluster cl && okProgram p
  | .combine cl p => okCluster cl && okProgram p
  | .xchgComplete _ => true
  | .reduceThroughput cl p => okCluster cl && okProgram p
  | .reduceOrdered cl p => okCluster cl && okProgram p
  | .flagSync cl p => okCluster cl && okProgram p
  | .reduceComplete _ => true
  | .gather cl p => okCluster cl && okProgram p
  | .gatherComplete _ => true
  | .waitTurn cl p => okCluster cl && okProgram p
  | .waitToken cl p => okCluster cl && okProgram p
  | .tokenTimeout cl p => okCluster cl && okProgram p
  | .gate cl p => okCluster cl && okProgram p
  | .hint cl p => okCluster cl && okProgram p
  | .mark cl p => okCluster cl && okProgram p
  | .jump cl p => okCluster cl && okProgram p
  | .endEntry cl p => okCluster cl && okProgram p
  | .priorityAgeing cl p => okCluster cl && okProgram p.slot && bits 32 p.cycles
  | .halt _ cl v => okCluster cl && bits 32 v
  | .turnBoundary mask charges => bits 64 mask && okCharges charges
  | .fabricTimeAlarm => true
  | .parkedSessionExpiry e => bits 16 e
  | .commitGo _ page => bits 32 page
  | .commitArm _ page => bits 32 page
  | .commitDisarm _ page => bits 32 page
  | .registerWrite _ addr v => bits 32 addr && bits 32 v
  | .lowWordRead _ addr => bits 32 addr
  | .errClr _ page => bits 32 page
  | .eventClear _ page v => bits 32 page && bits 32 v
  | .programEnable cl => okCluster cl
  | .programDisable cl => okCluster cl
  | .tableCopy cl => okCluster cl
  | .tableLoaded cl => okCluster cl
  | .ownershipChange => true
  | .roleChange => true
  | .lossScaleLoad cl => okCluster cl
  | .checkDraw _ cl => okCluster cl
  | .checkDrawDone cl => okCluster cl
  | .cntClear _ cl => okCluster cl
  | .nsClear _ d => decide (d ≤ 64)
  | .memClear _ w => okWindow w
  | .qmClear _ => true
  | .peClear _ => true
  | .linkClear _ l => okLink l
  | .idleClear _ cl => okCluster cl
  | .pwrClear _ => true
  | .dieClear _ d => decide (d ≤ 64)
  | .portClear _ => true
  | .linkKeyWrite _ j v => bits 3 j && bits 32 v
  | .packageIdleUpdate => true
  | .timeFrame l f _ phase _ _ => okLink l && f.wf && bits 4 phase
  | .delayRemeasure l r => okLink l && r.frame.wf && bits 4 r.phase
  | .acquired => true
  | .holdover => true
  | .timeExchange h tag t _ => bits 12 h.seq && bits 16 tag && bits 64 t.t2 && bits 64 t.t3
  | .timeNotAcquired => true
  | .refclkLost => true
  | .refclkReturn => true
  | .beltCrcRetry b => decide (b.die ≤ 64) && okTry b.attempt
  | .beltLaneDown d => decide (d ≤ 64)
  | .eventOverflow d => decide (d ≤ 64)
  | .controlLoop r => r.wf
  | .measurementLost j => bits 8 j
  | .powerEstimateDisagrees => true
  | .periodicReplan => true
  | .droop d => decide (d ≤ 64)
  | .droopRecovery d n => decide (d ≤ 64) && bits 32 n
  | .vstepAck p => okProgram p
  | .regulatorStepTimeout p => okProgram p
  | .thermalTrip d => decide (d ≤ 64)
  | .powerStateEntry => true
  | .entryComplete => true
  | .wakeNFall => true
  | .wakePattern l => okLink l
  | .armedCommitWake page => bits 32 page
  | .wakeStageReady => true
  | .wakeStalled => true
  | .pwrgoodRise => true
  | .pwrgoodFall => true
  | .resetNAssert => true
  | .resetNRelease => true
  | .bringUpStepEnd x => x.wf
  | .ready => true
  | .recoveryChunk h tag off total bytes => bits 12 h.seq && bits 16 tag && bits 32 off && bits 32 total && short bytes
  | .recoveryCommit h tag off total => bits 12 h.seq && bits 16 tag && bits 32 off && bits 32 total
  | .recoveryStatus h tag => bits 12 h.seq && bits 16 tag
  | .gddr7CrcRetry a n attempt _ => bits 64 a && bits 32 n && okTry attempt
  | .retrainingComplete w k _ => okWindow w && bits 3 k
  | .correctionWriteBack a => bits 64 a
  | .sandQueue w => okWindow w
  | .sandAgeing w => okWindow w
  | .sanded r => okWindow r.window && bits 16 r.units
  | .catchShareChange w => okWindow w
  | .tagSweepComplete d k => decide (d ≤ 64) && bits 6 k
  | .producerDoorbell h tag n q => bits 12 h.seq && bits 16 tag && bits 32 n && bits 32 q
  | .consumerDoorbell h tag n q => bits 12 h.seq && bits 16 tag && bits 32 n && bits 32 q
  | .hostReadRequest n => bits 32 n
  | .hostReadResponse h tag bytes => bits 12 h.seq && bits 16 tag && short bytes
  | .hostReadTimeout tag => bits 16 tag
  | .hostWrite n => bits 32 n
  | .pendingRecordPost n => bits 32 n
  | .admitReq q => bits 12 q
  | .cancel q => bits 12 q
  | .pause q => bits 12 q
  | .resume q => bits 12 q
  | .dropParked q => bits 12 q
  | .prefixDef q => bits 12 q
  | .prefixDrop q => bits 12 q
  | .familyDef q => bits 12 q
  | .familyDrop q => bits 12 q
  | .sessionParked e => bits 16 e
  | .resumeRetry e => bits 16 e
  | .restoreComplete e bad bytes => bits 16 e && bad.all (bits 16) && short bytes
  | .publish => true
  | .adapterPublish => true
  | .unhold _ => true
  | .unholdAdapter _ => true
  | .load h tag list n => bits 12 h.seq && bits 16 tag && bits 64 list && bits 32 n
  | .loadExtent n off _ => bits 32 n && bits 32 off
  | .switchPlanStart w => okWindow w
  | .switchDescriptor w => okWindow w
  | .swAbort _ w => okWindow w
  | .switchOverrun w => okWindow w
  | .switchPiece l f _ => okLink l && f.wf
  | .reduceFrame l f _ => okLink l && f.wf
  | .xchgFrame l f _ _ => okLink l && f.wf
  | .gatherRequest l f _ => okLink l && f.wf
  | .gatherResponse l f _ => okLink l && f.wf
  | .controlFrame l ack nak c => okLink l && bits 12 ack && okNak nak && decide (c.freed.length ≤ 4) && bits 32 c.stall && bits 32 c.sent
  | .linkWakeFrame l f _ => okLink l && f.wf
  | .heldFrameDeparture l vc _ => okLink l && bits 2 vc
  | .replayLimit l => okLink l
  | .linkTrainingComplete l t => okLink l && t.wf
  | .modeMismatchRetry l t => okLink l && t.wf
  | .lightLoss l lane => okLink l && bits 3 lane
  | .linkModeChange l => okLink l
  | .linkRetrain l => okLink l
  | .bucketOrphaned n => bits 32 n
  | .reductionTimeout _ => true
  | .gatherSourceLost _ n => bits 32 n
  | .mirrorResumed => true
  | .storageFrame l f fill sent => okLink l && f.wf && decide (fill ≤ 100) && bits 32 sent
  | .congestionNotification n => bits 32 n
  | .congestionRecovery n => bits 32 n
  | .priorityPause l prio => okLink l && bits 3 prio
  | .portTraining dark => bits 2 dark
  | .portLinkControl ack nak => bits 12 ack && okNak nak
  | .portWakeFrame h => bits 12 h.seq
  | .attestationRequest h tag nonce => bits 12 h.seq && bits 16 tag && short nonce
  | .keyEstablishment h tag ct => bits 12 h.seq && bits 16 tag && short ct
  | .regRead h tag addr n => bits 12 h.seq && bits 16 tag && bits 32 addr && bits 32 n
  | .regWrite h tag addr words => bits 12 h.seq && bits 16 tag && bits 32 addr && words.all (bits 32)
  | .arm h tag turn pairs => bits 12 h.seq && bits 16 tag && bits 64 turn && (pairs.all fun x => bits 32 x.1 && bits 32 x.2)
  | .targetSet h tag n record => bits 12 h.seq && bits 16 tag && bits 32 n && short record
  | .targetClear h tag n => bits 12 h.seq && bits 16 tag && bits 32 n
  | .farPut h tag target a raddr rkey exts => bits 12 h.seq && bits 16 tag && bits 8 target && bits 64 a && bits 64 raddr && bits 32 rkey && bits 32 exts
  | .farGet h tag target a raddr rkey exts serial => bits 12 h.seq && bits 16 tag && bits 8 target && bits 64 a && bits 64 raddr && bits 32 rkey && bits 32 exts && bits 64 serial
  | .farTransferComplete n _ => bits 32 n
  | .store h tag a caddr n slot => bits 12 h.seq && bits 16 tag && bits 64 a && bits 64 caddr && bits 32 n && bits 8 slot
  | .storeComplete n => bits 32 n
  | .fetch h tag a caddr n slot => bits 12 h.seq && bits 16 tag && bits 64 a && bits 64 caddr && bits 32 n && bits 8 slot
  | .fetchComplete n => bits 32 n
  | .quote h tag nonce => bits 12 h.seq && bits 16 tag && short nonce
  | .identityReq h tag => bits 12 h.seq && bits 16 tag
  | .slotLoad h tag slot conf parts key => bits 12 h.seq && bits 16 tag && bits 8 slot && bits 8 conf && bits 8 parts && short key
  | .slotPart h tag slot turn => bits 12 h.seq && bits 16 tag && bits 8 slot && bits 64 turn
  | .extend h tag r bytes => bits 12 h.seq && bits 16 tag && bits 8 r && short bytes
  | .rekey h tag => bits 12 h.seq && bits 16 tag
  | .debugAuth h tag token => bits 12 h.seq && bits 16 tag && short token
  | .trustedDomainAdmit h tag => bits 12 h.seq && bits 16 tag
  | .slotCfgLoad => true
  | .slotCfgPart => true
  | .keyZeroise k => bits 6 k
  | .forcedZeroise k => bits 6 k
  | .partingComplete k => bits 6 k
  | .reclaim h tag mask _ deadline => bits 12 h.seq && bits 16 tag && bits 8 mask && bits 64 deadline
  | .groupQuiet => true
  | .reclaimGo h tag => bits 12 h.seq && bits 16 tag
  | .handOver => true
  | .reclaimForcedStop => true
  | .reclaimLate => true
  | .pairSet h tag partner l0 l1 base size slot => bits 12 h.seq && bits 16 tag && bits 16 partner && bits 8 l0 && bits 8 l1 && bits 64 base && bits 32 size && bits 8 slot
  | .pairClear h tag => bits 12 h.seq && bits 16 tag
  | .pairSolo h tag _ => bits 12 h.seq && bits 16 tag
  | .catchInfo h tag => bits 12 h.seq && bits 16 tag
  | .catchRelease h tag => bits 12 h.seq && bits 16 tag
  | .capSet h tag cap window turn => bits 12 h.seq && bits 16 tag && bits 32 cap && bits 8 window && bits 64 turn
  | .shareSet h tag shares turn => bits 12 h.seq && bits 16 tag && shares.all (bits 16) && bits 64 turn
  | .opSet h tag mask point turn => bits 12 h.seq && bits 16 tag && bits 8 mask && bits 8 point && bits 64 turn
  | .stateSet h tag target turn => bits 12 h.seq && bits 16 tag && bits 8 target && bits 64 turn
  | .powerRead h tag => bits 12 h.seq && bits 16 tag
  | .replan h tag turn => bits 12 h.seq && bits 16 tag && bits 64 turn
  | .wakeLinks h tag mask => bits 12 h.seq && bits 16 tag && bits 32 mask
  | .psWakeLinks _ v => bits 32 v
  | .caught cause die => bits 16 cause && bits 6 die
  | .strobeLossDump d => decide (d ≤ 64)
  | .catchDumpComplete dies => bits 64 dies
  | .sbWake => true
  | .sbEventsClear v => bits 32 v
  | .sidebandFault => true
  | .sidebandRetest _ => true
  | .bypass => true
  | .idcode => true
  | .samplePreload _ => true
  | .extest _ => true
  | .clamp => true
  | .highz => true
  | .extestPulse _ => true
  | .extestTrain _ => true
  | .eventFrame d => decide (d ≤ 64)
  | .wakeStageRetry => true
  | .commandAddressParityError w => okWindow w
  | .debugInstruction => true
  | .trstNAssert => true
  | .dynamicAddressAssignment a => bits 64 a
  | .wakePatternEnd mask => bits 24 mask
  | .priorityPauseExpiry l => okLink l

end Sys2Proof
end

