-- ==== Sys2Proof/Certificates/Slice0/Obligations.lean ====
section
/-! DEFINITION. The obligations: what the manual's rules say of the machine, for the provers. Premises that name State.regsOk,
State.memoryOk, State.tablesOk and State.boardOk are the invariants that CanonicalInvariant, TablesInvariant and BoardInvariant
state; Issued, Posted and the like stand in Sys2Proof.Safety. -/

open Sys2Proof Sys2Proof.Machine

/-- O1. A step runs the command at the front of the queue. With command c in front of the queue, a step is exec of c on
the state with the rest of the queue. On an empty queue the step is an idle tick (log entry 1, the model's choice). No
row of the table has bits, so withFetchWord changes nothing. -/
def Obligations.StepFront : Prop :=
  ∀ (c : Instr) (s : State),
    step { s with pending := c :: s.pending } = exec c s ∧
    (s.pending = [] → step s = .next (idle s)) ∧
    (∀ n w, s.withFetchWord n w = s)

/-- O2. What reset leaves. At reset every register in effect and in the shadow holds its reset value, every near-SRAM line
carries the cleared tag (slot 0, void epoch), no program is enabled, nothing is in flight, and the invariants hold.
Fabric time 0 is the model's choice (log entry 15). -/
def Obligations.ResetState : Prop :=
  State.reset.pending = [] ∧ State.reset.memoryOk ∧ State.reset.regsOk ∧ State.reset.boardOk ∧ State.reset.tablesOk ∧ State.reset.idsOk ∧
    (∀ k, State.reset.reg k = resetOf k ∧ State.reset.shd k = resetOf k) ∧
    (∀ a, nsTag State.reset a = 0xFFC0) ∧
    (∀ cl < 432, ∀ p < 8, progEnabled State.reset cl p = false) ∧
    State.reset.time.now = 0 ∧ State.reset.seq.flights = []

/-- O3. No command touches the queue. Whatever a command does, it neither adds a command to the queue nor removes one (the
queue is the model's own, log entry 1). -/
def Obligations.QueueUntouched : Prop :=
  ∀ (c : Instr) (s t : State), exec c s = .next t → t.pending = s.pending

/-- O4. The one stop is an authorised debug instruction. Every command answers a next state, save a debug instruction that
is authorised while no confidential tenant is present: the manual gives it no effect (R419). Without authorisation,
and while a confidential tenant is present, a debug instruction changes nothing. -/
def Obligations.StopsOnlyOnDebug : Prop :=
  (∀ (c : Instr) (s : State),
    (∃ t, exec c s = .next t) ∨
    (c = .debugInstruction ∧ attBit s 3 = true ∧ confPresent s = false ∧ exec c s = .refused .debugAuthorised)) ∧
  ∀ s : State, attBit s 3 = false ∨ confPresent s = true → exec .debugInstruction s = .next s

/-- O5. Every step keeps the board pins and the TAP legal. EXTEST, EXTEST_PULSE, EXTEST_TRAIN, CLAMP and HIGHZ are in
effect only under RESET_N (R419); BYPASS and IDCODE drive their own data registers; THERMTRIP_N is low exactly while
the trip of R473 stands. -/
def Obligations.BoardInvariant : Prop :=
  ∀ s t : State, s.boardOk → step s = .next t → t.boardOk

/-- O6. Fabric time never decreases while power holds. R37: fabric time never decreases, and so the turn number does not;
power-off alone loses the count. -/
def Obligations.FabricTimeNeverDecreases : Prop :=
  ∀ s t : State, step s = .next t → s.boot.pwrgood = true → t.boot.pwrgood = true →
    s.time.now ≤ t.time.now ∧ s.turn ≤ t.turn

/-- O7. Every step keeps registers and memories canonical. The register file and the three memories stay in their
canonical form (keys strictly rising, nothing listed at its default, and every register a word of 32 bits), so that
equal contents are equal data. -/
def Obligations.CanonicalInvariant : Prop :=
  ∀ s t : State, s.regsOk → s.memoryOk → step s = .next t → t.regsOk ∧ t.memoryOk

/-- O8. Every step keeps the numbers in flight apart. The entries in flight are of clusters of the package, each under its
own number, lower than the next number to be given; the statements about entries in flight use it. -/
def Obligations.FlightsInvariant : Prop :=
  ∀ s t : State, s.idsOk → step s = .next t → t.idsOk

/-- O9. Who may change the key stores, GDDR7, table memory and the engines. The keys of the tenant slots change only at a
commit (LOAD), at a zeroisation, at a turn boundary or a change of power state, and at power or reset; GDDR7 only by
the commands that write it, that page it or that sand it, and by the trip, which loses it; table memory only by a
MOVE, a table copy, a wake from Sleep, bring-up, power and reset; the loads, transfers and targets of the P-die, and
its rings, requests, families, prefixes and parked sessions, only by the commands listed. No other command touches
them. -/
def Obligations.KeysAndMemoriesChangeOnlyBy : Prop :=
  ∀ (c : Instr) (s t : State), exec c s = .next t →
    (match c with
      | .keyZeroise .. | .forcedZeroise .. | .pwrgoodRise | .pwrgoodFall | .resetNAssert
      | .turnBoundary .. | .programEnable .. | .programDisable .. | .tableCopy .. | .ownershipChange
      | .roleChange | .lossScaleLoad .. | .sandQueue .. | .catchShareChange .. | .publish
      | .adapterPublish | .switchPlanStart .. | .linkModeChange .. | .linkRetrain .. | .powerStateEntry
      | .slotCfgLoad | .slotCfgPart => True
      | _ => t.tenant.keys = s.tenant.keys ∧ t.tenant.loads = s.tenant.loads) ∧
    (match c with
      | .hostReadResponse .. | .admitReq .. | .cancel .. | .pause .. | .resume .. | .resumeRetry ..
      | .sessionParked .. | .restoreComplete .. | .dropParked .. | .parkedSessionExpiry .. | .prefixDef ..
      | .prefixDrop .. | .attnScores .. | .attnNormalise .. | .attnValues .. | .attnComplete ..
      | .sample .. | .sampleComplete .. | .xchgFrame .. | .gddr7CrcRetry .. | .sanded .. | .controlLoop ..
      | .thermalTrip .. | .load .. | .loadExtent .. | .farTransferComplete .. | .fetch ..
      | .gatherRequest .. | .gather .. | .move .. | .activationSpill .. | .spillExpand ..
      | .moveComplete .. | .switchDescriptor .. | .keyZeroise .. | .forcedZeroise .. | .tableLoaded ..
      | .reclaimForcedStop | .catchDumpComplete .. | .strobeLossDump .. | .pwrgoodRise | .pwrgoodFall
      | .resetNAssert | .turnBoundary .. | .programEnable .. | .programDisable .. | .tableCopy ..
      | .ownershipChange | .roleChange | .lossScaleLoad .. | .sandQueue .. | .catchShareChange ..
      | .publish | .adapterPublish | .switchPlanStart .. | .linkModeChange .. | .linkRetrain ..
      | .powerStateEntry | .slotCfgLoad | .slotCfgPart | .heldFrameDeparture .. | .linkWakeFrame ..
      | .retrainingComplete .. => True
      | _ => t.mem.gddr = s.mem.gddr ∧ t.mem.gKey = s.mem.gKey ∧ t.mem.gErr = s.mem.gErr) ∧
    (match c with
      | .controlLoop .. | .moveComplete .. | .tableLoaded .. | .wakeStageReady | .pwrgoodRise
      | .pwrgoodFall | .resetNAssert | .bringUpStepEnd .. => True
      | _ => t.mem.table = s.mem.table ∧ t.mem.tableErr = s.mem.tableErr) ∧
    (match c with
      | .hostReadResponse .. | .hostReadTimeout .. | .targetSet .. | .targetClear ..
      | .congestionNotification .. | .congestionRecovery .. | .load .. | .loadExtent ..
      | .priorityPauseExpiry .. | .farPut .. | .farGet .. | .farTransferComplete .. | .store ..
      | .fetch .. | .storeComplete .. | .fetchComplete .. | .keyZeroise .. | .forcedZeroise ..
      | .reclaimForcedStop | .caught .. | .beltLaneDown .. | .wakeStalled | .pwrgoodRise | .pwrgoodFall
      | .resetNAssert | .turnBoundary .. | .programEnable .. | .programDisable .. | .tableCopy ..
      | .ownershipChange | .roleChange | .lossScaleLoad .. | .sandQueue .. | .catchShareChange ..
      | .publish | .adapterPublish | .switchPlanStart .. | .linkModeChange .. | .linkRetrain ..
      | .powerStateEntry | .slotCfgLoad | .slotCfgPart | .retrainingComplete .. => True
      | _ => t.storage = s.storage) ∧
    (match c with
      | .producerDoorbell .. | .consumerDoorbell .. | .hostReadResponse .. | .hostWrite ..
      | .pendingRecordPost .. | .admitReq .. | .cancel .. | .pause .. | .resume .. | .resumeRetry ..
      | .sessionParked .. | .restoreComplete .. | .dropParked .. | .parkedSessionExpiry .. | .prefixDef ..
      | .prefixDrop .. | .familyDef .. | .familyDrop .. | .attnScores .. | .attnNormalise ..
      | .attnValues .. | .attnComplete .. | .sample .. | .sampleComplete .. | .keyZeroise ..
      | .forcedZeroise .. | .eventFrame .. | .pwrgoodRise | .pwrgoodFall | .resetNAssert
      | .turnBoundary .. | .programEnable .. | .programDisable .. | .tableCopy .. | .ownershipChange
      | .roleChange | .lossScaleLoad .. | .sandQueue .. | .catchShareChange .. | .publish
      | .adapterPublish | .switchPlanStart .. | .linkModeChange .. | .linkRetrain .. | .powerStateEntry
      | .slotCfgLoad | .slotCfgPart | .retrainingComplete .. => True
      | _ => t.serving = s.serving)

/-- O10. Who may change power states, reclaim, catch, flash, time, pins, trip and board. The state being entered, the
reclaim in progress, what a catch holds and the flash bytes each change only by the commands listed; fabric time moves
only at a turn boundary, at a step of the follower and with power or reset; PWRGOOD, RESET_N, the trip and the TAP
only by the rows of their own pins. -/
def Obligations.StatesAndBoardChangeOnlyBy : Prop :=
  ∀ (c : Instr) (s t : State), exec c s = .next t →
    (match c with
      | .fabricTimeAlarm | .xchgFrame .. | .reduceFrame .. | .gatherRequest .. | .gatherResponse ..
      | .switchPiece .. | .entryComplete | .wakeNFall | .wakePattern .. | .portWakeFrame ..
      | .armedCommitWake .. | .wakeStageReady | .wakeStageRetry | .pwrgoodRise | .pwrgoodFall
      | .resetNAssert | .sbWake | .stateSet .. | .turnBoundary .. | .programEnable .. | .programDisable ..
      | .tableCopy .. | .ownershipChange | .roleChange | .lossScaleLoad .. | .sandQueue ..
      | .catchShareChange .. | .publish | .adapterPublish | .switchPlanStart .. | .linkModeChange ..
      | .linkRetrain .. | .powerStateEntry | .slotCfgLoad | .slotCfgPart | .heldFrameDeparture ..
      | .linkWakeFrame .. => True
      | _ => t.wake = s.wake) ∧
    (match c with
      | .partingComplete .. | .reclaim .. | .groupQuiet | .reclaimGo .. | .reclaimForcedStop
      | .reclaimLate | .handOver | .pwrgoodRise | .pwrgoodFall | .resetNAssert | .turnBoundary ..
      | .programEnable .. | .programDisable .. | .tableCopy .. | .ownershipChange | .roleChange
      | .lossScaleLoad .. | .sandQueue .. | .catchShareChange .. | .publish | .adapterPublish
      | .switchPlanStart .. | .linkModeChange .. | .linkRetrain .. | .powerStateEntry | .slotCfgLoad
      | .slotCfgPart => True
      | _ => t.reclaim = s.reclaim) ∧
    (match c with
      | .thermalTrip .. | .caught .. | .catchDumpComplete .. | .strobeLossDump .. | .catchRelease ..
      | .beltLaneDown .. | .wakeStalled | .pwrgoodRise | .pwrgoodFall | .resetNAssert | .regWrite ..
      | .arm .. | .turnBoundary .. | .programEnable .. | .programDisable .. | .tableCopy ..
      | .ownershipChange | .roleChange | .lossScaleLoad .. | .sandQueue .. | .catchShareChange ..
      | .publish | .adapterPublish | .switchPlanStart .. | .linkModeChange .. | .linkRetrain ..
      | .powerStateEntry | .slotCfgLoad | .slotCfgPart | .halt .. | .commitGo .. | .commitArm ..
      | .commitDisarm .. | .registerWrite .. | .errClr .. | .eventClear .. | .checkDraw .. | .cntClear ..
      | .nsClear .. | .memClear .. | .qmClear .. | .peClear .. | .linkClear .. | .idleClear ..
      | .pwrClear .. | .dieClear .. | .portClear .. | .linkKeyWrite .. | .unhold .. | .unholdAdapter ..
      | .swAbort .. | .psWakeLinks .. => True
      | _ => t.catching = s.catching) ∧
    (match c with
      | .catchDumpComplete .. | .strobeLossDump .. | .catchRelease .. | .pwrgoodRise | .pwrgoodFall
      | .resetNAssert | .recoveryChunk .. | .regWrite .. | .arm .. | .halt .. | .commitGo ..
      | .commitArm .. | .commitDisarm .. | .registerWrite .. | .errClr .. | .eventClear .. | .checkDraw ..
      | .cntClear .. | .nsClear .. | .memClear .. | .qmClear .. | .peClear .. | .linkClear ..
      | .idleClear .. | .pwrClear .. | .dieClear .. | .portClear .. | .linkKeyWrite .. | .unhold ..
      | .unholdAdapter .. | .swAbort .. | .psWakeLinks .. => True
      | _ => t.boot.flash = s.boot.flash) ∧
    (match c with
      | .timeFrame .. | .timeExchange .. | .pwrgoodRise | .pwrgoodFall | .resetNAssert | .turnBoundary .. => True
      | _ => t.time.now = s.time.now) ∧
    (match c with
      | .pwrgoodRise | .pwrgoodFall | .resetNAssert | .resetNRelease => True
      | _ => t.boot.pwrgood = s.boot.pwrgood ∧ t.boot.inReset = s.boot.inReset) ∧
    (match c with
      | .thermalTrip .. | .pwrgoodRise | .pwrgoodFall | .resetNAssert => True
      | _ => t.power.tripped = s.power.tripped) ∧
    (match c with
      | .thermalTrip .. | .pwrgoodRise | .pwrgoodFall | .resetNAssert | .resetNRelease | .bypass | .idcode
      | .samplePreload .. | .extest .. | .clamp | .highz | .extestPulse .. | .extestTrain ..
      | .trstNAssert => True
      | _ => t.board = s.board)

/-- O11. A jump is that many steps of the generator. R228 and R231: the one-jump computation over the 64 bits of P gives
the P-th element of the sequence from the seed. -/
def Obligations.RandomJump : Prop :=
  ∀ (seed p : BitVec 64) (stream g : Nat),
    rngJump seed p = Nat.repeat rngStep p.toNat seed ∧
    draw seed stream g = rngOut (Nat.repeat rngStep ((stream * 2 ^ 40 + g) % 2 ^ 64) seed)

/-- O12. Every value of a format is its own rounding. R74 and R92: rounding to nearest even into a format returns the bits
of every value that the format holds exactly, the signed zeros, subnormals and infinities among them. -/
def Obligations.FormatRoundTrip : Prop :=
  ∀ f ∈ [fmtE2M1, fmtE2M3, fmtE3M2, fmtE4M3, fmtE5M2, fmtBF16, fmtFP16, fmtFP32, fmtWA48], ∀ v < 2 ^ f.width,
    f.decode v ≠ .nan → f.roundBits (f.decode v) = v

/-- O13. What the layouts of frames and images hold reads back. R22, R347, R348, R350, R359, R400, R519, R520: every frame
of the belt, of a fabric-mode link and of the Wailos port, and every header and directory entry of a context image,
whatever its fields hold, reads back as it was laid out, so that no field is dropped and none overlaps another; 128
bits on the belt are no frame exactly where the CRC fails or OP is reserved. How the remainder of a CRC is formed (its
start, its order of bits) is the model's choice (log entry 127, PRESUMED), and so is the clause about it. -/
def Obligations.FramesReadBack : Prop :=
  (∀ f : BeltFrame, f.tag < 2 ^ 8 → f.addr < 2 ^ 32 → f.data < 2 ^ 64 → f.status < 2 ^ 4 → f.word < 2 ^ 128 ∧ beltFrame f.word = some f) ∧
    (∀ w < 2 ^ 128, beltFrame w = none ↔ bf w 127 112 ≠ beltCrc (w % 2 ^ 112) ∨ 8 ≤ bf w 3 0) ∧
    (∀ (f : Frame) (stomp : Bool) (gcm : List Byte), f.wf = true → 1 ≤ f.type → f.type ≤ 8 → f.payload.length % 32 = 0 →
      headerFlit f < 2 ^ 256 ∧ readHeader (headerFlit f) = some ({ f with payload := [] }, payloadFlits f) ∧
      readFrame (frameBytes f stomp gcm) = some (f, if stomp = true then .stomped 0 else .good 0) ∧
      (frameBytes f stomp gcm).length = 32 * flitsOf f) ∧
    (∀ (src dst : Nat) (x : TimeFrame), x.stamp < 2 ^ 64 → x.depth < 2 ^ 5 → x.turnaround < 2 ^ 16 → x.echo < 2 ^ 32 →
      src < 2 ^ 10 → dst < 2 ^ 10 → ∃ f, readHeader (headerFlit (timeHeader src dst x)) = some (f, 0) ∧ f.type = 7 ∧ f.seq = 0 ∧ readTime f = x) ∧
    (∀ (f : PortFrame) (gcm : List Byte), 1 ≤ f.type → f.type ≤ 13 → f.seq < 2 ^ 12 → f.tag < 2 ^ 16 → f.addr < 2 ^ 64 → f.arg0 < 2 ^ 64 →
      f.arg1 < 2 ^ 64 → f.payload.length ≤ 4096 → f.payload.length % 4 = 0 →
      readPort (portBytes f gcm) = some (f, if f.enc = true then padTo 16 0 gcm else [], true)) ∧
    (∀ h : ImageHeader, h.wf = true → h.bytes.length = 256 ∧ ImageHeader.read h.bytes = some h) ∧
    (∀ e : ImageEntry, e.wf = true → e.bytes.length = 32 ∧ ImageEntry.read e.bytes = e)

/-- O14. The address map of a GDDR7 window. R260, R261: two addresses of a window never share a byte of a device, and
share a check word exactly where they share a granule; an address lies on a channel that is not fenced; data lie in
the first 3,840 bytes of a code block and their check words in the 240 after it. The example of chapter 9 comes out as
it is printed. -/
def Obligations.MemoryMap : Prop :=
  (∀ (s : State) (a b : Nat), gWindow a = gWindow b → liveChannels s (gWindow a) ≠ [] → gChannel s a = gChannel s b →
      gDevAddr s a = gDevAddr s b → a = b) ∧
    (∀ (s : State) (a b : Nat), gWindow a = gWindow b → liveChannels s (gWindow a) ≠ [] → gChannel s a = gChannel s b →
      (gCheckAddr s a = gCheckAddr s b ↔ a / 32 = b / 32)) ∧
    (∀ (s : State) (a : Nat), liveChannels s (gWindow a) ≠ [] → gChannel s a ∈ liveChannels s (gWindow a)) ∧
    (∀ (s : State) (a : Nat), gDevAddr s a % 4096 < 3840 ∧ 3840 ≤ gCheckAddr s a % 4096 ∧ gCheckAddr s a % 4096 < 4080 ∧
      gCheckAddr s a % 2 = 0 ∧ gDevAddr s a / 4096 = gCheckAddr s a / 4096) ∧
    (∀ s : State, bf (s.reg (memPage 2 + Reg.MEM_MODE)) 15 8 = 0xFF →
      gWindow 0x2001234560 = 2 ∧ gChannel s 0x2001234560 = 5 ∧ gDataOffset s 0x2001234560 = 2386016 ∧
      gDevAddr s 0x2001234560 = 0x26D560 ∧ gCheckAddr s 0x2001234560 = 2547542) ∧
    (∀ s : State, bf (s.reg (memPage 2 + Reg.MEM_MODE)) 15 8 = 0xF7 →
      gChannel s 0x2001234560 = 1 ∧ gDataOffset s 0x2001234560 = 2727008)

/-- O15. A rejected entry halts its program and issues nothing. R10, R49, R57, R505: an entry that is uncorrectable, of a
reserved type, VOP or step, or reserved by its layout, is not issued; its program halts in state 7 and the event names
the entry. In an entry that two of these meet, the uncorrectable code comes first (the model's order). -/
def Obligations.RejectedEntry : Prop :=
  ∀ (s : State) (cl p i e : Nat), ∀ r ∈ entryRows, s.regsOk → s.tablesOk → runnable s cl p = true → progPC s cl p = i →
    entryBusy s cl i = false → entryAt s cl i = e →
    (entryErr s cl i = 2 ∨ (Ent.noRow e = true ∨ (r.mine s cl e = true ∧ Ent.layoutBad e = true))) →
    ∃ t, exec (r.command cl p) s = .next t ∧ Stopped t cl p 7 ∧ t.seq.flights = s.seq.flights ∧
      (t.prog cl p).issued = (s.prog cl p).issued ∧
      Posted s t (cl / 9) (if entryErr s cl i = 2 then Cause.tableUncorrectable else Cause.reservedEncoding) (tblAddr cl i) ∧
      t = { s with regs := t.regs, seq := t.seq, belt := t.belt }

/-- O16. A command leaves the entries of other rows alone, and a blocked entry waits. R49, R51: a row acts only on an
entry that is its own; an entry whose DEP, FENCE or queue room fails is blocked, and PROG_STATE shows 4 and nothing
else changes; a program that is not running, or whose entry is under a write, does nothing. -/
def Obligations.EntryOfAnotherRow : Prop :=
  (∀ (s : State) (cl p i e : Nat), ∀ r ∈ entryRows, s.meets cl p i e = true → r.mine s cl e = false →
      exec (r.command cl p) s = .next s) ∧
    (∀ (s : State) (cl p i e : Nat), ∀ r ∈ entryRows, s.meets cl p i e = true → r.mine s cl e = true → Ent.layoutBad e = false →
      readyFor s cl p e (r.units e) (r.cores e) = false →
      exec (r.command cl p) s = .next (setProgState s cl p 4)) ∧
    (∀ (s : State) (cl p : Nat), ∀ r ∈ entryRows, (runnable s cl p = false ∨ entryBusy s cl (progPC s cl p) = true) →
      exec (r.command cl p) s = .next s)

/-- O17. PASS and MVEC issue. R51, R101, R113, R119, R129, R131 to R136, R173: a PASS that nothing stands before, but
passes that run and that it follows without a gap, begins in the step that issues it: it is in flight with its lines
as they stand, and its first tile goes into the shadow registers unless the pass that runs last on the core has
PRELOAD 0. One that stands in a queue waits and has read nothing; either is what the next PASS of the core is checked
against. An MVEC has read its operands and formed its outputs, and leaves the arrays alone; neither writes a memory
before it completes. A pass whose lines nothing writes while it runs uses them as they stand, whatever is free in the
reading. When operands are read, and what stands in the registers of the cells between two visits, is the model's
choice (log entries 4 and 110). -/
def Obligations.ArrayIssue : Prop :=
  (∀ (s : State) (cl p i e : Nat), s.regsOk → s.tablesOk → s.before cl p i e [.array] (Ent.cores e) = true →
      s.idsOk → Ent.type e = 0 → passRejects s cl e = none → recordOut s cl (Ent.nrec e) = false →
      ∃ t, exec (.pass cl p) s = .next t ∧
        IssuedAs s t cl p i e [.array] (Ent.cores e)
          (if s.passBegins cl e = true then .running ((setBits (Ent.cores e) 16).map fun k => (k, operandLines s cl e k)) else .waiting)
          (s.askNow cl e .array) ∧
        (∀ k < 16, arrayOf t cl k =
          if bit (Ent.cores e) k = 0 then arrayOf s cl k
          else { arrayOf s cl k with shape := some (passShape e (arrayOf s cl k).shape), shadow := if s.passBegins cl e = true ∧ (arrayQueue s cl k).getLast?.all (fun g => Ent.passPreload g.entry) = true then (leadTile s cl e k (operandLines s cl e k)).getD (arrayOf s cl k).shadow else (arrayOf s cl k).shadow }) ∧
        (∀ c k, c ≠ cl → k < 16 → arrayOf t c k = arrayOf s c k) ∧ t.mem = s.mem ∧
        t = { s with regs := t.regs, seq := t.seq, belt := t.belt }) ∧
    (∀ (s : State) (cl p i e : Nat), s.regsOk → s.tablesOk → s.before cl p i e [.mvPath] (Ent.cores e) = true →
      Ent.type e = 1 → mvecReject s cl e = none →
      ∃ t, exec (.mvec cl p) s = .next t ∧
        IssuedAs s t cl p i e [.mvPath] (Ent.cores e) (.outputs ((setBits (Ent.cores e) 16).map fun k =>
          mvecCore e k (nsView s (actingSlot s cl) cl k (Ent.mvWaddr e)) (nsView s (actingSlot s cl) cl k (Ent.mvXaddr e)))) ∧
        t.seq.arrays = s.seq.arrays ∧ t.mem = s.mem ∧ t = { s with regs := t.regs, seq := t.seq, belt := t.belt }) ∧
    (∀ (s : State) (cl e k : Nat), passOn s cl e k (operandLines s cl e k) =
      passCore e k
        { header := skewHeader (nsView s (actingSlot s cl) cl k (Ent.passWaddr e)), mask := nsView s (actingSlot s cl) cl k (Ent.passMaddr e), weights := fun _ => nsView s (actingSlot s cl) cl k (Ent.passWaddr e), acts := fun _ => nsView s (actingSlot s cl) cl k (Ent.passAaddr e) }
        (arrayOf s cl k))

/-- O18. The vector operations issue, and write only the lines of their images. R51, R173 to R184, R220 to R223, R238,
R239: each of the 24 rows of a VEC writes, on every core of its mask, the image that its operation gives, and nothing
else of any memory, and is in flight with its counts; a skew conversion at the head of its unit asks for the skew
units of its cores; near SRAM is unchanged in every line that holds no byte of the images (a write of a line that is
not the writer's own clears the line first, R249), and so is every other memory. That operands are read and images
written in the step of issue is the model's choice (log entry 4). -/
def Obligations.VectorIssue : Prop :=
  (∀ (s : State) (cl p i e : Nat), ∀ r ∈ vecEntryRows, s.regsOk → s.tablesOk → s.before cl p i e [.vector] (Ent.cores e) = true →
    s.idsOk → r.mine s cl e = true → vecReject s cl e = none →
    ∃ t c, exec (r.command cl p) s = .next t ∧ IssuedAs s t cl p i e [.vector] (Ent.cores e) (.counts c) (s.askNow cl e .vector) ∧
      t.mem = (vecMemory s cl p i e).mem ∧ t.seq.arrays = s.seq.arrays ∧ t = { s with regs := t.regs, seq := t.seq, belt := t.belt, mem := t.mem } ∧ t.mem.gddr = s.mem.gddr ∧ t.mem.gKey = s.mem.gKey ∧ t.mem.gErr = s.mem.gErr ∧ t.mem.crc = s.mem.crc ∧ t.mem.waiting = s.mem.waiting ∧ t.mem.table = s.mem.table ∧ t.mem.tableErr = s.mem.tableErr ∧ t.mem.sand = s.mem.sand ∧ t.mem.partList = s.mem.partList) ∧
    (∀ (s : State) (cl p i e a : Nat),
      (∀ k ∈ setBits (Ent.cores e) 16,
        ∀ im ∈ (vecCore e (s.reg64 (seqReg cl Reg.SEED_LO)) (sigmaStep s cl) (fun l => nsView s (actingSlot s cl) cl k l)).images,
        ∀ w ∈ im.2, a / 256 ≠ nsAddr cl k (256 * im.1 + w.1) / 256) →
      sget byteZero (vecMemory s cl p i e).mem.ns a = sget byteZero s.mem.ns a ∧
        nsTag (vecMemory s cl p i e) a = nsTag s a ∧ (vecMemory s cl p i e).mem.gddr = s.mem.gddr ∧
        (vecMemory s cl p i e).mem.table = s.mem.table)

/-- O19. The three attention steps issue. R51, R139, R140, R144 to R152, R154, R257: each step of an ATTN issues to the
unit that R139 names, with its counts and the lists it reads, and has done its work on every core of CORES; step 0
opens the steps of its families first (R319, R321). A step whose list another ATTN still reads, or whose channel
retrains, is blocked. A core whose handle names no list that it may use counts and posts that, one whose list carries
a reserved encoding posts that, and it does nothing else; step 1 writes the softmax of every row of scores over them,
step 2 the weighted values. The model's choices in this: when operands are read and results written (log entry 4), a
step that would truncate a list in use waits (118), what waits for a channel that retrains (123), step 2 leaves the
accumulators alone (113), and ATT_NOLIST counts once for each refused core (163). -/
def Obligations.AttentionIssue : Prop :=
  (∀ (s : State) (cl p i e : Nat),
    ∀ r ∈ ([attnEntryRow .attnScores 0, attnEntryRow .attnNormalise 1, attnEntryRow .attnValues 2] : List EntryRow),
    s.regsOk → s.tablesOk → s.before cl p i e [attnUnit e] (Ent.cores e) = true → r.mine s cl e = true → truncateWaits s cl e = false → pagesHeld s e = false →
    attnReject (attnOpened s cl e) cl e = none →
    ∃ t, exec (r.command cl p) s = .next t ∧
      IssuedAs s t cl p i e [attnUnit e] (Ent.cores e) (.attn (attnRun s cl p i e).2 (attnLists (attnOpened s cl e) e)) ∧
      t.mem = (attnRun s cl p i e).1.mem ∧ t.serving = (attnRun s cl p i e).1.serving ∧ (i < 2047 → t.belt = (attnRun s cl p i e).1.belt) ∧
      (Ent.atStep e ≠ 0 → t.serving = s.serving ∧ t.mem.gddr = s.mem.gddr) ∧ t.seq.arrays = s.seq.arrays ∧ t = { s with regs := t.regs, seq := t.seq, belt := t.belt, serving := t.serving, mem := t.mem } ∧ t.mem.table = s.mem.table ∧ t.mem.tableErr = s.mem.tableErr ∧ t.mem.sand = s.mem.sand ∧ t.mem.partList = s.mem.partList) ∧
    (∀ (s : State) (cl p i e : Nat), s.meets cl p i e = true → Ent.layoutBad e = false → Ent.type e = 7 →
      truncateWaits s cl e = true ∨ pagesHeld s e = true →
      ∀ r ∈ ([attnEntryRow .attnScores 0, attnEntryRow .attnNormalise 1, attnEntryRow .attnValues 2] : List EntryRow), r.mine s cl e = true →
        exec (r.command cl p) s = .next (setProgState s cl p 4)) ∧
    (∀ (a : AttnRun) (cl p i e c cause : Nat), (attnPlan a.state cl e c (Ent.atStep e != 0)) = .error cause →
      attnCore a cl p i e c = { a with state := if cause = Cause.reservedEncoding then postCtx a.state (entryCtx a.state cl p i c) cause (listAddr a.state (handlePool (coreHandle e c)) (((attnNamed a.state e c true).bind (badList a.state e c)).getD 0)) else postCtx (incReg a.state (clPage 0x14 cl + Reg.ATT_NOLIST) 1) (entryCtx a.state cl p i c) cause (coreHandle e c) }) ∧
    (∀ (s : State) (a : AttnRun) (cl p i e c : Nat) (x : AttnPlan), a.state = s → cl < 432 → Ent.atStep e = 1 →
      attnPlan s cl e c true = .ok x →
      (attnCore a cl p i e c).state.mem = (nsWriteImage s (entryCtx s cl p i c) cl c (Ent.atSaddr e)
        (convertAll (convParams e 0 9 false) ((List.range (atQ e)).map fun q => softmaxRow ((List.range (padLen x.len)).map fun j =>
          f32At (nsView s (actingSlot s cl) cl c (Ent.atSaddr e)) (4 * (q * padLen x.len + j)))).flatten).writes).mem) ∧
    (∀ (s : State) (a : AttnRun) (cl p i e c : Nat) (x : AttnPlan), a.state = s → cl < 432 → (Ent.atStep e = 2 ∨ Ent.atStep e = 3) →
      attnPlan s cl e c true = .ok x →
      (attnCore a cl p i e c).state.mem.ns = (nsWriteImage s (entryCtx s cl p i c) cl c (Ent.atOaddr e)
        (convertAll (convParams e 0 0xA false) (valueRows s e x (nsView s (actingSlot s cl) cl c (Ent.atSaddr e))).1).writes).mem.ns)

/-- O20. SAMPLE and the MOVE rows issue. R28, R51, R156 to R162, R191 to R194, R257, R574: a SAMPLE has acted on every row
of its request table, and is in flight with the token records that their rings have not taken; a MOVE with the bytes
read at its source, none where its length is 0; a spill with its image; an expansion with the tensor. A MOVE changes
no byte of GDDR7 until it completes (a correctable granule that it reads is mended in its marks); one whose source
lies in a channel that retrains is blocked. When operands are read and what waits for a channel that retrains are the
model's choices (log entries 4 and 123). -/
def Obligations.SampleAndMoveIssue : Prop :=
  (∀ (s : State) (cl p i e : Nat), s.regsOk → s.tablesOk → s.before cl p i e [.sampler] 1 = true →
      s.idsOk → Ent.type e = 8 → sampleReject e = none →
      ∃ t, exec (.sample cl p) s = .next t ∧
        IssuedAs s t cl p i e [.sampler] 1 (.records (postRows
          (issueFlight (sampleRun s cl p i e).1 cl p i e [.sampler] 1 (.records [])) (sampleRun s cl p i e).2).2) ∧
        t.mem.ns = (sampleRun s cl p i e).1.mem.ns ∧ t.mem.tags = (sampleRun s cl p i e).1.mem.tags ∧ t.seq.arrays = s.seq.arrays ∧ t = { s with freeCount := t.freeCount, regs := t.regs, seq := t.seq, belt := t.belt, serving := t.serving, mem := t.mem } ∧ t.mem.table = s.mem.table ∧ t.mem.tableErr = s.mem.tableErr ∧ t.mem.sand = s.mem.sand ∧ t.mem.partList = s.mem.partList) ∧
    (∀ (s : State) (cl p i e : Nat), ∀ r ∈ ([moveEntryRow .move (fun e => !isSpill e && !isExpand e),
        moveEntryRow .activationSpill isSpill, moveEntryRow .spillExpand isExpand] : List EntryRow), s.regsOk → s.tablesOk → s.before cl p i e [.transfer] 0 = true →
      r.mine s cl e = true → sourceHeld s e = false → moveReserved e = false → Ent.mvLen e = 0 →
      placeOutside s cl (Ent.mvDsp e) (Ent.mvDst e) = false →
      ∃ t, exec (r.command cl p) s = .next t ∧ IssuedAs s t cl p i e [.transfer] 0 (.data []) ∧
        (i < 2047 → t.belt = s.belt) ∧ t = { s with regs := t.regs, seq := t.seq, belt := t.belt }) ∧
    (∀ (s : State) (cl p i e : Nat), ∀ r ∈ ([moveEntryRow .move (fun e => !isSpill e && !isExpand e),
        moveEntryRow .activationSpill isSpill, moveEntryRow .spillExpand isExpand] : List EntryRow), s.meets cl p i e = true →
      Ent.layoutBad e = false → r.mine s cl e = true → sourceHeld s e = true →
      exec (r.command cl p) s = .next (setProgState s cl p 4)) ∧
    (∀ (s : State) (cl p i e : Nat), s.regsOk → s.tablesOk → s.before cl p i e [.transfer] 0 = true →
      Ent.type e = 3 → isSpill e = false → isExpand e = false → sourceHeld s e = false → moveReserved e = false → Ent.mvLen e ≠ 0 →
      moveRefuse s cl e (Ent.mvLen e) (Ent.mvLen e) = none →
      ∃ t, exec (.move cl p) s = .next t ∧ IssuedAs s t cl p i e [.transfer] 0 (.data (moveBytes s cl e)) ∧
        t.mem.gddr = s.mem.gddr ∧ t = { s with regs := t.regs, seq := t.seq, belt := t.belt, mem := t.mem } ∧ t.mem.ns = s.mem.ns ∧ t.mem.tags = s.mem.tags ∧ t.mem.nsErr = s.mem.nsErr ∧ t.mem.table = s.mem.table ∧ t.mem.tableErr = s.mem.tableErr ∧ t.mem.sand = s.mem.sand ∧ t.mem.partList = s.mem.partList) ∧
    (∀ (s : State) (cl p i e : Nat), s.regsOk → s.tablesOk → s.before cl p i e [.transfer] 0 = true →
      Ent.type e = 3 → isSpill e = true → moveReserved e = false → Ent.mvLen e ≠ 0 → spillOk s cl e = true →
      ∃ t, exec (.activationSpill cl p) s = .next t ∧ IssuedAs s t cl p i e [.transfer] 0 (.data (spillBytes s cl e)) ∧
        t.mem = s.mem ∧ t = { s with regs := t.regs, seq := t.seq, belt := t.belt, mem := t.mem } ∧ t.mem.ns = s.mem.ns ∧ t.mem.tags = s.mem.tags ∧ t.mem.nsErr = s.mem.nsErr ∧ t.mem.table = s.mem.table ∧ t.mem.tableErr = s.mem.tableErr ∧ t.mem.sand = s.mem.sand ∧ t.mem.partList = s.mem.partList) ∧
    (∀ (s : State) (cl p i e : Nat), s.regsOk → s.tablesOk → s.before cl p i e [.transfer] 0 = true →
      Ent.type e = 3 → isExpand e = true → sourceHeld s e = false → moveReserved e = false → Ent.mvLen e ≠ 0 → expandOk s cl e = true →
      ∃ t, exec (.spillExpand cl p) s = .next t ∧ IssuedAs s t cl p i e [.transfer] 0 (.data (expandBytes s e)) ∧
        t.mem.gddr = s.mem.gddr ∧ t = { s with regs := t.regs, seq := t.seq, belt := t.belt, mem := t.mem } ∧ t.mem.ns = s.mem.ns ∧ t.mem.tags = s.mem.tags ∧ t.mem.nsErr = s.mem.nsErr ∧ t.mem.table = s.mem.table ∧ t.mem.tableErr = s.mem.tableErr ∧ t.mem.sand = s.mem.sand ∧ t.mem.partList = s.mem.partList)

/-- O21. The four exchanges, the reductions and the gather issue. R28, R51, R294 to R297, R373, R374, R378 to R383, R386
to R393: an entry that its unit does not reject and whose endpoints and links lie in the partition group is in flight.
Each run of rows of an exchange for a core of this package stands in that core, a dispatch counts the choices that no
slot was left for, and a combine holds its rows until it completes. A reduction is registered under its tag with its
group list; one member alone has its result at once. A gather asks for every source of the lists of its cores, and is
stale where one of them cannot be fetched. GDDR7 is read only by the gather, and table memory by none. When operands
are read and results written, and what a source list that breaks its layout does, are the model's choices (log entries
4 and 46). -/
def Obligations.ExchangeIssue : Prop :=
  (∀ (s : State) (cl p i e : Nat), ∀ r ∈ ([xchgEntryRow .exchangeFixed (fun m => m == 0 || decide (3 < m)), xchgEntryRow .dispatch (· == 1),
        xchgEntryRow .returnRows (· == 2), xchgEntryRow .combine (· == 3)] : List EntryRow), s.regsOk → s.tablesOk → s.before cl p i e [.exchange] (Ent.cores e) = true →
      s.memoryOk → s.idsOk → r.mine s cl e = true → xchgReject s cl e = none → (xMode s cl e ≠ 3 → xOutside s cl e = false) →
      ∃ t, exec (r.command cl p) s = .next t ∧ Issued s t cl p i e [.exchange] (Ent.cores e) ∧ t = xchgRun s cl p i e ∧
        (∀ b ∈ xchgBlocks s cl e, b.lands s (xchgBlocks s cl e) →
          nsBytes t (actingSlot s cl) (nsAddr (epCl b.ep) (epCore b.ep) b.byte) b.data.length = b.data) ∧
        (xMode s cl e = 1 → sget zeroAt t.net.dropped cl = sget zeroAt s.net.dropped cl + dispatchLost s cl e) ∧
        (xMode s cl e = 3 → ∀ f ∈ t.seq.flights, f.id = s.seq.nextId → f.work = .data (combineBytes s cl e).1) ∧ t = { s with regs := t.regs, seq := t.seq, belt := t.belt, net := t.net, mem := t.mem, tenant := t.tenant } ∧ t.mem.gddr = s.mem.gddr ∧ t.mem.gKey = s.mem.gKey ∧ t.mem.gErr = s.mem.gErr ∧ t.mem.crc = s.mem.crc ∧ t.mem.waiting = s.mem.waiting ∧ t.mem.table = s.mem.table ∧ t.mem.tableErr = s.mem.tableErr ∧ t.mem.sand = s.mem.sand ∧ t.mem.partList = s.mem.partList ∧ t.tenant.keys = s.tenant.keys ∧ t.tenant.loads = s.tenant.loads) ∧
    (∀ (s : State) (cl p i e : Nat), ∀ r ∈ ([reduceEntryRow .reduceThroughput (fun e => !Ent.rdFsync e && !Ent.canon e),
        reduceEntryRow .reduceOrdered (fun e => !Ent.rdFsync e && Ent.canon e), reduceEntryRow .flagSync Ent.rdFsync] : List EntryRow), s.regsOk → s.tablesOk → s.before cl p i e [.reduction] (Ent.cores e) = true →
      s.idsOk → r.mine s cl e = true → redReject s cl e (groupList s cl e) = none → redOutside s cl e (groupList s cl e) = false →
      canJoin s (Ent.rdBtag e) (groupList s cl e) = true →
      ∃ t, exec (r.command cl p) s = .next t ∧ Issued s t cl p i e [.reduction] (Ent.cores e) ∧
        t = startReduce s cl p i e (groupList s cl e) ∧
        (∃ f ∈ t.seq.flights, f.id = s.seq.nextId ∧ ∃ w, f.work = .reduce w ∧ w.tag = Ent.rdBtag e ∧
          w.list = groupList s cl e ∧ w.own = glOwn (groupList s cl e) ∧
          (glP (groupList s cl e) = 1 → Ent.rdFsync e = true → w.passes = 2 ∧ ∀ b < 4, syncFlag t cl b = liveFlag s cl b) ∧
          (glP (groupList s cl e) = 1 → Ent.rdFsync e = false → w.written = true)) ∧ t = { s with regs := t.regs, seq := t.seq, belt := t.belt, net := t.net, mem := t.mem, tenant := t.tenant } ∧ t.mem.gddr = s.mem.gddr ∧ t.mem.gKey = s.mem.gKey ∧ t.mem.gErr = s.mem.gErr ∧ t.mem.crc = s.mem.crc ∧ t.mem.waiting = s.mem.waiting ∧ t.mem.table = s.mem.table ∧ t.mem.tableErr = s.mem.tableErr ∧ t.mem.sand = s.mem.sand ∧ t.mem.partList = s.mem.partList ∧ t.tenant.keys = s.tenant.keys ∧ t.tenant.loads = s.tenant.loads) ∧
    (∀ (s : State) (cl p i e : Nat), s.regsOk → s.tablesOk → s.before cl p i e [.gather] (Ent.cores e) = true →
      s.idsOk → Ent.type e = 6 → gatherReserved e = false → gatherOut s cl e = none →
      (∀ l ∈ setBits (Ent.gaLinks e) 24, sameGroup s (partOf cl) (l / 3) = true) →
      ∃ t, exec (.gather cl p) s = .next t ∧ Issued s t cl p i e [.gather] (Ent.cores e) ∧ t = startGather s cl p i e ∧
        (∃ f ∈ t.seq.flights, f.id = s.seq.nextId ∧ ∃ g, f.work = .gather g ∧ g.turn = s.turn ∧
          g.srcs.map (fun x => (x.core, x.idx, x.pkg, x.count, x.addr, x.line)) =
            ((setBits (Ent.cores e) 16).flatMap fun k => ((gatherList s cl e k).map (·.srcs)).getD []).map
              fun x => (x.core, x.idx, x.pkg, x.count, x.addr, x.line)) ∧
        ((∃ k ∈ setBits (Ent.cores e) 16, ∃ a, gatherList s cl e k = some a ∧ a.skipped ≠ []) → liveFlag t cl 1 = true) ∧ t = { s with regs := t.regs, seq := t.seq, belt := t.belt, net := t.net, mem := t.mem, tenant := t.tenant } ∧ t.mem.table = s.mem.table ∧ t.mem.tableErr = s.mem.tableErr ∧ t.mem.sand = s.mem.sand ∧ t.mem.partList = s.mem.partList ∧ t.tenant.keys = s.tenant.keys ∧ t.tenant.loads = s.tenant.loads)

/-- O22. Entries complete. R52, R96, R98, R99, R114, R137, R154, R162, R173, R297, R383, R391: an entry whose work is
done, first on its units, leaves them, and the other entries in flight and the programs stand as they were, save what
a posted token lets go on and a PASS that now begins. A PASS forms its sums from its lines, each as it stood when the
pass began or as it stands now, and leaves them and its last tile in the array; it and an MVEC write their converted
outputs, and each entry that counts adds its counts into its numeric record, whichever record it names; near SRAM
changes nowhere else. A PASS that the array has not begun does not complete, and a SAMPLE whose records have not all
been taken stays. When operands are read and results written, what the cells hold after a pass, and where a record
lies whose base a commit has moved, are the model's choices (log entries 4, 110 and 114). -/
def Obligations.EntryCompletes : Prop :=
  (∀ (s : State) (f : Nat) (fl : Flight) (ops : List (Nat × List (Nat × List Byte))), s.regsOk → s.idsOk → s.tablesOk →
      flightOf s f (fun e => Ent.type e == 0) = some fl → fl.work = .running ops →
      (endPass s fl ops).2 = ops.map (fun x => (passOn s fl.cl fl.entry x.1 x.2).out) ∧
      ∃ t, exec (.passComplete f) s = .next t ∧ LeftTo (endPass s fl ops).1 t f ∧
        t.mem = (passWritten (endPass s fl ops).1 fl (endPass s fl ops).2).mem ∧ t.freeCount = s.freeCount + 1 ∧
        ((ops.map fun x => x.1).Nodup → (∀ x ∈ ops, x.1 < 16) → ∀ x ∈ ops,
          (arrayOf t fl.cl x.1).groups = (passOn s fl.cl fl.entry x.1 x.2).groups ∧
          (arrayOf t fl.cl x.1).sums = (passOn s fl.cl fl.entry x.1 x.2).sums ∧
          (arrayOf t fl.cl x.1).active = (passOn s fl.cl fl.entry x.1 x.2).tile.getD (arrayOf s fl.cl x.1).active) ∧
        (liveFlag t fl.cl 0 = true ↔ liveFlag s fl.cl 0 = true ∨ (Ent.grad fl.entry = true ∧
          ∃ o ∈ (endPass s fl ops).2, (passImages fl.entry fl.seed o).2.sat ≠ 0 ∨ (passImages fl.entry fl.seed o).2.nan ≠ 0)) ∧ t = { s with freeCount := t.freeCount, regs := t.regs, seq := t.seq, belt := t.belt, mem := t.mem } ∧ t.mem.gddr = s.mem.gddr ∧ t.mem.gKey = s.mem.gKey ∧ t.mem.gErr = s.mem.gErr ∧ t.mem.crc = s.mem.crc ∧ t.mem.waiting = s.mem.waiting ∧ t.mem.table = s.mem.table ∧ t.mem.tableErr = s.mem.tableErr ∧ t.mem.sand = s.mem.sand ∧ t.mem.partList = s.mem.partList) ∧
    (∀ (s : State) (f : Nat) (fl : Flight), flightOf s f (fun e => Ent.type e == 0) = some fl → fl.work = .waiting →
      exec (.passComplete f) s = .next s) ∧
    (∀ (s : State) (f : Nat) (fl : Flight) (outs : List CoreOut), s.idsOk → flightOf s f (fun e => Ent.type e == 1) = some fl →
      fl.work = .outputs outs →
      ∃ t, exec (.mvecComplete f) s = .next t ∧ LeftUnits s t f ∧ t.mem = (mvecWritten s fl outs).mem ∧ t = { s with regs := t.regs, seq := t.seq, belt := t.belt, mem := t.mem } ∧ t.mem.gddr = s.mem.gddr ∧ t.mem.gKey = s.mem.gKey ∧ t.mem.gErr = s.mem.gErr ∧ t.mem.crc = s.mem.crc ∧ t.mem.waiting = s.mem.waiting ∧ t.mem.table = s.mem.table ∧ t.mem.tableErr = s.mem.tableErr ∧ t.mem.sand = s.mem.sand ∧ t.mem.partList = s.mem.partList) ∧
    (∀ (s : State) (f : Nat) (fl : Flight) (c : Counts), flightOf s f (fun e => Ent.type e == 2) = some fl → fl.work = .counts c →
      ∃ t, exec (.vecComplete f) s = .next t ∧ LeftTo s t f ∧
        t.mem = (addRecord s (flightCtx s fl (lowCore fl.entry)) fl.cl (Ent.nrec fl.entry) c).mem ∧
        (Ent.nrec fl.entry = 0 → t.mem = s.mem) ∧
        (∀ a, a / 256 ≠ recordAddr s fl.cl (Ent.nrec fl.entry) / 256 → sget byteZero t.mem.ns a = sget byteZero s.mem.ns a) ∧ t = { s with regs := t.regs, seq := t.seq, belt := t.belt, mem := t.mem } ∧ t.mem.gddr = s.mem.gddr ∧ t.mem.gKey = s.mem.gKey ∧ t.mem.gErr = s.mem.gErr ∧ t.mem.crc = s.mem.crc ∧ t.mem.waiting = s.mem.waiting ∧ t.mem.table = s.mem.table ∧ t.mem.tableErr = s.mem.tableErr ∧ t.mem.sand = s.mem.sand ∧ t.mem.partList = s.mem.partList) ∧
    (∀ (s : State) (f : Nat) (fl : Flight) (c : Counts) (ls : List (Nat × Nat)), flightOf s f (fun e => Ent.type e == 7) = some fl →
      fl.work = .attn c ls →
      ∃ t, exec (.attnComplete f) s = .next t ∧ LeftTo s t f ∧
        t.mem.ns = (addRecord s (flightCtx s fl (lowCore fl.entry)) fl.cl (Ent.nrec fl.entry) c).mem.ns ∧
        t.mem.tags = (addRecord s (flightCtx s fl (lowCore fl.entry)) fl.cl (Ent.nrec fl.entry) c).mem.tags ∧
        (∀ x ∈ s.serving.freeing, listBusy { s with seq := t.seq } x.1 x.2 = false → poolHeld s x.1 = false → x ∉ t.serving.freeing) ∧
        (∀ a, a / 256 ≠ recordAddr s fl.cl (Ent.nrec fl.entry) / 256 → sget byteZero t.mem.ns a = sget byteZero s.mem.ns a) ∧ t = { s with regs := t.regs, seq := t.seq, belt := t.belt, serving := t.serving, mem := t.mem } ∧ t.mem.table = s.mem.table ∧ t.mem.tableErr = s.mem.tableErr ∧ t.mem.sand = s.mem.sand ∧ t.mem.partList = s.mem.partList) ∧
    (∀ (s : State) (f : Nat) (fl : Flight) (rows : List (Nat × List Byte)), flightOf s f (fun e => Ent.type e == 8) = some fl →
      fl.work = .records rows → (postRows s rows).2 = [] →
      ∃ t, exec (.sampleComplete f) s = .next t ∧ LeftUnits s t f ∧
        (tableFamily s fl.cl fl.entry = none → t = removeFlight (postRows s rows).1 f) ∧
        (∀ i x, tableFamily (removeFlight (postRows s rows).1 f) fl.cl fl.entry = some (i, x) → x.opened = true →
          t = closeStep (removeFlight (postRows s rows).1 f) i) ∧ t = { s with regs := t.regs, seq := t.seq, belt := t.belt, serving := t.serving, mem := t.mem } ∧ t.mem.ns = s.mem.ns ∧ t.mem.tags = s.mem.tags ∧ t.mem.nsErr = s.mem.nsErr ∧ t.mem.table = s.mem.table ∧ t.mem.tableErr = s.mem.tableErr ∧ t.mem.sand = s.mem.sand ∧ t.mem.partList = s.mem.partList) ∧
    (∀ (s : State) (f : Nat) (fl : Flight) (rows : List (Nat × List Byte)), flightOf s f (fun e => Ent.type e == 8) = some fl →
      fl.work = .records rows → (postRows s rows).2 ≠ [] →
      exec (.sampleComplete f) s = .next (setWork (postRows s rows).1 f (.records (postRows s rows).2))) ∧
    (∀ (s : State) (f : Nat) (fl : Flight), flightOf s f (fun e => Ent.type e == 4) = some fl → framesAcked s f = true →
      ∃ t, exec (.xchgComplete f) s = .next t ∧ LeftUnits s t f ∧
        t.mem = (match fl.work with
          | .data bs => (nsWriteRun s (flightCtx s fl (xCore fl.entry)) (nsAddr fl.cl (xCore fl.entry) (256 * Ent.xDst fl.entry)) bs).mem
          | _ => s.mem) ∧ t = { s with regs := t.regs, seq := t.seq, belt := t.belt, mem := t.mem } ∧ t.mem.gddr = s.mem.gddr ∧ t.mem.gKey = s.mem.gKey ∧ t.mem.gErr = s.mem.gErr ∧ t.mem.crc = s.mem.crc ∧ t.mem.waiting = s.mem.waiting ∧ t.mem.table = s.mem.table ∧ t.mem.tableErr = s.mem.tableErr ∧ t.mem.sand = s.mem.sand ∧ t.mem.partList = s.mem.partList) ∧
    (∀ (s : State) (f : Nat) (fl : Flight) (r : RedWork), flightOf s f (fun e => Ent.type e == 5) = some fl → fl.work = .reduce r →
      redDone s fl r = true →
      ∃ t, exec (.reduceComplete f) s = .next t ∧ t.seq.flights = s.seq.flights.filter (fun x => x.id != f) ∧
        (Ent.rdFsync fl.entry = true → t.mem = s.mem) ∧
        (Ent.rdFsync fl.entry = false →
          t.mem = (addRecord s (flightCtx s fl (redCore fl.entry)) fl.cl (Ent.nrec fl.entry) r.counts).mem) ∧
        (Ent.rdPost fl.entry = false → LeftUnits s t f) ∧
        (Ent.rdPost fl.entry = true → ∃ u, t = postToken u fl.cl (Ent.rdPctr fl.entry) ∧ LeftUnits s u f) ∧ t = { s with regs := t.regs, seq := t.seq, belt := t.belt, net := t.net, mem := t.mem } ∧ t.mem.gddr = s.mem.gddr ∧ t.mem.gKey = s.mem.gKey ∧ t.mem.gErr = s.mem.gErr ∧ t.mem.crc = s.mem.crc ∧ t.mem.waiting = s.mem.waiting ∧ t.mem.table = s.mem.table ∧ t.mem.tableErr = s.mem.tableErr ∧ t.mem.sand = s.mem.sand ∧ t.mem.partList = s.mem.partList) ∧
    (∀ (s : State) (f : Nat) (fl : Flight) (g : GatherWork), flightOf s f (fun e => Ent.type e == 6) = some fl → fl.work = .gather g →
      (g.srcs.all fun x => x.done) = true →
      ∃ t, exec (.gatherComplete f) s = .next t ∧ t.seq.flights = s.seq.flights.filter (fun x => x.id != f) ∧
        (Ent.gaPost fl.entry = false → LeftUnits s t f ∧ t.regs = s.regs) ∧
        (Ent.gaPost fl.entry = true → t = postToken (removeFlight s f) fl.cl (Ent.gaPctr fl.entry)) ∧ t = { s with regs := t.regs, seq := t.seq, belt := t.belt })

/-- O23. A MOVE delivers its bytes. R52, R62, R68, R257, R264, R269: a MOVE that completes writes its bytes at its
destination, which the entry gives, and nowhere else, and then posts its token where POST is 1; into a range being
sanded it writes nothing and posts no token; one whose destination lies in a channel that retrains does not complete
yet. -/
def Obligations.MoveCompletes : Prop :=
  (∀ (s : State) (f : Nat) (fl : Flight) (bs : List Byte), flightOf s f (fun e => Ent.type e == 3) = some fl → fl.work = .data bs →
      moveHeld s fl.entry bs = false → (Ent.mvDsp fl.entry = 1 → sanding s (Ent.mvDst fl.entry) bs.length = false) →
      ∃ t, exec (.moveComplete f) s = .next t ∧ t.seq.flights = s.seq.flights.filter (fun x => x.id != f) ∧
        (Ent.mvPost fl.entry = false → LeftUnits s t f) ∧
        (Ent.mvPost fl.entry = true → ∃ u, t = postToken u (moveTokenCluster fl.cl fl.entry) (Ent.mvPctr fl.entry) ∧ LeftUnits s u f) ∧
        t.mem = (if bs = [] then s.mem
          else if Ent.mvDsp fl.entry = 0 then
            (nsWriteRun s { flightCtx s fl 0 with core := nsCore (Ent.mvDst fl.entry) } (Ent.mvDst fl.entry) bs).mem
          else if Ent.mvDsp fl.entry = 1 then (gWrite s (flightCtx s fl 0) (Ent.mvDst fl.entry) bs).mem
          else (tblWrite s (tblCluster (Ent.mvDst fl.entry)) (Ent.mvDst fl.entry % 65536) bs).mem) ∧ t = { s with regs := t.regs, seq := t.seq, belt := t.belt, mem := t.mem } ∧ t.mem.sand = s.mem.sand ∧ t.mem.partList = s.mem.partList) ∧
    (∀ (s : State) (f : Nat) (fl : Flight) (bs : List Byte), flightOf s f (fun e => Ent.type e == 3) = some fl → fl.work = .data bs →
      moveHeld s fl.entry bs = false → bs ≠ [] → Ent.mvDsp fl.entry = 1 → sanding s (Ent.mvDst fl.entry) bs.length = true →
      ∃ t, exec (.moveComplete f) s = .next t ∧ LeftUnits s t f ∧ t.mem = s.mem) ∧
    (∀ (s : State) (f : Nat) (fl : Flight) (bs : List Byte), flightOf s f (fun e => Ent.type e == 3) = some fl → fl.work = .data bs →
      moveHeld s fl.entry bs = true → exec (.moveComplete f) s = .next s)

/-- O24. WAIT_TURN, WAIT_TOKEN and the token timeout. R54, R57, R65 to R68: a WAIT_TURN whose turn has begun completes at
once, late with its event; else it waits, at its base priority, and charges its cause. A WAIT_TOKEN completes at once
where its counter holds the target, which it takes off, and leaves the effective priority; else it waits with its
timeout. At the boundary of its timeout a waiting program halts in state 8 and takes no token. At the end of the table
(index 2,047) ControlFlow says what becomes of either. That a WAIT issues before it waits, and what counts as late,
are the model's readings (log entries 5 and 26). -/
def Obligations.ControlWaits : Prop :=
  (∀ (s : State) (cl p i e : Nat), s.regsOk → s.tablesOk → s.before cl p i e [] 0 = true → i < 2047 → Ent.type e = 0x09 → namedTurn s cl p e ≤ s.dieTurn (cl / 9) →
      ∃ t, exec (.waitTurn cl p) s = .next t ∧ Passed s t cl p (i + 1) ∧ progState t cl p = 1 ∧ (t.prog cl p).wait = .none ∧
        (t.prog cl p).base = some (namedTurn s cl p e) ∧
        (if waitLate s cl (namedTurn s cl p e) = true then Posted s t (cl / 9) Cause.turnMissed (namedTurn s cl p e)
          else t.belt = s.belt ∧ OnlyCounts s t cl p) ∧ t = { s with regs := t.regs, seq := t.seq, belt := t.belt }) ∧
    (∀ (s : State) (cl p i e : Nat), s.regsOk → s.tablesOk → s.before cl p i e [] 0 = true → i < 2047 → Ent.type e = 0x09 → s.dieTurn (cl / 9) < namedTurn s cl p e →
      ∃ t, exec (.waitTurn cl p) s = .next t ∧ Passed s t cl p (i + 1) ∧ progState t cl p = 2 ∧
        (t.prog cl p).wait = .turn (namedTurn s cl p e) ∧ (t.prog cl p).prio = (s.prog cl p).low ∧ (t.prog cl p).age = 0 ∧
        (t.prog cl p).cause = Ent.ctlCause e ∧ OnlyCounts s t cl p ∧ t = { s with regs := t.regs, seq := t.seq }) ∧
    (∀ (s : State) (cl p i e : Nat), s.regsOk → s.tablesOk → s.before cl p i e [] 0 = true → i < 2047 → Ent.type e = 0x0A → Ent.wtTarget e ≤ s.token cl (Ent.wtCtr e) →
      ∃ t, exec (.waitToken cl p) s = .next t ∧ Passed s t cl p (i + 1) ∧ progState t cl p = 1 ∧ (t.prog cl p).wait = .none ∧
        (t.prog cl p).prio = (s.prog cl p).prio ∧
        t.token cl (Ent.wtCtr e) = s.token cl (Ent.wtCtr e) - Ent.wtTarget e ∧ t = { s with regs := t.regs, seq := t.seq }) ∧
    (∀ (s : State) (cl p i e : Nat), s.regsOk → s.tablesOk → s.before cl p i e [] 0 = true → i < 2047 → Ent.type e = 0x0A → s.token cl (Ent.wtCtr e) < Ent.wtTarget e →
      ∃ t, exec (.waitToken cl p) s = .next t ∧ Passed s t cl p (i + 1) ∧ progState t cl p = 3 ∧
        (t.prog cl p).wait = .token (Ent.wtCtr e) (Ent.wtTarget e)
          (if Ent.wtTimeout e = 0 then none else some (s.dieTurn (cl / 9) + Ent.wtTimeout e + 1)) ∧
        (t.prog cl p).prio = (s.prog cl p).low ∧ (t.prog cl p).age = 0 ∧ (t.prog cl p).cause = Ent.ctlCause e ∧
        t.token cl (Ent.wtCtr e) = s.token cl (Ent.wtCtr e) ∧ t = { s with regs := t.regs, seq := t.seq }) ∧
    (∀ (s : State) (cl p c n u : Nat), s.regsOk → s.tablesOk → cl < 432 → p < 8 → c < 32 → (s.prog cl p).wait = .token c n (some u) →
      u ≤ s.dieTurn (cl / 9) →
      ∃ t, exec (.tokenTimeout cl p) s = .next t ∧ Stopped t cl p 8 ∧ Posted s t (cl / 9) Cause.tokenTimeout c ∧
        t.token cl c = s.token cl c ∧ t.seq.flights = s.seq.flights ∧ t = { s with regs := t.regs, seq := t.seq, belt := t.belt })

/-- O25. A token posted to a counter. R68: a counter advances by one and saturates at 65,535, where the first token lost
posts "token overflow" and the next ones nothing; a token that completes a wait is taken by it. -/
def Obligations.TokenPosted : Prop :=
  ∀ (s : State) (cl c : Nat), s.regsOk → s.tablesOk → cl < 432 → c < 32 →
    (s.token cl c < 65535 → (∀ q < 8, onToken (s.prog cl q).wait c = false) →
      (postToken s cl c).token cl c = s.token cl c + 1 ∧
        (∀ d < 32, d ≠ c → (postToken s cl c).token cl d = s.token cl d) ∧
        postToken s cl c = { s with regs := (postToken s cl c).regs }) ∧
    (s.token cl c = 65535 → sget (fun _ => false) s.seq.tokenOver (32 * cl + c) = true → postToken s cl c = s) ∧
    (s.token cl c = 65535 → sget (fun _ => false) s.seq.tokenOver (32 * cl + c) = false →
      (postToken s cl c).token cl c = 65535 ∧ Posted s (postToken s cl c) (cl / 9) Cause.tokenOverflow c ∧
        sget (fun _ => false) (postToken s cl c).seq.tokenOver (32 * cl + c) = true) ∧
    (∀ p n u, p < 8 → (s.prog cl p).wait = .token c n u → waitOpen s cl u = true → n = s.token cl c + 1 → s.token cl c < 65535 →
      (∀ q < 8, q ≠ p → onToken (s.prog cl q).wait c = false) →
      (postToken s cl c).token cl c = 0 ∧ ((postToken s cl c).prog cl p).wait = .none ∧ progState (postToken s cl c) cl p = 1)

/-- O26. GATE waits, passes or skips. R70, R71: a GATE waits for the REDUCEs and GATHERs of its program; it goes on at the
next entry or skips, or halts the program beyond the table, in state 7 where it skips there, in state 9 where it is
the last entry and does not skip (R56); CLR clears both copies of flag 0 or 1, and no other flag changes. A GATE that
moves the loss scale is LossScale's. That a GATE which skips beyond the table counts as issued and clears its flag is
the model's reading (log entry 10). -/
def Obligations.GateRedirects : Prop :=
  ∀ (s : State) (cl p i e : Nat), s.regsOk → s.tablesOk → s.before cl p i e [] 0 = true → Ent.type e = 0x0B →
    (gateReady s cl p = false → exec (.gate cl p) s = .next (setProgState s cl p 4)) ∧
    (gateReady s cl p = true →
      (Ent.gtFlag e ≠ 0 ∨ Ent.gtSync e = false ∨ Ent.gtClr e = false ∨ bit (s.reg (lsReg cl Reg.LS_CTRL)) 0 = 0) →
      let taken := if Ent.gtSync e then syncFlag s cl (Ent.gtFlag e) else liveFlag s cl (Ent.gtFlag e)
      ∃ t, exec (.gate cl p) s = .next t ∧
        (taken = false → i < 2047 → Passed s t cl p (i + 1) ∧ progState t cl p = 1) ∧
        (taken = false → i = 2047 → Stopped t cl p 9 ∧ PostedIn s t (cl / 9) Cause.ranOffTable (tblAddr cl i) ∧ (t.prog cl p).issued = (s.prog cl p).issued + 1 ∧ t.seq.flights = s.seq.flights) ∧
        (taken = true → i + 1 + Ent.gtSkip e ≤ 2047 → Passed s t cl p (i + 1 + Ent.gtSkip e) ∧ progState t cl p = 1) ∧
        (taken = true → 2047 < i + 1 + Ent.gtSkip e → Stopped t cl p 7 ∧ Posted s t (cl / 9) Cause.skipBeyondTable (tblAddr cl i)) ∧
        (∀ g < 4, liveFlag t cl g = (if Ent.gtClr e = true ∧ g = Ent.gtFlag e ∧ g ≤ 1 then false else liveFlag s cl g) ∧
          syncFlag t cl g = (if Ent.gtClr e = true ∧ g = Ent.gtFlag e ∧ g ≤ 1 then false else syncFlag s cl g)) ∧
        t.mem = s.mem ∧ t = { s with regs := t.regs, seq := t.seq, belt := t.belt, mem := t.mem } ∧ t.mem.gddr = s.mem.gddr ∧ t.mem.gKey = s.mem.gKey ∧ t.mem.gErr = s.mem.gErr ∧ t.mem.crc = s.mem.crc ∧ t.mem.waiting = s.mem.waiting ∧ t.mem.table = s.mem.table ∧ t.mem.tableErr = s.mem.tableErr ∧ t.mem.sand = s.mem.sand ∧ t.mem.partList = s.mem.partList)

/-- O27. The loss scale at an overflow GATE. R216: at a GATE with FLAG 0, SYNC 1 and CLR 1 under LS_CTRL.EN, the step
takes the exponent that stood, and the exponent falls after an overflow down to its floor, or grows after the clean
interval up to its ceiling. -/
def Obligations.LossScale : Prop :=
  ∀ (s : State) (cl p i e : Nat), s.regsOk → s.tablesOk → s.before cl p i e [] 0 = true → Ent.type e = 0x0B → gateReady s cl p = true →
    Ent.gtFlag e = 0 → Ent.gtSync e = true → Ent.gtClr e = true → bit (s.reg (lsReg cl Reg.LS_CTRL)) 0 = 1 →
    let lo := signed 8 (bf (s.reg (lsReg cl Reg.LS_LIMITS)) 7 0)
    let hi := signed 8 (bf (s.reg (lsReg cl Reg.LS_LIMITS)) 15 8)
    let every := bf (s.reg (lsReg cl Reg.LS_LIMITS)) 31 16
    let flowed := syncFlag s cl 0
    let grow := !flowed && decide (every ≤ cleanOf s cl + 1)
    ∃ t, exec (.gate cl p) s = .next t ∧
      sigmaStep t cl = sigmaOf s cl ∧
      sigmaOf t cl = (if flowed then (if lo < sigmaOf s cl then sigmaOf s cl - 1 else sigmaOf s cl)
        else if grow && decide (sigmaOf s cl < hi) then sigmaOf s cl + 1 else sigmaOf s cl) ∧
      cleanOf t cl = (if flowed || grow then 0 else cleanOf s cl + 1) ∧
      t.reg (lsReg cl Reg.LS_SKIPS) = (if flowed then satAdd 32 (s.reg (lsReg cl Reg.LS_SKIPS)) 1 % 2 ^ 32 else s.reg (lsReg cl Reg.LS_SKIPS)) ∧
      t.reg (lsReg cl Reg.LS_GROWS) = (if grow && decide (sigmaOf s cl < hi) then satAdd 32 (s.reg (lsReg cl Reg.LS_GROWS)) 1 % 2 ^ 32
        else s.reg (lsReg cl Reg.LS_GROWS)) ∧
      (flowed = true → ¬ lo < sigmaOf s cl → Posted s t (cl / 9) Cause.lossScaleFloor 0) ∧
      syncFlag t cl 0 = false ∧ liveFlag t cl 0 = false ∧ t.mem.gddr = s.mem.gddr ∧ t.mem.table = s.mem.table

/-- O28. A HINT pre-arms the regulators or is a marker. R72: a HINT whose heavy phase starts 49 to 488 turns after the
turn in which it issues raises VARM of its partition until DUR turns after that turn (R470); with any other lead it is
counted as a marker and changes nothing of the regulators. -/
def Obligations.HintPrearms : Prop :=
  ∀ (s : State) (cl p i e : Nat), s.regsOk → s.tablesOk → s.before cl p i e [] 0 = true → Ent.type e = 0x0C →
    let lead := decide (s.dieTurn (cl / 9) + 49 ≤ namedTurn s cl p e) && decide (namedTurn s cl p e ≤ s.dieTurn (cl / 9) + 488)
    ∃ t, exec (.hint cl p) s = .next t ∧ (t.prog cl p).issued = (s.prog cl p).issued + 1 ∧ t.seq.flights = s.seq.flights ∧
      GoesOn s t cl p i ∧ (i < 2047 → t.belt = s.belt) ∧
      (lead = true →
        sget zeroAt t.power.varm (partOf cl) = max (sget zeroAt s.power.varm (partOf cl)) (namedTurn s cl p e + Ent.hintDur e) ∧
        (∀ q, q ≠ partOf cl → sget zeroAt t.power.varm q = sget zeroAt s.power.varm q) ∧
        t.power.hints = s.power.hints ++ [(partOf cl, namedTurn s cl p e + Ent.hintDur e, Ent.hintLevel e)] ∧
        t.reg (hPage 9 + Reg.PWR_HINTS) = satAdd 32 (s.reg (hPage 9 + Reg.PWR_HINTS)) 1 % 2 ^ 32 ∧
        t.reg (hPage 9 + Reg.PWR_MARKS) = s.reg (hPage 9 + Reg.PWR_MARKS)) ∧
      (lead = false → t.power = s.power ∧
        t.reg (hPage 9 + Reg.PWR_MARKS) = satAdd 32 (s.reg (hPage 9 + Reg.PWR_MARKS)) 1 % 2 ^ 32 ∧
        t.reg (hPage 9 + Reg.PWR_HINTS) = s.reg (hPage 9 + Reg.PWR_HINTS)) ∧
      t = { s with regs := t.regs, seq := t.seq, belt := t.belt, power := t.power }

/-- O29. MARK, JUMP, END, ageing, and the end of the table. R28, R50 to R52, R54, R56, R73: a MARK writes its 128 bytes
within its partition group, and elsewhere nothing; a JUMP goes to its target; an END disables its program in state 6,
with an event where EVT is 1; the cycles in which a program was ready and did not issue raise its effective priority
by one level for each AGE_INTERVAL of them, to 7 at most, and no cycle ages a program that waits or is blocked, a
REDUCE behind an earlier bucket among them (R373); a program that reaches entry 2,047 with an entry that neither ends
nor redirects it halts in state 9 after issuing it, with its event: a control entry here (a GATE by GateRedirects),
and an entry of a unit, which stays in flight, by the one issue of its meaning; the statements of issue say the same
of each row (GoesOn). An END, a JUMP and a taken GATE there do what they do anywhere. That a program held by queue
room alone does not age is the model's choice (log entry 156). -/
def Obligations.ControlFlow : Prop :=
  (∀ (s : State) (cl p i e : Nat), s.regsOk → s.tablesOk → s.before cl p i e [] 0 = true → i < 2047 → s.memoryOk → Ent.type e = 0x0D → sameGroup s (partOf cl) (partOf (nsCluster (Ent.markAddr e))) = true →
      ∃ t, exec (.mark cl p) s = .next t ∧ Passed s t cl p (i + 1) ∧
        nsBytes t (actingSlot s cl) (Ent.markAddr e) 128 = markRecord t cl p e ∧
        (∀ a, a / 256 ≠ Ent.markAddr e / 256 → sget byteZero t.mem.ns a = sget byteZero s.mem.ns a) ∧ t = { s with regs := t.regs, seq := t.seq, belt := t.belt, mem := t.mem } ∧ t.mem.gddr = s.mem.gddr ∧ t.mem.gKey = s.mem.gKey ∧ t.mem.gErr = s.mem.gErr ∧ t.mem.crc = s.mem.crc ∧ t.mem.waiting = s.mem.waiting ∧ t.mem.table = s.mem.table ∧ t.mem.tableErr = s.mem.tableErr ∧ t.mem.sand = s.mem.sand ∧ t.mem.partList = s.mem.partList) ∧
    (∀ (s : State) (cl p i e : Nat), s.regsOk → s.tablesOk → s.before cl p i e [] 0 = true → i < 2047 → Ent.type e = 0x0D → sameGroup s (partOf cl) (partOf (nsCluster (Ent.markAddr e))) = false →
      ∃ t, exec (.mark cl p) s = .next t ∧ Passed s t cl p (i + 1) ∧ Posted s t (cl / 9) Cause.outsidePartition (Ent.markAddr e) ∧
        t.mem = s.mem) ∧
    (∀ (s : State) (cl p i e : Nat), s.regsOk → s.tablesOk → s.before cl p i e [] 0 = true → Ent.type e = 0x0E →
      ∃ t, exec (.jump cl p) s = .next t ∧ Passed s t cl p (Ent.jumpTarget e) ∧ progState t cl p = 1 ∧ OnlyCounts s t cl p ∧
        t = { s with regs := t.regs, seq := t.seq }) ∧
    (∀ (s : State) (cl p i e : Nat), s.regsOk → s.tablesOk → s.before cl p i e [] 0 = true → Ent.type e = 0x0F →
      ∃ t, exec (.endEntry cl p) s = .next t ∧ Passed s t cl p i ∧ Stopped t cl p 6 ∧
        (Ent.endEvt e = true → Posted s t (cl / 9) Cause.programEnd (tblAddr cl i)) ∧ (Ent.endEvt e = false → t.belt = s.belt) ∧ t = { s with regs := t.regs, seq := t.seq, belt := t.belt }) ∧
    (∀ (s : State) (cl p n : Nat), s.tablesOk → runnable s cl p = true → entryHeld s cl p = false →
      let every := max 1 (bf (s.reg (seqReg cl Reg.AGE_INTERVAL)) 15 0)
      ∃ t, exec (.priorityAgeing cl { slot := p, cycles := n }) s = .next t ∧
        t.prog cl p = { s.prog cl p with prio := min 7 ((s.prog cl p).prio + ((s.prog cl p).age + n) / every), age := ((s.prog cl p).age + n) % every } ∧
        (∀ c q, (c, q) ≠ (cl, p) → q < 8 → t.prog c q = s.prog c q) ∧ t = { s with seq := t.seq } ∧ t.seq = { s.seq with progs := t.seq.progs }) ∧
    (∀ (s : State) (cl p n : Nat), (runnable s cl p = false ∨ entryHeld s cl p = true) → exec (.priorityAgeing cl { slot := p, cycles := n }) s = .next s) ∧
    (∀ (s : State) (cl p e : Nat), ∀ r ∈ ([controlEntryRow .waitTurn 0x09, controlEntryRow .waitToken 0x0A, controlEntryRow .hint 0x0C, controlEntryRow .mark 0x0D] : List EntryRow),
      s.regsOk → s.tablesOk → s.before cl p 2047 e [] 0 = true → r.mine s cl e = true →
      ∃ t, exec (r.command cl p) s = .next t ∧ Stopped t cl p 9 ∧ progPC t cl p = 2047 ∧ (t.prog cl p).issued = (s.prog cl p).issued + 1 ∧
        PostedIn s t (cl / 9) Cause.ranOffTable (tblAddr cl 2047) ∧ t.seq.flights = s.seq.flights) ∧
    (∀ (s : State) (cl p e : Nat) (units : List UnitId) (cores : Nat) (w : Work), s.regsOk → s.tablesOk → cl < 432 → p < 8 →
      Stopped (issueFlight s cl p 2047 e units cores w) cl p 9 ∧ progPC (issueFlight s cl p 2047 e units cores w) cl p = 2047 ∧
      ((issueFlight s cl p 2047 e units cores w).prog cl p).issued = (s.prog cl p).issued + 1 ∧
      PostedIn s (issueFlight s cl p 2047 e units cores w) (cl / 9) Cause.ranOffTable (tblAddr cl 2047) ∧
      ∃ x ∈ (issueFlight s cl p 2047 e units cores w).seq.flights, x.id = s.seq.nextId ∧ x.entry = e ∧ x.units = units ∧ x.cores = cores ∧ x.work = w)

/-- O30. A register write acts by the access code of its register. R9, R11, R407, R532, R538, R543: a refused write
changes nothing; a write of a reserved word changes nothing; else the described bits go to the register that the
page's selector names (RW), to its shadow (SH), clear or set its bits (W1C, W1S), and no other register changes; a
write of FT_ALARM arms it at the next commit of its page (R44); one of the control node's to a random stream page is
ignored while a confidential tenant is present (R240). Registers with a behaviour of their own are the other
statements' matter. -/
def Obligations.RegisterWrite : Prop :=
  (∀ (s : State) (m : Master) (a v : Nat), (writeStatus s m a ≠ 0 ∨ s.hubIgnored m a = true) → exec (.registerWrite m a v) s = .next s) ∧
    (∀ (s : State) (m : Master) (a v ty inst : Nat) (r : RegRow), s.regsOk → writeStatus s m a = 0 → s.hubIgnored m a = false →
      pageType (addrDie a) (addrPageIdx a) = some (ty, inst) → regRow ty (addrOff a) = some r →
      actWrite s ty inst (addrPage a) (addrOff a) (v &&& r.mask (addrOff a)) = none →
      let k := selKey s ty (addrPage a) (addrOff a)
      let w := v &&& r.mask (addrOff a)
      ∃ t, exec (.registerWrite m a v) s = .next t ∧
        (r.acc = .rw → t.reg k = w % 2 ^ 32) ∧ (r.acc = .w1c → t.reg k = (s.reg k - (s.reg k &&& w)) % 2 ^ 32) ∧
        (r.acc = .w1s → t.reg k = (s.reg k ||| w) % 2 ^ 32) ∧ (r.acc = .sh → t.shd k = w % 2 ^ 32 ∧ t.reg k = s.reg k) ∧
        (r.acc = .ro ∨ r.acc = .wo → t = s) ∧ (r.acc ≠ .sh → t.shd k = s.shd k) ∧
        (∀ j, j ≠ k → t.reg j = s.reg j ∧ t.shd j = s.shd j) ∧
        t = { s with regs := t.regs, time.alarmSet := s.time.alarmSet || (ty == 3 && (addrOff a == Reg.FT_ALARM_LO || addrOff a == Reg.FT_ALARM_HI)) }) ∧
    (∀ (s : State) (m : Master) (a v : Nat), writeStatus s m a = 0 →
      ((pageType (addrDie a) (addrPageIdx a)).all fun x => (regRow x.1 (addrOff a)).isNone) = true →
      exec (.registerWrite m a v) s = .next s)

/-- O31. FW_ONLY shuts the management mailbox out of a page. R535: with FW_ONLY set every mailbox write of the page is
answered 0x2 and changes nothing, CTRL included; only firmware clears the bit; on the key-slot and attestation pages
it is 1 at reset and no write clears it; these two pages refuse the mailbox's reads. -/
def Obligations.FirmwareOnly : Prop :=
  (∀ (s : State) (a v : Nat), a < 0x4000000 → pageType (addrDie a) (addrPageIdx a) ≠ none →
      bit (s.reg (addrPage a + Reg.F_CTRL)) 0 = 1 →
      hubWrite s .mailbox a v = (s, 2) ∧ exec (.registerWrite .mailbox a v) s = .next s) ∧
    (∀ (s t : State) (m : Master) (a v : Nat), s.regsOk → a < 0x4000000 → pageType (addrDie a) (addrPageIdx a) ≠ none → addrOff a = Reg.F_CTRL →
      exec (.registerWrite m a v) s = .next t → bit (s.reg (addrPage a + Reg.F_CTRL)) 0 = 1 → bit (t.reg (addrPage a + Reg.F_CTRL)) 0 = 0 →
      m = .firmware) ∧
    (∀ page ∈ [hPage 7, hPage 8], bit (State.reset.reg (page + Reg.F_CTRL)) 0 = 1 ∧
      ∀ (s t : State) (m : Master) (v : Nat), s.regsOk → bit (s.reg (page + Reg.F_CTRL)) 0 = 1 →
        exec (.registerWrite m (page + Reg.F_CTRL) v) s = .next t → bit (t.reg (page + Reg.F_CTRL)) 0 = 1) ∧
    (∀ (s : State), ∀ page ∈ [hPage 7, hPage 8], ∀ off < 0x1000, hubRead s .mailbox (page + off) = (s, 2, 0))

/-- O32. GO, ARM and DISARM. R539: a GO or an ARM makes the one commit of its page outstanding, for the next boundary or
for COMMIT_TURN; while one is outstanding a GO, or an ARM for another turn, is ignored and sets CONFLICT, and an ARM
for the turn armed changes nothing; a DISARM withdraws it, and the mailbox requests that wait for it are answered
REFUSED. An ARM of the power page asks at once for the rails of the faster point that it brings (R417, R455). Shadows
and values in effect are not changed. That a withdrawn request is answered REFUSED is the model's reading (log entry
82). -/
def Obligations.CommitWrites : Prop :=
  (∀ (s : State) (m : Master) (page : Nat), s.hubOk m page Reg.F_COMMIT = true → commitOf s page = none →
      exec (.commitGo m page) s = .next { s with regs.commits := s.regs.commits ++ [{ page := page, turn := none }] }) ∧
    (∀ (s : State) (m : Master) (page : Nat), s.hubOk m page Reg.F_COMMIT = true → commitOf s page = none → page ≠ hPage 9 →
      exec (.commitArm m page) s = .next { s with regs.commits := s.regs.commits ++ [{ page := page, turn := some (commitTurn s page) }] }) ∧
    (∀ (s : State) (m : Master), s.hubOk m (hPage 9) Reg.F_COMMIT = true → commitOf s (hPage 9) = none →
      let a := commitTurn s (hPage 9)
      let k := pointFrom s s.shd (bf (s.reg (pwrReg Reg.PWR_CEIL)) 3 0)
      ∃ t, exec (.commitArm m (hPage 9)) s = .next t ∧ t.regs = { s.regs with commits := s.regs.commits ++ [{ page := hPage 9, turn := some a }] } ∧
        t.power.raiseTurn = (if ready s = true ∧ k < pointNow s then a else s.power.raiseTurn) ∧
        (∀ p < 8, railAsked t p = if ready s = true ∧ k < pointNow s ∧ s.power.supplyOff = false ∧ railAsked s p < railCode s p k then railCode s p k else railAsked s p) ∧
        t = { s with regs := t.regs, power := { s.power with raiseTurn := t.power.raiseTurn, steps := t.power.steps } }) ∧
    (∀ (s : State) (m : Master) (page : Nat) (c : Commit), s.regsOk → s.hubOk m page Reg.F_COMMIT = true → commitOf s page = some c →
      (∃ t, exec (.commitGo m page) s = .next t ∧ t.regs.commits = s.regs.commits ∧ bit (t.reg (page + Reg.F_EVENT)) 5 = 1 ∧
        t = { s with regs := t.regs }) ∧
      (c.turn ≠ some (commitTurn s page) →
        ∃ t, exec (.commitArm m page) s = .next t ∧ t.regs.commits = s.regs.commits ∧ bit (t.reg (page + Reg.F_EVENT)) 5 = 1 ∧
          t = { s with regs := t.regs }) ∧
      (c.turn = some (commitTurn s page) → exec (.commitArm m page) s = .next s)) ∧
    (∀ (s : State) (m : Master) (page : Nat), s.hubOk m page Reg.F_COMMIT = true →
      ∃ t, exec (.commitDisarm m page) s = .next t ∧ t.regs = { s.regs with commits := s.regs.commits.filter fun c => c.page != page } ∧
        commitOf t page = none ∧
        (commitOf s page = none ∨ (∀ w ∈ s.port.mbox, w.page ≠ page) → t.port = s.port) ∧
        (commitOf s page ≠ none → t.port.mbox = s.port.mbox.filter (fun w => w.page != page) ∧ s.port.tx <+: t.port.tx ∧
          ∀ w ∈ s.port.mbox, w.page = page → ∃ g ∈ t.port.tx, g.type = 7 ∧ g.tag = w.tag ∧ g.payload.take 2 = leBytes 1 w.op ++ leBytes 1 Mail.refused) ∧
        t = { s with regs := t.regs, port := t.port })

/-- O33. ERR_CLR and EVENT_CLEAR. R534, R536: ERR_CLR zeroes ERR_COUNT and leaves FW_ONLY; an EVENT bit written 1 clears,
and the die's bit of SUM_ALERT stands exactly while an enabled EVENT bit of the die is set. -/
def Obligations.FaceplateWrites : Prop :=
  (∀ (s : State) (m : Master) (page ty inst : Nat), s.regsOk → s.hubOk m page Reg.F_CTRL = true →
      pageType (addrDie page) (addrPageIdx page) = some (ty, inst) → ty ≠ 7 → ty ≠ 8 →
      ∃ t, exec (.errClr m page) s = .next t ∧ t.reg (page + Reg.F_ERR_COUNT) = 0 ∧
        t.reg (page + Reg.F_CTRL) = bit (s.reg (page + Reg.F_CTRL)) 0 ∧
        (∀ k, k ≠ page + Reg.F_ERR_COUNT → k ≠ page + Reg.F_CTRL → t.reg k = s.reg k) ∧ (∀ k, t.shd k = s.shd k) ∧ t = { s with regs := t.regs }) ∧
    (∀ (s : State) (m : Master) (page v : Nat), s.regsOk → s.hubOk m page Reg.F_EVENT = true → addrDie page < 64 →
      ∃ t, exec (.eventClear m page v) s = .next t ∧
        t.reg (page + Reg.F_EVENT) = (s.reg (page + Reg.F_EVENT) &&& (0x3F - v % 64)) ∧
        (bit (t.reg (hPage 2 + Reg.SUM_ALERT_LO + 4 * (addrDie page / 32))) (addrDie page % 32) = 1 ↔ alertsLeft t (addrDie page) = true) ∧
        (∀ k, k ≠ page + Reg.F_EVENT → k ≠ hPage 2 + Reg.SUM_ALERT_LO + 4 * (addrDie page / 32) → t.reg k = s.reg k) ∧
        (∀ k, t.shd k = s.shd k) ∧ t = { s with regs := t.regs })

/-- O34. The clears of the counter pages. R165, R254, R277, R339, R340, R365, R395, R412, R485, R487: a write of a page's
clear register zeroes the counters that its chapter names, and no other register, shadow or memory changes. -/
def Obligations.CounterClears : Prop :=
  (∀ (s : State) (m : Master) (cl : Nat), s.regsOk → cl < 432 → s.hubOk m (clPage 0x14 cl) Reg.CNT_CLEAR = true →
      ∃ t, exec (.cntClear m cl) s = .next t ∧ Cleared s t (clPage 0x14 cl) (wordsFrom Reg.ATT_WIDENED 10)) ∧
    (∀ (s : State) (m : Master) (d : Nat), s.regsOk → d < 48 → s.hubOk m (cPage 0x10 d) Reg.NS_CLEAR = true →
      ∃ t, exec (.nsClear m d) s = .next t ∧ Cleared s t (cPage 0x10 d) ([Reg.NS_CORR, Reg.NS_UNCORR, Reg.NS_STALE])) ∧
    (∀ (s : State) (m : Master) (w : Nat), s.regsOk → w < 8 → s.hubOk m (memPage w) Reg.MEM_CLEAR = true →
      ∃ t, exec (.memClear m w) s = .next t ∧ Cleared s t (memPage w) (wordsFrom Reg.MEM_CORR 6)) ∧
    (∀ (s : State) (m : Master) , s.regsOk → s.hubOk m (ringPage) Reg.QM_CLEAR = true →
      ∃ t, exec (.qmClear m) s = .next t ∧ Cleared s t (ringPage) (wordsFrom Reg.QM_ADMITS 4)) ∧
    (∀ (s : State) (m : Master) , s.regsOk → s.hubOk m (pPage 0x1D) Reg.PE_CLEAR = true →
      ∃ t, exec (.peClear m) s = .next t ∧ Cleared s t (pPage 0x1D) ([Reg.PE_STALLS, Reg.PE_PREEMPTS, Reg.PE_EXPIRED])) ∧
    (∀ (s : State) (m : Master) (l : Nat), s.regsOk → l < 24 → s.hubOk m (linkPage l) Reg.LINK_CLEAR = true →
      ∃ t, exec (.linkClear m l) s = .next t ∧ Cleared s t (linkPage l) (wordsFrom Reg.LINK_FEC_CORR 11)) ∧
    (∀ (s : State) (m : Master) (cl : Nat), s.regsOk → cl < 432 → s.hubOk m (clPage 0x17 cl) Reg.IDLE_CLEAR = true →
      ∃ t, exec (.idleClear m cl) s = .next t ∧ Cleared s t (clPage 0x17 cl) (wordsFrom Reg.IDLE 26)) ∧
    (∀ (s : State) (m : Master) , s.regsOk → s.hubOk m (hPage 9) Reg.PWR_CLEAR = true →
      ∃ t, exec (.pwrClear m) s = .next t ∧ Cleared s t (hPage 9) ([Reg.PWR_HINTS, Reg.PWR_MARKS, Reg.AGE_ALARMS])) ∧
    (∀ (s : State) (m : Master) (d : Nat), s.regsOk → d < 48 → s.hubOk m (cPage 0x11 d) Reg.DIE_CLEAR = true →
      ∃ t, exec (.dieClear m d) s = .next t ∧ Cleared s t (cPage 0x11 d) ([Reg.DIE_DROOP, Reg.DIE_STRETCH, Reg.DIE_ALARMS])) ∧
    (∀ (s : State) (m : Master) , s.regsOk → s.hubOk m (pPage 0x1E) Reg.PORT_CLEAR = true →
      ∃ t, exec (.portClear m) s = .next t ∧ Cleared s t (pPage 0x1E) ([Reg.DB_COUNT, Reg.DB_REFUSED, Reg.MBX_BUSY, Reg.PORT_REPLAYS, Reg.PORT_DROPS, Reg.EVT_LOST]))

/-- O35. HALT, the check draw, the link key, holds, aborts and the wake pattern. R57, R240, R241, R281, R285, R304, R439,
R478, R544: HALT stops the programs it names that are enabled; a check draw takes the seed, stream and position
standing, and its end shows the draw; firmware alone writes the link-key staging store; HOLD and AHOLD clear; an abort
is asked of a plan that runs; the wake pattern goes out on the links named; a read of a low word latches the high word
for its own master. That HALT acts in the step that writes it is the model's reading (log entry 29). -/
def Obligations.HubActions : Prop :=
  (∀ (s : State) (m : Master) (cl v : Nat), s.regsOk → s.tablesOk → cl < 432 → s.hubOk m (clPage 0x12 cl) Reg.HALT = true →
      ∃ t, exec (.halt m cl v) s = .next t ∧
        (∀ p < 8, bit v p = 1 → progEnabled s cl p = true → Stopped t cl p 5) ∧
        (∀ p < 8, (bit v p = 0 ∨ progEnabled s cl p = false) → t.prog cl p = s.prog cl p ∧ progState t cl p = progState s cl p ∧
          progEnabled t cl p = progEnabled s cl p) ∧
        t.seq.flights = s.seq.flights ∧ t = { s with regs := t.regs, seq := t.seq }) ∧
    (∀ (s : State) (m : Master) (cl : Nat), s.regsOk → s.tablesOk → cl < 432 → s.hubOk m (clPage 0x16 cl) Reg.RS_GO = true →
      ∃ t, exec (.checkDraw m cl) s = .next t ∧ t.reg (clPage 0x16 cl + Reg.RS_STATUS) = 0 ∧
        t.reg (clPage 0x16 cl + Reg.RS_JUMPS) = satAdd 32 (s.reg (clPage 0x16 cl + Reg.RS_JUMPS)) 1 % 2 ^ 32 ∧
        sget noneAt t.seq.draws cl = some (s.reg64 (clPage 0x16 cl + Reg.RS_SEED_LO), s.reg (clPage 0x16 cl + Reg.RS_STREAM),
          s.reg64 (clPage 0x16 cl + Reg.RS_POS_LO) % 2 ^ 40) ∧ t = { s with regs := t.regs, seq := t.seq }) ∧
    (∀ (s : State) (cl seed stream g : Nat), s.regsOk → s.tablesOk → sget noneAt s.seq.draws cl = some (seed, stream, g) →
      ∃ t, exec (.checkDrawDone cl) s = .next t ∧
        t.reg (clPage 0x16 cl + Reg.RS_OUT) = (draw (BitVec.ofNat 64 seed) stream g).toNat % 2 ^ 32 ∧
        t.reg (clPage 0x16 cl + Reg.RS_STATUS) = 1 ∧ sget noneAt t.seq.draws cl = none ∧
        (∀ k, k ≠ clPage 0x16 cl + Reg.RS_OUT → k ≠ clPage 0x16 cl + Reg.RS_STATUS → t.reg k = s.reg k) ∧
        t = { s with regs := t.regs, seq := t.seq }) ∧
    (∀ (s : State) (m : Master) (j v : Nat), s.tablesOk → j < 8 → s.hubOk m (hPage 8) (Reg.LINK_KEY + 4 * j) = true →
      ∃ t, exec (.linkKeyWrite m j v) s = .next t ∧ m = .firmware ∧ sget zeroAt t.tenant.staging j = v % 2 ^ 32 ∧
        (∀ i, i ≠ j → sget zeroAt t.tenant.staging i = sget zeroAt s.tenant.staging i) ∧
        t = { s with tenant.staging := t.tenant.staging }) ∧
    (∀ (s : State) (m : Master), s.regsOk → s.hubOk m blkPage Reg.BLK_UNHOLD = true →
      (∃ t, exec (.unhold m) s = .next t ∧ bit (t.reg (blkKey Reg.BLK_STATE (blkSelSlot s))) 0 = 0 ∧
        (∀ k, k ≠ blkKey Reg.BLK_STATE (blkSelSlot s) → t.reg k = s.reg k) ∧ t = { s with regs := t.regs }) ∧
      (∃ t, exec (.unholdAdapter m) s = .next t ∧ t.reg (adpBits Reg.BLK_STATE (blkSelSlot s) (blkSelAdapter s)) = 0 ∧
        (∀ k, k ≠ adpBits Reg.BLK_STATE (blkSelSlot s) (blkSelAdapter s) → t.reg k = s.reg k) ∧ t = { s with regs := t.regs })) ∧
    (∀ (s : State) (m : Master) (w : Nat), s.regsOk → w < 8 → s.hubOk m (mPage 0x19 w) Reg.SW_ABORT = true →
      bf (s.reg (mPage 0x19 w + Reg.SW_STATE)) 1 0 = 1 →
      ∃ t, exec (.swAbort m w) s = .next t ∧ t.reg (mPage 0x19 w + Reg.SW_ABORT) = 1 ∧
        (∀ k, k ≠ mPage 0x19 w + Reg.SW_ABORT → t.reg k = s.reg k) ∧ t = { s with regs := t.regs }) ∧
    (∀ (s : State) (m : Master) (v : Nat), s.tablesOk → s.hubOk m (hPage 0x0A) Reg.PS_WAKE_LINKS = true →
      ∃ t, exec (.psWakeLinks m v) s = .next t ∧
        (∀ n, t.link n = if n < 24 ∧ bit v n = 1 then { s.link n with waking := true } else s.link n) ∧
        t = { s with net.links := t.net.links }) ∧
    (∀ (s : State) (m : Master) (a ty inst : Nat) (r : RegRow), a < 0x4000000 → addrOff a < 0x800 →
      pageType (addrDie a) (addrPageIdx a) = some (ty, inst) → ty ≠ 7 → ty ≠ 8 → ty ≠ 9 → regRow ty (addrOff a) = some r →
      isLatching ty (addrOff a) = true → isLatched ty (addrOff a) = false → withheld s ty (addrOff a) = false → rising s.regs.latch →
      ∃ t, exec (.lowWordRead m a) s = .next t ∧
        sget zeroAt t.regs.latch (latchKey (addrPage a) m) = liveWord s ty (addrPage a) (addrOff a + 4) ∧
        (∀ n, n ≠ m → sget zeroAt t.regs.latch (latchKey (addrPage a) n) = sget zeroAt s.regs.latch (latchKey (addrPage a) n)) ∧
        t = { s with regs.latch := t.regs.latch })

/-- O36. A turn boundary begins the turn on the dies that the strobe reaches. R39, R43, R46, R350, R359, R394, R395, R470,
R483, R498, R512: fabric time stands at the first tick of the next turn; the headstock and the dies reached see that
turn, and the others have missed one strobe more; under RESET_N only the count goes on; the links of the dies reached
send a time frame each, of one flit; the cycles of the turn that ends are charged to each cluster whose clocks run,
stretched, busy and paced ones first and the rest under the cause of the leading program; the package's idle page is
written once in an interval from the clusters' counters. Which cycles of a turn are charged to which cause is log
entry 125, the model's choice. -/
def Obligations.BoundaryTime : Prop :=
  (∀ (s : State) (mask : Nat) (cs : List Charge), s.tablesOk → s.boot.pwrgood = true → s.boot.inReset = false →
      ∃ t, exec (.turnBoundary mask cs) s = .next t ∧ t.time.now = 1024 * (s.turn + 1) ∧
        (∀ d < 64, strobed s mask d = true → t.dieTurn d = s.turn + 1 ∧ sget zeroAt t.time.missed d = 0) ∧
        (∀ d < 64, strobed s mask d = false → t.dieTurn d = s.dieTurn d ∧
          sget zeroAt t.time.missed d = sget zeroAt s.time.missed d + 1) ∧
        (bit mask 63 = 1 → ∀ h ∈ t.power.hints, t.turn < h.2.1) ∧ t = { s with regs := t.regs, seq := t.seq, belt := t.belt, net := t.net, storage := t.storage, port := t.port, serving := t.serving, wake := t.wake, catching := t.catching, reclaim := t.reclaim, sideband := t.sideband, mem := t.mem, tenant := t.tenant, time := t.time, power := t.power } ∧ t.mem.table = s.mem.table ∧ t.mem.tableErr = s.mem.tableErr ∧ t.power.tripped = s.power.tripped) ∧
    (∀ (s : State) (c : Charge), c.cl < 432 → clockGated s (c.cl / 9) = true → chargeCluster s c = s) ∧
    (∀ (s : State) (c : Charge) (k : Nat), s.regsOk → c.cl < 432 → clockGated s (c.cl / 9) = false → k ≤ 12 →
      (chargeCluster s c).reg64 (idleReg c.cl k) % 2 ^ 48 = (s.reg64 (idleReg c.cl k) + (if k = 6 then c.stretched else 0) +
        (if k = 12 then c.busy else 0) + (if k = 5 then c.paced else 0) + (if leadCause s c.cl = some k then c.rest else 0)) % 2 ^ 48) ∧
    (∀ (s : State) (reached : Nat → Bool) (l : Nat), s.regsOk → s.tablesOk → fabricUp s l = true → reached (56 + l / 4) = true →
      ((timeFrames s reached).link l).told = some (timeFrame s l) ∧
      (timeFrames s reached).reg64 (linkReg l Reg.LINK_TX_LO) = satAdd 64 (s.reg64 (linkReg l Reg.LINK_TX_LO)) 1) ∧
    (∀ (s : State) (mask : Nat) (cs : List Charge), s.boot.pwrgood = true → s.boot.inReset = true →
      exec (.turnBoundary mask cs) s = .next { s with time.now := 1024 * (s.turn + 1) }) ∧
    (∀ (s : State), s.regsOk → s.stopped = false → s.reg64 (hPage 6 + Reg.PKG_IDLE_TURN_LO) / 976563 < s.turn / 976563 →
      ∃ t, exec .packageIdleUpdate s = .next t ∧
        (∀ c < 12, t.reg64 (hPage 6 + Reg.PKG_IDLE + 8 * c) = sumList ((List.range 432).map fun cl => s.reg64 (idleReg cl c) % 2 ^ 48) % 2 ^ 64) ∧
        t.reg64 (hPage 6 + Reg.PKG_BUSY_LO) = sumList ((List.range 432).map fun cl => s.reg64 (idleReg cl 12) % 2 ^ 48) % 2 ^ 64 ∧
        t.reg64 (hPage 6 + Reg.PKG_IDLE_TURN_LO) = s.turn % 2 ^ 64 ∧ t = { s with regs := t.regs })

/-- O37. Time frames, exchanges, acquisition, holdover and the alarm. R38 to R44, R350, R359, R365, R400, R411, R482,
R498, R499, R509: a time frame counts one flit and, where it arrives good, is noted with the time of its arrival; one
that fails its CRC or lies across an uncorrectable codeword is discarded and a NAK stands (R352), and a stomped one is
discarded (R354); what a frame of the parent measures and steers, within 50 ppm, and at -50 ppm where the count of a
package that has newly to acquire is ahead of its parent's; every 1,024 turns a link's delay is half the round trip
less the far end's turnaround; a step only forward and only before acquisition, where the wake or the new role asks
for it or the follower takes it; 16 near measurements acquire; holdover entered and left; the loss and return of the
reference clock; the alarm. That the offset is the parent's stamp and delay less the own count is log entry 30. -/
def Obligations.FabricTimeFollows : Prop :=
  (∀ (s : State) (l phase n : Nat) (f : TimeFrame) (step : Bool) (rate : Int), s.regsOk → s.tablesOk → fabricUp s l = true →
      ∃ t, exec (.timeFrame l f (.good n) phase step rate) s = .next t ∧ (t.link l).heard = some (f.stamp, 16 * s.time.now + phase % 16) ∧
        (∀ n, n ≠ l → t.link n = s.link n) ∧
        t.reg64 (linkReg l Reg.LINK_RX_LO) = satAdd 64 (s.reg64 (linkReg l Reg.LINK_RX_LO)) 1 ∧
        t.reg (linkReg l Reg.LINK_FEC_CORR) = satAdd 32 (s.reg (linkReg l Reg.LINK_FEC_CORR)) n % 2 ^ 32 ∧
        (ftRole s ≠ 0 ∨ ftParent s ≠ l ∨ s.time.refclk = false → t.time = s.time ∧
          (∀ k, k ≠ linkReg l Reg.LINK_RX_LO → k ≠ linkReg l Reg.LINK_RX_LO + 4 → k ≠ linkReg l Reg.LINK_FEC_CORR → t.reg k = s.reg k))) ∧
    (∀ (s : State) (l phase : Nat) (f : TimeFrame) (a : Arrival) (step : Bool) (rate : Int), s.regsOk → s.tablesOk → fabricUp s l = true →
      goodArrival a = false →
      ∃ t, exec (.timeFrame l f a phase step rate) s = .next t ∧
        (∀ n, a = .stomped n → t.link l = s.link l) ∧ ((∀ n, a ≠ .stomped n) → t.link l = { s.link l with nak := true }) ∧
        (∀ n, n ≠ l → t.link n = s.link n) ∧
        t.reg (linkReg l Reg.LINK_FEC_CORR) = satAdd 32 (s.reg (linkReg l Reg.LINK_FEC_CORR)) (correctedOf a) % 2 ^ 32 ∧
        t.reg (linkReg l Reg.LINK_FEC_UNCORR) = satAdd 32 (s.reg (linkReg l Reg.LINK_FEC_UNCORR)) (lostOf a) % 2 ^ 32 ∧
        t = { s with regs := t.regs, net := t.net }) ∧
    (∀ (s : State) (l phase n : Nat) (f : TimeFrame) (step : Bool) (rate : Int), s.regsOk → s.tablesOk → fabricUp s l = true → ftRole s = 0 →
      ftParent s = l → s.time.refclk = true →
      let off : Int := 16 * f.stamp + (s.reg (ftReg Reg.FT_DELAY) : Int) - (16 * s.time.now + phase % 16)
      ∃ t, exec (.timeFrame l f (.good n) phase step rate) s = .next t ∧
        t.time.now = s.time.now + (if (step = true ∨ s.time.mustStep = true) ∧ ftFlag s 0 = false ∧ s.time.mayStep = true ∧ 0 < off then (off / 16).toNat else 0) ∧
        t.reg (ftReg Reg.FT_OFFSET) = unsigned 32 off ∧ t.reg (ftReg Reg.FT_RATE) = unsigned 32 (if ftFlag s 0 = false ∧ s.time.mayStep = true ∧ off < -32 then -50000 else max (-50000) (min 50000 rate)) ∧
        t.time.near = (if -32 ≤ off ∧ off ≤ 32 then s.time.near + 1 else 0) ∧ ftFlag t 1 = false ∧
        bf (t.reg (ftReg Reg.FT_STATUS)) 12 8 = min 31 (f.depth + 1) ∧ ftFlag t 2 = decide (12 ≤ f.depth) ∧
        (12 ≤ f.depth → ftFlag s 2 = false →
          (sget nilAt s.belt.queues 63).length < 256 → ∃ ev ∈ sget nilAt t.belt.queues 63, ev.cause = Cause.timeTreeTooDeep) ∧ t = { s with regs := t.regs, belt := t.belt, net := t.net, time := t.time, boot := t.boot } ∧ t.boot.pwrgood = s.boot.pwrgood ∧ t.boot.inReset = s.boot.inReset ∧ t.boot.flash = s.boot.flash) ∧
    (∀ (s : State) (l phase : Nat) (f : TimeFrame), s.regsOk → s.tablesOk → fabricUp s l = true → (s.link l).measured + 1024 ≤ s.turn →
      ∃ t, exec (.delayRemeasure l { frame := f, phase := phase }) s = .next t ∧ t.reg (linkReg l Reg.LINK_DELAY) = measuredDelay s f phase % 2 ^ 32 ∧
        (∀ x, x ≤ s.time.now → s.time.now - x < 2 ^ 30 → f.echo = x % 2 ^ 32 → f.turnaround ≤ 16 * (s.time.now - x) →
          2 * measuredDelay s f phase ≤ 16 * (s.time.now - x) + phase % 16 - f.turnaround ∧
          16 * (s.time.now - x) + phase % 16 - f.turnaround ≤ 2 * measuredDelay s f phase + 1) ∧
        (t.link l).measured = s.turn ∧
        (ftRole s = 0 → ftParent s = l →
          t.reg (ftReg Reg.FT_DELAY) = unsigned 32 ((measuredDelay s f phase : Int) + signed 32 (s.reg (ftReg Reg.FT_ASYM)))) ∧
        (∀ k, k ≠ linkReg l Reg.LINK_DELAY → k ≠ ftReg Reg.FT_DELAY → t.reg k = s.reg k) ∧ t = { s with regs := t.regs, net := t.net }) ∧
    (∀ (s : State) (l phase : Nat) (f : TimeFrame), (fabricUp s l = false ∨ s.turn < (s.link l).measured + 1024) →
      exec (.delayRemeasure l { frame := f, phase := phase }) s = .next s) ∧
    (∀ (s : State), s.regsOk → 16 ≤ s.time.near →
      ∃ t, exec .acquired s = .next t ∧ ftFlag t 0 = true ∧ (∀ k, k ≠ ftReg Reg.FT_STATUS → t.reg k = s.reg k) ∧ t = { s with regs := t.regs }) ∧
    (∀ (s : State), s.regsOk → (ftRole s = 0 ∧ fabricUp s (ftParent s) = false) ∨ (ftRole s ≠ 0 ∧ 16 ≤ s.time.loopsSilent) ∨
        s.time.refclk = false →
      ∃ t, exec .holdover s = .next t ∧ ftFlag t 1 = true ∧ t.time = s.time ∧ (ftFlag s 1 = true → t = s) ∧ t = { s with regs := t.regs, belt := t.belt }) ∧
    (∀ (s : State) (h : PortHead) (tag t1 t2 t3 : Nat) (rate : Int), s.regsOk → s.portTakes 8 h = true → s.time.asked = some (tag, t1) → ftRole s ≠ 0 →
      s.time.now - t1 ≤ 100000 → s.time.refclk = true →
      let off : Int := 8 * (((t2 : Int) - t1) + ((t3 : Int) - s.time.now))
      ∃ t, exec (.timeExchange h tag { t2 := t2, t3 := t3 } rate) s = .next t ∧ t.time.asked = none ∧ t.time.loopsSilent = 0 ∧ t.time.exchanged = true ∧
        t.time.now = s.time.now + (if s.time.exchanged then 0 else (off / 16).toNat) ∧ ftFlag t 1 = false ∧
        t.reg (ftReg Reg.FT_OFFSET) = unsigned 32 off ∧ t = { s with regs := t.regs, port := t.port, time := t.time, boot := t.boot } ∧ t.boot.pwrgood = s.boot.pwrgood ∧ t.boot.inReset = s.boot.inReset ∧ t.boot.flash = s.boot.flash) ∧
    (∀ (s : State), s.regsOk → s.tablesOk → bf (s.reg (hPage 0x0B + Reg.BOOT_STEP)) 3 0 = 9 → 1000 ≤ s.time.loopsSilent →
      ∃ t, exec .timeNotAcquired s = .next t ∧ Posted s t 63 Cause.timeNotAcquired 0 ∧
        (bf (s.reg (hPage 0x0B + Reg.BOOT_FAIL)) 7 0 = 0 → bf (t.reg (hPage 0x0B + Reg.BOOT_FAIL)) 7 0 = 11) ∧ t = { s with regs := t.regs, belt := t.belt }) ∧
    (∀ (s : State), s.regsOk → s.tablesOk → s.time.refclk = true →
      ∃ t, exec .refclkLost s = .next t ∧ t.time = { s.time with refclk := false } ∧ ftFlag t 1 = true ∧
        Posted s t 63 Cause.referenceClockLost 0 ∧ t = { s with regs := t.regs, belt := t.belt, time := t.time } ∧ t.time.now = s.time.now) ∧
    (∀ (s : State), s.regsOk → s.tablesOk → s.time.refclk = false →
      ∃ t, exec .refclkReturn s = .next t ∧ t.time = { s.time with refclk := true } ∧ Posted s t 63 Cause.referenceClockReturned 0 ∧
        (ftRole s = 0 → fabricUp s (ftParent s) = true → ftFlag t 1 = false) ∧ t = { s with regs := t.regs, belt := t.belt, time := t.time } ∧ t.time.now = s.time.now) ∧
    (∀ (s : State) (due : Nat), s.regsOk → s.tablesOk → s.time.alarm = some due → due ≤ s.turn →
      ∃ t, exec .fabricTimeAlarm s = .next t ∧ t.time = { s.time with alarm := none } ∧ ftFlag t 3 = true ∧
        Posted s t 63 Cause.fabricTimeAlarm (s.reg64 (ftReg Reg.FT_ALARM_LO) % 2 ^ 54) ∧ t = { s with regs := t.regs, belt := t.belt, wake := t.wake, sideband := t.sideband, time := t.time, power := t.power } ∧ t.time.now = s.time.now ∧ t.power.tripped = s.power.tripped)

/-- O38. Training, light, acknowledgement and replay of a link. R345, R346, R351 to R355, R365, R399, R400, R489, R506,
R548, R562: a link whose lanes, peer and delay agree comes up; crossed, dark or mismatched it does not; an open fibre
found in training is dark, and with HALF_OK the link runs on four lanes; in step 8 of bring-up it trains in mode off,
which leaves its lanes and lane map; lost light narrows or fences it; an acknowledgement frees what it covers, and a
NAK sends the rest again in order as far as credits last; the cycles that frames waited for credits, the control flit
and the resends are counted; the eighth replay retrains, and what is not acknowledged is kept. That a peer that does
not answer counts as a mode mismatch, and how replays are counted, is log entry 142; that a fenced link keeps nothing,
log entry 143; both are the model's reading. -/
def Obligations.LinkLayer : Prop :=
  (∀ (s : State) (l : Nat) (tr : Training) (p q : Nat), s.regsOk → s.tablesOk → l < 24 → (linkStateOf s l = 1 ∨ linkStateOf s l = 7) → bf (s.reg (hPage 0x0B + Reg.BOOT_STEP)) 3 0 ≠ 8 → 
      bf (s.reg (linkReg l Reg.LINK_CTRL)) 1 0 = 1 → tr.crossed = false → (setBits tr.lanes 8).length = 8 →
      tr.peer = some (p, q, 1) → tr.delay ≤ 160000 →
      ∃ t, exec (.linkTrainingComplete l tr) s = .next t ∧ linkStateOf t l = 2 ∧ linkModeNow t l = 1 ∧
        t.reg (linkReg l Reg.LINK_DELAY) = tr.delay ∧ t.reg (linkReg l Reg.LINK_PEER) = p % 1024 + 1024 * (q % 32) + 32768 ∧ t = { s with regs := t.regs, belt := t.belt, net := t.net, tenant := t.tenant } ∧ t.tenant.keys = s.tenant.keys ∧ t.tenant.loads = s.tenant.loads) ∧
    (∀ (s : State) (l : Nat) (tr : Training), s.regsOk → s.tablesOk → l < 24 → (linkStateOf s l = 1 ∨ linkStateOf s l = 7) →
      ∃ t, exec (.linkTrainingComplete l tr) s = .next t ∧
        (tr.crossed = true → linkStateOf t l = 5 ∧ t.link l = {}) ∧
        (tr.crossed = false → bf (s.reg (hPage 0x0B + Reg.BOOT_STEP)) 3 0 = 8 → linkStateOf t l = 0 ∧ linkModeNow t l = 0 ∧ t.link l = s.link l ∧
          bf (t.reg (linkReg l Reg.LINK_STATE)) 15 8 = tr.lanes % 256 ∧ t.reg (linkReg l Reg.LINK_LANEMAP) = tr.laneMap % 2 ^ 32) ∧
        (tr.crossed = false → bf (s.reg (hPage 0x0B + Reg.BOOT_STEP)) 3 0 ≠ 8 → bf (s.reg (linkReg l Reg.LINK_CTRL)) 1 0 = 1 → (setBits tr.lanes 8).length < 4 → linkStateOf t l = 4 ∧ t.link l = {}) ∧
        (tr.crossed = false → bf (s.reg (hPage 0x0B + Reg.BOOT_STEP)) 3 0 ≠ 8 → bf (s.reg (linkReg l Reg.LINK_CTRL)) 1 0 = 1 → bit (s.reg (linkReg l Reg.LINK_CTRL)) 5 = 1 →
          4 ≤ (setBits tr.lanes 8).length → (setBits tr.lanes 8).length < 8 → (∃ p q, tr.peer = some (p, q, 1)) → tr.delay ≤ 160000 →
          linkStateOf t l = 3 ∧ linkModeNow t l = 1 ∧ PostedIn s t (56 + l / 4) Cause.dark ((setBits (255 - tr.lanes % 256) 8).headD 0)) ∧
        (tr.crossed = false → bf (s.reg (hPage 0x0B + Reg.BOOT_STEP)) 3 0 ≠ 8 → bf (s.reg (linkReg l Reg.LINK_CTRL)) 1 0 = 1 → (setBits tr.lanes 8).length = 8 → tr.peer = none →
          linkStateOf t l = 1 ∧ (t.link l).mismatch = true ∧ (t.link l).replay = (s.link l).replay ∧ (t.link l).again = (s.link l).again)) ∧
    (∀ (s : State) (l : Nat) (tr : Training) (p q : Nat), s.regsOk → s.tablesOk → l < 24 → linkStateOf s l = 1 → (s.link l).mismatch = true →
      bf (s.reg (linkReg l Reg.LINK_CTRL)) 1 0 = 1 → (setBits tr.lanes 8).length = 8 → tr.peer = some (p, q, 1) → tr.delay ≤ 160000 →
      ∃ t, exec (.modeMismatchRetry l tr) s = .next t ∧ linkStateOf t l = 2 ∧ linkModeNow t l = 1 ∧ (t.link l).mismatch = false ∧ t = { s with regs := t.regs, belt := t.belt, net := t.net, tenant := t.tenant } ∧ t.tenant.keys = s.tenant.keys ∧ t.tenant.loads = s.tenant.loads) ∧
    (∀ (s : State) (l lane : Nat), s.regsOk → s.tablesOk → l < 24 → linkUp s l = true → lane < 8 →
      let left := (setBits (setBit (bf (s.reg (linkReg l Reg.LINK_STATE)) 15 8) lane false) 8).length
      ∃ t, exec (.lightLoss l lane) s = .next t ∧
        linkStateOf t l = (if linkModeNow s l = 1 ∧ 4 ≤ left ∧ bit (s.reg (linkReg l Reg.LINK_CTRL)) 5 = 1 then 3 else 4) ∧ t = { s with regs := t.regs, belt := t.belt, net := t.net, sideband := t.sideband }) ∧
    (∀ (s : State) (lane : Nat), s.regsOk → portUp s = true → lane < 2 →
      ∃ t, exec (.lightLoss 24 lane) s = .next t ∧ bit (bf (t.reg (portReg Reg.PORT_STATE)) 5 4) lane = 1 ∧
        bf (t.reg (portReg Reg.PORT_STATE)) 1 0 = (if bf (s.reg (portReg Reg.PORT_STATE)) 5 4 ||| 2 ^ lane = 3 then 0 else 2)) ∧
    (∀ (s : State) (l ack : Nat) (nak : Option Nat) (c : CreditReport), s.regsOk → s.tablesOk → fabricUp s l = true →
      ∃ t, exec (.controlFrame l ack nak c) s = .next t ∧
        (t.link l).freed = padTo 4 0 (c.freed.map fun v => v % 65536) ∧ (t.link l).rx = (s.link l).rx ∧
        t.reg64 (linkReg l Reg.LINK_RX_LO) = satAdd 64 (s.reg64 (linkReg l Reg.LINK_RX_LO)) 1 ∧
        t.reg (linkReg l Reg.LINK_CRED_STALL) =
          (if creditStall s l = true then satAdd 32 (s.reg (linkReg l Reg.LINK_CRED_STALL)) c.stall else s.reg (linkReg l Reg.LINK_CRED_STALL)) ∧
        t.reg (linkReg l Reg.LINK_FEC_CORR) = satAdd 32 (s.reg (linkReg l Reg.LINK_FEC_CORR)) c.corrected % 2 ^ 32 ∧
        t.reg (linkReg l Reg.LINK_FEC_UNCORR) = satAdd 32 (s.reg (linkReg l Reg.LINK_FEC_UNCORR)) c.lost % 2 ^ 32 ∧
        (nak = none → (ackUpTo (s.link l) ack).replay <+: (t.link l).replay) ∧
        (nak = none → (s.link l).tx = [] → (ackUpTo (s.link l) ack).resend = 0 →
          t.link l = { ackUpTo (s.link l) ack with freed := padTo 4 0 (c.freed.map fun v => v % 65536) }) ∧ t = { s with regs := t.regs, net := t.net, tenant := t.tenant } ∧ t.tenant.keys = s.tenant.keys ∧ t.tenant.loads = s.tenant.loads) ∧
    (∀ (s : State) (l ack q : Nat) (c : CreditReport), s.regsOk → s.tablesOk → fabricUp s l = true → (s.link l).tx = [] →
      (s.link l).waking = false →
      let k := ackUpTo (s.link l) ack
      let rest := if (k.replay.any fun x => x.frame.seq == q) = true then (ackUpTo k ((q + 4095) % 4096)).replay else k.replay
      ∃ t, exec (.controlFrame l ack (some q) c) s = .next t ∧ (t.link l).replay = rest ∧
        t.reg (linkReg l Reg.LINK_REPLAYS) = satAdd 32 (s.reg (linkReg l Reg.LINK_REPLAYS)) (rest.length - (t.link l).resend) ∧
        (t.link l).resend ≤ rest.length ∧
        (∀ x, rest[rest.length - (t.link l).resend]? = some x → creditsOf (t.link l) x.frame.vc < flitsOf x.frame) ∧ t = { s with regs := t.regs, net := t.net, tenant := t.tenant } ∧ t.tenant.keys = s.tenant.keys ∧ t.tenant.loads = s.tenant.loads) ∧
    (∀ (s : State) (l : Nat), s.regsOk → s.tablesOk → l < 24 → linkUp s l = true → 8 ≤ (s.link l).tries →
      ∃ t, exec (.replayLimit l) s = .next t ∧ linkStateOf t l = 7 ∧ t.link l = { s.link l with again := true } ∧
        (∀ n, n ≠ l → t.link n = s.link n) ∧
        t.reg (linkReg l Reg.LINK_RETRAINS) = satAdd 32 (s.reg (linkReg l Reg.LINK_RETRAINS)) 1 % 2 ^ 32 ∧
        bit (t.reg (hPage 4 + Reg.PART_HEALTH + 4 * (l / 3))) (16 + l % 3) = 0 ∧ t = { s with regs := t.regs, net := t.net }) ∧
    (∀ (s : State), s.regsOk → portUp s = true → 8 ≤ s.port.tries →
      ∃ t, exec (.replayLimit 24) s = .next t ∧ bf (t.reg (portReg Reg.PORT_STATE)) 1 0 = 1 ∧ t = { s with regs := t.regs })

/-- O39. Frames that come by the links. R296, R351, R352, R357, R358, R361, R366, R372, R390, R442, R477, R513: a frame
that comes in order is taken once, its SEQ expected next advances, and the unit of its type acts on it, as
ExchangeDelivered and ReduceAndGatherDelivered say further; a frame for another package is cut through, held or
dropped where no route is; a reduction frame that passes through the adder of its member is cut through on the same
conditions, and otherwise held in its receive buffer; one for this package is dropped and counted while it is caught
or its slot parts, and held while the C-dies sleep or an earlier one of its channel is held; a wake frame that wakes
is held until Run; a frame that fails its CRC leaves a NAK standing and changes nothing else. -/
def Obligations.FramesTaken : Prop :=
  (∀ (s : State) (l : Nat) (f : Frame) (n : Nat), s.tablesOk → fabricUp s l = true → f.seq = (s.link l).expect →
      (s.taken l f n).link l = { s.link l with expect := ((s.link l).expect + 1) % 4096, nak := false } ∧
        s.taken l f n = { s with regs := (s.taken l f n).regs, net := (s.taken l f n).net }) ∧
    (∀ (s : State) (l : Nat) (f : Frame) (n : Nat) (tagOk : Bool), s.tablesOk → s.frameHere l f 2 (f.dsp == 0) = true →
      exec (.xchgFrame l f (.good n) tagOk) s = .next (takeXchg (s.taken l f n) l f tagOk)) ∧
    (∀ (s : State) (l : Nat) (f : Frame) (n : Nat), s.tablesOk → s.frameHere l f 1 true = true →
      let t := s.taken l f n
      (passLink t f = none → exec (.reduceFrame l f (.good n)) s =
        .next (runHops t (hopFuel [{ frame := f, link := some l }]) [{ frame := f, link := some l }])) ∧
      (∀ out, passLink t f = some out → cutsAdder t l out f = true → exec (.reduceFrame l f (.good n)) s =
        .next (runHops t (hopFuel [{ frame := f, link := some l }]) [{ frame := f, link := some l }])) ∧
      (∀ out, passLink t f = some out → cutsAdder t l out f = false → exec (.reduceFrame l f (.good n)) s =
        .next (setLink t l { t.link l with rx := (t.link l).rx ++ [f] }))) ∧
    (∀ (s : State) (l : Nat) (f : Frame) (n : Nat), s.tablesOk → s.frameHere l f 3 false = true →
      exec (.gatherRequest l f (.good n)) s = .next (takeGatherReq (s.taken l f n) l f)) ∧
    (∀ (s : State) (l : Nat) (f : Frame) (n : Nat), s.tablesOk → s.frameHere l f 4 true = true →
      exec (.gatherResponse l f (.good n)) s = .next (takeGatherResp (s.taken l f n) l f)) ∧
    (∀ (s : State) (l : Nat) (f : Frame) (n : Nat), s.tablesOk → s.frameHere l f 5 true = true →
      exec (.switchPiece l f (.good n)) s = .next (takePiece (s.taken l f n) l f)) ∧
    (∀ (s : State) (l : Nat) (f : Frame) (n : Nat), s.regsOk → s.tablesOk → s.frameHere l f 8 false = true →
      ∃ t, exec (.linkWakeFrame l f (.good n)) s = .next t ∧
        (s.wakesBy 0 = true → psState s ≠ 3 → (t.link l).rx = (s.link l).rx ++ [f] ∧ (t.link l).back = (s.link l).back ∧ WakeBegun s t 0) ∧
        (sleeping s = false ∨ psState s = 3 ∨ bit (s.reg (psReg Reg.PS_WAKE_EN)) 0 = 0 → t = freeFlits (s.taken l f n) l f)) ∧
    (∀ (s : State) (l : Nat) (f : Frame) (n : Nat), s.tablesOk → fabricUp s l = true → f.seq = (s.link l).expect → f.dst ≠ selfId s →
      ∀ r ∈ frameRows, f.type = r.type → exec (r.command l f (.good n)) s = .next (forward (s.taken l f n) l f)) ∧
    (∀ (s : State) (l : Nat) (f : Frame), s.regsOk → s.tablesOk → l < 24 →
      (transitLink s f = none → (forward s l f).reg (rtReg Reg.RT_NOROUTE) = satAdd 32 (s.reg (rtReg Reg.RT_NOROUTE)) 1 % 2 ^ 32 ∧
        (forward s l f).mem = s.mem) ∧
      (∀ out, transitLink s f = some out → out ≠ l → cutPath s l out f = true →
        ((forward s l f).link out).replay = (s.link out).replay ++ [{ frame := { f with seq := (s.link out).nextSeq } }] ∧
        ((forward s l f).link l).rx = (s.link l).rx ∧ (forward s l f).mem = s.mem) ∧
      (∀ out, transitLink s f = some out → cutPath s l out f = false →
        forward s l f = setLink s l { s.link l with rx := (s.link l).rx ++ [f] })) ∧
    (∀ (s : State) (l : Nat) (f : Frame) (n : Nat), s.regsOk → s.tablesOk → fabricUp s l = true → f.seq = (s.link l).expect → f.dst = selfId s →
      ∀ r ∈ frameRows, f.type = r.type →
        ∃ t, exec (r.command l f (.good n)) s = .next t ∧
          (s.catching.caught = true → t.mem = s.mem ∧ t.seq = s.seq ∧
            t.reg (catchReg Reg.CATCH_DROPS) = satAdd 32 (s.reg (catchReg Reg.CATCH_DROPS)) 1 % 2 ^ 32) ∧
          (∀ k < 64, s.catching.caught = false → frameParting s f = some k → t.mem = s.mem ∧ t.seq = s.seq ∧
            t.reg (slotKey (Reg.PART_CNT + 24) k) = satAdd 32 (s.reg (slotKey (Reg.PART_CNT + 24) k)) 1 % 2 ^ 32) ∧
          (s.catching.caught = false → frameParting s f = none → r.near f = true → sleeping s = true →
            (t.link l).rx = (s.link l).rx ++ [f] ∧ t.mem = s.mem ∧ t.seq = s.seq) ∧
          (s.catching.caught = false → frameParting s f = none → r.near f = false → ((s.link l).rx.any fun g => g.vc == f.vc && g.dst == selfId s) = true →
            (t.link l).rx = (s.link l).rx ++ [f] ∧ t.mem = s.mem ∧ t.seq = s.seq)) ∧
    (∀ (s : State) (l n : Nat) (f : Frame), s.tablesOk → fabricUp s l = true → f.type = 2 → ∀ tagOk,
      ∃ t, exec (.xchgFrame l f (.crc n) tagOk) s = .next t ∧ (t.link l).nak = true ∧ (t.link l).expect = (s.link l).expect ∧
        t = { s with regs := t.regs, net := t.net })

/-- O40. A reduction frame at its member, a gather request and response, and a switch piece. R296, R297, R301, R302, R358,
R372 to R382: a reduction frame whose tag no member has registered is held; at a member its flags are taken up; a run
of the own shard is added in and, when all have come, the shard is converted and written, padding left out; a run of
another shard goes on with its sum and one of an ordered reduction is kept; a frame that disagrees makes the shard NaN
and posts; a gather request is answered with the header's stamp and the image's bytes in order; a response is kept
until the image is whole, then converted and written, and a refusal or another stamp makes it stale; a piece's bytes
are written where its group's slot is the sender's, and its token goes once all have come; a request for an image in a
channel that retrains waits for it. The layout of the type-specific fields and the core that DADDR names are log
entries 44 and 42, and what a member does with frames that disagree or name no shard, log entries 43 and 144: the
model's choices. -/
def Obligations.ReduceAndGatherDelivered : Prop :=
  (∀ (s : State) (l : Nat) (f : Frame) (n : Nat), s.tablesOk → s.frameHere l f 1 true = true →
      redFlight s (nsCluster f.daddr) (nsCore f.daddr) (redHead f.tspec).tag = none →
      ∃ t, exec (.reduceFrame l f (.good n)) s = .next t ∧ t.net.held = s.net.held ++
        [{ frame := f, cl := nsCluster f.daddr, core := nsCore f.daddr, link := some l, turn := s.turn }] ∧ t.mem = s.mem ∧ t.seq = s.seq) ∧
    (∀ (s : State) (l : Nat) (f : Frame) (n : Nat) (fl : Flight) (r : RedWork), s.tablesOk → s.frameHere l f 1 true = true →
      redFlight s (nsCluster f.daddr) (nsCore f.daddr) (redHead f.tspec).tag = some (fl, r) →
      (passLink (s.taken l f n) f = none ∨ ∃ out, passLink (s.taken l f n) f = some out ∧ cutsAdder (s.taken l f n) l out f = true) →
      (redAt (freeFlits (s.taken l f n) l f) fl r f).2 = [] →
      exec (.reduceFrame l f (.good n)) s = .next (redAt (freeFlits (s.taken l f n) l f) fl r f).1) ∧
    (∀ (s : State) (fl : Flight) (r : RedWork) (f : Frame), s.regsOk → s.idsOk → fl ∈ s.seq.flights → fl.work = .reduce r →
      let h := redHead f.tspec
      let y := redAt s fl r f
      (∀ b < 2, bit h.flags b = 1 → liveFlag y.1 fl.cl b = true) ∧
      (h.fsync = true → Ent.rdFsync fl.entry = true → redWork y.1 fl.id = some { (redWork y.1 fl.id).getD r with passes := r.passes + 1 } ∧
        y.1.mem = s.mem ∧ (r.own ≠ 0 → r.passes ≠ 0 → ∀ b < 4, syncFlag y.1 fl.cl b = (bit h.flags b == 1)) ∧
        (r.own = 0 → r.passes = 0 → ∀ b < 4, syncFlag y.1 fl.cl b = (bit h.flags b == 1)) ∧ (r.own = 0 → r.passes ≠ 0 → y.2 = [])) ∧
      (h.fsync = false ∨ Ent.rdFsync fl.entry = false → shardOf r.list h.off = none → y.2 = [] ∧ y.1.mem = s.mem ∧
        PostedLate s y.1 (fl.cl / 9) Cause.bucketMismatch f.src) ∧
      (∀ o, redAgrees fl r f o → Ent.canon fl.entry = false → o = r.own → r.written = false →
        let n := runOf h (glMember r.list o)
        let sums := List.zipWith waAdd ((runUnits (Ent.fmtA fl.entry) (Ent.blkA fl.entry) n f.payload).flatMap (·.2)) (contribution s fl h.off n)
        let parts := r.parts ++ [{ member := r.own, off := h.off, bytes := packRun 0xA [(127, sums.map fmtWA48.roundBits)] }]
        y.2 = [] ∧ (n < r.need → redWork y.1 fl.id = some { r with parts := parts, need := r.need - n } ∧ y.1.mem = s.mem) ∧
        (r.need ≤ n → y.1.mem = (writeShard s fl r (partValues parts r.own)).mem ∧ ∃ q, redWork y.1 fl.id = some q ∧ q.written = true ∧ q.need = 0)) ∧
      (∀ o, redAgrees fl r f o → Ent.canon fl.entry = false → o ≠ r.own →
        y.1.mem = s.mem ∧ ∃ q, redWork y.1 fl.id = some q ∧ q.rest = r.rest - runOf h (glMember r.list o) ∧ q.need = r.need ∧ q.parts = r.parts ∧
          q.written = r.written) ∧
      (∀ o i m, redAgrees fl r f o → Ent.canon fl.entry = true → r.written = false → h.nc = glNc r.list →
        ((glMembers r.list).zipIdx.find? fun (x : Member × Nat) =>
          x.2 != r.own && x.1.pkg == f.src && x.1.cfirst == h.cfirst && x.1.ccount == h.ccount) = some (m, i) →
        (r.parts.any fun p => p.member == i && p.off == h.off) = false →
        let n := runOf h (glMember r.list o)
        let parts := r.parts ++ [{ member := i, off := h.off, bytes := f.payload.take (8 * n) }]
        y.2 = [] ∧ (n < r.need → redWork y.1 fl.id = some { r with parts := parts, need := r.need - n } ∧ y.1.mem = s.mem) ∧
        (r.need ≤ n → ∃ q, redWork y.1 fl.id = some q ∧ q.written = true)) ∧
      (∀ o, shardOf r.list h.off = some o → redDiffers fl h → ¬ (h.fsync = true ∧ Ent.rdFsync fl.entry = true) →
        PostedLate s y.1 (fl.cl / 9) Cause.bucketMismatch f.src ∧
        (o = r.own → r.written = false → y.2 = [] ∧ liveFlag y.1 fl.cl 0 = true ∧ ∃ q, redWork y.1 fl.id = some q ∧ q.written = true) ∧
        (o ≠ r.own → y.1.mem = s.mem ∧ ∃ q, redWork y.1 fl.id = some q ∧ q.rest = r.rest - runOf h (glMember r.list o)))) ∧
    (∀ (s : State) (fl : Flight) (r : RedWork) (vs : List Machine.Num), (writeShard s fl r vs).mem =
      (nsWriteImage s (flightCtx s fl (redCore fl.entry)) fl.cl (redCore fl.entry) (Ent.rdDst fl.entry)
        ((convertTensor (convParams fl.entry fl.seed (if glP r.list = 1 then Ent.fmtA fl.entry else 0xA) (Ent.grad fl.entry))
          (fun i => (glMember r.list r.own).first + i) (fun _ => true) vs).writes.filter fun w =>
            !paddingByte (Ent.fmtD fl.entry) (Ent.blkD fl.entry) vs.length w.1)).mem) ∧
    (∀ (s : State) (f : Frame) (n out : Nat), gHeld s f.daddr (256 + n) = false → imageRefuse s none f.daddr (256 + n) = none → n ≤ 2 ^ 32 →
      (∀ g ∈ imageFrames s f (256 + n), g.type = 4 ∧ g.dst = f.src ∧ g.daddr = bf f.tspec 83 48 ∧ bf g.tspec 47 32 = bf f.tspec 47 32 ∧
        g.tspec % 2 ^ 32 = viewLE (fun i => gByte s (f.daddr + i)) 0 4 % 2 ^ 32 ∧ bit g.tspec 105 = 0) ∧
      ((imageFrames s f (256 + n)).flatMap fun g => g.payload) = gBytes s (f.daddr + 256) n ∧
      (sourceLinks s f.src 0xFFFFFF = [out] → ∀ c : Ctx,
        (answerGather s c f (256 + n)).net = (sendFrames (gNote s c f.daddr (256 + n)) [out] none (imageFrames s f (256 + n))).net)) ∧
    (∀ (s : State) (f : Frame) (c : Ctx) (n : Nat), gHeld s f.daddr n = true →
      answerGather s c f n = { s with net.asks := s.net.asks ++ [f] }) ∧
    (∀ (s : State) (l : Nat) (f : Frame), responseFor s f = none → takeGatherResp s l f = freeFlits s l f) ∧
    (∀ (s : State) (l : Nat) (f : Frame) (fl : Flight) (src : GatherSource) (g : GatherWork), s.regsOk → s.idsOk → responseFor s f = some (fl, src) →
      fl.work = .gather g →
      let got := src.got.filter (fun x => x.1 != bf f.tspec 103 80) ++ [(bf f.tspec 103 80, f.payload)]
      let found := src.found.orElse fun _ => staleStamp (Ent.gaStamp fl.entry) f
      let t := takeGatherResp s l f
      (bit f.tspec 105 = 1 → t.mem = s.mem ∧ liveFlag t fl.cl 1 = true ∧ s.sourceIs t fl.id src { src with done := true, got := [] }) ∧
      (bit f.tspec 105 = 0 → assembled (imageLen (Ent.gaTfmt fl.entry) (Ent.gaTblk fl.entry) src.count) got = none → t.mem = s.mem ∧
        s.sourceIs t fl.id src { src with got := got, found := found }) ∧
      (∀ data, bit f.tspec 105 = 0 → assembled (imageLen (Ent.gaTfmt fl.entry) (Ent.gaTblk fl.entry) src.count) got = some data →
        t.mem = (nsWriteImage s (flightCtx s fl src.core) fl.cl src.core src.line
          (computeImage (Ent.gaTfmt fl.entry) (Ent.gaCfmt fl.entry) (Ent.gaTblk fl.entry) src.count data)).mem ∧
        s.sourceIs t fl.id src { src with done := true, got := [] } ∧ (found ≠ none → liveFlag t fl.cl 1 = true))) ∧
    (∀ (s : State) (l : Nat) (f : Frame), let base := bf f.tspec 41 6
      let len := bf f.tspec 64 42
      let cl := nsCluster base
      let slot := if bit f.tspec 65 = 1 then some f.tslot else none
      let got := ((s.net.pieces.find? fun x => x.src == f.src && x.base == base).map (·.got)).getD 0 + f.payload.length
      let t := takePiece s l f
      nsFieldOk base = true → nsFieldOk f.daddr = true → nsCluster f.daddr = cl →
      (pieceOk s cl slot = true → f.daddr % 2 ^ 22 + f.payload.length ≤ 2 ^ 22 →
        t.mem = (nsWriteRun s (epCtx s cl (nsCore f.daddr)) f.daddr f.payload).mem) ∧
      (pieceOk s cl slot = false → len ≠ 0 → t.mem = s.mem) ∧
      (got < len → t.net.pieces = (s.net.pieces.filter fun x => !(x.src == f.src && x.base == base)) ++ [{ src := f.src, base := base, got := got }]) ∧
      (len ≤ got → t.net.pieces = (s.net.pieces.filter fun x => !(x.src == f.src && x.base == base)) ∧
        (s.regsOk → s.tablesOk → cl < 432 → bit f.tspec 5 = 1 → s.token cl (f.tspec % 32) < 65535 →
          (∀ p < 8, (s.prog cl p).wait = .none) →
          t.token cl (f.tspec % 32) = s.token cl (f.tspec % 32) + 1)))

/-- O41. An exchange frame writes its rows, or is dropped with its cause. R361, R362, R390, R391, R522, R523: a frame
whose slot has its link key, whose tag verifies and whose slot is that of the cluster it names writes its payload at
its near-SRAM address and nothing else; without a key, with a bad tag, or for another slot's cluster, it writes
nothing and is counted or posted. A frame of a mirror copy (DSP 1) from the partner clears the copy's step number
where it is the first of its exchange, writes its rows as they come (where no channel retrains), and once as many as
it counts have been written the header's step number is written, PAIR_LAST shows it and a frame without payload goes
back to the sending cluster; one from another package, beyond the area or without a pairing is refused with its event.
How a mirror frame names its copy is log entry 40, and that an exchange without row 0 leaves the step number zero, log
entry 159: the model's choices. -/
def Obligations.ExchangeDelivered : Prop :=
  (∀ (s : State) (l : Nat) (f : Frame), s.tablesOk → linkKeyOk s f.tslot = true → f.dsp ≠ 1 → nsCluster f.daddr ≤ 431 → bf f.daddr 29 26 ≤ 8 →
      actingSlot s (nsCluster f.daddr) = some f.tslot → f.daddr % 2 ^ 22 + f.payload.length ≤ 2 ^ 22 →
      (takeXchg s l f true).mem =
        (nsWriteRun s (epCtx s (nsCluster f.daddr) (nsCore f.daddr)) (nsAddr (nsCluster f.daddr) (nsCore f.daddr) (f.daddr % 2 ^ 22)) f.payload).mem) ∧
    (∀ (s : State) (l : Nat) (f : Frame) (tagOk : Bool), s.regsOk → l < 24 → linkKeyOk s f.tslot = false →
      (takeXchg s l f tagOk).mem = s.mem ∧ (takeXchg s l f tagOk).seq = s.seq ∧
        (takeXchg s l f tagOk).reg (linkReg l Reg.LINK_ENC_DROP) = satAdd 32 (s.reg (linkReg l Reg.LINK_ENC_DROP)) 1 % 2 ^ 32) ∧
    (∀ (s : State) (l : Nat) (f : Frame), s.regsOk → s.tablesOk → l < 24 → linkKeyOk s f.tslot = true →
      (takeXchg s l f false).mem = s.mem ∧ (takeXchg s l f false).seq = s.seq ∧
        (takeXchg s l f false).reg (linkReg l Reg.LINK_AUTH_FAIL) = satAdd 32 (s.reg (linkReg l Reg.LINK_AUTH_FAIL)) 1 % 2 ^ 32 ∧
        Posted s (takeXchg s l f false) (56 + l / 4) Cause.linkIntegrity f.src) ∧
    (∀ (s : State) (l : Nat) (f : Frame), s.tablesOk → linkKeyOk s f.tslot = true → f.dsp ≠ 1 → nsCluster f.daddr ≤ 431 → bf f.daddr 29 26 ≤ 8 →
      actingSlot s (nsCluster f.daddr) ≠ some f.tslot →
      (takeXchg s l f true).mem = s.mem ∧ Posted s (takeXchg s l f true) (nsCluster f.daddr / 9) Cause.outsidePartition f.daddr) ∧
    (∀ (s : State) (l : Nat) (f : Frame), s.regsOk → s.tablesOk → linkKeyOk s f.tslot = true → f.dsp = 1 →
      (f.src ≠ bf (s.reg (pairReg Reg.PAIR_PARTNER)) 9 0 ∨ pairState s = 0 ∨ mirrorSize s < f.daddr % 2 ^ 38 + f.payload.length ∨ 2 ^ 39 ≤ f.daddr) →
      takeXchg s l f true = post (freeFlits s l f) (hPage 0x0E) { cause := Cause.mirrorRefused, die := 63, time := s.time.now, pkg := f.src, link := l } ∧
        Posted s (takeXchg s l f true) 63 Cause.mirrorRefused 0) ∧
    (∀ (s : State) (l : Nat) (f : Frame), s.regsOk → s.tablesOk → linkKeyOk s f.tslot = true → f.dsp = 1 → pairState s ≠ 0 →
      f.src = bf (s.reg (pairReg Reg.PAIR_PARTNER)) 9 0 → f.daddr % 2 ^ 38 + f.payload.length ≤ mirrorSize s → f.daddr < 2 ^ 39 →
      mirrorBase s (f.daddr / 2 ^ 38) + mirrorSize s ≤ 2 ^ 39 → (∀ w < 8, ∀ k < 8, chState s w k ≠ 3) →
      let copy := f.daddr / 2 ^ 38
      let off := f.daddr % 2 ^ 38
      let sender := bf f.tspec 36 23
      let base := mirrorBase s copy
      let old := s.net.mirror.find? fun m => m.copy == copy && m.sender == sender && m.last.tspec % 32 == f.tspec % 32
      let got := (old.map (·.got)).getD 0 + 1
      let step := if off = 0 ∧ 16 ≤ f.payload.length then some ((f.payload.drop 8).take 8) else old.bind (·.step)
      let s1 := if old.isNone = true then gWrite (freeFlits s l f) pairCtx (base + 8) (leBytes 8 0) else freeFlits s l f
      let s2 := if off = 0 ∧ 16 ≤ f.payload.length then gWrite (gWrite s1 pairCtx base (f.payload.take 8)) pairCtx (base + 16) (f.payload.drop 16) else gWrite s1 pairCtx (base + off) f.payload
      let s3 := (step.map fun b => gWrite s2 pairCtx (base + 8) b).getD s2
      let t := takeXchg s l f true
      let ack : Frame := { type := 2, vc := 1, enc := true, src := selfId s, dst := f.src, tslot := f.tslot, daddr := nsAddr (epCl sender) (epCore sender) 0, tspec := xTspec (f.tspec % 32) (bit f.tspec 5 == 1) 1 false sender }
      (got < bf f.tspec 21 6 → t.mem = s2.mem ∧ t.regs = s2.regs ∧ t.net.links = s2.net.links ∧
        ∃ m ∈ t.net.mirror, m.copy = copy ∧ m.sender = sender ∧ m.got = got ∧ m.step = step) ∧
      (bf f.tspec 21 6 ≤ got → t.mem = s3.mem ∧
        (off = 0 → 16 ≤ f.payload.length → t.reg64 (pairReg Reg.PAIR_LAST_LO) = leNat ((f.payload.drop 8).take 8)) ∧
        (step = none → t.reg64 (pairReg Reg.PAIR_LAST_LO) = s.reg64 (pairReg Reg.PAIR_LAST_LO)) ∧
        (pairUp s ≠ [] → t.reg (pairReg Reg.PAIR_ACKS) = satAdd 32 (s.reg (pairReg Reg.PAIR_ACKS)) 1 % 2 ^ 32 ∧
          t.net.links = (sendFrames s3 (pairUp s) none [ack]).net.links) ∧
        (pairUp s = [] → t.net.links = s2.net.links)))

/-- O42. Held frames, lost sources, orphans, timeouts and switch plans. R204, R296, R301 to R304, R358, R368, R373, R377,
R385: a reduction that its time has passed ends with its event, its shard written as canonical NaN where it is no flag
synchronisation; a frame held for no bucket is discarded with its event; a source lost fills its place with zeros; a
plan's descriptors count up to its end, its abort and its deadline; a held frame leaves, is delivered, or is dropped
where no route is. What a flag synchronisation that times out does is log entry 145: the model's choice. -/
def Obligations.FrameEffects : Prop :=
  (∀ (s : State) (f : Nat) (fl : Flight) (r : RedWork), s.regsOk → s.tablesOk → (s.seq.flights.find? fun x => x.id == f) = some fl → fl.work = .reduce r →
      r.turn + 4096 ≤ s.turn → redDone s fl r = false → fl.cl < 432 →
      ∃ t, exec (.reductionTimeout f) s = .next t ∧ t.seq.flights.length < s.seq.flights.length ∧ (∀ x ∈ t.seq.flights, x.id ≠ f) ∧
        liveFlag t fl.cl 0 = true ∧ (Ent.rdFsync fl.entry = true → Posted s t (fl.cl / 9) Cause.reductionTimeout 0 ∧ t.mem = s.mem) ∧
        (Ent.rdFsync fl.entry = false → PostedLate s t (fl.cl / 9) Cause.reductionTimeout 0 ∧
          let w := writeShard s fl r (List.replicate (glMember r.list r.own).len Num.nan)
          (∀ a, a / 256 ≠ recordAddr s fl.cl (Ent.nrec fl.entry) / 256 → sget byteZero t.mem.ns a = sget byteZero w.mem.ns a) ∧
          (Ent.nrec fl.entry = 0 → t.mem = w.mem)) ∧ t = { s with regs := t.regs, seq := t.seq, belt := t.belt, net := t.net, mem := t.mem } ∧ t.mem.gddr = s.mem.gddr ∧ t.mem.gKey = s.mem.gKey ∧ t.mem.gErr = s.mem.gErr ∧ t.mem.crc = s.mem.crc ∧ t.mem.waiting = s.mem.waiting ∧ t.mem.table = s.mem.table ∧ t.mem.tableErr = s.mem.tableErr ∧ t.mem.sand = s.mem.sand ∧ t.mem.partList = s.mem.partList) ∧
    (∀ (code src : Nat) (sat flush : Bool) (rd : Rnd), (convertElem code sat flush rd src Num.nan).bits = canonNaN code) ∧
    fmtWA48.roundBits Num.nan = canonNaN 0xA ∧
    (∀ (p : ConvParams) (real : Nat) (idx : Nat → Nat) (vs : List Machine.Num), p.code ≤ 5 → Num.nan ∈ vs →
      (convertBlock p real idx vs).scale = 255 ∧ (convertBlock p real idx vs).elems = vs.map fun _ => canonNaN p.code) ∧
    (∀ (s : State) (n : Nat) (h : HeldReduce) (l : Nat), s.tablesOk → s.net.held[n]? = some h → h.link = some l → l < 24 → h.turn + 4096 ≤ s.turn →
      ∃ t, exec (.bucketOrphaned n) s = .next t ∧ t.net.held = s.net.held.eraseIdx n ∧
        Posted s t (56 + l / 4) Cause.bucketOrphaned (redHead h.frame.tspec).tag ∧ t = { s with regs := t.regs, belt := t.belt, net := t.net }) ∧
    (∀ (s : State) (f n : Nat) (fl : Flight) (g : GatherWork) (src : GatherSource), s.tablesOk → gatherOf s f = some (fl, g) → g.srcs[n]? = some src →
      src.done = false → g.turn + 4096 ≤ s.turn → fl.cl < 432 → s.regsOk →
      ∃ t, exec (.gatherSourceLost f n) s = .next t ∧ liveFlag t fl.cl 1 = true ∧ s.sourceIs t f src { src with done := true, got := [] } ∧ PostedLate s t (fl.cl / 9) Cause.gatherSourceLost src.addr ∧
        t.mem = (nsWriteRun s (flightCtx s fl src.core) (gatherPlace fl.cl src.core src.line)
          (leBytes (imageLen (Ent.gaCfmt fl.entry) (Ent.gaCblk fl.entry) src.count) 0)).mem ∧ t = { s with regs := t.regs, seq := t.seq, belt := t.belt, mem := t.mem } ∧ t.mem.gddr = s.mem.gddr ∧ t.mem.gKey = s.mem.gKey ∧ t.mem.gErr = s.mem.gErr ∧ t.mem.crc = s.mem.crc ∧ t.mem.waiting = s.mem.waiting ∧ t.mem.table = s.mem.table ∧ t.mem.tableErr = s.mem.tableErr ∧ t.mem.sand = s.mem.sand ∧ t.mem.partList = s.mem.partList) ∧
    (∀ (s : State) (w : Nat), s.regsOk → w < 8 → swState s w = 1 → s.reg (swReg w Reg.SW_ABORT) = 1 →
      ∃ t, exec (.switchDescriptor w) s = .next t ∧ swState t w = 3 ∧ swDone t w = swDone s w ∧ t.reg (swReg w Reg.SW_ABORT) = 0 ∧
        t.reg64 (swReg w Reg.SW_END_LO) = s.turn % 2 ^ 64 ∧ t = { s with regs := t.regs }) ∧
    (∀ (s : State) (w : Nat), s.regsOk → w < 8 → swState s w = 1 → s.reg (swReg w Reg.SW_ABORT) ≠ 1 → swDone s w + 1 < 2 ^ 20 →
      (switchHeld s w (swDone s w) = true → exec (.switchDescriptor w) s = .next s) ∧
      (switchHeld s w (swDone s w) = false →
        ∃ t, exec (.switchDescriptor w) s = .next t ∧ swDone t w = swDone s w + 1 ∧
          swState t w = (if swCount s w ≤ swDone s w + 1 then 2 else 1) ∧ t.mem = (takeSwitch s w (swDone s w)).mem ∧
          t.net = (takeSwitch s w (swDone s w)).net ∧ t = { s with regs := t.regs, seq := t.seq, belt := t.belt, net := t.net, mem := t.mem, tenant := t.tenant } ∧ t.mem.table = s.mem.table ∧ t.mem.tableErr = s.mem.tableErr ∧ t.mem.sand = s.mem.sand ∧ t.mem.partList = s.mem.partList ∧ t.tenant.keys = s.tenant.keys ∧ t.tenant.loads = s.tenant.loads)) ∧
    (∀ (s : State) (w i : Nat), gRefuse s (slotOfPart s w) [w] (swPlan s w + 64 * i) 64 false = none →
      switchRefuse (gNote s (swCtx s w) (swPlan s w + 64 * i) 64) w (switchDescAt s w i) = none → (switchDescAt s w i).send = false → (switchDescAt s w i).image = true →
      let d := switchDescAt s w i
      let r := switchConvert d fun k => gByte s (d.src + k)
      let s1 := gNote (gNote s (swCtx s w) (swPlan s w + 64 * i) 64) (swCtx s w) d.src d.srcLen
      (takeSwitch s w i).mem = (gWrite (gWrite s1 (swCtx s w) (d.img + 256) r.1) (swCtx s w) d.img
        (headBytes d.stamp d.fmt d.blk d.layout d.rows d.klen)).mem) ∧
    (∀ (s : State) (w : Nat), s.regsOk → s.tablesOk → w < 8 → swState s w = 1 → s.reg64 (swReg w Reg.SW_DL_LO) % 2 ^ 54 ≠ 0 →
      s.reg64 (swReg w Reg.SW_DL_LO) % 2 ^ 54 ≤ s.turn → bit (s.reg (swReg w Reg.SW_STATE)) 4 = 0 →
      ∃ t, exec (.switchOverrun w) s = .next t ∧ bit (t.reg (swReg w Reg.SW_STATE)) 4 = 1 ∧ swState t w = 1 ∧
        Posted s t (48 + w) Cause.switchOverrun (swDone s w) ∧ t = { s with regs := t.regs, belt := t.belt }) ∧
    (∀ (s : State) (l vc : Nat) (f : Frame) (tagOk : Bool), s.regsOk → s.tablesOk → ((s.link l).rx.find? fun f => f.vc == vc) = some f →
      f.dst ≠ selfId s → transitLink s f = none →
      ∃ t, exec (.heldFrameDeparture l vc tagOk) s = .next t ∧ (t.link l).rx = (s.link l).rx.erase f ∧
        t.reg (rtReg Reg.RT_NOROUTE) = satAdd 32 (s.reg (rtReg Reg.RT_NOROUTE)) 1 % 2 ^ 32 ∧ t.mem = s.mem) ∧
    (∀ (s : State) (l vc : Nat) (f : Frame) (tagOk : Bool), ((s.link l).rx.find? fun f => f.vc == vc) = some f →
      f.dst = selfId s → s.catching.caught = false → (frameNear f = true ∨ f.type = 8 → sleeping s = false) →
      (f.type = 1 → passHeld s f = true → exec (.heldFrameDeparture l vc tagOk) s = .next s) ∧
      ((f.type = 1 → passHeld s f = false) → exec (.heldFrameDeparture l vc tagOk) s = .next (deliverFrame (setLink s l { s.link l with rx := (s.link l).rx.erase f }) l f tagOk))) ∧
    (∀ (s : State) (l vc out : Nat) (f : Frame) (tagOk : Bool), s.tablesOk → ((s.link l).rx.find? fun f => f.vc == vc) = some f →
      f.dst ≠ selfId s → transitLink s f = some out → out ≠ l → canLeave (s.link out) f = true → (s.link out).waking = false →
      ((s.link out).tx.all fun x => x.frame.vc != f.vc) = true →
      ∃ t, exec (.heldFrameDeparture l vc tagOk) s = .next t ∧ (t.link l).rx = (s.link l).rx.erase f ∧
        (t.link out).replay.length = (s.link out).replay.length + 1 ∧ t.mem = s.mem)

/-- O43. Doorbells, host reads and writes of the rings. R311, R312, R402 to R405: an index that the ring admits is applied
and acknowledged, and another is refused and counted with the index in effect; commands waiting in a mirror are asked
for, and their bytes go into ring memory where they belong; a read unanswered is asked again once; records go to the
mirror; a waiting record goes in as a slot frees. That records beyond the store of 8 wait in order is log entry 115:
the model's choice. -/
def Obligations.Doorbells : Prop :=
  (∀ (s : State) (h : PortHead) (tag n q : Nat), s.regsOk → s.tablesOk → s.portTakes 4 h = true → n < 4096 → producerOk s n q = true → ringParting s n = false →
      ∃ t, exec (.producerDoorbell h tag n q) s = .next t ∧ t.ring n = { s.ring n with prod := q % 2 ^ 32 } ∧ (∀ k, k ≠ n → t.ring k = s.ring k) ∧
        t.reg (portReg Reg.DB_COUNT) = satAdd 32 (s.reg (portReg Reg.DB_COUNT)) 1 % 2 ^ 32 ∧ SentPort s t 5 tag n (q % 2 ^ 32) ∧
        t = { s with regs := t.regs, port := t.port, serving := t.serving }) ∧
    (∀ (s : State) (h : PortHead) (tag n q : Nat), s.regsOk → s.portTakes 4 h = true → n < 4096 → producerOk s n q = false →
      ∃ t, exec (.producerDoorbell h tag n q) s = .next t ∧ t.serving = s.serving ∧
        t.reg (portReg Reg.DB_REFUSED) = satAdd 32 (s.reg (portReg Reg.DB_REFUSED)) 1 % 2 ^ 32 ∧
        SentPort s t 5 tag (n + 2 ^ 24) (s.ring n).prod) ∧
    (∀ (s : State) (h : PortHead) (tag n q : Nat), s.regsOk → s.tablesOk → s.portTakes 4 h = true → n < 4096 → consumerOk s n q = true → ringParting s n = false →
      ∃ t, exec (.consumerDoorbell h tag n q) s = .next t ∧ (t.ring n).cons = q % 2 ^ 32 ∧ (t.ring n).prod = (s.ring n).prod ∧
        (∀ k, k ≠ n → t.ring k = s.ring k) ∧
        t.reg (portReg Reg.DB_COUNT) = satAdd 32 (s.reg (portReg Reg.DB_COUNT)) 1 % 2 ^ 32 ∧ SentPort s t 5 tag (n + 2 ^ 16) (q % 2 ^ 32)) ∧
    (∀ (s : State) (n : Nat), n < 4096 → ringLive s n 2 = true → portUp s = true → diff32 (s.ring n).prod (s.ring n).fetched ≠ 0 →
      (s.port.reads.all fun x => x.why != .commands n) = true →
      let k := min (min (diff32 (s.ring n).prod (s.ring n).fetched) 64) (ringCap s n - (s.ring n).fetched % ringCap s n)
      ∃ t, exec (.hostReadRequest n) s = .next t ∧ SentPort s t 2 s.port.nextTag (64 * k) 0 ∧
        t.port.reads = s.port.reads ++ [{ tag := s.port.nextTag, why := .commands n, addr := mirrorAt s n (s.ring n).fetched, len := 64 * k }] ∧
        t = { s with port := t.port }) ∧
    (∀ (s : State) (h : PortHead) (tag n : Nat) (bs : List Byte) (x : HostRead), s.tablesOk → s.portTakes 3 h = true →
      (s.port.reads.find? fun x => x.tag == tag && x.len == bs.length) = some x → x.why = .commands n →
      ∃ t, exec (.hostReadResponse h tag bs) s = .next t ∧ t.port.reads = s.port.reads.filter (fun y => y.tag != tag) ∧
        (t.ring n).fetched = ((s.ring n).fetched + bs.length / 64) % 2 ^ 32 ∧ (t.ring n).cons = (s.ring n).cons ∧
        (∀ j < bs.length, sget byteZero t.serving.ringMem (recordAt s n (s.ring n).fetched + j) = getNth 0 bs j) ∧ t.mem = s.mem) ∧
    (∀ (s : State) (tag : Nat) (x : HostRead), (s.port.reads.find? fun x => x.tag == tag) = some x → x.again = false →
      ∃ t, exec (.hostReadTimeout tag) s = .next t ∧ SentPort s t 2 tag x.len 0 ∧
        (∀ y ∈ t.port.reads, y.tag = tag → y.again = true) ∧ t = { s with port := t.port }) ∧
    (∀ (s : State) (tag : Nat) (x : HostRead), s.tablesOk → (s.port.reads.find? fun x => x.tag == tag) = some x → x.again = true →
      ∃ t, exec (.hostReadTimeout tag) s = .next t ∧ Posted s t 62 Cause.hostReadTimeout x.addr ∧
        t.port.reads = s.port.reads.filter (fun y => y.tag != tag) ∧ t.mem = s.mem) ∧
    (∀ (s : State) (n : Nat), s.tablesOk → n < 4096 → (ringLive s n 1 = true ∨ ringLive s n 3 = true) → portUp s = true →
      diff32 (s.ring n).prod (s.ring n).sent ≠ 0 →
      let b := recordBytes (ringKind s n)
      let k := min (min (diff32 (s.ring n).prod (s.ring n).sent) (4096 / b)) (ringCap s n - (s.ring n).sent % ringCap s n)
      ∃ t, exec (.hostWrite n) s = .next t ∧ t.ring n = { s.ring n with sent := ((s.ring n).sent + k) % 2 ^ 32 } ∧
        (∃ g, t.port.tx = s.port.tx ++ [g] ∧ g.type = 1 ∧ g.addr = mirrorAt s n (s.ring n).sent ∧
          g.payload = ringRead s (recordAt s n (s.ring n).sent) (b * k)) ∧ t = { s with port := t.port, serving := t.serving }) ∧
    (∀ (s : State) (n : Nat) (rec : List Byte) (rest : List (List Byte)), s.tablesOk → n < 4096 → s.belt.store = [] → (s.ring n).pend = rec :: rest →
      ringFree s n = 1 → (s.ring n).prod < 2 ^ 32 → (s.ring n).cons < 2 ^ 32 →
      ∃ t, exec (.pendingRecordPost n) s = .next t ∧ (t.ring n).prod = ((s.ring n).prod + 1) % 2 ^ 32 ∧
        (t.ring n).pend = rest ++ (s.ring n).held.take 1 ∧ (t.ring n).held = (s.ring n).held.drop 1 ∧ (∀ k, k ≠ n → t.ring k = s.ring k) ∧
        t.mem = s.mem)

/-- O44. ADMIT, CANCEL, PAUSE and the end of a parking. R154, R257, R271, R281, R313, R314, R317, R318, R332, R335, R338:
an ADMIT that nothing refuses makes its request live, in prefill, with its ring bound, under HOLD it stays, and
refused it completes with its status; a completion takes the command and posts its record; a CANCEL of a request
outside a step ends it, of a member of an open step, of one that an ATTN names or whose copy is under way it waits; a
PAUSE waits for the step and for the ATTNs that name a list, and then parks the request or, where no place is, lets it
go on; a copy done leaves the session parked and evictable, and while a channel of the pool retrains, or the link of
its target is paused or down, it goes on; a command whose pool waits for a channel waits at its queue. That a queue
gives one command in a turn is log entry 116, and that new lists take the lowest free place, log entry 31: the model's
choices. -/
def Obligations.RequestCommands : Prop :=
  (∀ (s : State) (q j : Nat) (c : List Byte) (f : Family), s.regsOk → s.tablesOk → s.command q 1 c = true →
      cmdByte c 0x0A 1 < 64 → heldModel s (cmdByte c 0x0A 1) (if cmdByte c 0x0C 2 = 0xFFFF then none else some (cmdByte c 0x0C 2)) = false →
      admitRefuse s q c (cmdByte c 8 2 % 4096) (cmdByte c 0x0A 1) (cmdByte c 0x0C 2) (cmdByte c 0x0B 1) (cmdByte c 0x0E 2) = none →
      famAt s (cmdByte c 0x0E 2) = some f → freeListRun s f.pool f.h = some j →
      ∃ t r, exec (.admitReq q) s = .next t ∧ Consumed s t q ∧ t.serving.reqs = s.serving.reqs ++ [r] ∧ r.id = cmdByte c 4 4 ∧
        r.ring = cmdByte c 8 2 % 4096 ∧ r.model = cmdByte c 0x0A 1 ∧ r.fam = cmdByte c 0x0E 2 ∧ r.prompt = cmdByte c 0x10 4 ∧ r.max = cmdByte c 0x14 4 ∧
        r.stream = cmdByte c 0x18 4 ∧ r.ttl = cmdByte c 0x1C 4 ∧ r.st = .prefill ∧ r.pool = f.pool ∧ r.list = j ∧ r.h = f.h ∧
        (t.ring (cmdByte c 8 2 % 4096)).bound = true ∧ (t.ring (cmdByte c 8 2 % 4096)).reqId = cmdByte c 4 4 ∧
        t.reg (ringPage + Reg.QM_ADMITS) = satAdd 32 (s.reg (ringPage + Reg.QM_ADMITS)) 1 % 2 ^ 32 ∧ t = { s with regs := t.regs, belt := t.belt, serving := t.serving, mem := t.mem } ∧ t.mem.ns = s.mem.ns ∧ t.mem.tags = s.mem.tags ∧ t.mem.nsErr = s.mem.nsErr ∧ t.mem.table = s.mem.table ∧ t.mem.tableErr = s.mem.tableErr ∧ t.mem.sand = s.mem.sand ∧ t.mem.partList = s.mem.partList) ∧
    (∀ (s : State) (q : Nat) (c : List Byte), s.tablesOk → s.command q 1 c = true → cmdByte c 0x0A 1 < 64 →
      heldModel s (cmdByte c 0x0A 1) (if cmdByte c 0x0C 2 = 0xFFFF then none else some (cmdByte c 0x0C 2)) = true →
      exec (.admitReq q) s = .next s) ∧
    (∀ (s : State) (q : Nat) (c : List Byte), s.queueHeld q = true →
      (s.commandWaits q 1 c = true → exec (.admitReq q) s = .next s) ∧ (s.commandWaits q 2 c = true → exec (.cancel q) s = .next s) ∧
      (s.commandWaits q 3 c = true → exec (.pause q) s = .next s) ∧ (s.commandWaits q 4 c = true → exec (.resume q) s = .next s) ∧
      (s.commandWaits q 5 c = true → exec (.dropParked q) s = .next s) ∧ (s.commandWaits q 6 c = true → exec (.prefixDef q) s = .next s) ∧
      (s.commandWaits q 7 c = true → exec (.prefixDrop q) s = .next s) ∧ (s.commandWaits q 8 c = true → exec (.familyDef q) s = .next s) ∧
      (s.commandWaits q 9 c = true → exec (.familyDrop q) s = .next s)) ∧
    (∀ (s : State) (q st : Nat) (c : List Byte), s.command q 1 c = true →
      (cmdByte c 0x0A 1 < 64 → heldModel s (cmdByte c 0x0A 1) (if cmdByte c 0x0C 2 = 0xFFFF then none else some (cmdByte c 0x0C 2)) = false) →
      admitRefuse s q c (cmdByte c 8 2 % 4096) (cmdByte c 0x0A 1) (cmdByte c 0x0C 2) (cmdByte c 0x0B 1) (cmdByte c 0x0E 2) = some st →
      exec (.admitReq q) s = .next (finish s q c st 0)) ∧
    (∀ (s : State) (q st res : Nat) (c : List Byte), s.regsOk → s.tablesOk → st < 256 → res < 2 ^ 32 →
      let ev := ringPair s q
      let t := finish s q c st res
      (ev ≠ q → Consumed s t q) ∧
      (1 < st → t.reg (ringPage + Reg.QM_REFUSED) = satAdd 32 (s.reg (ringPage + Reg.QM_REFUSED)) 1 % 2 ^ 32) ∧
      (ev ≠ q → ringKind s ev = 3 → (s.ring ev).pend = [] → 0 < ringFree s ev →
        (t.ring ev).prod = ((s.ring ev).prod + 1) % 2 ^ 32 ∧
        leNat (ringRead t (recordAt s ev (s.ring ev).prod + 1) 1) = st ∧ leNat (ringRead t (recordAt s ev (s.ring ev).prod + 2) 2) = cmdByte c 2 2 % 2 ^ 16 ∧
        leNat (ringRead t (recordAt s ev (s.ring ev).prod + 4) 4) = cmdByte c 4 4 % 2 ^ 32 ∧ leNat (ringRead t (recordAt s ev (s.ring ev).prod + 12) 4) = res)) ∧
    (∀ (s : State) (q : Nat) (c : List Byte) (r : Request), s.tablesOk → s.command q 2 c = true → reqOf s (cmdByte c 4 4) = some r →
      r.id = cmdByte c 4 4 → ringParts s r.ring = ringParts s q → r.cancel = none →
      r.st = .ready ∨ (r.st = .prefill ∧ reqBusy s r = false) ∨ (r.st = .decode ∧ inOpenStep s r = false) ∨ r.st = .parked →
      ∃ t, exec (.cancel q) s = .next t ∧ (∀ x ∈ t.serving.reqs, x.id ≠ cmdByte c 4 4) ∧ t = { s with regs := t.regs, belt := t.belt, serving := t.serving, mem := t.mem } ∧ t.mem.ns = s.mem.ns ∧ t.mem.tags = s.mem.tags ∧ t.mem.nsErr = s.mem.nsErr ∧ t.mem.table = s.mem.table ∧ t.mem.tableErr = s.mem.tableErr ∧ t.mem.sand = s.mem.sand ∧ t.mem.partList = s.mem.partList) ∧
    (∀ (s : State) (q : Nat) (c : List Byte) (r : Request), s.tablesOk → s.command q 2 c = true → reqOf s (cmdByte c 4 4) = some r →
      ringParts s r.ring = ringParts s q → r.cancel = none →
      inOpenStep s r = true ∨ (r.st = .prefill ∧ reqBusy s r = true) ∨ r.st = .parking ∨ r.st = .restoring →
      exec (.cancel q) s = .next (setReq (consume s q) { r with cancel := some (cmdByte c 2 2, q) })) ∧
    (∀ (s : State) (q : Nat) (c : List Byte) (r : Request), s.tablesOk → s.command q 3 c = true → reqOf s (cmdByte c 4 4) = some r →
      1 ≤ cmdByte c 0x1C 4 → cmdByte c 0x1C 4 ≤ 86400 → ringParts s r.ring = ringParts s q → r.pause = none → r.cancel = none →
      inOpenStep s r = true →
      exec (.pause q) s = .next (setReq (consume s q) { r with pause := some (cmdByte c 2 2, q), pauseTtl := cmdByte c 0x1C 4 }) ∧
        Consumed s (setReq (consume s q) { r with pause := some (cmdByte c 2 2, q), pauseTtl := cmdByte c 0x1C 4 }) q) ∧
    (∀ (s : State) (q : Nat) (c : List Byte) (r : Request), s.tablesOk → s.command q 3 c = true → reqOf s (cmdByte c 4 4) = some r →
      1 ≤ cmdByte c 0x1C 4 → cmdByte c 0x1C 4 ≤ 86400 → ringParts s r.ring = ringParts s q → r.pause = none → r.cancel = none →
      r.st = .ready ∨ r.st = .decode → inOpenStep s r = false →
      exec (.pause q) s = .next (pauseReq (setReq (consume s q) { r with pause := some (cmdByte c 2 2, q), pauseTtl := cmdByte c 0x1C 4 })
        { r with pause := some (cmdByte c 2 2, q), pauseTtl := cmdByte c 0x1C 4 })) ∧
    (∀ (s : State) (r : Request), s.regsOk → s.tablesOk → reqOf s r.id = some r →
      (reqBusy s r = true ∨ poolHeld s r.pool = true → pauseReq s r = setReq s { r with due := true }) ∧
      (∀ e a serial s1, reqBusy s r = false → poolHeld s r.pool = false →
        parkPlace s r (1 + 16 * ((List.range r.h).map fun x => (chain s r.pool (listHead s r.pool (r.list + x)).own).length).foldl (· + ·) 0) = .ok (e, a) →
        takeSerial s (kvpSlot s r.pool) = some (s1, serial) →
        (∀ x ∈ (pauseReq s r).serving.reqs, x.id = r.id → x.st = .parking ∧ x.entry = some e) ∧
        ∃ p, parkedAt (pauseReq s r) e = some p ∧ p.st = 1 ∧ p.req = r.id ∧ p.ring = r.ring ∧ p.first = a ∧ p.serial = serial ∧ p.preempted = false ∧
          p.expiry = expiryTurn s r.pauseTtl) ∧
      (∀ st, reqBusy s r = false → poolHeld s r.pool = false →
        parkPlace s r (1 + 16 * ((List.range r.h).map fun x => (chain s r.pool (listHead s r.pool (r.list + x)).own).length).foldl (· + ·) 0) = .error st →
        (pauseReq s r).serving.parked = s.serving.parked ∧ ∀ x ∈ (pauseReq s r).serving.reqs, x.id = r.id → x.pause = none ∧ x.st = (goOn s r).st)) ∧
    (∀ (s : State) (e : Nat) (p : Parked) (r : Request), s.tablesOk → parkedAt s e = some p → reqOf s p.req = some r → p.st = 1 → reqBusy s r = false →
      (copyHeld s p.pool = true → exec (.sessionParked e) s = .next s) ∧ (copyHeld s p.pool = false → r.cancel = none →
      ∃ t, exec (.sessionParked e) s = .next t ∧ parkedAt t e = some { p with st := 2, evict := true, order := s.serving.order } ∧
        (∀ x ∈ t.serving.reqs, x.id = r.id → x.st = .parked) ∧ t = { s with regs := t.regs, belt := t.belt, serving := t.serving, mem := t.mem } ∧ t.mem.ns = s.mem.ns ∧ t.mem.tags = s.mem.tags ∧ t.mem.nsErr = s.mem.nsErr ∧ t.mem.table = s.mem.table ∧ t.mem.tableErr = s.mem.tableErr ∧ t.mem.sand = s.mem.sand ∧ t.mem.partList = s.mem.partList))

/-- O45. RESUME, restoring, dropping, expiry, prefixes and families. R257, R272, R313, R320, R328, R329, R331, R333, R334:
a RESUME restores its session or waits for lists, its entry in state 3; an image whose header is the one written and
whose tags verify makes its request ready and frees its entry, and one that does not leaves it parked, with an event
that names the extent (the header extent by its number, log entry 117); a dropped or expired entry is free; a prefix
is defined from whole lists and retires; a family is defined with empty members and dropped when none runs. The
dimension and form of a family are free values (log entry 38); that the lowest free lists are taken is log entry 31. -/
def Obligations.ParkedCommands : Prop :=
  (∀ (s : State) (q e : Nat) (c : List Byte) (p : Parked) (r : Request) (f : Family), s.tablesOk → s.command q 4 c = true →
      cmdByte c 0x30 4 = e → parkedAt s e = some p → reqOf s p.req = some r → r.id = p.req → famAt s (cmdByte c 0x0E 2) = some f →
      p.req = cmdByte c 4 4 → ringParts s p.ring = ringParts s q → f.model = p.model → f.pool = p.pool → f.h = p.counts.length →
      p.st = 2 → r.resume = none →
      (freeListRun s p.pool f.h = none → exec (.resume q) s =
        .next (setParked (setReq (consume s q) { r with st := .restoring, resume := some (cmdByte c 2 2, q), fam := cmdByte c 0x0E 2 }) e
          (some { p with st := 3 }))) ∧
      (p.evict = true → freeListRun s p.pool f.h ≠ none → r.cancel = none →
        ∃ t, exec (.resume q) s = .next t ∧ parkedAt t e = none ∧ (∀ x ∈ t.serving.reqs, x.id = r.id → x.st = .ready) ∧ Consumed s t q) ∧
      (p.evict = false → parkedPages p ≤ reachable s p.pool → freeListRun s p.pool f.h ≠ none →
        ∃ t, exec (.resume q) s = .next t ∧ parkedAt t e = some { p with st := 3, copying := true } ∧ Consumed s t q)) ∧
    (∀ (s : State) (e : Nat) (p : Parked) (r : Request), s.tablesOk → parkedAt s e = some p → reqOf s p.req = some r →
      p.st = 3 → p.copying = false → r.st = .restoring → poolHeld s p.pool = false → freeListRun s p.pool p.counts.length ≠ none →
      (p.evict = true → r.cancel = none →
        ∃ t, exec (.resumeRetry e) s = .next t ∧ parkedAt t e = none ∧ (∀ x ∈ t.serving.reqs, x.id = r.id → x.st = .ready) ∧ t = { s with regs := t.regs, belt := t.belt, serving := t.serving, mem := t.mem } ∧ t.mem.ns = s.mem.ns ∧ t.mem.tags = s.mem.tags ∧ t.mem.nsErr = s.mem.nsErr ∧ t.mem.table = s.mem.table ∧ t.mem.tableErr = s.mem.tableErr ∧ t.mem.sand = s.mem.sand ∧ t.mem.partList = s.mem.partList) ∧
      (p.evict = false → parkedPages p ≤ reachable s p.pool →
        ∃ t, exec (.resumeRetry e) s = .next t ∧ parkedAt t e = some { p with copying := true } ∧ t = { s with regs := t.regs, belt := t.belt, serving := t.serving, mem := t.mem } ∧ t.mem.ns = s.mem.ns ∧ t.mem.tags = s.mem.tags ∧ t.mem.nsErr = s.mem.nsErr ∧ t.mem.table = s.mem.table ∧ t.mem.tableErr = s.mem.tableErr ∧ t.mem.sand = s.mem.sand ∧ t.mem.partList = s.mem.partList)) ∧
    (∀ (s : State) (e : Nat) (p : Parked) (r : Request) (bs : List Byte), s.tablesOk → parkedAt s e = some p → reqOf s p.req = some r → p.st = 3 → p.copying = true →
      (copyHeld s p.pool = true → exec (.restoreComplete e none bs) s = .next s) ∧ (copyHeld s p.pool = false → r.cancel = none →
      (bs.take 4096 = imageHeader p → exec (.restoreComplete e none bs) s = .next (restored (layImage s p r bs) e p r) ∧
        ∃ t, exec (.restoreComplete e none bs) s = .next t ∧ parkedAt t e = none ∧ (∀ x ∈ t.serving.reqs, x.id = r.id → x.st = .ready) ∧ t = { s with regs := t.regs, belt := t.belt, serving := t.serving, mem := t.mem } ∧ t.mem.ns = s.mem.ns ∧ t.mem.tags = s.mem.tags ∧ t.mem.nsErr = s.mem.nsErr ∧ t.mem.table = s.mem.table ∧ t.mem.tableErr = s.mem.tableErr ∧ t.mem.sand = s.mem.sand ∧ t.mem.partList = s.mem.partList) ∧
      (bs.take 4096 ≠ imageHeader p → exec (.restoreComplete e none bs) s = exec (.restoreComplete e (some 0) bs) s) ∧
      (∀ i, ∃ t, exec (.restoreComplete e (some i) bs) s = .next t ∧ parkedAt t e = some { p with st := 2, copying := false } ∧
        (∀ x ∈ t.serving.reqs, x.id = r.id → x.st = .parked) ∧ PostedIn s t 62 Cause.farIntegrity (extentAt s p r i)))) ∧
    (∀ (s : State) (q e : Nat) (c : List Byte) (p : Parked), s.tablesOk → s.command q 5 c = true → cmdByte c 0x30 4 = e → parkedAt s e = some p →
      ringParts s p.ring = ringParts s q → p.st = 2 →
      ∃ t, exec (.dropParked q) s = .next t ∧ parkedAt t e = none ∧ t = { s with regs := t.regs, belt := t.belt, serving := t.serving, mem := t.mem } ∧ t.mem.ns = s.mem.ns ∧ t.mem.tags = s.mem.tags ∧ t.mem.nsErr = s.mem.nsErr ∧ t.mem.table = s.mem.table ∧ t.mem.tableErr = s.mem.tableErr ∧ t.mem.sand = s.mem.sand ∧ t.mem.partList = s.mem.partList) ∧
    (∀ (s : State) (e : Nat) (p : Parked), s.tablesOk → parkedAt s e = some p → p.st = 2 → p.expiry ≤ s.turn →
      poolHeld s p.pool = false →
      ∃ t, exec (.parkedSessionExpiry e) s = .next t ∧ parkedAt t e = none ∧ t = { s with regs := t.regs, belt := t.belt, serving := t.serving, mem := t.mem } ∧ t.mem.ns = s.mem.ns ∧ t.mem.tags = s.mem.tags ∧ t.mem.nsErr = s.mem.nsErr ∧ t.mem.table = s.mem.table ∧ t.mem.tableErr = s.mem.tableErr ∧ t.mem.sand = s.mem.sand ∧ t.mem.partList = s.mem.partList) ∧
    (∀ (s : State) (q p : Nat) (c : List Byte) (f : Family), s.tablesOk → s.command q 6 c = true → cmdByte c 0x0B 1 = p → p ≠ 255 →
      famAt s (cmdByte c 0x0E 2) = some f → cmdByte c 0x30 4 < 2 ^ 30 → f.pool = handlePool (cmdByte c 0x30 4) →
      poolOfQueue s q f.pool = true → prefixAt s p = none →
      (∀ x < f.h, listOk s f.pool (handleIdx (cmdByte c 0x30 4) + x) = true ∧ listBusy s f.pool (handleIdx (cmdByte c 0x30 4) + x) = false ∧
        (let hd := listHead s f.pool (handleIdx (cmdByte c 0x30 4) + x)
         hd.bad = false ∧ hd.isPrefix = false ∧ hd.pfx = noFrame ∧ hd.ownPos % max 1 (nPos hd.d hd.fmt hd.blk) = 0)) →
      ∃ t, exec (.prefixDef q) s = .next t ∧ Consumed s t q ∧
        prefixAt t p = some { pool := f.pool, list := handleIdx (cmdByte c 0x30 4), h := f.h } ∧ t = { s with regs := t.regs, belt := t.belt, serving := t.serving, mem := t.mem } ∧ t.mem.ns = s.mem.ns ∧ t.mem.tags = s.mem.tags ∧ t.mem.nsErr = s.mem.nsErr ∧ t.mem.table = s.mem.table ∧ t.mem.tableErr = s.mem.tableErr ∧ t.mem.sand = s.mem.sand ∧ t.mem.partList = s.mem.partList) ∧
    (∀ (s : State) (q p : Nat) (c : List Byte) (x : Prefix), s.tablesOk → s.command q 7 c = true → cmdByte c 0x0B 1 = p → prefixAt s p = some x →
      poolOfQueue s q x.pool = true →
      ∃ t, exec (.prefixDrop q) s = .next t ∧ Consumed s t q ∧ (prefixAt t p = some { x with retiring := true } ∨ prefixAt t p = none) ∧
        t = { s with regs := t.regs, belt := t.belt, serving := t.serving, mem := t.mem } ∧ t.mem.ns = s.mem.ns ∧ t.mem.tags = s.mem.tags ∧ t.mem.nsErr = s.mem.nsErr ∧ t.mem.table = s.mem.table ∧ t.mem.tableErr = s.mem.tableErr ∧ t.mem.sand = s.mem.sand ∧ t.mem.partList = s.mem.partList) ∧
    (∀ (s : State) (q : Nat) (c : List Byte), s.tablesOk → s.command q 8 c = true →
      let fi := cmdByte c 0x0E 2
      let w := cmdByte c 0x30 4
      let m := cmdByte c 0x0A 1
      let table := cmdByte c 0x1C 4 + 2 ^ 32 * cmdByte c 0x34 1
      bf w 15 8 ≠ 0 → bf w 25 16 ≠ 0 → bf w 25 16 ≤ 1022 → bf w 7 4 = 0 → bf w 31 26 = 0 → m ≤ 63 → cmdByte c 0x34 1 ≤ 15 → table % 256 = 0 →
      bf table 29 26 ≤ 8 → bf table 35 30 ≤ 47 → poolOfQueue s q (bf w 3 0) = true → bit (s.reg (blkKey Reg.BLK_CFG m)) 0 = 1 →
      bf (s.reg (blkKey Reg.BLK_CFG m)) 23 16 = ringParts s q → bit (ringParts s q) (partOf (nsCluster table)) = 1 → famAt s fi = none →
      ∃ t f, exec (.familyDef q) s = .next t ∧ Consumed s t q ∧ famAt t fi = some f ∧ f.model = m ∧ f.pool = bf w 3 0 ∧ f.h = bf w 25 16 ∧
        f.table = table ∧ f.members = List.replicate (bf w 15 8) none ∧ f.opened = false ∧ t.freeCount = s.freeCount + 1 ∧ t = { s with freeCount := t.freeCount, regs := t.regs, serving := t.serving }) ∧
    (∀ (s : State) (q : Nat) (c : List Byte) (f : Family), s.tablesOk → s.command q 9 c = true → famAt s (cmdByte c 0x0E 2) = some f →
      poolOfQueue s q f.pool = true → f.opened = false →
      (f.members.all fun m => ((m.bind (reqOf s)).all fun r => r.st != .decode)) = true →
      ∃ t, exec (.familyDrop q) s = .next t ∧ Consumed s t q ∧ famAt t (cmdByte c 0x0E 2) = none ∧ t = { s with regs := t.regs, serving := t.serving })

/-- O46. Storage targets, congestion and pauses. R363, R364, R365, R406, R407: a target is registered or freed; bytes in
and out are counted; a good frame within 9,216 bytes, with the one VLAN tag or none, over UDP port 4791, that is for
no known address and queue pair is dropped and counted; pause is sent above 75 % of the buffer; a rate halves at most
once in 50 µs and recovers to its limit; a pause is honoured on the one priority named, until it expires. -/
def Obligations.StorageTargets : Prop :=
  (∀ (s : State) (h : PortHead) (tag n : Nat) (rec : List Byte), s.tablesOk → s.mailOpen h = true →
      (n < 256 → recordOk rec = true →
        ∃ t, exec (.targetSet h tag n rec) s = .next t ∧ t.storage.targets = sset noneAt s.storage.targets n (some { record := rec }) ∧ Answered s t tag 0x11 Mail.done ∧
          t = { s with port := t.port, storage := t.storage }) ∧
      ((256 ≤ n ∨ recordOk rec = false) → ∃ t, exec (.targetSet h tag n rec) s = .next t ∧ Answered s t tag 0x11 Mail.reservedEncoding ∧
          t = { s with port := t.port }) ∧
      (n < 256 → targetBusy s n = false →
        ∃ t, exec (.targetClear h tag n) s = .next t ∧ t.target n = none ∧ (∀ k, k ≠ n → t.target k = s.target k) ∧
          Answered s t tag 0x12 Mail.done ∧ t = { s with port := t.port, storage := t.storage }) ∧
      (n < 256 → targetBusy s n = true →
        ∃ t, exec (.targetClear h tag n) s = .next t ∧ Answered s t tag 0x12 Mail.busy ∧ t = { s with port := t.port })) ∧
    (∀ (s : State) (l fill sent : Nat) (f : StorageFrame), s.regsOk → s.tablesOk → storageUp s l = true →
      ∃ t, exec (.storageFrame l f fill sent) s = .next t ∧
        t.reg (linkReg l Reg.LINK_ENC_DROP) = (if (f.good && macOk s l f && roceOk f && !frameKnown s l f) = true
          then satAdd 32 (s.reg (linkReg l Reg.LINK_ENC_DROP)) 1 % 2 ^ 32 else s.reg (linkReg l Reg.LINK_ENC_DROP)) ∧
        t.reg64 (linkReg l Reg.LINK_RX_LO) = satAdd 64 (s.reg64 (linkReg l Reg.LINK_RX_LO)) f.len ∧
        t.reg64 (linkReg l Reg.LINK_TX_LO) = satAdd 64 (s.reg64 (linkReg l Reg.LINK_TX_LO)) sent ∧
        t.reg (linkReg l Reg.LINK_FEC_CORR) = satAdd 32 (s.reg (linkReg l Reg.LINK_FEC_CORR)) f.corrected % 2 ^ 32 ∧
        t.reg (linkReg l Reg.LINK_FEC_UNCORR) = satAdd 32 (s.reg (linkReg l Reg.LINK_FEC_UNCORR)) f.lost % 2 ^ 32 ∧
        ((t.link l).pausing = true ↔ bit (ethCfg s l) 3 = 1 ∧ 75 < fill) ∧ (∀ k, k ≠ l → t.link k = s.link k) ∧
        t = { s with regs := t.regs, net := t.net }) ∧
    (∀ (s : State) (n : Nat) (x : Target), s.tablesOk → s.target n = some x →
      (∃ t, exec (.congestionNotification n) s = .next t ∧
        t.target n = some (if (x.cut.map fun c => decide (ticks50us ≤ s.time.now - c)).getD true
          then { x with quiet := s.time.now, rate := x.rate / 2, cut := some s.time.now } else { x with quiet := s.time.now }) ∧
        (∀ k, k ≠ n → t.target k = s.target k) ∧ t = { s with storage := t.storage }) ∧
      (ticks50us ≤ s.time.now - x.quiet →
        ∃ t, exec (.congestionRecovery n) s = .next t ∧ t.target n = some { x with rate := min 65536 (x.rate + 4096), quiet := s.time.now } ∧
          t = { s with storage := t.storage })) ∧
    (∀ (s : State) (l prio : Nat), s.tablesOk → storageUp s l = true → bit (ethCfg s l) 3 = 1 → bf (ethCfg s l) 2 0 = prio →
      ∃ t, exec (.priorityPause l prio) s = .next t ∧ t.link l = { s.link l with paused := true } ∧ (∀ k, k ≠ l → t.link k = s.link k) ∧
        t = { s with net.links := t.net.links }) ∧
    (∀ (s : State) (l : Nat), s.tablesOk → (s.link l).paused = true →
      ∃ t, exec (.priorityPauseExpiry l) s = .next t ∧ t.link l = { s.link l with paused := false } ∧ (∀ k, k ≠ l → t.link k = s.link k) ∧
        t = { s with net := t.net, storage := t.storage })

/-- O47. Loads, far transfers, STORE and FETCH. R257, R271, R272, R287 to R290, R402, R407, R409, R439: a load is accepted
and reads its descriptors; an extent that comes is written where its descriptor says, one that fails is read again,
and one for a channel in retraining waits (what waits and what acts at once is log entry 123); a far transfer is
accepted with the slot and serial of its region, or refused on its serial; a tag that fails posts "far integrity" with
the extent's address; a STORE asks the host for its first bytes and writes them as they come, a FETCH sends its bytes,
once no channel holds them; each ends with its event. What the addresses, counts and events of far transfers must be
is log entry 51, the model's reading. -/
def Obligations.StorageTransfers : Prop :=
  (∀ (s : State) (h : PortHead) (tag list n : Nat), s.mailOpen h = true → list < 2 ^ 39 → ready s = true →
      list % 2 ^ 36 + 32 * n ≤ gCatch s (gWindow list) → gCatch s (gWindow list) ≤ gSize s (gWindow list) → regionsOver s list (32 * n) = [] →
      ∃ t, exec (.load h tag list n) s = .next t ∧ Answered s t tag 0x10 Mail.accepted ∧ t.storage.next = s.storage.next + 1 ∧
        t.mem.gddr = s.mem.gddr ∧ t = { s with regs := t.regs, belt := t.belt, storage := t.storage, port := t.port, mem := t.mem } ∧ t.mem.ns = s.mem.ns ∧ t.mem.tags = s.mem.tags ∧ t.mem.nsErr = s.mem.nsErr ∧ t.mem.table = s.mem.table ∧ t.mem.tableErr = s.mem.tableErr ∧ t.mem.sand = s.mem.sand ∧ t.mem.partList = s.mem.partList) ∧
    (∀ (s : State) (n off : Nat) (l : Load) (d : LoadDesc) (x : Extent), loadOf s n = some l → l.id = n → l.desc = some d →
      (l.exts.find? fun e => e.off == off) = some x →
      (∀ bs, gHeld s (d.dst + 4096 * off) 4096 = true → exec (.loadExtent n off (.good bs)) s = .next s) ∧
      (∀ bs, gHeld s (d.dst + 4096 * off) 4096 = false → sanding s (d.dst + 4096 * off) 4096 = false → bs.length ≤ 4096 →
        ∃ t, exec (.loadExtent n off (.good bs)) s = .next t ∧
          t.mem.gddr = (gWrite s (storageCtx none) (d.dst + 4096 * off) (padTo 4096 0 bs)).mem.gddr ∧ t = { s with regs := t.regs, belt := t.belt, storage := t.storage, mem := t.mem } ∧ t.mem.ns = s.mem.ns ∧ t.mem.tags = s.mem.tags ∧ t.mem.nsErr = s.mem.nsErr ∧ t.mem.table = s.mem.table ∧ t.mem.tableErr = s.mem.tableErr ∧ t.mem.sand = s.mem.sand ∧ t.mem.partList = s.mem.partList) ∧
      (x.fails + 1 < 8 → ∃ t, exec (.loadExtent n off .bad) s = .next t ∧
        t = setLoad s { l with exts := l.exts.map fun y => if y.off = off then { y with fails := y.fails + 1 } else y }) ∧
      (∃ t, exec (.loadExtent n off .targetError) s = .next t ∧ t.mem.gddr = s.mem.gddr)) ∧
    (∀ (s : State) (h : PortHead) (tag target a raddr rkey exts : Nat) (x : Target), s.mailOpen h = true →
      farFields s target a raddr exts = some x → regionsOver s a (4096 * exts) = [] → farRefuse s x a (4096 * exts) false = none →
      ∃ t, exec (.farPut h tag target a raddr rkey exts) s = .next t ∧ Answered s t tag 0x13 Mail.accepted ∧
        t.storage.far = s.storage.far ++ [{ id := s.storage.next, put := true, target := target, gaddr := a, raddr := raddr, rkey := rkey, exts := exts, slot := none, serial := 0 }] ∧ t.mem.gddr = s.mem.gddr ∧ t = { s with regs := t.regs, belt := t.belt, storage := t.storage, port := t.port }) ∧
    (∀ (s : State) (h : PortHead) (tag target a raddr rkey exts serial k : Nat) (x : Target) (r : Region), s.mailOpen h = true →
      farFields s target a raddr exts = some x → farRegion s a (4096 * exts) = some r → r.slot = k → admitted s = true →
      farRefuse s x a (4096 * exts) true = none →
      (serial < serialNow s k →
        ∃ t, exec (.farGet h tag target a raddr rkey exts serial) s = .next t ∧ Answered s t tag 0x14 Mail.accepted ∧
          t.storage.far = s.storage.far ++ [{ id := s.storage.next, put := false, target := target, gaddr := a, raddr := raddr, rkey := rkey, exts := exts, slot := some k, serial := serial }] ∧ t = { s with port := t.port, storage := t.storage }) ∧
      (serialNow s k ≤ serial →
        ∃ t, exec (.farGet h tag target a raddr rkey exts serial) s = .next t ∧ Answered s t tag 0x14 Mail.refused ∧ t.storage = s.storage ∧
          Posted s t 62 Cause.farSerialMismatch serial)) ∧
    (∀ (s : State) (n : Nat) (ends : List ExtentEnd) (x : FarXfer), (s.storage.far.find? fun x => x.id == n) = some x →
      gHeld s x.gaddr (4096 * x.exts) = true ∨ targetPaused s x.target = true → exec (.farTransferComplete n ends) s = .next s) ∧
    (∀ (s : State) (n : Nat) (ends : List ExtentEnd) (x : FarXfer), (s.storage.far.find? fun x => x.id == n) = some x → x.put = true →
      gHeld s x.gaddr (4096 * x.exts) = false → targetPaused s x.target = false →
      ∃ t, exec (.farTransferComplete n ends) s = .next t ∧ t.storage = { s.storage with far := s.storage.far.filter fun y => y.id != n } ∧
        PostedLate s t 62 Cause.farTransferComplete x.serial ∧ t.mem = (gNote s (storageCtx x.slot) x.gaddr (4096 * x.exts)).mem ∧
        t.mem.gddr = s.mem.gddr ∧ t = { s with regs := t.regs, belt := t.belt, storage := t.storage, mem := t.mem } ∧ t.mem.ns = s.mem.ns ∧ t.mem.tags = s.mem.tags ∧ t.mem.nsErr = s.mem.nsErr ∧ t.mem.table = s.mem.table ∧ t.mem.tableErr = s.mem.tableErr ∧ t.mem.sand = s.mem.sand ∧ t.mem.partList = s.mem.partList) ∧
    (∀ (s : State) (n : Nat) (bs : List Byte) (x : FarXfer), (s.storage.far.find? fun x => x.id == n) = some x → x.put = false → x.exts = 1 →
      gHeld s x.gaddr 4096 = false → targetPaused s x.target = false →
      (sanding s x.gaddr 4096 = false → bs.length ≤ 4096 →
        ∃ t, exec (.farTransferComplete n [.good bs]) s = .next t ∧
          t.mem.gddr = (gWrite s (storageCtx x.slot) x.gaddr (padTo 4096 0 bs)).mem.gddr ∧ PostedLate s t 62 Cause.farTransferComplete x.serial) ∧
      (∀ k, x.slot = some k → ∃ t, exec (.farTransferComplete n [.bad]) s = .next t ∧ t.mem = s.mem ∧
        PostedLate s t 62 Cause.farIntegrity x.gaddr ∧ t.storage.far = s.storage.far.filter fun y => y.id != n)) ∧
    (∀ (s : State) (h : PortHead) (tag : Nat) (bs : List Byte) (x : HostRead) (y : HostXfer) (id : Nat), s.portTakes 3 h = true →
      (s.port.reads.find? fun x => x.tag == tag && x.len == bs.length) = some x → x.why = .store id →
      (s.storage.host.find? fun t => t.id == id) = some y → sanding s (y.gaddr + y.done) bs.length = false →
      ∃ t, exec (.hostReadResponse h tag bs) s = .next t ∧
        (gHeld s (y.gaddr + y.done) bs.length = false → t.mem.gddr = (gWrite s (storageCtx y.slot) (y.gaddr + y.done) bs).mem.gddr) ∧
        (gHeld s (y.gaddr + y.done) bs.length = true → t.mem = { s.mem with
          waiting := s.mem.waiting ++ [{ ctx := storageCtx y.slot, addr := y.gaddr + y.done, bytes := bs }] }) ∧
        t.storage.host = s.storage.host.map (fun z => if z.id = id then { y with done := y.done + bs.length } else z) ∧
        (y.len ≤ y.done + bs.length → t.port.reads = s.port.reads.filter fun z => z.tag != tag)) ∧
    (∀ (s : State) (h : PortHead) (tag a caddr n slot : Nat), s.mailOpen h = true → a < 2 ^ 39 → n % 32 = 0 → (slot < 64 ∨ slot = 0xFF) →
      (slot < 64 → admitted s = true) → 0 < n → hostRefuse s (if slot = 0xFF then none else some slot) a n true = none →
      ∃ t g, exec (.store h tag a caddr n slot) s = .next t ∧
        t.storage.host = s.storage.host ++ [{ id := s.storage.next, store := true, gaddr := a, caddr := caddr, len := n, slot := (if slot = 0xFF then none else some slot) }] ∧
        t.port.reads = s.port.reads ++ [{ tag := s.port.nextTag, why := .store s.storage.next, addr := caddr, len := min 4096 n }] ∧
        t.port.tx = s.port.tx ++ g ∧ g.length = 2 ∧ t = { s with port := t.port, storage := t.storage }) ∧
    (∀ (s : State) (h : PortHead) (tag a caddr n slot : Nat), s.mailOpen h = true → a < 2 ^ 39 → n % 32 = 0 → (slot < 64 ∨ slot = 0xFF) →
      (slot < 64 → admitted s = true) → hostRefuse s (if slot = 0xFF then none else some slot) a n false = none →
      (gHeld s a n = true → ∃ t, exec (.fetch h tag a caddr n slot) s = .next t ∧
        t.storage.host = s.storage.host ++ [{ id := s.storage.next, store := false, gaddr := a, caddr := caddr, len := n, slot := (if slot = 0xFF then none else some slot) }] ∧ t.port.tx.length = s.port.tx.length + 1 ∧ t.mem = s.mem ∧ t = { s with regs := t.regs, belt := t.belt, storage := t.storage, port := t.port, mem := t.mem } ∧ t.mem.ns = s.mem.ns ∧ t.mem.tags = s.mem.tags ∧ t.mem.nsErr = s.mem.nsErr ∧ t.mem.table = s.mem.table ∧ t.mem.tableErr = s.mem.tableErr ∧ t.mem.sand = s.mem.sand ∧ t.mem.partList = s.mem.partList) ∧
      (gHeld s a n = false → ∃ t, exec (.fetch h tag a caddr n slot) s = .next t ∧
        t.storage.host = s.storage.host ++ [{ id := s.storage.next, store := false, gaddr := a, caddr := caddr, len := n, slot := (if slot = 0xFF then none else some slot), done := n }] ∧
        t.port.tx.length = s.port.tx.length + 1 + (chunks 4096 (gBytes s a n)).length ∧ t.mem.gddr = s.mem.gddr ∧ t = { s with regs := t.regs, belt := t.belt, storage := t.storage, port := t.port, mem := t.mem } ∧ t.mem.ns = s.mem.ns ∧ t.mem.tags = s.mem.tags ∧ t.mem.nsErr = s.mem.nsErr ∧ t.mem.table = s.mem.table ∧ t.mem.tableErr = s.mem.tableErr ∧ t.mem.sand = s.mem.sand ∧ t.mem.partList = s.mem.partList)) ∧
    (∀ (s : State) (n : Nat) (x : HostXfer), x.len ≤ x.done → gHeld s x.gaddr x.len = false →
      ((s.storage.host.find? fun y => y.id == n && y.store == true) = some x →
        ∃ t, exec (.storeComplete n) s = .next t ∧ t.storage = { s.storage with host := s.storage.host.filter fun y => y.id != n } ∧
          Posted s t 62 Cause.storeComplete x.gaddr ∧ t = { s with regs := t.regs, belt := t.belt, storage := t.storage }) ∧
      ((s.storage.host.find? fun y => y.id == n && y.store == false) = some x →
        ∃ t, exec (.fetchComplete n) s = .next t ∧ t.storage = { s.storage with host := s.storage.host.filter fun y => y.id != n } ∧
          Posted s t 62 Cause.fetchComplete x.gaddr ∧ t = { s with regs := t.regs, belt := t.belt, storage := t.storage }))

/-- O48. Every step keeps the tables of the state canonical. The tables that hold the block's counters, marks, queues,
keys, links and records list each of their keys once, in rising order; every step keeps this. (The representation is
the model's own, log entry 15.) -/
def Obligations.TablesInvariant : Prop :=
  ∀ s t : State, s.tablesOk → step s = .next t → t.tablesOk

/-- O49. A commit that a row brings to its boundary takes effect or is refused. R43, R45 to R47, R539, R541, R570: a row
brings the strobe of the turn at hand to its commit's die where it has not been, and the steps of the boundary run on
that die; a commit that is due leaves its page, sets COMMITTED, and LATE where its turn has passed, and answers the
request that waits; one that a check refuses leaves its page too, with its cause in STATUS, REFUSED and its count, and
leaves the memories, the sequencers, the engines and the keys as they were; a row whose commit changes nothing that
the row names, is not due, or has had its strobe does nothing. That these rows are commits, and how one comes late, is
log entry 58; when a request that waits is answered, log entry 104; what the last refusal shows after a commit, log
entry 155: the model's readings. -/
def Obligations.CommitAtBoundary : Prop :=
  (∀ (s : State) (c : Instr) (page : Nat), s.commitOfRow c = some page → s.commitComes page = true →
      exec c s = .next (boundary (reach s (addrDie page) s.turn) s.turn fun d => d == addrDie page)) ∧
    (∀ (s : State) (c : Instr) (page : Nat), s.commitOfRow c = some page → s.commitComes page = false → exec c s = .next s) ∧
    (∀ (s : State) (c : Instr) (page : Nat) (k : Commit), s.regsOk → s.tablesOk → s.commitOfRow c = some page → s.comes page = true → commitOf s page = some k →
      ∃ t, exec c s = .next t ∧ commitOf t page = none ∧ bit (t.reg (page + Reg.F_EVENT)) 1 = 1 ∧ bit (t.reg (page + Reg.F_STATUS)) 2 = 0 ∧
        (∀ a, k.turn = some a → a < s.turn → bit (t.reg (page + Reg.F_EVENT)) 3 = 1) ∧ t.dieTurn (addrDie page) = s.turn ∧
        (∀ x ∈ t.port.mbox, x.page ≠ page) ∧ (∀ q, q ≠ page → commitOf t q = commitOf s q)) ∧
    (∀ (s : State) (c : Instr) (page : Nat) (r : Refuse), s.regsOk → s.tablesOk → s.commitOfRow c = some page → s.aloneDue page = true →
      judge (s.atStrobe page) page = some r →
      ∃ t, exec c s = .next t ∧ commitOf t page = none ∧ bit (t.reg (page + Reg.F_EVENT)) 2 = 1 ∧ bit (t.reg (page + Reg.F_STATUS)) 2 = 1 ∧
        bf (t.reg (page + Reg.F_STATUS)) 31 16 = r.cause % 2 ^ 16 ∧
        t.reg (hPage 2 + Reg.SUM_REFUSED) = satAdd 32 (s.reg (hPage 2 + Reg.SUM_REFUSED)) 1 % 2 ^ 32 ∧
        (∀ x ∈ t.port.mbox, x.page ≠ page) ∧ (page = hPage 8 → t.tenant.staging = [])) ∧
    (∀ (s : State) (turn : Nat) (k : Commit) (r : Refuse), let t := doCommit s turn k (some r)
      t.mem = s.mem ∧ t.seq = s.seq ∧ t.storage = s.storage ∧ t.serving = s.serving ∧ t.net = s.net ∧ t.power = s.power ∧
        t.time = s.time ∧ t.wake = s.wake ∧ t.reclaim = s.reclaim ∧ t.catching = s.catching ∧ t.boot = s.boot ∧ t.tenant.keys = s.tenant.keys) ∧
    (∀ (s : State) (c : Instr), s.commitOfRow c = none →
      (match c with
        | .programEnable _ | .programDisable _ | .tableCopy _ | .ownershipChange | .roleChange | .lossScaleLoad _ | .sandQueue _
        | .catchShareChange _ | .publish | .adapterPublish | .switchPlanStart _ | .linkModeChange _ | .linkRetrain _ | .powerStateEntry
        | .slotCfgLoad | .slotCfgPart => exec c s = .next s
        | _ => True))

/-- O50. Programs, copies, ownership, the time role, the loss scale and sanding by commit. R30, R39, R42, R50, R58, R220,
R268, R274, R499: a program enabled starts at START with its priority and the boundary's turn as its base; a program
disabled stops in state 5; a table copy starts, and when its bytes have come they are written and posted; ownership
takes its new kinds and groups; a changed role has the package acquire anew, and one that becomes a follower may step
its count; LOAD sets the scale and its clean count; GO queues a range for sanding; a changed catch share moves its
base and gives the rest to sanding. The operand of "table loaded" is log entry 84, the model's choice; that the commit
comes alone is the strobe of log entry 58. -/
def Obligations.CommitEffects : Prop :=
  (∀ (s : State) (cl p : Nat), s.regsOk → s.tablesOk → cl < 432 → p < 8 → s.comes (clPage 0x12 cl) = true → progEnabled s cl p = false →
      bit (s.shd (progReg cl p)) 31 = 1 →
      ∃ t, exec (.programEnable cl) s = .next t ∧ progEnabled t cl p = true ∧ progPC t cl p = bf (s.shd (progReg cl p)) 10 0 ∧
        progState t cl p = 1 ∧ (t.prog cl p).wait = .none ∧ (t.prog cl p).base = some s.turn ∧
        (t.prog cl p).prio = bf (s.shd (progReg cl p)) 13 11 ∧ (t.prog cl p).low = bf (s.shd (progReg cl p)) 13 11 ∧ t.seq.flights = s.seq.flights ∧ t = { s with regs := t.regs, seq := t.seq, belt := t.belt, net := t.net, storage := t.storage, port := t.port, serving := t.serving, wake := t.wake, catching := t.catching, reclaim := t.reclaim, sideband := t.sideband, mem := t.mem, tenant := t.tenant, time := t.time, power := t.power } ∧ t.mem.table = s.mem.table ∧ t.mem.tableErr = s.mem.tableErr ∧ t.time.now = s.time.now ∧ t.power.tripped = s.power.tripped) ∧
    (∀ (s : State) (cl p : Nat), s.regsOk → s.tablesOk → cl < 432 → p < 8 → s.comes (clPage 0x12 cl) = true → progEnabled s cl p = true →
      bit (s.shd (progReg cl p)) 31 = 0 →
      ∃ t, exec (.programDisable cl) s = .next t ∧ Stopped t cl p 5 ∧ t.seq.flights = s.seq.flights ∧ t = { s with regs := t.regs, seq := t.seq, belt := t.belt, net := t.net, storage := t.storage, port := t.port, serving := t.serving, wake := t.wake, catching := t.catching, reclaim := t.reclaim, sideband := t.sideband, mem := t.mem, tenant := t.tenant, time := t.time, power := t.power } ∧ t.mem.table = s.mem.table ∧ t.mem.tableErr = s.mem.tableErr ∧ t.time.now = s.time.now ∧ t.power.tripped = s.power.tripped) ∧
    (∀ (s : State) (cl : Nat) (c : TableCopy), s.regsOk → s.tablesOk → cl < 432 → s.comes (clPage 0x12 cl) = true → copyAsked s cl = some c →
      gRefuse s (actingSlot s cl) (groupParts s (partOf cl)) c.src (32 * c.count) false = none →
      (∀ k, actingSlot s cl = some k → slotParting s k = false) →
      ∃ t, exec (.tableCopy cl) s = .next t ∧ t.seq.copies = s.seq.copies ++ [c] ∧ t = { s with regs := t.regs, seq := t.seq, belt := t.belt, net := t.net, storage := t.storage, port := t.port, serving := t.serving, wake := t.wake, catching := t.catching, reclaim := t.reclaim, sideband := t.sideband, mem := t.mem, tenant := t.tenant, time := t.time, power := t.power } ∧ t.mem.table = s.mem.table ∧ t.mem.tableErr = s.mem.tableErr ∧ t.time.now = s.time.now ∧ t.power.tripped = s.power.tripped) ∧
    (∀ (s : State) (cl : Nat) (c : TableCopy), s.regsOk → s.tablesOk → cl < 432 → (s.seq.copies.find? fun x => x.cl == cl) = some c → gWindow c.src < 8 →
      (gHeld s c.src (32 * c.count) = true → exec (.tableLoaded cl) s = .next s) ∧
      (gHeld s c.src (32 * c.count) = false → ∃ t, exec (.tableLoaded cl) s = .next t ∧
        t.mem.table = (tblWrite s cl (32 * c.dst) (gBytes s c.src (32 * c.count))).mem.table ∧ t.seq = { s.seq with copies := s.seq.copies.erase c } ∧
        (((s.seq.copies.erase c).any fun x => x.cl == cl) = false → bit (t.reg (seqReg cl Reg.TBL_CTRL)) 31 = 0) ∧
        Posted s t (cl / 9) Cause.tableLoaded (tblAddr cl c.dst) ∧ t = { s with regs := t.regs, seq := t.seq, belt := t.belt, mem := t.mem } ∧ t.mem.ns = s.mem.ns ∧ t.mem.tags = s.mem.tags ∧ t.mem.nsErr = s.mem.nsErr ∧ t.mem.sand = s.mem.sand ∧ t.mem.partList = s.mem.partList)) ∧
    (∀ (s : State), s.regsOk → s.tablesOk → s.comes (hPage 4) = true → ((List.range 8).any fun p => ownMoved s p) = true →
      ∃ t, exec .ownershipChange s = .next t ∧
        (∀ p < 8, partKind t p = bf (ownShd s p) 1 0 ∧ partGroup t p = bf (ownShd s p) 6 4) ∧
        (capW t < shareSum t → Posted s t 63 Cause.shareExceedsCap (shareSum t)) ∧ t = { s with regs := t.regs, seq := t.seq, belt := t.belt, net := t.net, storage := t.storage, port := t.port, serving := t.serving, wake := t.wake, catching := t.catching, reclaim := t.reclaim, sideband := t.sideband, mem := t.mem, tenant := t.tenant, time := t.time, power := t.power } ∧ t.mem.table = s.mem.table ∧ t.mem.tableErr = s.mem.tableErr ∧ t.time.now = s.time.now ∧ t.power.tripped = s.power.tripped) ∧
    (∀ (s : State), s.regsOk → s.tablesOk → s.comes (hPage 3) = true → moved s (ftReg Reg.FT_ROLE) = true →
      ∃ t, exec .roleChange s = .next t ∧ t.reg (ftReg Reg.FT_ROLE) = s.shd (ftReg Reg.FT_ROLE) % 2 ^ 32 ∧
        t.time.mayStep = decide (bf (s.shd (ftReg Reg.FT_ROLE)) 1 0 = 0 ∧ ftRole s ≠ 0) ∧ t.time.mustStep = false ∧ t.time.near = 0 ∧ bit (t.reg (ftReg Reg.FT_STATUS)) 0 = 0 ∧ t = { s with regs := t.regs, seq := t.seq, belt := t.belt, net := t.net, storage := t.storage, port := t.port, serving := t.serving, wake := t.wake, catching := t.catching, reclaim := t.reclaim, sideband := t.sideband, mem := t.mem, tenant := t.tenant, time := t.time, power := t.power } ∧ t.mem.table = s.mem.table ∧ t.mem.tableErr = s.mem.tableErr ∧ t.time.now = s.time.now ∧ t.power.tripped = s.power.tripped) ∧
    (∀ (s : State) (cl : Nat), s.regsOk → s.tablesOk → cl < 432 → s.comes (clPage 0x15 cl) = true → bit (s.shd (lsReg cl Reg.LS_CTRL)) 1 = 1 →
      ∃ t, exec (.lossScaleLoad cl) s = .next t ∧ sigmaOf t cl = signed 8 (bf (s.shd (lsReg cl Reg.LS_LOAD)) 7 0) ∧
        sigmaStep t cl = sigmaOf t cl ∧ cleanOf t cl = bf (s.shd (lsReg cl Reg.LS_LOAD)) 31 16 ∧ bit (t.reg (lsReg cl Reg.LS_CTRL)) 1 = 0 ∧
        bit (t.shd (lsReg cl Reg.LS_CTRL)) 1 = 0 ∧ t = { s with regs := t.regs, seq := t.seq, belt := t.belt, net := t.net, storage := t.storage, port := t.port, serving := t.serving, wake := t.wake, catching := t.catching, reclaim := t.reclaim, sideband := t.sideband, mem := t.mem, tenant := t.tenant, time := t.time, power := t.power } ∧ t.mem.table = s.mem.table ∧ t.mem.tableErr = s.mem.tableErr ∧ t.time.now = s.time.now ∧ t.power.tripped = s.power.tripped) ∧
    (∀ (s : State) (w : Nat), s.regsOk → s.tablesOk → w < 8 → s.comes (memPage w) = true → bit (s.shd (memPage w + Reg.SAND_CTRL)) 31 = 1 →
      catchFullShd s w = catchFull s w →
      ∃ t, exec (.sandQueue w) s = .next t ∧
        sget nilAt t.mem.sand w = sget nilAt s.mem.sand w ++
          [{ base := bf (s.shd (memPage w + Reg.SAND_BASE)) 14 0, size := bf (s.shd (memPage w + Reg.SAND_CTRL)) 14 0 + 1, left := bf (s.shd (memPage w + Reg.SAND_CTRL)) 14 0 + 1, urgent := bit (s.shd (memPage w + Reg.SAND_CTRL)) 16 == 1, parting := none }] ∧
        bit (t.reg (memPage w + Reg.SAND_CTRL)) 31 = 0 ∧ t = { s with regs := t.regs, seq := t.seq, belt := t.belt, net := t.net, storage := t.storage, port := t.port, serving := t.serving, wake := t.wake, catching := t.catching, reclaim := t.reclaim, sideband := t.sideband, mem := t.mem, tenant := t.tenant, time := t.time, power := t.power } ∧ t.mem.table = s.mem.table ∧ t.mem.tableErr = s.mem.tableErr ∧ t.time.now = s.time.now ∧ t.power.tripped = s.power.tripped) ∧
    (∀ (s : State) (w : Nat), s.regsOk → s.tablesOk → w < 8 → s.comes (memPage w) = true → catchFullShd s w ≠ catchFull s w →
      ∃ t, exec (.catchShareChange w) s = .next t ∧ catchFull t w = catchFullShd s w ∧
        bf (t.reg (memPage w + Reg.MEM_CATCH_BASE)) 14 0 = (dataUnits s w - shareUnits (catchFullShd s w)) % 2 ^ 15 ∧
        (catchFullShd s w = false → bit (s.shd (memPage w + Reg.SAND_CTRL)) 31 = 0 → bit (s.reg (memPage w + Reg.SAND_CTRL)) 31 = 0 →
          sget nilAt t.mem.sand w = sget nilAt s.mem.sand w ++
            [{ base := dataUnits s w - 1792, size := 1728, left := 1728, urgent := false, parting := none }]) ∧
        (catchFullShd s w = true → bit (s.shd (memPage w + Reg.SAND_CTRL)) 31 = 0 → bit (s.reg (memPage w + Reg.SAND_CTRL)) 31 = 0 →
          t.mem.sand = s.mem.sand) ∧ t = { s with regs := t.regs, seq := t.seq, belt := t.belt, net := t.net, storage := t.storage, port := t.port, serving := t.serving, wake := t.wake, catching := t.catching, reclaim := t.reclaim, sideband := t.sideband, mem := t.mem, tenant := t.tenant, time := t.time, power := t.power } ∧ t.mem.table = s.mem.table ∧ t.mem.tableErr = s.mem.tableErr ∧ t.time.now = s.time.now ∧ t.power.tripped = s.power.tripped)

/-- O51. Publications, plans, links, power states and key slots by commit. R279 to R281, R285, R298, R344 to R346, R438,
R442, R476: (each commit comes alone to its die, by the strobe of log entry 58) a version that succeeds the current
one becomes current, and the old one previous, or retired where nothing pins it; a publication that may not be is
held; a plan starts with its counters at zero; a link takes its mode and trains anew, but a fenced one stays fenced;
RETRAIN trains a link again and keeps what it has not had acknowledged; a power state is entered; LOAD makes a slot
active with fresh keys and serial 0; PART begins the parting of a slot. That a link's new mode drops what it held, and
that a plan of no descriptors is done at once, is log entry 155, the model's reading. -/
def Obligations.CommitEffectsLater : Prop :=
  (∀ (s : State) (m : Nat), s.regsOk → s.tablesOk → m < 64 → s.comes blkPage = true → bit (s.shd (blkKey Reg.BLK_CTRL m)) 0 = 1 →
      (∀ p < 8, moved s (jobPinKey p) = false ∧ moved s (jobPinKey p + 4) = false ∧ moved s (jobFpinKey p) = false) →
      (bit (s.shd (blkKey Reg.BLK_CFG m)) 0 = 1 → s.reg (blkKey Reg.BLK_PREV m) = 0 →
        s.shd (blkKey Reg.BLK_PUB_VER m) % 2 ^ 32 = successor (s.reg (blkKey Reg.BLK_CUR m)) →
        ∃ t, exec .publish s = .next t ∧ t.reg (blkKey Reg.BLK_CUR m) = s.shd (blkKey Reg.BLK_PUB_VER m) % 2 ^ 32 ∧
          t.reg (blkKey Reg.BLK_PINS_CUR m) = 0 ∧ t.reg (blkKey Reg.BLK_PINS_PREV m) = s.reg (blkKey Reg.BLK_PINS_CUR m) % 2 ^ 32 ∧
          t.reg (blkKey Reg.BLK_PREV m) = (if s.reg (blkKey Reg.BLK_PINS_CUR m) % 2 ^ 32 = 0 then 0 else s.reg (blkKey Reg.BLK_CUR m) % 2 ^ 32) ∧
          bit (t.reg (blkKey Reg.BLK_STATE m)) 0 = 0 ∧ t = { s with regs := t.regs, seq := t.seq, belt := t.belt, net := t.net, storage := t.storage, port := t.port, serving := t.serving, wake := t.wake, catching := t.catching, reclaim := t.reclaim, sideband := t.sideband, mem := t.mem, tenant := t.tenant, time := t.time, power := t.power } ∧ t.mem.table = s.mem.table ∧ t.mem.tableErr = s.mem.tableErr ∧ t.time.now = s.time.now ∧ t.power.tripped = s.power.tripped) ∧
      (s.reg (blkKey Reg.BLK_PREV m) ≠ 0 → s.reg (blkKey Reg.BLK_PINS_PREV m) ≠ 0 →
        ∃ t, exec .publish s = .next t ∧ t.reg (blkKey Reg.BLK_CUR m) = s.reg (blkKey Reg.BLK_CUR m) ∧
          t.reg (blkKey Reg.BLK_PREV m) = s.reg (blkKey Reg.BLK_PREV m) ∧ bit (t.reg (blkKey Reg.BLK_STATE m)) 0 = 1 ∧ t = { s with regs := t.regs, seq := t.seq, belt := t.belt, net := t.net, storage := t.storage, port := t.port, serving := t.serving, wake := t.wake, catching := t.catching, reclaim := t.reclaim, sideband := t.sideband, mem := t.mem, tenant := t.tenant, time := t.time, power := t.power } ∧ t.mem.table = s.mem.table ∧ t.mem.tableErr = s.mem.tableErr ∧ t.time.now = s.time.now ∧ t.power.tripped = s.power.tripped)) ∧
    (∀ (s : State) (m a : Nat), s.regsOk → s.tablesOk → m < 64 → a < 4096 → s.comes blkPage = true → s.shd (adpBits Reg.BLK_CTRL m a) = 2 →
      (∀ p < 8, moved s (jobPinKey p) = false ∧ moved s (jobPinKey p + 4) = false ∧ moved s (jobFpinKey p) = false) →
      bit (s.shd (blkKey Reg.BLK_CFG m)) 0 = 1 → s.reg (adpKey Reg.ADP_PREV m a) = 0 →
      s.shd (adpKey Reg.ADP_PUB_VER m a) % 2 ^ 32 = successor (s.reg (adpKey Reg.ADP_CUR m a)) →
      ∃ t, exec .adapterPublish s = .next t ∧ t.reg (adpKey Reg.ADP_CUR m a) = s.shd (adpKey Reg.ADP_PUB_VER m a) % 2 ^ 32 ∧
        t.reg (adpKey Reg.ADP_PINS_CUR m a) = 0 ∧ t.reg (adpKey Reg.ADP_PINS_PREV m a) = s.reg (adpKey Reg.ADP_PINS_CUR m a) % 2 ^ 32 ∧
        t.reg (adpKey Reg.ADP_PREV m a) = (if s.reg (adpKey Reg.ADP_PINS_CUR m a) % 2 ^ 32 = 0 then 0 else s.reg (adpKey Reg.ADP_CUR m a) % 2 ^ 32) ∧
        t.reg (adpBits Reg.BLK_STATE m a) = 0 ∧ t = { s with regs := t.regs, seq := t.seq, belt := t.belt, net := t.net, storage := t.storage, port := t.port, serving := t.serving, wake := t.wake, catching := t.catching, reclaim := t.reclaim, sideband := t.sideband, mem := t.mem, tenant := t.tenant, time := t.time, power := t.power } ∧ t.mem.table = s.mem.table ∧ t.mem.tableErr = s.mem.tableErr ∧ t.time.now = s.time.now ∧ t.power.tripped = s.power.tripped) ∧
    (∀ (s : State) (w : Nat), s.regsOk → s.tablesOk → w < 8 → s.comes (swPage w) = true → bit (s.shd (swReg w Reg.SW_CTRL)) 0 = 1 →
      ∃ t, exec (.switchPlanStart w) s = .next t ∧ swState t w = (if bf (s.shd (swReg w Reg.SW_COUNT)) 19 0 = 0 then 2 else 1) ∧
        (∀ o ∈ wordsFrom Reg.SW_REFUSED 6, t.reg (swPage w + o) = 0) ∧
        (bf (s.shd (swReg w Reg.SW_COUNT)) 19 0 = 0 → t.reg64 (swReg w Reg.SW_END_LO) = s.turn % 2 ^ 64) ∧ t = { s with regs := t.regs, seq := t.seq, belt := t.belt, net := t.net, storage := t.storage, port := t.port, serving := t.serving, wake := t.wake, catching := t.catching, reclaim := t.reclaim, sideband := t.sideband, mem := t.mem, tenant := t.tenant, time := t.time, power := t.power } ∧ t.mem.table = s.mem.table ∧ t.mem.tableErr = s.mem.tableErr ∧ t.time.now = s.time.now ∧ t.power.tripped = s.power.tripped) ∧
    (∀ (s : State) (l : Nat), s.regsOk → s.tablesOk → l < 24 → s.comes (linkPage l) = true →
      bf (s.shd (linkReg l Reg.LINK_CTRL)) 1 0 ≠ bf (s.reg (linkReg l Reg.LINK_CTRL)) 1 0 →
      ∃ t, exec (.linkModeChange l) s = .next t ∧ bf (t.reg (linkReg l Reg.LINK_CTRL)) 1 0 = bf (s.shd (linkReg l Reg.LINK_CTRL)) 1 0 ∧
        (fenced s l = false → linkStateOf t l = (if bf (s.shd (linkReg l Reg.LINK_CTRL)) 1 0 = 0 then 0 else 1) ∧ t.link l = linkDefault l) ∧
        (fenced s l = true → bit (s.shd (linkReg l Reg.LINK_CTRL)) 4 = 0 → linkStateOf t l = linkStateOf s l ∧ (t.link l).replay = (s.link l).replay) ∧
        (∀ k, k / 4 ≠ l / 4 → t.link k = s.link k) ∧ (∀ k, k ≠ l → t.link k = { s.link k with told := (t.link k).told }) ∧ t = { s with regs := t.regs, seq := t.seq, belt := t.belt, net := t.net, storage := t.storage, port := t.port, serving := t.serving, wake := t.wake, catching := t.catching, reclaim := t.reclaim, sideband := t.sideband, mem := t.mem, tenant := t.tenant, time := t.time, power := t.power } ∧ t.mem.table = s.mem.table ∧ t.mem.tableErr = s.mem.tableErr ∧ t.time.now = s.time.now ∧ t.power.tripped = s.power.tripped) ∧
    (∀ (s : State) (l : Nat), s.regsOk → s.tablesOk → l < 24 → s.comes (linkPage l) = true → bit (s.shd (linkReg l Reg.LINK_CTRL)) 4 = 1 →
      bf (s.shd (linkReg l Reg.LINK_CTRL)) 1 0 = bf (s.reg (linkReg l Reg.LINK_CTRL)) 1 0 →
      ∃ t, exec (.linkRetrain l) s = .next t ∧ bit (t.reg (linkReg l Reg.LINK_CTRL)) 4 = 0 ∧
        linkStateOf t l = (if linkStateOf s l = 2 ∨ linkStateOf s l = 3 then 7 else if 4 ≤ linkStateOf s l ∧ linkStateOf s l ≤ 6 then 1
          else linkStateOf s l) ∧
        (linkStateOf s l = 2 ∨ linkStateOf s l = 3 → (t.link l).again = true) ∧ (t.link l).replay = (s.link l).replay ∧
        (t.link l).tx = (s.link l).tx ∧ (∀ k, k / 4 ≠ l / 4 → t.link k = s.link k) ∧ t = { s with regs := t.regs, seq := t.seq, belt := t.belt, net := t.net, storage := t.storage, port := t.port, serving := t.serving, wake := t.wake, catching := t.catching, reclaim := t.reclaim, sideband := t.sideband, mem := t.mem, tenant := t.tenant, time := t.time, power := t.power } ∧ t.mem.table = s.mem.table ∧ t.mem.tableErr = s.mem.tableErr ∧ t.time.now = s.time.now ∧ t.power.tripped = s.power.tripped) ∧
    (∀ (s : State), s.regsOk → s.tablesOk → s.comes (hPage 0x0A) = true → bit (s.shd (psReg Reg.PS_CTRL)) 31 = 1 →
      (bf (s.shd (psReg Reg.PS_CTRL)) 1 0 ≠ 0 →
        ∃ t, exec .powerStateEntry s = .next t ∧ psEntering t = true ∧ psState t = psState s ∧
          t.wake = { s.wake with target := bf (s.shd (psReg Reg.PS_CTRL)) 1 0 } ∧
          t.reg (psReg Reg.PS_ENTRIES) = satAdd 32 (s.reg (psReg Reg.PS_ENTRIES)) 1 % 2 ^ 32 ∧ bit (t.reg (psReg Reg.PS_CTRL)) 31 = 0 ∧ t = { s with regs := t.regs, seq := t.seq, belt := t.belt, net := t.net, storage := t.storage, port := t.port, serving := t.serving, wake := t.wake, catching := t.catching, reclaim := t.reclaim, sideband := t.sideband, mem := t.mem, tenant := t.tenant, time := t.time, power := t.power } ∧ t.mem.table = s.mem.table ∧ t.mem.tableErr = s.mem.tableErr ∧ t.time.now = s.time.now ∧ t.power.tripped = s.power.tripped) ∧
      (bf (s.shd (psReg Reg.PS_CTRL)) 1 0 = 0 → s.time.alarm = none →
        ∃ t, exec .powerStateEntry s = .next t ∧ psEntering t = psEntering s ∧ psState t = psState s ∧ t.wake = s.wake)) ∧
    (∀ (s : State) (k : Nat), s.regsOk → s.tablesOk → k < 64 → s.comes (hPage 8) = true → bit (s.shd (slotKey Reg.SLOT_CFG k)) 0 = 1 →
      bf (s.reg (slotKey Reg.SLOT_CFG k)) 1 0 = 0 → rclState s ≠ 4 →
      ∃ t, exec .slotCfgLoad s = .next t ∧ slotState t k = 1 ∧ slotParts t k = bf (s.shd (slotKey Reg.SLOT_CFG k)) 15 8 ∧
        slotConf t k = (bit (s.shd (slotKey Reg.SLOT_CFG k)) 2 == 1) ∧ serialNow t k = 0 ∧ bit (t.reg (slotKey Reg.SLOT_CFG k)) 0 = 0 ∧
        t.tenant.staging = [] ∧ t = { s with regs := t.regs, seq := t.seq, belt := t.belt, net := t.net, storage := t.storage, port := t.port, serving := t.serving, wake := t.wake, catching := t.catching, reclaim := t.reclaim, sideband := t.sideband, mem := t.mem, tenant := t.tenant, time := t.time, power := t.power } ∧ t.mem.table = s.mem.table ∧ t.mem.tableErr = s.mem.tableErr ∧ t.time.now = s.time.now ∧ t.power.tripped = s.power.tripped) ∧
    (∀ (s : State) (k : Nat), s.regsOk → s.tablesOk → k < 64 → s.comes (hPage 8) = true → bit (s.shd (slotKey Reg.SLOT_CFG k)) 1 = 1 →
      bf (s.reg (slotKey Reg.SLOT_CFG k)) 1 0 = 0 →
      ∃ t, exec .slotCfgPart s = .next t ∧ slotState t k = 2 ∧ bf (t.reg (slotKey Reg.SLOT_STATE k)) 31 24 = 3 ∧
        sget zeroAt t.tenant.parting k = s.turn ∧ bit (t.reg (slotKey Reg.SLOT_CFG k)) 1 = 0 ∧ t = { s with regs := t.regs, seq := t.seq, belt := t.belt, net := t.net, storage := t.storage, port := t.port, serving := t.serving, wake := t.wake, catching := t.catching, reclaim := t.reclaim, sideband := t.sideband, mem := t.mem, tenant := t.tenant, time := t.time, power := t.power } ∧ t.mem.table = s.mem.table ∧ t.mem.tableErr = s.mem.tableErr ∧ t.time.now = s.time.now ∧ t.power.tripped = s.power.tripped)

/-- O52. CRC retries, retraining, corrections, sanding and tag sweeps. R250, R253, R256 to R258, R268 to R270, R443, R447:
a CRC failure is counted four times and then ends the access and retrains its channel; retraining returns the channel
or fails it, and what its queue held goes on, accepted writes first, those of a slot in parting counted; a corrected
slice is stored anew; a parity error is counted; a waiting range rises in priority once SAND_AGE turns have passed;
units that are sanded read zero without errors, SAND_STATUS counts them down, and the range leaves its queue with its
last; a sweep clears the tags of a slot's old epochs in one die, and the last die releases the next advance. What
"channel failed" names is log entry 137, which granules a failed access loses, log entry 72, and that one slot is
swept at a time, log entry 74, and which writes PART_CNT3 counts, log entry 80: the model's readings. -/
def Obligations.MemoryHappenings : Prop :=
  (∀ (s : State) (a n k : Nat) (write : Bool), s.regsOk → s.tablesOk → gWindow a < 8 → a % 256 + n ≤ 256 → gChannel s a < 8 →
      chState s (gWindow a) (gChannel s a) = 0 →
      (1 ≤ k → k < 5 →
        exec (.gddr7CrcRetry a n k write) s = .next (setReg s (memPage (gWindow a) + Reg.MEM_CRC_RETRY) (satAdd 32 (s.reg (memPage (gWindow a) + Reg.MEM_CRC_RETRY)) 1))) ∧
      (k = 5 → ∃ t, exec (.gddr7CrcRetry a n k write) s = .next t ∧ chState t (gWindow a) (gChannel s a) = 3 ∧
        (∀ j < 8, j ≠ gChannel s a → chState t (gWindow a) j = chState s (gWindow a) j) ∧
        t.mem = { s.mem with crc := s.mem.crc ++ (granules a n).map fun g => (g, write) } ∧
        Posted s t (48 + gWindow a) Cause.linkCrc a ∧ t = { s with regs := t.regs, belt := t.belt, mem := t.mem } ∧ t.mem.ns = s.mem.ns ∧ t.mem.tags = s.mem.tags ∧ t.mem.nsErr = s.mem.nsErr ∧ t.mem.table = s.mem.table ∧ t.mem.tableErr = s.mem.tableErr ∧ t.mem.sand = s.mem.sand ∧ t.mem.partList = s.mem.partList)) ∧
    (∀ (s : State) (w k : Nat) (ok : Bool), s.regsOk → s.tablesOk → w < 8 → k < 8 → chState s w k = 3 →
      let s' := setChState s w k (if ok then 0 else 2)
      chState s' w k = (if ok then 0 else 2) ∧ (∀ j < 8, j ≠ k → chState s' w j = chState s w j) ∧ s' = { s with regs := s'.regs } ∧
        ∃ t, exec (.retrainingComplete w k ok) s = .next t ∧ (ok = true → t = serveHeld s') ∧
          (ok = false → Posted s t (48 + w) Cause.channelFailed (channelBase s w k)) ∧ t = { s with regs := t.regs, seq := t.seq, belt := t.belt, net := t.net, storage := t.storage, port := t.port, serving := t.serving, mem := t.mem, tenant := t.tenant } ∧ t.mem.table = s.mem.table ∧ t.mem.tableErr = s.mem.tableErr ∧ t.mem.sand = s.mem.sand ∧ t.mem.partList = s.mem.partList ∧ t.tenant.keys = s.tenant.keys ∧ t.tenant.loads = s.tenant.loads) ∧
    (∀ (s : State), let t := landWrites s
      t.mem.waiting = s.mem.waiting.filter (fun x => gHeld s x.addr x.bytes.length) ∧
      (∀ x, s.mem.waiting = [x] → gHeld s x.addr x.bytes.length = false → x.ctx.entry = none →
        t.mem.gddr = (gWrite s x.ctx x.addr x.bytes).mem.gddr ∧
        (∀ k < 64, x.ctx.slot = some k → slotParting s k = true → s.regsOk →
          t.reg (slotKey (Reg.PART_CNT + 12) k) = satAdd 32 (s.reg (slotKey (Reg.PART_CNT + 12) k)) 1 % 2 ^ 32))) ∧
    (∀ (s : State) (a : Nat), s.regsOk → s.tablesOk → sget zeroAt s.mem.nsErr (a / 32) = 1 →
      ∃ t, exec (.correctionWriteBack a) s = .next t ∧ sget zeroAt t.mem.nsErr (a / 32) = 0 ∧
        (∀ j, j ≠ a / 32 → sget zeroAt t.mem.nsErr j = sget zeroAt s.mem.nsErr j) ∧ t.mem = { s.mem with nsErr := t.mem.nsErr } ∧
        t = { s with mem := t.mem }) ∧
    (∀ (s : State) (w : Nat), w < 8 →
      exec (.commandAddressParityError w) s = .next (setReg s (memPage w + Reg.MEM_CA_PARITY) (satAdd 32 (s.reg (memPage w + Reg.MEM_CA_PARITY)) 1))) ∧
    (∀ (s : State) (w : Nat), s.regsOk → s.tablesOk → w < 8 → sandRanges s w ≠ [] →
      let due := sget zeroAt s.mem.sandAged w + bf (s.reg (memPage w + Reg.SAND_AGE)) 15 0
      (due ≤ s.turn → ∃ t, exec (.sandAgeing w) s = .next t ∧ sandLevel t w = min 3 (sandLevel s w + 1) ∧ sandRanges t w = sandRanges s w ∧
        sget zeroAt t.mem.sandAged w = s.turn ∧ t.mem = { s.mem with sandAged := t.mem.sandAged } ∧ t = { s with regs := t.regs, mem := t.mem }) ∧
      (s.turn < due → exec (.sandAgeing w) s = .next s)) ∧
    (∀ (s : State) (w : Nat) (r : SandRange) (rest : List SandRange), s.regsOk → s.tablesOk → s.memoryOk → w < 8 → s.stopped = false → sandRanges s w = r :: rest →
      ∀ units, let n := min units r.left
      let lo := 2 ^ 36 * w + mib2 * (r.base + (r.size - r.left))
      ∃ t, exec (.sanded { window := w, units := units }) s = .next t ∧
        (∀ a, sget byteZero t.mem.gddr a = if lo ≤ a ∧ a < lo + mib2 * n then 0 else sget byteZero s.mem.gddr a) ∧
        (∀ g, sget zeroAt t.mem.gErr g = if lo ≤ 32 * g ∧ 32 * g < lo + mib2 * n then 0 else sget zeroAt s.mem.gErr g) ∧
        (r.left ≤ units → sandRanges t w = rest ∧ Posted s t (48 + w) Cause.sanded (2 ^ 36 * w + mib2 * r.base)) ∧
        (units < r.left → sandRanges t w = { r with left := r.left - units } :: rest ∧ t.belt = s.belt) ∧
        bf (t.reg (memPage w + Reg.SAND_STATUS)) 31 16 = (if r.left ≤ units then min ((rest.map (·.left)).headD 0) 65535
          else min (r.left - units) 65535) ∧
        (∀ v, v ≠ w → sandRanges t v = sandRanges s v) ∧ t = { s with regs := t.regs, belt := t.belt, mem := t.mem } ∧ t.mem.ns = s.mem.ns ∧ t.mem.tags = s.mem.tags ∧ t.mem.nsErr = s.mem.nsErr ∧ t.mem.table = s.mem.table ∧ t.mem.tableErr = s.mem.tableErr) ∧
    (∀ (s : State) (d k : Nat), s.regsOk → s.tablesOk → d < 48 → k < 64 → sget (fun _ => false) s.tenant.sweeps (sweepKey k d) = true →
      ∃ t, exec (.tagSweepComplete d k) s = .next t ∧
        (∀ l, sget tagDefault t.mem.tags l =
          if l / 2 ^ 22 = d ∧ sget tagDefault s.mem.tags l % 64 = k ∧ sget tagDefault s.mem.tags l / 64 ≠ 1023 ∧
            sget tagDefault s.mem.tags l / 64 ≠ slotEpoch s k then 0xFFC0 else sget tagDefault s.mem.tags l) ∧
        (s.tenant.heldAdvance = [] → sget (fun _ => false) t.tenant.sweeps (sweepKey k d) = false ∧
          t.reg (cPage 0x10 d + Reg.NS_SWEEP) = 0 ∧ (∀ j, slotEpoch t j = slotEpoch s j)) ∧
        (∀ j rest, s.tenant.heldAdvance = j :: rest → j < 64 →
          (∀ i, i ≠ sweepKey k d → sget (fun _ => false) s.tenant.sweeps i = false) →
          slotEpoch t j = (slotEpoch s j + 1) % 1023 ∧ t.tenant.heldAdvance = rest ∧
          ∀ c < 48, t.reg (cPage 0x10 c + Reg.NS_SWEEP) = 1 + 256 * j ∧ sget (fun _ => false) t.tenant.sweeps (sweepKey j c) = true) ∧
        t = { s with regs := t.regs, mem := t.mem, tenant := t.tenant } ∧ t.mem.gddr = s.mem.gddr ∧ t.mem.gKey = s.mem.gKey ∧ t.mem.gErr = s.mem.gErr ∧ t.mem.crc = s.mem.crc ∧ t.mem.waiting = s.mem.waiting ∧ t.mem.table = s.mem.table ∧ t.mem.tableErr = s.mem.tableErr ∧ t.mem.sand = s.mem.sand ∧ t.mem.partList = s.mem.partList ∧ t.tenant.keys = s.tenant.keys ∧ t.tenant.loads = s.tenant.loads)

/-- O53. The control loop, measurements, droop, voltage steps, the re-plan and the trip. R417, R418, R420, R456, R462 to
R466, R469, R471 to R474: a loop records its power, its energy and its age, lowers the ceiling by one point where the
average or the heat is too high, and marks the errors and counts the reports that come with its readings (log entry
124); a silent rail is lost; the estimate disagrees; a droop is counted and its stretching ends; a voltage step
acknowledged puts the code that its rail was asked for into effect, and one that times out holds the point and stays
asked for; a re-plan is written over the older copy of the record and waits for the next boundary; the trip stops the
clocks, drives THERMTRIP_N and loses what the memories hold. Which copy of two alike is written is log entry 131, and
how far the ceiling falls and what a step that changes nothing counts, log entry 151: the model's choices. -/
def Obligations.PowerController : Prop :=
  (∀ s : State, s.power.replanDue = true ∨ (s.reg (pwrReg Reg.AGE_PERIOD) ≠ 0 ∧ s.reg (pwrReg Reg.AGE_PERIOD) ≤ ageHours s) → s.power.replan = none →
      ∃ t, exec .periodicReplan s = .next t ∧ t.power.replan = some (s.turn + 1, replanOffsets s) ∧ t.power.ageLoops = 0 ∧
        t.power.replanDue = false ∧ t.power.offsets = s.power.offsets ∧
        (s.power.copyA.seq ≤ s.power.copyB.seq → t.power.copyA.offsets = recordOffsets s (replanOffsets s) ∧ t.power.copyB = s.power.copyB) ∧
        (s.power.copyA.seq ≤ s.power.copyB.seq → t.power.copyA.seq = (s.power.copyB.seq + 1) % 2 ^ 64) ∧
        (s.power.copyB.seq < s.power.copyA.seq → t.power.copyB.offsets = recordOffsets s (replanOffsets s) ∧ t.power.copyA = s.power.copyA) ∧
        t = { s with power := t.power }) ∧
    (∀ (s : State) (r : LoopReadings) (ps : List Nat), s.regsOk → s.tablesOk → s.boot.pwrgood = true → s.boot.inReset = false →
      4 ≤ bf (s.reg (hPage 0x0B + Reg.BOOT_STEP)) 3 0 → r.rails = ps.map some →
      ∃ t, exec (.controlLoop r) s = .next t ∧ t.power.hist = (sumList ps :: s.power.hist).take 30000 ∧
        t.reg64 (pwrReg Reg.PWR_ENERGY_LO) = (s.reg64 (pwrReg Reg.PWR_ENERGY_LO) + sumList ps) % 2 ^ 64 ∧
        t.power.ageLoops = s.power.ageLoops + 1 ∧
        (105 ≤ (hottest r).1 ∨ 100 ≤ hottestMem r → 15 ≤ s.power.sinceHeat → s.power.heatLimit < 11 →
          t.power.heatLimit = s.power.heatLimit + 1 ∧ bit t.sideband.events 0 = 1) ∧
        (meanAbove ((sumList ps :: s.power.hist).take 16) 120 (capW s) = true → 15 ≤ s.power.sinceDown → ceilNow s < 11 →
          t.power.capLimit = ceilNow s + 1 ∧ t.power.sinceDown = 0) ∧ t.net.noRoute = [] ∧
        (∀ u, r.upsets = [u] →
          (u.kind = .nearSram → sget zeroAt t.mem.nsErr u.place = max (sget zeroAt s.mem.nsErr u.place) (if u.hard then 2 else 1)) ∧
          (u.kind = .gddr7 → sget zeroAt t.mem.gErr u.place = max (sget zeroAt s.mem.gErr u.place) (if u.hard then 2 else 1)) ∧
          (u.kind = .table → u.hard = true → sget zeroAt t.mem.tableErr u.place = max (sget zeroAt s.mem.tableErr u.place) 2) ∧
          (u.kind = .table → u.hard = false → u.place < 2048 * 432 →
            t.reg (clPage 0x12 (u.place / 2048) + Reg.F_ERR_COUNT) = satAdd 32 (s.reg (clPage 0x12 (u.place / 2048) + Reg.F_ERR_COUNT)) 1 % 2 ^ 32)) ∧
        (∀ w n, r.devEcc = [(w, n)] → w < 8 →
          t.reg (memPage w + Reg.MEM_DEVECC) = satAdd 32 (s.reg (memPage w + Reg.MEM_DEVECC)) n % 2 ^ 32) ∧
        t.mem.ns = s.mem.ns ∧ t.mem.gddr = s.mem.gddr ∧ t.mem.table = s.mem.table ∧ t = { s with freeCount := t.freeCount, regs := t.regs, belt := t.belt, net := t.net, port := t.port, sideband := t.sideband, mem := t.mem, time := t.time, power := t.power } ∧ t.mem.sand = s.mem.sand ∧ t.mem.partList = s.mem.partList ∧ t.time.now = s.time.now ∧ t.power.tripped = s.power.tripped) ∧
    (∀ (s : State) (i : Nat), s.regsOk → s.tablesOk → 3 ≤ silentLoops s i → i ∉ s.power.lostRails →
      ∃ t, exec (.measurementLost i) s = .next t ∧ t.power = { s.power with lostRails := s.power.lostRails ++ [i] } ∧ pwrBit t 2 = true ∧
        Posted s t 63 Cause.measurementLost i ∧ t = { s with regs := t.regs, belt := t.belt, power := t.power } ∧ t.power.tripped = s.power.tripped) ∧
    (∀ s : State, s.regsOk → s.tablesOk → 1000 ≤ s.power.disagree → pwrBit s 1 = false →
      ∃ t, exec .powerEstimateDisagrees s = .next t ∧ pwrBit t 1 = true ∧ Posted s t 63 Cause.powerEstimateDisagrees 0 ∧
        t = { s with regs := t.regs, belt := t.belt }) ∧
    (∀ (s : State) (d : Nat), s.regsOk → s.tablesOk → d < 48 → s.stopped = false →
      ∃ t, exec (.droop d) s = .next t ∧ d ∈ t.power.stretched ∧
        t.reg (cPage 0x11 d + Reg.DIE_DROOP) = satAdd 32 (s.reg (cPage 0x11 d + Reg.DIE_DROOP)) 1 % 2 ^ 32 ∧
        t = { s with regs := t.regs, power := t.power }) ∧
    (∀ (s : State) (d n : Nat), s.regsOk → s.tablesOk → d ∈ s.power.stretched →
      ∃ t, exec (.droopRecovery d n) s = .next t ∧ t.power = { s.power with stretched := s.power.stretched.filter fun x => x != d } ∧
        t.reg (cPage 0x11 d + Reg.DIE_STRETCH) = (if n = 0 then s.reg (cPage 0x11 d + Reg.DIE_STRETCH)
          else satAdd 32 (s.reg (cPage 0x11 d + Reg.DIE_STRETCH)) n % 2 ^ 32) ∧ t = { s with regs := t.regs, power := t.power }) ∧
    (∀ (s : State) (p : Nat), (s.power.steps.any fun e => e.1 == p) = false → exec (.vstepAck p) s = .next s) ∧
    (∀ (s : State) (p c : Nat), s.regsOk → s.tablesOk → p < 8 → (s.power.steps.find? fun e => e.1 == p) = some (p, c) →
      ∃ t, exec (.vstepAck p) s = .next t ∧ railNow t p = c ∧ (∀ q, q ≠ p → railNow t q = railNow s q) ∧
        t.power = { s.power with rails := t.power.rails, steps := s.power.steps.filter fun e => e.1 != p } ∧
        (∀ d < 48, partOfC d = p → bf (t.reg (cPage 0x11 d + Reg.DIE_VCODE)) 15 8 = c % 256) ∧
        t = { s with regs := t.regs, power := t.power }) ∧
    (∀ (s : State) (p : Nat), s.regsOk → s.tablesOk → (s.power.steps.any fun e => e.1 == p) = true → p ∉ s.power.late →
      ∃ t, exec (.regulatorStepTimeout p) s = .next t ∧ t.power.steps = s.power.steps ∧ t.power.late = s.power.late ++ [p] ∧
        t.power.regHold = some (s.power.regHold.getD (pointNow s)) ∧ Posted s t 63 Cause.regulatorStepTimeout p ∧
        (ready s = true → s.power.regHold = none → pointNow s ≤ 11 → pointNow s ≤ bf (t.reg (pwrReg Reg.PWR_CEIL)) 3 0) ∧ t = { s with regs := t.regs, belt := t.belt, power := t.power } ∧ t.power.tripped = s.power.tripped) ∧
    (∀ (s : State) (p : Nat), (s.power.steps.any fun e => e.1 == p) = false ∨ p ∈ s.power.late → exec (.regulatorStepTimeout p) s = .next s) ∧
    (∀ (s : State) (d : Nat), s.regsOk → s.tablesOk → s.boot.pwrgood = true → s.power.tripped = false →
      ∃ t, exec (.thermalTrip d) s = .next t ∧ t.power = { s.power with tripped := true } ∧ t.board = { s.board with thermtripN := false } ∧
        bit t.sideband.events 0 = 1 ∧ (portUp s = true → Posted s t 63 Cause.thermalTrip d) ∧ t.stopped = true ∧
        t.mem.ns = [] ∧ t.mem.tags = [] ∧ t.mem.gddr = [] ∧ t.mem.waiting = [] ∧ t.catching.dump = none ∧ t = { s with regs := t.regs, belt := t.belt, catching := t.catching, sideband := t.sideband, board := t.board, mem := t.mem, power := t.power } ∧ t.mem.table = s.mem.table ∧ t.mem.tableErr = s.mem.tableErr ∧ t.mem.sand = s.mem.sand ∧ t.mem.partList = s.mem.partList)

/-- O54. Key slots are loaded, parted, zeroised and freed. R432, R433, R436 to R447, R527: SLOT_LOAD and SLOT_PART write
the shadow and wait for the commit, or are refused; a quiet slot is zeroised after its parting turn, another one 16
turns after it, the writes of its own that channels still hold dropped and counted; when the last range is sanded the
slot is free, its regions are disabled and the parting is posted. What SLOT_PART answers for a slot that is not active
is log entry 103, and when SLOT_LOAD is answered, log entry 104: the model's readings. -/
def Obligations.TenantSlots : Prop :=
  (∀ (s : State) (k : Nat), s.regsOk → s.tablesOk → k < 64 → slotState s k = 2 → slotQuiet s k = true → partingTurn s k < s.turn →
      ∃ t, exec (.keyZeroise k) s = .next t ∧ Zeroised s t k ∧ t = { s with regs := t.regs, seq := t.seq, belt := t.belt, net := t.net, storage := t.storage, port := t.port, serving := t.serving, mem := t.mem, tenant := t.tenant } ∧ t.mem.ns = s.mem.ns ∧ t.mem.tags = s.mem.tags ∧ t.mem.nsErr = s.mem.nsErr ∧ t.mem.table = s.mem.table ∧ t.mem.tableErr = s.mem.tableErr) ∧
    (∀ (s : State) (k : Nat), s.regsOk → s.tablesOk → k < 64 → slotState s k = 2 → slotQuiet s k = false →
      (partingTurn s k + 16 ≤ s.turn → ∃ t, exec (.forcedZeroise k) s = .next t ∧ Zeroised s t k ∧ (∀ x ∈ t.mem.waiting, x.ctx.slot ≠ some k) ∧
        t.reg (slotKey (Reg.PART_CNT + 16) k) = satAdd 32 (s.reg (slotKey (Reg.PART_CNT + 16) k)) (heldOf s k).length % 2 ^ 32 ∧ t = { s with regs := t.regs, seq := t.seq, belt := t.belt, net := t.net, storage := t.storage, port := t.port, serving := t.serving, mem := t.mem, tenant := t.tenant } ∧ t.mem.ns = s.mem.ns ∧ t.mem.tags = s.mem.tags ∧ t.mem.nsErr = s.mem.nsErr ∧ t.mem.table = s.mem.table ∧ t.mem.tableErr = s.mem.tableErr) ∧
      (s.turn < partingTurn s k + 16 → exec (.forcedZeroise k) s = .next s)) ∧
    (∀ (s : State) (k : Nat), s.regsOk → s.tablesOk → k < 64 → slotState s k = 3 →
      (partingLeft s k = true → exec (.partingComplete k) s = .next s) ∧
      (partingLeft s k = false →
        ∃ t, exec (.partingComplete k) s = .next t ∧ slotState t k = 0 ∧ slotParts t k = 0 ∧ partingTurn t k = 0 ∧
          (∀ w < 8, ∀ r ∈ regions t w, r.enable = true → r.slot ≠ k) ∧ Posted s t 63 Cause.partingComplete (partingTurn s k) ∧
          (rclState s = 4 → rclMask s &&& slotParts s k ≠ 0 → rclState t = 5 ∧ t.reclaim.parted = s.turn) ∧ t = { s with regs := t.regs, belt := t.belt, reclaim := t.reclaim, tenant := t.tenant } ∧ t.tenant.keys = s.tenant.keys ∧ t.tenant.loads = s.tenant.loads)) ∧
    (∀ (s : State) (h : PortHead) (tag slot conf parts : Nat) (key : List Byte), s.regsOk → s.tablesOk → s.mailOpen h = true → slot < 64 → conf < 2 → parts < 256 →
      key.length = 32 →
      (admitted s = false → ∃ t, exec (.slotLoad h tag slot conf parts key) s = .next t ∧ Answered s t tag 0x22 Mail.notAdmitted ∧
        t = { s with port := t.port }) ∧
      (admitted s = true → commitOf s (hPage 8) = none →
        ∃ t, exec (.slotLoad h tag slot conf parts key) s = .next t ∧ Awaits s t tag 0x22 (hPage 8) 0 ∧
          t.shd (slotKey Reg.SLOT_CFG slot) = 1 + 4 * conf + 256 * parts ∧
          (∀ i < 8, sget zeroAt t.tenant.staging i = leNat ((key.drop (4 * i)).take 4)) ∧ (∀ j, t.reg j = s.reg j) ∧ t = { s with regs := t.regs, port := t.port, tenant := t.tenant } ∧ t.tenant.keys = s.tenant.keys ∧ t.tenant.loads = s.tenant.loads) ∧
      (admitted s = true → commitOf s (hPage 8) ≠ none →
        ∃ t, exec (.slotLoad h tag slot conf parts key) s = .next t ∧ Answered s t tag 0x22 Mail.busy ∧ t = { s with port := t.port })) ∧
    (∀ (s : State) (h : PortHead) (tag slot turn : Nat), s.regsOk → s.tablesOk → s.mailOpen h = true → slot < 64 → turn < 2 ^ 54 → admitted s = true →
      (slotState s slot = 1 → commitOf s (hPage 8) = none →
        ∃ t, exec (.slotPart h tag slot turn) s = .next t ∧ Answered s t tag 0x23 Mail.accepted ∧
          commitOf t (hPage 8) = some { page := hPage 8, turn := if turn = 0 then none else some turn } ∧
          bf (t.shd (slotKey Reg.SLOT_CFG slot)) 1 0 = 2 ∧ (∀ j, t.reg j = s.reg j) ∧ t = { s with regs := t.regs, belt := t.belt, port := t.port }) ∧
      (slotState s slot ≠ 1 → ∃ t, exec (.slotPart h tag slot turn) s = .next t ∧ Answered s t tag 0x23 Mail.refused ∧
        Posted s t 63 Cause.slotBusy 0 ∧ slotState t slot = slotState s slot ∧ commitOf t (hPage 8) = commitOf s (hPage 8) ∧
        t.shd (slotKey Reg.SLOT_CFG slot) = s.shd (slotKey Reg.SLOT_CFG slot) ∧ t = { s with regs := t.regs, belt := t.belt, port := t.port }))

/-- O55. Attestation, port keys, quotes, EXTEND, REKEY, DEBUG_AUTH and ADMIT. R425 to R433, R450: an attestation request
is answered by a quote over the nonce and a fresh key, and the key; a ciphertext of the right length keys the port,
another is dropped; quotes are counted; EXTEND folds into one of registers 5 to 7; REKEY derives new keys and
counters; debug is authorised only by a verified token and while no confidential tenant is present; ADMIT needs an
identity. Keys and signatures are opaque functions (log entry 60); which requests a device without its identity
answers, and what ADMIT extends, is log entry 148, the model's reading. -/
def Obligations.TrustedDomain : Prop :=
  (∀ (s : State) (h : PortHead) (tag : Nat) (nonce : List Byte), s.regsOk → s.tablesOk → s.portTakes 0xA h = true → portKeyed s = false → attBit s 0 = true →
      ∃ t g e q, exec (.attestationRequest h tag nonce) s = .next t ∧ t.port.tx = s.port.tx ++ [g, e] ∧ g.type = 0xA ∧ g.tag = tag ∧
        g.payload = q ∧ e.type = 9 ∧ e.tag = tag ∧ e.payload = padTo 1184 0 (Config.encapsKey s.freeCount) ∧
        q.take 0x180 = quoteBody s (sha3 (nonce ++ e.payload)) ∧
        q.drop 0x180 = padTo 2420 0 (Config.sign s.tenant.seed (fipsMessage "MDN-T64 quote" (q.take 0x180)) (s.freeCount + 1)) ∧
        t.port.exchange = some { tag := tag, quote := q, ek := e.payload } ∧
        t.reg (attReg Reg.ATT_QUOTES) = satAdd 32 (s.reg (attReg Reg.ATT_QUOTES)) 1 % 2 ^ 32 ∧ t = { s with freeCount := t.freeCount, regs := t.regs, port := t.port }) ∧
    (∀ (s : State) (h : PortHead) (tag : Nat) (ct : List Byte) (x : Exchange), s.regsOk → s.tablesOk → s.portTakes 9 h = true → portKeyed s = false →
      s.port.exchange = some x →
      (ct.length = 1088 →
        let r := padTo 32 0 (Config.sharedSecret x.ek ct) ++ sha3 (x.quote ++ x.ek ++ ct)
        ∃ t g, exec (.keyEstablishment h tag ct) s = .next t ∧ portKeyed t = true ∧ attBit t 1 = true ∧ t.port.exchange = none ∧
          t.port.down = leNat (sha3 (ascii "WLS down" ++ r)) ∧ t.port.up = leNat (sha3 (ascii "WLS up" ++ r)) ∧
          t.port.salt = leNat ((sha3 (ascii "WLS salt" ++ r)).take 4) ∧ t.port.downCtr = 0 ∧ t.port.tx = s.port.tx ++ [g] ∧ g.type = 9 ∧
          g.tag = tag ∧ g.enc = true ∧ t = { s with regs := t.regs, port := t.port }) ∧
      (ct.length ≠ 1088 →
        ∃ t, exec (.keyEstablishment h tag ct) s = .next t ∧ portKeyed t = false ∧ t.port.exchange = none ∧ t.port.tx = s.port.tx ∧
          t.reg (portReg Reg.PORT_DROPS) = satAdd 32 (s.reg (portReg Reg.PORT_DROPS)) 1 % 2 ^ 32)) ∧
    (∀ (s : State) (h : PortHead) (tag : Nat) (nonce : List Byte), s.regsOk → s.tablesOk → s.mailOpen h = true → attBit s 0 = true →
      ∃ t, exec (.quote h tag nonce) s = .next t ∧ Answered s t tag 0x20 Mail.done ∧
        t.reg (attReg Reg.ATT_QUOTES) = satAdd 32 (s.reg (attReg Reg.ATT_QUOTES)) 1 % 2 ^ 32 ∧ t.freeCount = s.freeCount + 1 ∧ t = { s with freeCount := t.freeCount, regs := t.regs, port := t.port }) ∧
    (∀ (s : State) (h : PortHead) (tag : Nat), s.mailOpen h = true →
      ∃ t, exec (.identityReq h tag) s = .next t ∧ Answered s t tag 0x21 Mail.done ∧ t = { s with port := t.port }) ∧
    (∀ (s : State) (h : PortHead) (tag r : Nat) (bytes : List Byte), s.regsOk → s.tablesOk → s.mailOpen h = true → bytes.length = 32 →
      (5 ≤ r → r ≤ 7 →
        ∃ t, exec (.extend h tag r bytes) s = .next t ∧ Answered s t tag 0x24 Mail.done ∧ mrBytes t r = sha3 (mrBytes s r ++ bytes) ∧
          (∀ q < 8, q ≠ r → mrBytes t q = mrBytes s q) ∧ t = { s with regs := t.regs, port := t.port }) ∧
      (r < 5 ∨ 7 < r → ∃ t, exec (.extend h tag r bytes) s = .next t ∧ Answered s t tag 0x24 Mail.reservedEncoding ∧ t = { s with port := t.port })) ∧
    (∀ (s : State) (h : PortHead) (tag : Nat), s.mailOpen h = true →
      ∃ t, exec (.rekey h tag) s = .next t ∧ Answered s t tag 0x25 Mail.done ∧
        t.port.down = leNat (sha3 (ascii "WLS rekey" ++ leBytes 32 s.port.down)) ∧
        t.port.up = leNat (sha3 (ascii "WLS rekey" ++ leBytes 32 s.port.up)) ∧ t.port.downCtr = 0 ∧ t.port.upCtr = 0 ∧ t = { s with port := t.port }) ∧
    (∀ (s : State) (h : PortHead) (tag : Nat) (token : List Byte), s.regsOk → s.tablesOk → s.mailOpen h = true →
      let good := attBit s 0 && !confPresent s && Config.vendorVerifies (vendorKey s) (sha3 (idKey s) ++ mrBytes s 3) token
      ∃ t, exec (.debugAuth h tag token) s = .next t ∧ t = { s with regs := t.regs, port := t.port } ∧
        (good = true → Answered s t tag 0x26 Mail.done ∧ attBit t 3 = true ∧ mrBytes t 3 = sha3 (mrBytes s 3 ++ sha3 token)) ∧
        (good = false → Answered s t tag 0x26 Mail.refused ∧ t = { s with port := t.port })) ∧
    (∀ (s : State) (h : PortHead) (tag : Nat), s.regsOk → s.tablesOk → s.mailOpen h = true →
      (attBit s 0 = true → ∃ t, exec (.trustedDomainAdmit h tag) s = .next t ∧ Answered s t tag 0x27 Mail.done ∧ admitted t = true ∧ t = { s with regs := t.regs, port := t.port }) ∧
      (attBit s 0 = false → ∃ t, exec (.trustedDomainAdmit h tag) s = .next t ∧ Answered s t tag 0x27 Mail.refused ∧ t = { s with port := t.port }))

/-- O56. A reclaim from its request to its hand-over. R526 to R530: a reclaim of one whole job group within its deadline
is accepted, another one refused, and one that parts a slot asks for an admitted domain; from the next boundary on
each die of the group that the strobe reaches has its clusters' reclaim-pending flags set; a quiet group stops and is
held, or its parting begins at once; the forced stop halts its programs and drops its descriptors and loads 1,953,125
turns (2.000 s) before the deadline; a late reclaim is posted once; ownership passes to serving at the first boundary
after parting, unless a catch stands, and is refused once while a partition is not quiet. On what the forced stop acts
is log entry 93, which step is the committed one and when a group without a slot hands over, log entry 154, and that a
refused hand-over is tried again, log entry 171: the model's readings. -/
def Obligations.ReclaimStages : Prop :=
  (∀ (s : State) (h : PortHead) (tag mask : Nat) (hold : Bool) (deadline : Nat), s.regsOk → s.tablesOk → s.mailOpen h = true → rclRunning s = false → s.turn < deadline →
      deadline ≤ s.turn + 58593750 → deadline < 2 ^ 54 →
      (mask < 256 → wholeJobGroup s mask = true → (partsSlot s mask).isSome = true → admitted s = false →
        ∃ t, exec (.reclaim h tag mask hold deadline) s = .next t ∧ Answered s t tag 0x30 Mail.notAdmitted ∧ t = { s with port := t.port }) ∧
      (mask < 256 → wholeJobGroup s mask = true → ((partsSlot s mask).isSome = true → admitted s = true) →
        ∃ t, exec (.reclaim h tag mask hold deadline) s = .next t ∧ Answered s t tag 0x30 Mail.accepted ∧ rclState t = 1 ∧ rclMask t = mask ∧
          rclDeadline t = deadline ∧ t.reclaim = { hold := hold, accepted := s.turn, stopping := groupDies mask } ∧ t = { s with regs := t.regs, belt := t.belt, port := t.port, reclaim := t.reclaim }) ∧
      (256 ≤ mask ∨ wholeJobGroup s mask = false →
        ∃ t, exec (.reclaim h tag mask hold deadline) s = .next t ∧ Answered s t tag 0x30 Mail.refused ∧ rclState t = rclState s ∧
          Posted s t 63 Cause.groupMismatch mask)) ∧
    (∀ (s : State) (turn : Nat) (reached : Nat → Bool), s.regsOk → s.tablesOk → let t := stopReclaimed s turn reached
      (turn ≤ s.reclaim.accepted → t = s) ∧
      (s.reclaim.accepted < turn → t.reclaim = { s.reclaim with stopping := s.reclaim.stopping.filter fun d => !reached d } ∧
        (rclState s = 1 → rclState t = if reached 63 = true then 2 else 1) ∧
        ∀ d < 48, d ∈ s.reclaim.stopping → reached d = true →
          ∀ j < 9, liveFlag t (9 * d + j) 3 = true ∧ bit (t.reg (seqReg (9 * d + j) Reg.FLAG_CTRL)) 1 = 1)) ∧
    (∀ s : State, s.regsOk → s.tablesOk → rclState s = 2 →
      (groupQuiet s (rclMask s) = false → exec .groupQuiet s = .next s) ∧
      (groupQuiet s (rclMask s) = true →
        ∃ t, exec .groupQuiet s = .next t ∧ t.reg64 (rclReg Reg.RCL_STEP_LO) = committedStep s (rclMask s) % 2 ^ 64 ∧
          (s.reclaim.hold = true → rclState t = 3 ∧ Posted s t 63 Cause.reclaimStopped 0) ∧
          (s.reclaim.hold = false → rclState t = (if (rclSlot s).isSome then 4 else 5) ∧
            ((rclSlot s).isSome = false → t.reclaim.parted = s.turn)) ∧ t = { s with regs := t.regs, belt := t.belt, reclaim := t.reclaim })) ∧
    (∀ (s : State) (h : PortHead) (tag : Nat), s.regsOk → s.tablesOk → s.mailOpen h = true →
      (rclState s = 3 → ∃ t, exec (.reclaimGo h tag) s = .next t ∧ Answered s t tag 0x31 Mail.done ∧
        rclState t = (if (rclSlot s).isSome then 4 else 5) ∧ t = { s with regs := t.regs, port := t.port, reclaim := t.reclaim }) ∧
      (rclState s ≠ 3 → ∃ t, exec (.reclaimGo h tag) s = .next t ∧ Answered s t tag 0x31 Mail.refused ∧ t = { s with port := t.port })) ∧
    (∀ s : State, s.regsOk → s.tablesOk → 1 ≤ rclState s → rclState s ≤ 3 → rclDeadline s ≤ s.turn + 1953125 → (rclState s = 3 ∨ groupQuiet s (rclMask s) = false) →
      ∃ t, exec .reclaimForcedStop s = .next t ∧ (∀ f ∈ t.seq.flights, inGroup (rclMask s) f = true → hasDescriptor f = false) ∧
        (∀ cl < 432, bit (rclMask s) (partOf cl) = 1 → ∀ p < 8, progEnabled t cl p = false) ∧
        (∀ l ∈ t.storage.loads, loadOfGroup (rclMask s) l = false) ∧
        t.reg (rclReg Reg.RCL_FORCED) = satAdd 32 (s.reg (rclReg Reg.RCL_FORCED)) 1 % 2 ^ 32 ∧
        rclState t = (if (rclSlot s).isSome then 4 else 5) ∧ Posted s t 63 Cause.reclaimForcedStop 0 ∧ t = { s with regs := t.regs, seq := t.seq, belt := t.belt, net := t.net, storage := t.storage, reclaim := t.reclaim, mem := t.mem } ∧ t.mem.ns = s.mem.ns ∧ t.mem.tags = s.mem.tags ∧ t.mem.nsErr = s.mem.nsErr ∧ t.mem.table = s.mem.table ∧ t.mem.tableErr = s.mem.tableErr ∧ t.mem.sand = s.mem.sand ∧ t.mem.partList = s.mem.partList) ∧
    (∀ s : State, rclRunning s = true → rclDeadline s ≤ s.turn → s.reclaim.late = false →
      ∃ t, exec .reclaimLate s = .next t ∧ t.reclaim = { s.reclaim with late := true } ∧ Posted s t 63 Cause.reclaimLate (rclDeadline s) ∧ t = { s with regs := t.regs, belt := t.belt, reclaim := t.reclaim }) ∧
    (∀ s : State, s.regsOk → s.tablesOk → rclState s = 5 → s.reclaim.parted < s.turn →
      (s.catching.caught = true → exec .handOver s = .next s) ∧
      (s.catching.caught = false → ((setBits (rclMask s) 8).all fun p => partQuiet s p) = true →
        ∃ t, exec .handOver s = .next t ∧ rclState t = 6 ∧ t.reclaim = { s.reclaim with stopping := [] } ∧
          (∀ p < 8, partKind t p = (if bit (rclMask s) p = 1 then 1 else partKind s p) ∧ partGroup t p = partGroup s p) ∧
          t.reg (rclReg Reg.RCL_TIME) = (s.turn - s.reclaim.accepted) % 2 ^ 32 ∧
          PostedLate s t 63 Cause.reclaimComplete (s.reg64 (rclReg Reg.RCL_STEP_LO)) ∧ t = { s with regs := t.regs, belt := t.belt, reclaim := t.reclaim }) ∧
      (s.catching.caught = false → ((setBits (rclMask s) 8).all fun p => partQuiet s p) = false →
        (s.reclaim.busy = true → exec .handOver s = .next s) ∧
        (s.reclaim.busy = false → ∃ t, exec .handOver s = .next t ∧ rclState t = 5 ∧ t.reclaim = { s.reclaim with busy := true } ∧
          bf (t.reg (hPage 4 + Reg.F_STATUS)) 31 16 = Cause.partitionBusy ∧
          (∀ p < 8, partKind t p = partKind s p ∧ partGroup t p = partGroup s p) ∧ t = { s with regs := t.regs, belt := t.belt, reclaim := t.reclaim })))

/-- O57. The catch, its dump and release, and the belt's frames. R25, R410, R510 to R518, R529, R530, R543: a catch halts
every program, abandons transfers, withdraws commits and shows its cause; a completed dump is held in GDDR7 or flash;
a die without strobes halts its own programs; a dump is released, its region queued for sanding, but while one is
being written; a belt frame in error is tried again three times, the failures of another frame not counted, then its
lane is down and a catch raised; the oldest record of a die goes to the store where no queue takes it; a record of
losses follows when there is room. When a release is refused is log entry 27, the cause of a catch for a lane, log
entry 63, and that a caught package raises no further catch, log entry 86: the model's choices. -/
def Obligations.CatchAndBelt : Prop :=
  (∀ (s : State) (cause die : Nat), s.regsOk → s.tablesOk → s.stopped = false →
      (s.catching.caught = true → exec (.caught cause die) s = .next s) ∧
      (s.catching.caught = false →
        ∃ t, exec (.caught cause die) s = .next t ∧ t.catching.caught = true ∧ (∀ cl < 432, ∀ p < 8, progEnabled t cl p = false) ∧
          t.regs.commits = [] ∧ t.port.mbox = [] ∧ (∀ f ∈ t.seq.flights, hasDescriptor f = false) ∧ t.seq.copies = [] ∧
          t.storage.loads = [] ∧ t.storage.far = [] ∧ t.storage.host = [] ∧ bit t.sideband.events 2 = 1 ∧
          t.reg (catchReg Reg.CATCH_CAUSE) = cause % 65536 + 65536 * (die % 64) ∧ (rclRunning s = true → rclState t = 7) ∧
          (portUp s = true → Posted s t 63 Cause.caught 0) ∧ t.mem = s.mem ∧ t = { s with regs := t.regs, seq := t.seq, belt := t.belt, net := t.net, storage := t.storage, port := t.port, catching := t.catching, sideband := t.sideband })) ∧
    (∀ (s : State) (dies t0 cause die : Nat) (flash : Bool), s.regsOk → s.tablesOk → s.catching.dump = some (t0, cause, die, flash) →
      ∃ t, exec (.catchDumpComplete dies) s = .next t ∧ t.catching.dump = none ∧ bf (t.reg (catchReg Reg.CATCH_STATE)) 1 0 = 2 ∧
        (flash = true → t.catching.flashHeld = true ∧ t.mem = s.mem ∧ Posted s t 63 Cause.catchDumpReduced 0) ∧
        (flash = false → t.catching.regionHeld = true ∧ t.boot.flash = s.boot.flash ∧ Posted s t 63 Cause.catchDumpComplete 0) ∧
        t.mem.ns = s.mem.ns ∧ t.mem.table = s.mem.table ∧ t = { s with regs := t.regs, belt := t.belt, catching := t.catching, mem := t.mem, boot := t.boot } ∧ t.mem.ns = s.mem.ns ∧ t.mem.tags = s.mem.tags ∧ t.mem.nsErr = s.mem.nsErr ∧ t.mem.table = s.mem.table ∧ t.mem.tableErr = s.mem.tableErr ∧ t.mem.sand = s.mem.sand ∧ t.mem.partList = s.mem.partList ∧ t.boot.pwrgood = s.boot.pwrgood ∧ t.boot.inReset = s.boot.inReset) ∧
    (∀ (s : State) (d : Nat), s.regsOk → s.tablesOk → d < 63 → s.stopped = false → 4 ≤ sget zeroAt s.time.missed d → d ∉ s.catching.lone →
      ∃ t, exec (.strobeLossDump d) s = .next t ∧ d ∈ t.catching.lone ∧
        (d < 48 → ∀ j < 9, ∀ p < 8, progEnabled t (9 * d + j) p = false) ∧ (dumpToFlash s = true → t.mem = s.mem) ∧ t = { s with regs := t.regs, seq := t.seq, catching := t.catching, mem := t.mem, boot := t.boot } ∧ t.mem.ns = s.mem.ns ∧ t.mem.tags = s.mem.tags ∧ t.mem.nsErr = s.mem.nsErr ∧ t.mem.table = s.mem.table ∧ t.mem.tableErr = s.mem.tableErr ∧ t.mem.sand = s.mem.sand ∧ t.mem.partList = s.mem.partList ∧ t.boot.pwrgood = s.boot.pwrgood ∧ t.boot.inReset = s.boot.inReset) ∧
    (∀ (s : State) (h : PortHead) (tag : Nat), s.mailOpen h = true →
      ∃ t, exec (.catchInfo h tag) s = .next t ∧ Answered s t tag 0x35 Mail.done ∧ t = { s with port := t.port }) ∧
    (∀ (s : State) (h : PortHead) (tag : Nat), s.regsOk → s.tablesOk → s.mailOpen h = true →
      (s.catching.dump ≠ none → ∃ t, exec (.catchRelease h tag) s = .next t ∧ Answered s t tag 0x36 Mail.refused ∧ t = { s with port := t.port }) ∧
      (s.catching.dump = none →
        ∃ t, exec (.catchRelease h tag) s = .next t ∧ Answered s t tag 0x36 Mail.done ∧ t.catching.regionHeld = false ∧
          t.catching.flashHeld = false ∧ t.reg (catchReg Reg.CATCH_STATE) = 0 ∧ t.catching.caught = s.catching.caught ∧ t = { s with regs := t.regs, port := t.port, catching := t.catching, mem := t.mem, boot := t.boot } ∧ t.mem.ns = s.mem.ns ∧ t.mem.tags = s.mem.tags ∧ t.mem.nsErr = s.mem.nsErr ∧ t.mem.gddr = s.mem.gddr ∧ t.mem.gKey = s.mem.gKey ∧ t.mem.gErr = s.mem.gErr ∧ t.mem.crc = s.mem.crc ∧ t.mem.waiting = s.mem.waiting ∧ t.mem.table = s.mem.table ∧ t.mem.tableErr = s.mem.tableErr ∧ t.boot.pwrgood = s.boot.pwrgood ∧ t.boot.inReset = s.boot.inReset)) ∧
    (∀ (s : State) (d attempt : Nat), s.regsOk → s.tablesOk → d < 63 → beltRuns s d = true → attempt ≤ 3 →
      (attempt = 1 ∨ attempt = beltTries s d + 1 → ∃ t, exec (.beltCrcRetry { die := d, attempt := attempt }) s = .next t ∧ beltTries t d = attempt ∧
        (∀ e, e ≠ d → beltTries t e = beltTries s e) ∧ t = { s with belt := { s.belt with tries := t.belt.tries } }) ∧
      (attempt ≠ 1 → attempt ≠ beltTries s d + 1 → exec (.beltCrcRetry { die := d, attempt := attempt }) s = .next s)) ∧
    (∀ (s : State) (d : Nat), s.regsOk → s.tablesOk → d < 63 → beltRuns s d = true → beltTries s d = 3 →
      ∃ t, exec (.beltLaneDown d) s = .next t ∧ d ∈ t.belt.down ∧ beltTries t d = 0 ∧ t.catching.caught = true ∧ t = { s with freeCount := t.freeCount, regs := t.regs, seq := t.seq, belt := t.belt, net := t.net, storage := t.storage, port := t.port, catching := t.catching, sideband := t.sideband }) ∧
    (∀ (s : State) (d : Nat) (e : Event) (rest : List Event), s.regsOk → s.tablesOk → beltRuns s d = true → sget nilAt s.belt.queues d = e :: rest →
      (eventQueue s e.partition = none → s.belt.store.length < 4096 →
        ∃ t, exec (.eventFrame d) s = .next t ∧ sget nilAt t.belt.queues d = rest ∧ t.belt.store = s.belt.store ++ [e] ∧ beltTries t d = 0 ∧ t = { s with regs := t.regs, belt := t.belt, serving := t.serving }) ∧
      (eventQueue s e.partition = none → 4096 ≤ s.belt.store.length →
        ∃ t, exec (.eventFrame d) s = .next t ∧ sget nilAt t.belt.queues d = rest ∧ t.belt.store = s.belt.store ∧
          t.belt.storeLost = s.belt.storeLost + 1)) ∧
    (∀ (s : State) (d : Nat), s.regsOk → s.tablesOk → d < 64 → sget zeroAt s.belt.lost d ≠ 0 → (sget nilAt s.belt.queues d).length < 256 →
      ∃ t ev, exec (.eventOverflow d) s = .next t ∧ sget nilAt t.belt.queues d = sget nilAt s.belt.queues d ++ [ev] ∧
        ev.cause = Cause.eventOverflow ∧ ev.count = sget zeroAt s.belt.lost d ∧ sget zeroAt t.belt.lost d = 0 ∧ t = { s with belt := t.belt }) ∧
    (∀ (s : State), s.regsOk → s.tablesOk → s.belt.storeLost ≠ 0 → s.belt.store.length < 4096 → (sget nilAt s.belt.queues 63).length < 256 →
      ∃ t ev, exec (.eventOverflow 64) s = .next t ∧ sget nilAt t.belt.queues 63 = sget nilAt s.belt.queues 63 ++ [ev] ∧
        ev.cause = Cause.eventOverflow ∧ ev.count = s.belt.storeLost ∧ t.belt.storeLost = 0)

/-- O58. Entry into a power state, the wake sources, the stages of a wake, and a pair's return. R346, R475 to R482, R510,
R524, R555: a state is entered, links that a fence holds excepted, and in Rest the switched supplies are off, and a
wake latched while entering is replayed; an enabled source begins the wake of a sleeping package and is latched while
it enters; stages follow one another until Run, are repeated once, and then a catch is raised; leaving Rest leaves
near SRAM and table memory empty, has the links trained anew and a follower step its count; a pair that has lost its
partner resumes when a link of it is up and the partner answers, and one that has not is lost where its partner is
caught (log entry 132). What Rest drops and what leaving it shows is log entry 152, the model's reading. -/
def Obligations.PowerStates : Prop :=
  (∀ s : State, s.regsOk → s.tablesOk → s.stopped = false → psEntering s = true →
      ∃ t, exec .entryComplete s = .next t ∧ psState t = s.wake.target % 4 ∧ psEntering t = false ∧ psLatched t = false ∧
        (psLatched s = true → psWaking t = true ∧ psStage t = (if s.wake.target % 4 = 1 then 4 else 1)) ∧
        (psLatched s = false → psWaking t = psWaking s) ∧
        (s.wake.target % 4 = 3 → bf (t.reg (portReg Reg.PORT_STATE)) 1 0 = 0 ∧ (psLatched s = false → t.power.supplyOff = true ∧ t.power.steps = []) ∧
          ∀ l < 24, (fenced s l = false → linkStateOf t l = 0 ∧ t.link l = linkDefault l) ∧
            (fenced s l = true → linkStateOf t l = linkStateOf s l ∧ t.link l = s.link l)) ∧
        (s.wake.target % 4 ≠ 3 → t.net = s.net) ∧ t = { s with regs := t.regs, belt := t.belt, net := t.net, wake := t.wake, sideband := t.sideband, power := t.power } ∧ t.power.tripped = s.power.tripped) ∧
    (∀ s : State, s.regsOk → s.tablesOk → s.stopped = false → s.wakesBy 3 = true → ∃ t, exec .wakeNFall s = .next t ∧ WakeBegun s t 3 ∧ t = { s with regs := t.regs, wake := t.wake, sideband := t.sideband, power := t.power } ∧ t.power.tripped = s.power.tripped) ∧
    (∀ (s : State) (l : Nat), s.regsOk → s.tablesOk → s.stopped = false → l ≤ 24 → detecting s = true → s.wakesBy (if l = 24 then 1 else 0) = true →
      ∃ t, exec (.wakePattern l) s = .next t ∧ WakeBegun s t (if l = 24 then 1 else 0) ∧ t = { s with regs := t.regs, wake := t.wake, sideband := t.sideband, power := t.power } ∧ t.power.tripped = s.power.tripped) ∧
    (∀ (s : State) (h : PortHead), s.regsOk → s.tablesOk → s.portTakes 0xC h = true → psState s ≠ 3 → s.wakesBy 1 = true →
      ∃ t, exec (.portWakeFrame h) s = .next t ∧ WakeBegun s t 1 ∧ t = { s with regs := t.regs, port := t.port, wake := t.wake, sideband := t.sideband, power := t.power } ∧ t.power.tripped = s.power.tripped) ∧
    (∀ (s : State) (page cl a : Nat), s.regsOk → s.tablesOk → s.stopped = false → cl < 432 → page = clPage 0x12 cl → enables s cl = true →
      commitOf s page = some { page := page, turn := some a } → a ≤ s.turn + wakeTurns (psState s) → s.wakesBy 5 = true →
      ∃ t, exec (.armedCommitWake page) s = .next t ∧ WakeBegun s t 5 ∧ t = { s with regs := t.regs, wake := t.wake, sideband := t.sideband, power := t.power } ∧ t.power.tripped = s.power.tripped) ∧
    (∀ s : State, s.regsOk → s.tablesOk → s.stopped = false → psEntering s = true → bit (s.reg (psReg Reg.PS_WAKE_EN)) 3 = 1 →
      ∃ t, exec .wakeNFall s = .next t ∧ psLatched t = true ∧ psEntering t = true ∧ psWaking t = psWaking s) ∧
    (∀ (s : State) (mask : Nat), s.regsOk → s.tablesOk → ∃ t, exec (.wakePatternEnd mask) s = .next t ∧ (∀ l < 24, bit mask l = 1 → (t.link l).waking = false) ∧
      (∀ l < 24, bit mask l = 0 → t.link l = s.link l) ∧ t = { s with regs := t.regs, net := t.net, tenant := t.tenant } ∧ t.tenant.keys = s.tenant.keys ∧ t.tenant.loads = s.tenant.loads) ∧
    (∀ s : State, s.regsOk → s.tablesOk → s.stopped = false → psWaking s = true →
      (nextStage (psState s) (psStage s) ≠ 0 →
        ∃ t, exec .wakeStageReady s = .next t ∧ psStage t = nextStage (psState s) (psStage s) ∧ t.wake = { s.wake with attempts := 1 } ∧
          psWaking t = true ∧ psState t = psState s ∧
          (psStage s = 1 → t.power.supplyOff = false ∧ t.power.steps = [] ∧ ∀ p < 8, railNow t p = railCode s p (pointNow s)) ∧ t = { s with regs := t.regs, seq := t.seq, wake := t.wake, mem := t.mem, time := t.time, power := t.power } ∧ t.mem.gddr = s.mem.gddr ∧ t.mem.gKey = s.mem.gKey ∧ t.mem.gErr = s.mem.gErr ∧ t.mem.crc = s.mem.crc ∧ t.mem.waiting = s.mem.waiting ∧ t.mem.sand = s.mem.sand ∧ t.mem.partList = s.mem.partList ∧ t.time.now = s.time.now ∧ t.power.tripped = s.power.tripped) ∧
      (nextStage (psState s) (psStage s) = 0 →
        ∃ t, exec .wakeStageReady s = .next t ∧ t.reg (psReg Reg.PS_STATE) = 0 ∧
          (psState s = 3 → t.mem.ns = [] ∧ t.mem.tags = [] ∧ t.mem.table = [] ∧ t.mem.gddr = s.mem.gddr ∧ ftFlag t 0 = false ∧
            t.time.mustStep = (ftRole s == 0) ∧
            (∀ l < 24, linkStateOf t l = if wantedMode s l = 0 ∨ fenced s l = true then linkStateOf s l else 1) ∧
            ∀ cl < 432, ∀ p < 8, progEnabled t cl p = false) ∧
          (psState s ≠ 3 → t.mem = s.mem ∧ t.seq = s.seq)) ∧
      (s.wake.attempts = 1 → exec .wakeStageRetry s = .next { s with wake := { s.wake with attempts := 2 } }) ∧
      (s.wake.attempts = 2 → s.catching.caught = false →
        ∃ t, exec .wakeStalled s = .next t ∧ t.catching.caught = true ∧ Posted s t 63 Cause.wakeStalled (psStage s) ∧
          t.reg (catchReg Reg.CATCH_CAUSE) = Cause.wakeStalled + 65536 * 63 ∧ t = { s with regs := t.regs, seq := t.seq, belt := t.belt, net := t.net, storage := t.storage, port := t.port, catching := t.catching, sideband := t.sideband })) ∧
    (∀ s : State, s.regsOk → s.tablesOk → pairState s = 2 ∨ pairState s = 3 → pairUp s ≠ [] →
      ∃ t, exec .mirrorResumed s = .next t ∧ pairState t = 1 ∧ Posted s t 63 Cause.mirrorResumed 0 ∧ t = { s with regs := t.regs, belt := t.belt, net := t.net }) ∧
    (∀ s : State, s.regsOk → s.tablesOk → pairState s = 1 →
      ∃ t, exec .mirrorResumed s = .next t ∧ pairState t = (if pairSolo s then 3 else 2) ∧ t.net.unacked = [] ∧
        Posted s t 63 Cause.mirrorLost 0 ∧ t = { s with regs := t.regs, belt := t.belt, net := t.net })

/-- O59. Power, reset, the steps of bring-up, recovery and the port's training. R352, R353, R399, R400, R419 to R421,
R426, R458, R488 to R501, R545: power-on starts bring-up with every register at reset, but for the catch page's fields
while flash holds a dump; power-off loses all but flash; RESET_N keeps time, energy, GDDR7, a held dump and the
starts; each step ends with the next, the vendor key, the image and the test record are verified as flash holds them,
the image or recovered over the port, the identity key is derived from the PUF and the record, rails take their
settings, READY needs time and sanded memory; the port trains to its lanes, frames acknowledged leave it, and of the
512 at most that had left those that a NAK asks for are sent again. What RESET_N keeps of the catch page is log entry
87, from where BOOT_STARTS counts, log entry 88, the answers during recovery, log entry 89, and which die BOOT_FAIL
names, log entry 153: the model's readings. -/
def Obligations.BringUp : Prop :=
  (∀ s : State, s.regsOk → s.tablesOk → s.boot.pwrgood = false →
      ∃ t, exec .pwrgoodRise s = .next t ∧ t.boot.pwrgood = true ∧ t.boot.inReset = false ∧ bootStep t = 2 ∧ t.boot.flash = s.boot.flash ∧
        (s.catching.flashHeld = false → ∀ k, t.reg k = resetOf k) ∧ t.catching = { flashHeld := s.catching.flashHeld } ∧
        (s.catching.flashHeld = true → t.reg (catchReg Reg.CATCH_STATE) = 10 ∧ (∀ k, catchField k = false → t.reg k = resetOf k) ∧
          ∀ k, catchField k = true → k ≠ catchReg Reg.CATCH_STATE → t.reg k = s.reg k) ∧ t.mem = {} ∧ t.seq = {} ∧
        t.power.copyA = s.power.copyA ∧ t.power.copyB = s.power.copyB ∧ t.pending = s.pending) ∧
    (∀ s : State, s.regsOk → s.tablesOk → s.boot.pwrgood = true →
      ∃ t, exec .pwrgoodFall s = .next t ∧ t.boot.pwrgood = false ∧ (∀ k, catchField k = false → t.reg k = resetOf k) ∧
        (s.catching.flashHeld = false → ∀ k, t.reg k = resetOf k) ∧ t.catching.flashHeld = s.catching.flashHeld ∧ t.mem = {} ∧ t.seq = {} ∧ t.power.tripped = false ∧
        t.board.thermtripN = true ∧ t.boot.flash = s.boot.flash ∧ t.pending = s.pending) ∧
    (∀ s : State, s.regsOk → s.tablesOk → s.boot.pwrgood = true → s.boot.inReset = false →
      ∃ t, exec .resetNAssert s = .next t ∧ t.boot.inReset = true ∧ t.boot.pwrgood = true ∧ t.mem.gddr = s.mem.gddr ∧ t.mem.ns = [] ∧ t.mem.table = [] ∧
        t.time.now = s.time.now ∧ t.power.tripped = s.power.tripped ∧ t.board = s.board ∧ t.sideband = { s.sideband with wake := false } ∧
        t.reg64 (pwrReg Reg.PWR_ENERGY_LO) = s.reg64 (pwrReg Reg.PWR_ENERGY_LO) ∧
        t.reg (bootReg Reg.BOOT_STARTS) = s.reg (bootReg Reg.BOOT_STARTS) ∧
        (dumpHeld s = false → ∀ k, keptKeys s k = false → t.reg k = resetOf k) ∧
        (dumpHeld s = true → bf (t.reg (catchReg Reg.CATCH_STATE)) 1 0 = 2 ∧ t.reg (catchReg Reg.CATCH_CAUSE) = s.reg (catchReg Reg.CATCH_CAUSE)) ∧
        t.catching.regionHeld = s.catching.regionHeld ∧ t.catching.flashHeld = s.catching.flashHeld ∧ t.catching.caught = false) ∧
    (∀ s : State, s.regsOk → s.tablesOk → s.boot.pwrgood = true → s.boot.inReset = true →
      ∃ t, exec .resetNRelease s = .next t ∧ t.boot = { s.boot with inReset := false, began := s.time.now } ∧
        bf (t.reg (bootReg Reg.BOOT_STARTS)) 15 0 = satAdd 16 (bf (s.reg (bootReg Reg.BOOT_STARTS)) 15 0) 1 ∧
        (s.board.tap.underReset = true → t.board.tap = .bypass) ∧ (s.board.tap.underReset = false → t.board = s.board) ∧ t = { s with regs := t.regs, board := t.board, boot := t.boot } ∧ t.boot.flash = s.boot.flash) ∧
    (∀ (s : State) (x : StepEnd), s.regsOk → s.tablesOk → 
      (s.bringsUp 2 = true → ∃ t, exec (.bringUpStepEnd x) s = .next t ∧
        (keyAccepted s = true → bootStep t = 3 ∧ t.boot = { s.boot with puf := x.puf } ∧ t = { s with regs := t.regs, boot := t.boot }) ∧
        (keyAccepted s = false → t = s)) ∧
      (s.bringsUp 3 = true →
        ∃ t, exec (.bringUpStepEnd x) s = .next t ∧ mrBytes t 0 = sha3 (mrBytes s 0 ++ sha3 (fwWhole s)) ∧
          (fwVerifies s = true → bootStep t = 4 ∧ t.boot = s.boot) ∧
          (fwVerifies s = false → bootStep t = 3 ∧ t.boot = { s.boot with recovery := some (0, 0) } ∧ attBit t 4 = true)) ∧
      (s.bringsUp 4 = true →
        let s1 := { s with tenant := { s.tenant with seed := Config.seedOf s.boot.puf (testRecord s) } }
        ∃ t, exec (.bringUpStepEnd x) s = .next t ∧
          (Config.recordVerifies (vendorKey s) (testRecord s) = true → bootStep t = 5 ∧ t.reg (pwrReg Reg.PWR_OP) = 11 ∧
          mrBytes t 1 = sha3 (mrBytes s 1 ++ sha3 (testRecord s)) ∧ t.tenant.seed = Config.seedOf s.boot.puf (testRecord s) ∧
          (idMatches s1 = true → attBit t 0 = true) ∧ (idMatches s1 = false → Posted s t 63 Cause.identityFailure 0) ∧
          (∀ c, ageRecord s1 = some c → t.power.offsets = c.offsets ∧ t.power.replanDue = s.power.replanDue) ∧
          (ageRecord s1 = none → t.power.replanDue = true ∧ ∀ d < 48, ∀ k < 12, offsetOf t d k = 8) ∧
          t.power.fixed = (List.range 8).map (fixedSetting (testRecord s)) ∧ (∀ p < 8, railNow t p = railCode t p 11)) ∧
          (Config.recordVerifies (vendorKey s) (testRecord s) = false → t.boot.stopped = true ∧ t.boot.recovery = some (0, 0) ∧ bootStep t = 4 ∧
          t.reg64 (hPage 1 + Reg.ID_SERIAL_LO) = 0 ∧
          (bf (s.reg (bootReg Reg.BOOT_FAIL)) 7 0 = 0 → bf (t.reg (bootReg Reg.BOOT_FAIL)) 7 0 = 3))) ∧
      (s.bringsUp 5 = true → s.time.refclk = true → x.failed = [] →
        ∃ t, exec (.bringUpStepEnd x) s = .next t ∧ bootStep t = 6 ∧ t.belt = { s.belt with down := [] }) ∧
      (s.bringsUp 5 = true → s.time.refclk = false → ∃ t, exec (.bringUpStepEnd x) s = .next t ∧ bootStep t = 5) ∧
      (∀ d < 48, s.bringsUp 6 = true → x.failed = [] → x.edges = [d] → bf (s.reg (bootReg Reg.BOOT_FAIL)) 7 0 = 0 →
        ∃ t, exec (.bringUpStepEnd x) s = .next t ∧ t.reg (bootReg Reg.BOOT_FAIL) = 6 + 256 * d) ∧
      (s.bringsUp 6 = true → x.failed = [] → x.edges = [] →
        ∃ t, exec (.bringUpStepEnd x) s = .next t ∧ bootStep t = 7 ∧ (∀ cl < 432, ∀ p < 8, progEnabled t cl p = false) ∧ t.mem = { s.mem with ns := [], tags := [], nsErr := [], table := [], tableErr := [] }) ∧
      (s.bringsUp 7 = true → ∃ t, exec (.bringUpStepEnd x) s = .next t ∧ bootStep t = 8 ∧ bf (t.reg (portReg Reg.PORT_STATE)) 1 0 = 1 ∧
        ∀ w < 8, bit (s.reg (hPage 4 + Reg.PART_HEALTH + 4 * w)) 1 = 0 →
          let live := getNth 255 x.channels w % 256
          let n := (setBits live 8).length
          t.reg (memPage w + Reg.MEM_DATA_SIZE) = n * channelUnits x.clamshell ∧
          (n ≠ 0 → s.catching.regionHeld = false → sget nilAt t.mem.sand w = sget nilAt s.mem.sand w ++
            [{ base := 0, size := n * channelUnits x.clamshell, left := n * channelUnits x.clamshell, urgent := false, parting := none }])) ∧
      (s.bringsUp 8 = true → ∃ t, exec (.bringUpStepEnd x) s = .next t ∧ bootStep t = 9)) ∧
    (∀ s : State, s.regsOk → s.tablesOk → s.stopped = false → s.catching.caught = false → bootStep s = 9 → ftFlag s 0 = true → (∀ w < 8, sandRanges s w = []) →
      ∃ t, exec .ready s = .next t ∧ bootStep t = 10 ∧ Posted s t 63 Cause.ready 0 ∧
        t.reg (bootReg Reg.BOOT_TIME) = min (2 ^ 24 - 1) ((s.time.now - s.boot.began) / 10000) ∧ t = { s with regs := t.regs, belt := t.belt, power := t.power } ∧ t.power.tripped = s.power.tripped) ∧
    (∀ (s : State) (h : PortHead) (tag off total got whole : Nat) (bytes : List Byte), s.regsOk → s.tablesOk → s.portTakes 0xB h = true → s.boot.recovery = some (got, whole) →
      (off = got → 0 < bytes.length → bytes.length ≤ 4096 → total ≤ fwMax → off + bytes.length ≤ total →
        (bytes.length = 4096 ∨ off + bytes.length = total) → (got = 0 ∨ total = whole) →
        ∃ t, exec (.recoveryChunk h tag off total bytes) s = .next t ∧ SentPort s t 0xB tag (off + bytes.length) 0 ∧
          t.boot.recovery = some (off + bytes.length, total) ∧ (∀ i (hi : i < bytes.length), flashByte t (fwBase + off + i) = bytes[i]) ∧
          (∀ a, a < fwBase + off ∨ fwBase + off + bytes.length ≤ a → flashByte t a = flashByte s a) ∧ t = { s with regs := t.regs, port := t.port, boot := t.boot } ∧ t.boot.pwrgood = s.boot.pwrgood ∧ t.boot.inReset = s.boot.inReset) ∧
      (off ≠ got → ∃ t, exec (.recoveryChunk h tag off total bytes) s = .next t ∧ SentPort s t 0xB tag got 256 ∧ t = { s with port := t.port }) ∧
      (got ≠ 0 → got = whole →
        ∃ t, exec (.recoveryCommit h tag 0 whole) s = .next t ∧
          (fwVerifies s = true → SentPort s t 0xB tag got 512 ∧ mrBytes t 4 = sha3 (mrBytes s 4 ++ sha3 (fwWhole s)) ∧
            (s.boot.stopped = false → bootStep t = 4 ∧ t.boot.recovery = none) ∧ (s.boot.stopped = true → t.boot = s.boot)) ∧
          (fwVerifies s = false → SentPort s t 0xB tag 0 768 ∧ t.boot.recovery = some (0, 0))) ∧
      (∃ t, exec (.recoveryStatus h tag) s = .next t ∧ SentPort s t 0xB tag got 0 ∧ t = { s with port := t.port })) ∧
    (∀ (s : State) (dark : Nat), s.regsOk → s.tablesOk → s.stopped = false → bf (s.reg (portReg Reg.PORT_STATE)) 1 0 = 1 → dark < 4 →
      ∃ t, exec (.portTraining dark) s = .next t ∧ bf (t.reg (portReg Reg.PORT_STATE)) 1 0 = (if dark = 0 then 3 else if dark = 3 then 0 else 2) ∧
        bf (t.reg (portReg Reg.PORT_STATE)) 5 4 = dark ∧ t.port = { s.port with tries := 0, nak := false } ∧
        t.reg (portReg Reg.PORT_REPLAYS) = satAdd 32 (s.reg (portReg Reg.PORT_REPLAYS)) (portSent s.port.tx).length % 2 ^ 32 ∧
        (dark = 3 → Posted s t 62 Cause.portDown 0) ∧ (dark = 1 ∨ dark = 2 → Posted s t 62 Cause.portDegraded dark) ∧ t = { s with regs := t.regs, belt := t.belt, port := t.port, sideband := t.sideband }) ∧
    (∀ (s : State) (ack : Nat), portUp s = true →
      ∃ t, exec (.portLinkControl ack none) s = .next t ∧ t.port.tx = portAcked s.port.tx ack ∧
        t.port.tries = (if (portAcked s.port.tx ack).length = s.port.tx.length then s.port.tries else 0) ∧ t = { s with port := t.port }) ∧
    (∀ (s : State) (ack q : Nat), s.regsOk → s.tablesOk → portUp s = true →
      let tx := portAcked s.port.tx ack
      let rest := if ((portSent tx).any fun f => f.seq == q) = true then portAcked tx ((q + 4095) % 4096) else tx
      ∃ t, exec (.portLinkControl ack (some q)) s = .next t ∧ t.port.tx = rest ∧
        t.reg (portReg Reg.PORT_REPLAYS) =
          satAdd 32 (s.reg (portReg Reg.PORT_REPLAYS)) ((portSent tx).length - (tx.length - rest.length)) % 2 ^ 32 ∧
        t = { s with regs := t.regs, port := t.port })

/-- O60. The sideband, the test access port, and mailbox requests for registers, pairs and power. R407, R408, R414, R415,
R419, R456, R460, R461, R468, R476 to R478, R484, R521, R524, R530: the sideband wakes the package, clears its events,
takes its address, and leaves and returns to a bus held low; each TAP instruction is loaded, those that need RESET_N
as BYPASS outside it; a mailbox request reads or writes words, or writes the shadow of its page and waits for the
commit it armed, or is answered at once. The words of POWER_READ are log entry 65, which status several words answer,
log entry 81, that requests of the host commit pages, log entry 91, when they are answered, log entry 104, and what a
CAP_SET beyond the registers asks for, log entry 174: the model's choices. -/
def Obligations.BoardAndMailbox : Prop :=
  (∀ s : State, s.regsOk → s.tablesOk → sbRuns s = true → s.boot.inReset = false →
      (s.wakesBy 2 = true → ∃ t, exec .sbWake s = .next t ∧ WakeBegun s t 2 ∧ t = { s with regs := t.regs, wake := t.wake, sideband := t.sideband, power := t.power } ∧ t.power.tripped = s.power.tripped) ∧
      (∃ t, exec .sidebandFault s = .next t ∧ t.sideband = { s.sideband with highZ := true, faults := s.sideband.faults + 1 } ∧
        Posted s t 63 Cause.sidebandFault 0 ∧ t = { s with regs := t.regs, belt := t.belt, sideband := t.sideband })) ∧
    (∀ (s : State) (v a : Nat), sbRuns s = true →
      (∃ t, exec (.sbEventsClear v) s = .next t ∧ (∀ b < 4, bit t.sideband.events b = (if bit v b = 1 then 0 else bit s.sideband.events b)) ∧
        (t.sideband.events = 0 → t.sideband.irq = false) ∧ t = { s with sideband := t.sideband }) ∧
      exec (.dynamicAddressAssignment a) s = .next { s with sideband := { s.sideband with addr := a % 128 } }) ∧
    (∀ s : State, s.sideband.highZ = true → exec (.sidebandRetest true) s = .next { s with sideband := { s.sideband with highZ := false } }) ∧
    (∀ (s : State) (pins : Nat), s.boot.pwrgood = true →
      exec .bypass s = .next { s with board := { s.board with tap := .bypass, tdo := 0 } } ∧
      exec .idcode s = .next { s with board := { s.board with tap := .idcode, tdo := 0x20640B3D } } ∧
      exec .trstNAssert s = .next { s with board := { s.board with tap := .idcode, tdo := 0x20640B3D } } ∧
      exec (.samplePreload pins) s = .next { s with board := { s.board with tap := .samplePreload, tdo := pins } } ∧
      (s.boot.inReset = true →
        exec (.extest pins) s = .next { s with board := { s.board with tap := .extest, tdo := pins } } ∧
        exec (.extestPulse pins) s = .next { s with board := { s.board with tap := .extestPulse, tdo := pins } } ∧
        exec (.extestTrain pins) s = .next { s with board := { s.board with tap := .extestTrain, tdo := pins } } ∧
        exec .clamp s = .next { s with board := { s.board with tap := .clamp, tdo := 0 } } ∧
        exec .highz s = .next { s with board := { s.board with tap := .highz, tdo := 0 } }) ∧
      (s.boot.inReset = false → ∀ c ∈ [Instr.extest pins, .extestPulse pins, .extestTrain pins, .clamp, .highz], exec c s = exec .bypass s)) ∧
    (∀ (s : State) (h : PortHead) (tag addr n : Nat), s.mailOpen h = true → 1 ≤ n → n ≤ 16 → addr % 4 = 0 →
      let r := readWords (takePort s 6 h).1 addr n
      ∃ t g, exec (.regRead h tag addr n) s = .next t ∧ t.port.tx.getLast? = some g ∧ AnsweredLast t tag 1 (mailStatus r.2.1) ∧
        g.payload.drop 64 = (if r.2.1 = 0 then r.2.2.flatMap (leBytes 4) else []) ∧ t.regs = r.1.regs ∧ t = { s with regs := t.regs, port := t.port }) ∧
    (∀ (s : State) (h : PortHead) (tag addr : Nat) (ws : List Nat), s.mailOpen h = true → ws ≠ [] → ws.length ≤ 16 → addr % 4 = 0 →
      let r := writeWords (takePort s 6 h).1 addr ws
      ∃ t, exec (.regWrite h tag addr ws) s = .next t ∧ AnsweredLast t tag 2 (mailStatus r.2) ∧ t.regs = r.1.regs ∧ t = { s with regs := t.regs, seq := t.seq, net := t.net, port := t.port, catching := t.catching, mem := t.mem, tenant := t.tenant, time := t.time, power := t.power, boot := t.boot } ∧ t.mem.ns = s.mem.ns ∧ t.mem.tags = s.mem.tags ∧ t.mem.nsErr = s.mem.nsErr ∧ t.mem.gddr = s.mem.gddr ∧ t.mem.gKey = s.mem.gKey ∧ t.mem.gErr = s.mem.gErr ∧ t.mem.crc = s.mem.crc ∧ t.mem.waiting = s.mem.waiting ∧ t.mem.table = s.mem.table ∧ t.mem.tableErr = s.mem.tableErr ∧ t.tenant.keys = s.tenant.keys ∧ t.tenant.loads = s.tenant.loads ∧ t.time.now = s.time.now ∧ t.power.tripped = s.power.tripped ∧ t.boot.pwrgood = s.boot.pwrgood ∧ t.boot.inReset = s.boot.inReset) ∧
    (∀ (s : State) (h : PortHead) (tag turn a v : Nat), s.regsOk → s.tablesOk → s.mailOpen h = true → turn < 2 ^ 54 → isShadow a = true → writeStatus s .mailbox a = 0 →
      commitOf s (addrPage a) = none →
      ∃ t, exec (.arm h tag turn [(a, v)]) s = .next t ∧ AnsweredLast t tag 3 Mail.done ∧
        commitOf t (addrPage a) = some { page := addrPage a, turn := some turn } ∧
        t.reg64 (addrPage a + Reg.F_COMMIT_TURN_LO) = turn ∧ t = { s with regs := t.regs, seq := t.seq, net := t.net, port := t.port, catching := t.catching, mem := t.mem, tenant := t.tenant, time := t.time, power := t.power, boot := t.boot } ∧ t.mem.ns = s.mem.ns ∧ t.mem.tags = s.mem.tags ∧ t.mem.nsErr = s.mem.nsErr ∧ t.mem.gddr = s.mem.gddr ∧ t.mem.gKey = s.mem.gKey ∧ t.mem.gErr = s.mem.gErr ∧ t.mem.crc = s.mem.crc ∧ t.mem.waiting = s.mem.waiting ∧ t.mem.table = s.mem.table ∧ t.mem.tableErr = s.mem.tableErr ∧ t.tenant.keys = s.tenant.keys ∧ t.tenant.loads = s.tenant.loads ∧ t.time.now = s.time.now ∧ t.power.tripped = s.power.tripped ∧ t.boot.pwrgood = s.boot.pwrgood ∧ t.boot.inReset = s.boot.inReset) ∧
    (∀ (s : State) (h : PortHead) (tag partner l0 l1 base size slot : Nat) (solo : Bool), s.regsOk → s.tablesOk → s.mailOpen h = true → s.mayCommit pairPage 0 = true →
      (partner < 1024 → admitted s = true → l0 < 24 → l1 < 24 → base < 2 ^ 39 → base % mib2 = 0 → 1 ≤ size → size ≤ 65536 → slot < 64 →
        ∃ t, exec (.pairSet h tag partner l0 l1 base size slot) s = .next t ∧ Awaits s t tag 0x32 pairPage 0 ∧
          t.shd (pairReg Reg.PAIR_PARTNER) = partner ∧ t.shd (pairReg Reg.PAIR_LINKS) = l0 + 256 * l1 ∧
          t.shd64 (pairReg Reg.PAIR_MBASE_LO) = base ∧ t.shd (pairReg Reg.PAIR_MSIZE) = size - 1 ∧ bit (t.shd (pairReg Reg.PAIR_CTRL)) 0 = 1 ∧
          bf (t.shd (pairReg Reg.PAIR_CTRL)) 13 8 = slot ∧ t = { s with regs := t.regs, belt := t.belt, port := t.port, power := t.power } ∧ t.power.tripped = s.power.tripped) ∧
      (admitted s = true → (1024 ≤ partner ∨ 2 ^ 39 ≤ base ∨ size = 0 ∨ 65536 < size ∨ 64 ≤ slot) →
        ∃ t, exec (.pairSet h tag partner l0 l1 base size slot) s = .next t ∧ Answered s t tag 0x32 Mail.refused ∧
          bit (t.reg (pairPage + Reg.F_EVENT)) 2 = 1 ∧ bf (t.reg (pairPage + Reg.F_STATUS)) 31 16 = Cause.reservedEncoding ∧
          (∀ j, t.shd j = s.shd j) ∧ t = { s with regs := t.regs, belt := t.belt, port := t.port }) ∧
      (admitted s = false → ∃ t, exec (.pairSet h tag partner l0 l1 base size slot) s = .next t ∧ Answered s t tag 0x32 Mail.notAdmitted ∧
        t = { s with port := t.port }) ∧
      (s.net.mirror = [] → s.net.unacked = [] →
        ∃ t, exec (.pairClear h tag) s = .next t ∧ Awaits s t tag 0x33 pairPage 0 ∧ bit (t.shd (pairReg Reg.PAIR_CTRL)) 0 = 0 ∧ t = { s with regs := t.regs, port := t.port, power := t.power } ∧ t.power.tripped = s.power.tripped) ∧
      (∃ t, exec (.pairSolo h tag solo) s = .next t ∧ Awaits s t tag 0x34 pairPage 0 ∧
        bit (t.shd (pairReg Reg.PAIR_CTRL)) 1 = (if solo then 1 else 0) ∧ t = { s with regs := t.regs, port := t.port, power := t.power } ∧ t.power.tripped = s.power.tripped)) ∧
    (∀ (s : State) (h : PortHead) (tag turn cap window mask point k : Nat) (shares : List Nat), s.regsOk → s.tablesOk → s.mailOpen h = true →
      (s.mayCommit (hPage 9) turn = true →
        (∃ t, exec (.capSet h tag cap window turn) s = .next t ∧ Awaits s t tag 0x38 (hPage 9) turn ∧
          t.shd (pwrReg Reg.PWR_CAP) = min 65535 cap ∧ t.shd (pwrReg Reg.PWR_WINDOW) = min 31 window ∧ t = { s with regs := t.regs, port := t.port, power := t.power } ∧ t.power.tripped = s.power.tripped) ∧
        (shares.length = 8 → ∃ t, exec (.shareSet h tag shares turn) s = .next t ∧ Awaits s t tag 0x39 (hPage 9) turn ∧
          (∀ p < 8, t.shd (pwrReg (Reg.PWR_SHARE + 4 * p)) = getNth 0 shares p % 65536) ∧ t = { s with regs := t.regs, port := t.port, power := t.power } ∧ t.power.tripped = s.power.tripped) ∧
        (point ≤ 11 → ∃ t, exec (.opSet h tag mask point turn) s = .next t ∧ Awaits s t tag 0x3A (hPage 9) turn ∧
          (∀ p < 8, t.shd (pwrReg (Reg.OP_REQ + 4 * p)) = if bit mask p = 1 then point + 2 ^ 31 else s.shd (pwrReg (Reg.OP_REQ + 4 * p))) ∧ t = { s with regs := t.regs, port := t.port, power := t.power } ∧ t.power.tripped = s.power.tripped)) ∧
      (turn < 2 ^ 54 → writeStatus s .mailbox (hPage 9 + 0x100) ≠ 0 →
        ∃ t, exec (.capSet h tag cap window turn) s = .next t ∧ Answered s t tag 0x38 Mail.accessRefused ∧ t = { s with port := t.port }) ∧
      (11 < point → point ≠ 255 → ∃ t, exec (.opSet h tag mask point turn) s = .next t ∧ Answered s t tag 0x3A Mail.refused ∧ t = { s with port := t.port }) ∧
      (1 ≤ k → k ≤ 3 → s.mayCommit (hPage 0x0A) turn = true →
        ∃ t, exec (.stateSet h tag k turn) s = .next t ∧ Awaits s t tag 0x3B (hPage 0x0A) turn ∧ t.shd (psReg Reg.PS_CTRL) = k + 2 ^ 31 ∧ t = { s with regs := t.regs, port := t.port, wake := t.wake, sideband := t.sideband, power := t.power } ∧ t.power.tripped = s.power.tripped) ∧
      (psState s ≠ 3 → s.wakesBy 6 = true →
        ∃ t, exec (.stateSet h tag 0 turn) s = .next t ∧ Answered s t tag 0x3B Mail.done ∧ WakeBegun s t 6) ∧
      (∃ t, exec (.powerRead h tag) s = .next t ∧ Answered s t tag 0x3C Mail.done ∧ t = { s with port := t.port }) ∧
      (turn < 2 ^ 54 → s.power.replan = none →
        ∃ t, exec (.replan h tag turn) s = .next t ∧ Answered s t tag 0x3D Mail.accepted ∧ t.power.replan = some (turn, replanOffsets s) ∧
          t.power.offsets = s.power.offsets ∧ t = { s with regs := t.regs, port := t.port, power := t.power } ∧ t.power.tripped = s.power.tripped) ∧
      (mask < 2 ^ 24 → ∃ t, exec (.wakeLinks h tag mask) s = .next t ∧ Answered s t tag 0x3E Mail.done ∧
        (∀ l < 24, (t.link l).waking = (bit mask l == 1 || (s.link l).waking)) ∧ t = { s with regs := t.regs, net := t.net, port := t.port }))
end

