-- ==== Sys2Proof/Laws/Bits.lean ====
section
/-! SUPPORT. Bit fields: what a write of a field leaves of every bit, of that field and of every other. -/

namespace Sys2Proof.Machine

/-- A number with a field replaced, as what stands above, in and below the field. -/
theorem setBf_eq (e hi lo v : Nat) :
    setBf e hi lo v = 2 ^ lo * (2 ^ (hi + 1 - lo) * (e / 2 ^ lo / 2 ^ (hi + 1 - lo)) + v % 2 ^ (hi + 1 - lo)) + e % 2 ^ lo := by
  unfold setBf bf
  rw [Nat.shiftRight_eq_div_pow, Nat.shiftLeft_eq, Nat.shiftLeft_eq]
  have hA := Nat.div_add_mod e (2 ^ lo)
  have hB := Nat.div_add_mod (e / 2 ^ lo) (2 ^ (hi + 1 - lo))
  generalize (2 : Nat) ^ (hi + 1 - lo) = Q at *
  generalize (2 : Nat) ^ lo = P at *
  generalize hD : e / P = D at *
  have h2 : D * P = P * (Q * (D / Q)) + D % Q * P := by
    rw [Nat.mul_comm P, ← Nat.add_mul, hB]
  have h3 : P * D = D * P := Nat.mul_comm _ _
  have h4 : P * (v % Q) = v % Q * P := Nat.mul_comm _ _
  rw [Nat.mul_add]
  omega

/-- A write of a field replaces its bits and no others. -/
theorem testBit_setBf (e hi lo v i : Nat) (h : lo ≤ hi) :
    (setBf e hi lo v).testBit i = if lo ≤ i ∧ i ≤ hi then v.testBit (i - lo) else e.testBit i := by
  rw [setBf_eq e hi lo v, Nat.testBit_two_pow_mul_add _ (Nat.mod_lt _ (Nat.two_pow_pos _))]
  split
  · rename_i hi1
    rw [if_neg (by omega), Nat.testBit_mod_two_pow]
    simp [hi1]
  · rename_i hi1
    rw [Nat.testBit_two_pow_mul_add _ (Nat.mod_lt _ (Nat.two_pow_pos _))]
    split
    · rename_i h2
      rw [if_pos (by omega), Nat.testBit_mod_two_pow]
      simp [h2]
    · rename_i h2
      rw [if_neg (by omega), Nat.testBit_div_two_pow, Nat.testBit_div_two_pow]
      congr 1; omega

theorem testBit_bf (e hi lo i : Nat) : (bf e hi lo).testBit i = (decide (i < hi + 1 - lo) && e.testBit (lo + i)) := by
  unfold bf
  rw [Nat.testBit_mod_two_pow, Nat.testBit_shiftRight]

/-- A field reads as it was written. -/
theorem bf_setBf_self (e hi lo v : Nat) (h : lo ≤ hi) : bf (setBf e hi lo v) hi lo = v % 2 ^ (hi + 1 - lo) := by
  apply Nat.eq_of_testBit_eq
  intro i
  rw [testBit_bf, testBit_setBf _ _ _ _ _ h, Nat.testBit_mod_two_pow]
  by_cases hi1 : i < hi + 1 - lo
  · rw [if_pos (by omega)]; simp [hi1, show lo + i - lo = i by omega]
  · simp [hi1]

/-- A write of a field leaves every field that does not overlap it. -/
theorem bf_setBf_ne (e hi lo v hi' lo' : Nat) (h : lo ≤ hi) (hd : hi < lo' ∨ hi' < lo) :
    bf (setBf e hi lo v) hi' lo' = bf e hi' lo' := by
  apply Nat.eq_of_testBit_eq
  intro i
  rw [testBit_bf, testBit_bf, testBit_setBf _ _ _ _ _ h]
  by_cases hi1 : i < hi' + 1 - lo'
  · rw [if_neg (by omega)]
  · simp [hi1]

theorem bit_eq_bf (e i : Nat) : bit e i = bf e i i := by
  unfold bit bf
  rw [show i + 1 - i = 1 by omega, Nat.pow_one]

theorem bit_eq_testBit (e i : Nat) : bit e i = (e.testBit i).toNat := by
  unfold bit
  rw [Nat.testBit, Nat.one_and_eq_mod_two]
  rcases Nat.mod_two_eq_zero_or_one (e >>> i) with h | h <;> simp [h]

theorem bit_setBit_self (e i : Nat) (b : Bool) : bit (setBit e i b) i = if b then 1 else 0 := by
  rw [bit_eq_bf, setBit, bf_setBf_self _ _ _ _ (Nat.le_refl _), show i + 1 - i = 1 by omega]
  cases b <;> rfl

theorem bit_setBit_ne (e i j : Nat) (b : Bool) (h : j ≠ i) : bit (setBit e i b) j = bit e j := by
  rw [bit_eq_bf, bit_eq_bf, setBit, bf_setBf_ne _ _ _ _ _ _ (Nat.le_refl _) (by omega)]

end Sys2Proof.Machine
end

