-- ==== Sys2Proof/Laws/Frame.lean ====
section
/-! SUPPORT. What each operation over the state may change: every operation leaves the parts of the state outside its
own mask as they were, whatever its operands. A proof about a command takes the mask of the operations it runs, and
never unfolds them. -/

namespace Sys2Proof.Machine

/-- A set of parts of the state: a part is in it where its field is true. -/
structure Parts where
  pending : Bool := false
  free : Bool := false
  regs : Bool := false
  now : Bool := false
  time : Bool := false
  seq : Bool := false
  ns : Bool := false
  gddr : Bool := false
  table : Bool := false
  sand : Bool := false
  belt : Bool := false
  tenant : Bool := false
  keys : Bool := false
  net : Bool := false
  storage : Bool := false
  port : Bool := false
  serving : Bool := false
  tripped : Bool := false
  power : Bool := false
  wake : Bool := false
  pins : Bool := false
  boot : Bool := false
  flash : Bool := false
  catching : Bool := false
  reclaim : Bool := false
  sideband : Bool := false
  board : Bool := false

def MemState.outside (ps : Parts) (x : MemState) : MemState :=
  { ns := bif ps.ns then [] else x.ns, tags := bif ps.ns then [] else x.tags, nsErr := bif ps.ns then [] else x.nsErr,
    gddr := bif ps.gddr then [] else x.gddr, gKey := bif ps.gddr then [] else x.gKey, gErr := bif ps.gddr then [] else x.gErr,
    crc := bif ps.gddr then [] else x.crc, waiting := bif ps.gddr then [] else x.waiting,
    table := bif ps.table then [] else x.table, tableErr := bif ps.table then [] else x.tableErr,
    sand := bif ps.sand then [] else x.sand, partList := bif ps.sand then [] else x.partList,
    sandAged := bif ps.sand then [] else x.sandAged }

/-- The state with the parts of m blanked. -/
def State.outside (ps : Parts) (s : State) : State :=
  { pending := bif ps.pending then [] else s.pending
    freeCount := bif ps.free then 0 else s.freeCount
    regs := bif ps.regs then {} else s.regs
    time := { (bif ps.time then {} else s.time) with now := bif ps.now then 0 else s.time.now }
    seq := bif ps.seq then {} else s.seq
    mem := s.mem.outside ps
    belt := bif ps.belt then {} else s.belt
    tenant := { (bif ps.tenant then {} else s.tenant) with
      keys := bif ps.keys then [] else s.tenant.keys
      loads := bif ps.keys then 0 else s.tenant.loads }
    net := bif ps.net then {} else s.net
    storage := bif ps.storage then {} else s.storage
    port := bif ps.port then {} else s.port
    serving := bif ps.serving then {} else s.serving
    power := { (bif ps.power then {} else s.power) with tripped := bif ps.tripped then false else s.power.tripped }
    wake := bif ps.wake then {} else s.wake
    boot := { (bif ps.boot then {} else s.boot) with
      pwrgood := bif ps.pins then true else s.boot.pwrgood
      inReset := bif ps.pins then false else s.boot.inReset
      flash := bif ps.flash then [] else s.boot.flash }
    catching := bif ps.catching then {} else s.catching
    reclaim := bif ps.reclaim then {} else s.reclaim
    sideband := bif ps.sideband then {} else s.sideband
    board := bif ps.board then {} else s.board }


@[simp] theorem outside_mk (ps : Parts) (s : State) (fc : Nat) (regs : RegState) (time : TimeState) (seq : SeqState) (mem : MemState)
    (belt : BeltState) (tenant : TenantState) (net : NetState) (storage : StorageState) (port : PortState)
    (serving : ServingState) (power : PowerState) (wake : WakeState) (boot : BootState) (catching : CatchState)
    (reclaim : ReclaimState) (sideband : SidebandState) (board : BoardState)
    (h1 : ps.free = true ∨ fc = s.freeCount) (h2 : ps.regs = true ∨ regs = s.regs) (h3 : ps.now = true ∨ time.now = s.time.now)
    (h4 : ps.time = true ∨ { time with now := 0 } = { s.time with now := 0 }) (h5 : ps.seq = true ∨ seq = s.seq)
    (h6 : ps.ns = true ∨ (mem.ns = s.mem.ns ∧ mem.tags = s.mem.tags ∧ mem.nsErr = s.mem.nsErr))
    (h7 : ps.gddr = true ∨ (mem.gddr = s.mem.gddr ∧ mem.gKey = s.mem.gKey ∧ mem.gErr = s.mem.gErr ∧ mem.crc = s.mem.crc ∧
      mem.waiting = s.mem.waiting))
    (h8 : ps.table = true ∨ (mem.table = s.mem.table ∧ mem.tableErr = s.mem.tableErr))
    (h9 : ps.sand = true ∨ (mem.sand = s.mem.sand ∧ mem.partList = s.mem.partList ∧ mem.sandAged = s.mem.sandAged))
    (h10 : ps.belt = true ∨ belt = s.belt) (h11 : ps.tenant = true ∨ { tenant with keys := [], loads := 0 } = { s.tenant with keys := [], loads := 0 })
    (h26 : ps.keys = true ∨ (tenant.keys = s.tenant.keys ∧ tenant.loads = s.tenant.loads)) (h12 : ps.net = true ∨ net = s.net)
    (h13 : ps.storage = true ∨ storage = s.storage) (h14 : ps.port = true ∨ port = s.port)
    (h15 : ps.serving = true ∨ serving = s.serving) (h16 : ps.tripped = true ∨ power.tripped = s.power.tripped)
    (h17 : ps.power = true ∨ { power with tripped := false } = { s.power with tripped := false })
    (h18 : ps.wake = true ∨ wake = s.wake)
    (h19 : ps.pins = true ∨ (boot.pwrgood = s.boot.pwrgood ∧ boot.inReset = s.boot.inReset))
    (h20 : ps.boot = true ∨ (boot.began = s.boot.began ∧ boot.recovery = s.boot.recovery ∧ boot.stopped = s.boot.stopped ∧ boot.puf = s.boot.puf))
    (h21 : ps.flash = true ∨ boot.flash = s.boot.flash) (h22 : ps.catching = true ∨ catching = s.catching)
    (h23 : ps.reclaim = true ∨ reclaim = s.reclaim) (h24 : ps.sideband = true ∨ sideband = s.sideband)
    (h25 : ps.board = true ∨ board = s.board) :
    State.outside ps (State.mk s.pending fc regs time seq mem belt tenant net storage port serving power wake boot catching
      reclaim sideband board) = s.outside ps := by
  obtain ⟨p', fc', regs', time', seq', mem', belt', tenant', net', storage', port', serving', power', wake', boot',
    catching', reclaim', sideband', board'⟩ := s
  obtain ⟨mp, mf, mr, mn, mt, ms, m1, m2, m3, m4, mb, mte, mke, mne, mst, mpo, mse, mtr, mpw, mwa, mpi, mbo, mfl, mca, mre, msi, mbd⟩ := ps
  simp only at *
  simp only [State.outside, MemState.outside, State.mk.injEq, true_and]
  refine ⟨?_, ?_, ?_, ?_, ?_, ?_, ?_, ?_, ?_, ?_, ?_, ?_, ?_, ?_, ?_, ?_, ?_, ?_⟩
  · cases mf <;> simp_all
  · cases mr <;> simp_all
  · cases mn <;> cases mt <;> simp_all
  · cases ms <;> simp_all
  · cases m1 <;> cases m2 <;> cases m3 <;> cases m4 <;> simp_all
  · cases mb <;> simp_all
  · cases mte <;> cases mke <;> simp_all
  · cases mne <;> simp_all
  · cases mst <;> simp_all
  · cases mpo <;> simp_all
  · cases mse <;> simp_all
  · cases mtr <;> cases mpw <;> simp_all
  · cases mwa <;> simp_all
  · cases mpi <;> cases mbo <;> cases mfl <;> simp_all
  · cases mca <;> simp_all
  · cases mre <;> simp_all
  · cases msi <;> simp_all
  · cases mbd <;> simp_all

@[simp] theorem outside_ite (ps : Parts) (c : Prop) [Decidable c] (a b : State) :
    (if c then a else b).outside ps = if c then a.outside ps else b.outside ps := by
  split <;> rfl

@[simp] theorem ite_fst {α : Type} (c : Prop) [Decidable c] (a b : State × α) : (if c then a else b).1 = if c then a.1 else b.1 := by
  split <;> rfl

@[simp] theorem foldl_outside {α : Type} (ps : Parts) (f : State → α → State) (h : ∀ s a, (f s a).outside ps = s.outside ps)
    (l : List α) (s : State) : (l.foldl f s).outside ps = s.outside ps := by
  induction l generalizing s with
  | nil => rfl
  | cons a l ih => simp [List.foldl, ih, h]

@[simp] theorem foldl_attn_outside {α : Type} (ps : Parts) (f : AttnRun → α → AttnRun)
    (h : ∀ s a, (f s a).state.outside ps = s.state.outside ps) (l : List α) (s : AttnRun) :
    (l.foldl f s).state.outside ps = s.state.outside ps := by
  induction l generalizing s with
  | nil => rfl
  | cons a l ih => simp [List.foldl, ih, h]

@[simp] theorem foldl_fst_outside {α β : Type} (ps : Parts) (f : State × β → α → State × β)
    (h : ∀ s a, (f s a).1.outside ps = s.1.outside ps) (l : List α) (s : State × β) :
    (l.foldl f s).1.outside ps = s.1.outside ps := by
  induction l generalizing s with
  | nil => rfl
  | cons a l ih => simp [List.foldl, ih, h]

set_option linter.unusedSimpArgs false
set_option linter.unusedVariables false



@[simp] theorem setReg_frame (ps : Parts) (s : State) (k v : Nat) (h_regs : ps.regs = true) : (setReg s k v).outside ps = s.outside ps := by
  simp [setReg, h_regs]

@[simp] theorem setShd_frame (ps : Parts) (s : State) (k v : Nat) (h_regs : ps.regs = true) : (setShd s k v).outside ps = s.outside ps := by
  simp [setShd, h_regs]

@[simp] theorem setBoth_frame (ps : Parts) (s : State) (k v : Nat) (h_regs : ps.regs = true) : (setBoth s k v).outside ps = s.outside ps := by
  simp [setBoth, h_regs]

@[simp] theorem setReg64_frame (ps : Parts) (s : State) (k v : Nat) (h_regs : ps.regs = true) : (setReg64 s k v).outside ps = s.outside ps := by
  simp [setReg64, h_regs]

@[simp] theorem incReg_frame (ps : Parts) (s : State) (k n : Nat) (h_regs : ps.regs = true) : (incReg s k n).outside ps = s.outside ps := by
  simp [incReg, h_regs]

@[simp] theorem incReg64_frame (ps : Parts) (s : State) (k w n : Nat) (h_regs : ps.regs = true) : (incReg64 s k w n).outside ps = s.outside ps := by
  simp [incReg64, h_regs]

@[simp] theorem setField_frame (ps : Parts) (s : State) (k hi lo v : Nat) (h_regs : ps.regs = true) : (setField s k hi lo v).outside ps = s.outside ps := by
  simp [setField, h_regs]

@[simp] theorem setFieldBoth_frame (ps : Parts) (s : State) (k hi lo v : Nat) (h_regs : ps.regs = true) : (setFieldBoth s k hi lo v).outside ps = s.outside ps := by
  simp [setFieldBoth, h_regs]

@[simp] theorem setAlert_frame (ps : Parts) (s : State) (d : Nat) (b : Bool) (h_regs : ps.regs = true) : (setAlert s d b).outside ps = s.outside ps := by
  simp [setAlert, h_regs]

@[simp] theorem setEvent_frame (ps : Parts) (s : State) (page b : Nat) (h_regs : ps.regs = true) : (setEvent s page b).outside ps = s.outside ps := by
  simp [setEvent, h_regs]

@[simp] theorem updateAlert_frame (ps : Parts) (s : State) (page : Nat) (h_regs : ps.regs = true) : (updateAlert s page).outside ps = s.outside ps := by
  simp [updateAlert, h_regs]

@[simp] theorem noteError_frame (ps : Parts) (s : State) (page : Nat) (h_regs : ps.regs = true) : (noteError s page).outside ps = s.outside ps := by
  simp [noteError, h_regs]

@[simp] theorem fresh_frame (ps : Parts) (s : State) (h_free : ps.free = true) : (fresh s).1.outside ps = s.outside ps := by
  simp [fresh, h_free]

@[simp] theorem post_frame (ps : Parts) (s : State) (page : Nat) (e : Event) (h_regs : ps.regs = true) (h_belt : ps.belt = true) : (post s page e).outside ps = s.outside ps := by
  simp [post, h_regs, h_belt]

@[simp] theorem postOf_frame (ps : Parts) (s : State) (page cause op1 : Nat) (h_regs : ps.regs = true) (h_belt : ps.belt = true) : (postOf s page cause op1).outside ps = s.outside ps := by
  simp [postOf, h_regs, h_belt]

@[simp] theorem postCtx_frame (ps : Parts) (s : State) (c : Ctx) (cause op1 : Nat) (h_regs : ps.regs = true) (h_belt : ps.belt = true) : (postCtx s c cause op1).outside ps = s.outside ps := by
  simp [postCtx, h_regs, h_belt]

@[simp] theorem nsNote_frame (ps : Parts) (s : State) (c : Ctx) (lines : List Nat) (h_regs : ps.regs = true) (h_belt : ps.belt = true) : (nsNote s c lines).outside ps = s.outside ps := by
  unfold nsNote; dsimp only; (repeat' split) <;> simp [h_regs, h_belt]

@[simp] theorem nsClaim_frame (ps : Parts) (s : State) (slot : Option Nat) (a : Nat) (h_ns : ps.ns = true) : (nsClaim s slot a).outside ps = s.outside ps := by
  simp [nsClaim, h_ns]

@[simp] theorem nsWrite_frame (ps : Parts) (s : State) (c : Ctx) (ws : List (Nat × Byte)) (h_regs : ps.regs = true) (h_ns : ps.ns = true) (h_belt : ps.belt = true) : (nsWrite s c ws).outside ps = s.outside ps := by
  unfold nsWrite; dsimp only; (repeat' split) <;> simp [h_regs, h_ns, h_belt]

@[simp] theorem nsWriteRun_frame (ps : Parts) (s : State) (c : Ctx) (a : Nat) (bs : List Byte) (h_regs : ps.regs = true) (h_ns : ps.ns = true) (h_belt : ps.belt = true) : (nsWriteRun s c a bs).outside ps = s.outside ps := by
  simp [nsWriteRun, h_regs, h_ns, h_belt]

@[simp] theorem nsWriteImage_frame (ps : Parts) (s : State) (c : Ctx) (cl k l : Nat) (ws : List ByteWrite) (h_regs : ps.regs = true) (h_ns : ps.ns = true) (h_belt : ps.belt = true) : (nsWriteImage s c cl k l ws).outside ps = s.outside ps := by
  simp [nsWriteImage, h_regs, h_ns, h_belt]

@[simp] theorem gNote_frame (ps : Parts) (s : State) (c : Ctx) (a n : Nat) (h_regs : ps.regs = true) (h_gddr : ps.gddr = true) (h_belt : ps.belt = true) : (gNote s c a n).outside ps = s.outside ps := by
  unfold gNote; dsimp only; (repeat' split) <;> simp [h_regs, h_gddr, h_belt]

@[simp] theorem countRefused_frame (ps : Parts) (s : State) (k : Nat) (h_regs : ps.regs = true) : (countRefused s k).outside ps = s.outside ps := by
  simp [countRefused, h_regs]

@[simp] theorem postRefusal_frame (ps : Parts) (s : State) (c : Ctx) (a : Nat) (r : Nat × Option Nat) (h_regs : ps.regs = true) (h_belt : ps.belt = true) : (postRefusal s c a r).outside ps = s.outside ps := by
  unfold postRefusal; (repeat' split) <;> simp [h_regs, h_belt]

@[simp] theorem gStore_frame (ps : Parts) (s : State) (c : Ctx) (a : Nat) (bs : List Byte) (h_regs : ps.regs = true) (h_gddr : ps.gddr = true) (h_belt : ps.belt = true) : (gStore s c a bs).outside ps = s.outside ps := by
  unfold gStore; dsimp only; (repeat' split) <;> simp [h_regs, h_gddr, h_belt]

@[simp] theorem gWrite_frame (ps : Parts) (s : State) (c : Ctx) (a : Nat) (bs : List Byte) (h_regs : ps.regs = true) (h_gddr : ps.gddr = true) (h_belt : ps.belt = true) : (gWrite s c a bs).outside ps = s.outside ps := by
  simp [gWrite, h_regs, h_gddr, h_belt]

@[simp] theorem commitWrite_frame (ps : Parts) (s : State) (a : Nat) (bs : List Byte) (h_regs : ps.regs = true) : (commitWrite s a bs).outside ps = s.outside ps := by
  simp [commitWrite, h_regs]

@[simp] theorem gLand_frame (ps : Parts) (s : State) (c : Ctx) (a : Nat) (bs : List Byte) (h_regs : ps.regs = true) (h_gddr : ps.gddr = true) (h_belt : ps.belt = true) : (gLand s c a bs).outside ps = s.outside ps := by
  simp [gLand, h_regs, h_gddr, h_belt]

@[simp] theorem gAccept_frame (ps : Parts) (s : State) (c : Ctx) (a : Nat) (bs : List Byte) (h_regs : ps.regs = true) (h_gddr : ps.gddr = true) (h_belt : ps.belt = true) : (gAccept s c a bs).outside ps = s.outside ps := by
  simp [gAccept, h_regs, h_gddr, h_belt]

@[simp] theorem landHeld_frame (ps : Parts) (s : State) (x : HeldWrite) (h_regs : ps.regs = true) (h_gddr : ps.gddr = true) (h_belt : ps.belt = true) : (landHeld s x).outside ps = s.outside ps := by
  unfold landHeld; (repeat' split) <;> simp [h_regs, h_gddr, h_belt]

@[simp] theorem landWrites_frame (ps : Parts) (s : State) (h_regs : ps.regs = true) (h_gddr : ps.gddr = true) (h_belt : ps.belt = true) : (landWrites s).outside ps = s.outside ps := by
  simp [landWrites, h_regs, h_gddr, h_belt]

@[simp] theorem tblWrite_frame (ps : Parts) (s : State) (cl b : Nat) (bs : List Byte) (h_table : ps.table = true) : (tblWrite s cl b bs).outside ps = s.outside ps := by
  simp [tblWrite, h_table]

@[simp] theorem setProg_frame (ps : Parts) (s : State) (cl p : Nat) (v : Prog) (h_seq : ps.seq = true) : (setProg s cl p v).outside ps = s.outside ps := by
  simp [setProg, h_seq]

@[simp] theorem setProgState_frame (ps : Parts) (s : State) (cl p v : Nat) (h_regs : ps.regs = true) : (setProgState s cl p v).outside ps = s.outside ps := by
  simp [setProgState, h_regs]

@[simp] theorem setPC_frame (ps : Parts) (s : State) (cl p v : Nat) (h_regs : ps.regs = true) : (setPC s cl p v).outside ps = s.outside ps := by
  simp [setPC, h_regs]

@[simp] theorem stopProg_frame (ps : Parts) (s : State) (cl p code : Nat) (h_regs : ps.regs = true) (h_seq : ps.seq = true) : (stopProg s cl p code).outside ps = s.outside ps := by
  simp [stopProg, h_regs, h_seq]

@[simp] theorem haltProg_frame (ps : Parts) (s : State) (cl p code : Nat) (h_regs : ps.regs = true) (h_seq : ps.seq = true) : (haltProg s cl p code).outside ps = s.outside ps := by
  simp [haltProg, h_regs, h_seq]

@[simp] theorem haltMask_frame (ps : Parts) (s : State) (cl m code : Nat) (h_regs : ps.regs = true) (h_seq : ps.seq = true) : (haltMask s cl m code).outside ps = s.outside ps := by
  simp [haltMask, h_regs, h_seq]

@[simp] theorem startProg_frame (ps : Parts) (s : State) (cl p turn : Nat) (h_regs : ps.regs = true) (h_seq : ps.seq = true) : (startProg s cl p turn).outside ps = s.outside ps := by
  simp [startProg, h_regs, h_seq]

@[simp] theorem removeFlight_frame (ps : Parts) (s : State) (id : Nat) (h_seq : ps.seq = true) : (removeFlight s id).outside ps = s.outside ps := by
  simp [removeFlight, h_seq]

@[simp] theorem setWork_frame (ps : Parts) (s : State) (id : Nat) (w : Work) (h_seq : ps.seq = true) : (setWork s id w).outside ps = s.outside ps := by
  simp [setWork, h_seq]

@[simp] theorem rejectEntry_frame (ps : Parts) (s : State) (cl p i cause core : Nat) (h_regs : ps.regs = true) (h_seq : ps.seq = true) (h_belt : ps.belt = true) : (rejectEntry s cl p i cause core).outside ps = s.outside ps := by
  simp [rejectEntry, h_regs, h_seq, h_belt]

@[simp] theorem refuseEntry_frame (ps : Parts) (s : State) (cl p i cause op1 : Nat) (h_regs : ps.regs = true) (h_belt : ps.belt = true) : (refuseEntry s cl p i cause op1).outside ps = s.outside ps := by
  simp [refuseEntry, h_regs, h_belt]

@[simp] theorem noteIssue_frame (ps : Parts) (s : State) (cl p i : Nat) (next : Option Nat) (h_regs : ps.regs = true) (h_seq : ps.seq = true) (h_belt : ps.belt = true) : (noteIssue s cl p i next).outside ps = s.outside ps := by
  unfold noteIssue; (repeat' split) <;> simp [h_regs, h_seq, h_belt]

@[simp] theorem issueFlight_frame (ps : Parts) (s : State) (cl p i e : Nat) (units : List UnitId) (cores : Nat) (w : Work) (h_regs : ps.regs = true) (h_seq : ps.seq = true) (h_belt : ps.belt = true) : (issueFlight s cl p i e units cores w).outside ps = s.outside ps := by
  simp [issueFlight, h_regs, h_seq, h_belt]

@[simp] theorem issueNothing_frame (ps : Parts) (s : State) (cl p i : Nat) (h_regs : ps.regs = true) (h_seq : ps.seq = true) (h_belt : ps.belt = true) : (issueNothing s cl p i).outside ps = s.outside ps := by
  simp [issueNothing, h_regs, h_seq, h_belt]

@[simp] theorem withEntry_frame (ps : Parts) (s : State) (cl p : Nat) (mine : Nat → Bool) (k : Nat → Nat → State) (h_regs : ps.regs = true) (h_seq : ps.seq = true) (h_belt : ps.belt = true) (h_k : ∀ (x0 : Nat) (x1 : Nat), (k x0 x1).outside ps = s.outside ps) : (withEntry s cl p mine k).outside ps = s.outside ps := by
  simp [withEntry, h_regs, h_seq, h_belt, h_k]

@[simp] theorem blockProg_frame (ps : Parts) (s : State) (cl p : Nat) (h_regs : ps.regs = true) : (blockProg s cl p).outside ps = s.outside ps := by
  simp [blockProg, h_regs]

@[simp] theorem setToken_frame (ps : Parts) (s : State) (cl c v : Nat) (h_regs : ps.regs = true) : (setToken s cl c v).outside ps = s.outside ps := by
  simp [setToken, h_regs]

@[simp] theorem endWait_frame (ps : Parts) (s : State) (cl p : Nat) (h_regs : ps.regs = true) (h_seq : ps.seq = true) : (endWait s cl p).outside ps = s.outside ps := by
  simp [endWait, h_regs, h_seq]

@[simp] theorem takeTokens_frame (ps : Parts) (s : State) (cl c target : Nat) (h_regs : ps.regs = true) (h_seq : ps.seq = true) : (takeTokens s cl c target).outside ps = s.outside ps := by
  simp [takeTokens, h_regs, h_seq]

@[simp] theorem serveWaits_frame (ps : Parts) (s : State) (cl c : Nat) (h_regs : ps.regs = true) (h_seq : ps.seq = true) : (serveWaits s cl c).outside ps = s.outside ps := by
  unfold serveWaits; apply foldl_outside; intro s a; (repeat' split) <;> simp [h_regs, h_seq]

@[simp] theorem postToken_frame (ps : Parts) (s : State) (cl c : Nat) (h_regs : ps.regs = true) (h_seq : ps.seq = true) (h_belt : ps.belt = true) : (postToken s cl c).outside ps = s.outside ps := by
  simp [postToken, h_regs, h_seq, h_belt]

@[simp] theorem setLiveFlag_frame (ps : Parts) (s : State) (cl f : Nat) (b : Bool) (h_regs : ps.regs = true) : (setLiveFlag s cl f b).outside ps = s.outside ps := by
  simp [setLiveFlag, h_regs]

@[simp] theorem setSyncFlag_frame (ps : Parts) (s : State) (cl f : Nat) (b : Bool) (h_regs : ps.regs = true) : (setSyncFlag s cl f b).outside ps = s.outside ps := by
  simp [setSyncFlag, h_regs]

@[simp] theorem noteSticky_frame (ps : Parts) (s : State) (cl core sticky : Nat) (h_regs : ps.regs = true) : (noteSticky s cl core sticky).outside ps = s.outside ps := by
  simp [noteSticky, h_regs]

@[simp] theorem noteCounts_frame (ps : Parts) (s : State) (cl core : Nat) (grad : Bool) (c : Counts) (h_regs : ps.regs = true) : (noteCounts s cl core grad c).outside ps = s.outside ps := by
  simp [noteCounts, h_regs]

@[simp] theorem addRecord_frame (ps : Parts) (s : State) (c : Ctx) (cl n : Nat) (k : Counts) (h_regs : ps.regs = true) (h_ns : ps.ns = true) (h_belt : ps.belt = true) : (addRecord s c cl n k).outside ps = s.outside ps := by
  unfold addRecord; split
  · rfl
  · exact nsWriteRun_frame _ _ _ _ _ h_regs h_ns h_belt

@[simp] theorem setRail_frame (ps : Parts) (s : State) (p c : Nat) (h_power : ps.power = true) : (setRail s p c).outside ps = s.outside ps := by
  simp [setRail, h_power]

@[simp] theorem showCodes_frame (ps : Parts) (s : State) (h_regs : ps.regs = true) : (showCodes s).outside ps = s.outside ps := by
  unfold showCodes; exact foldl_outside _ _ (fun s a => setReg_frame _ _ _ _ h_regs) _ _

@[simp] theorem driveRail_frame (ps : Parts) (s : State) (p c : Nat) (h_power : ps.power = true) : (driveRail s p c).outside ps = s.outside ps := by
  simp [driveRail, h_power]

@[simp] theorem raiseRails_frame (ps : Parts) (s : State) (k : Nat) (h_power : ps.power = true) : (raiseRails s k).outside ps = s.outside ps := by
  simp [raiseRails, h_power]

@[simp] theorem settleRails_frame (ps : Parts) (s : State) (h_regs : ps.regs = true) (h_power : ps.power = true) : (settleRails s).outside ps = s.outside ps := by
  unfold settleRails; dsimp only; rw [showCodes_frame, foldl_outside] <;> first | assumption | (intro s a; exact setRail_frame _ _ _ _ (by assumption)) | (rw [outside_mk] <;> simp [h_regs, h_power])

@[simp] theorem stepRails_frame (ps : Parts) (s : State) (h_power : ps.power = true) : (stepRails s).outside ps = s.outside ps := by
  simp [stepRails, h_power]

@[simp] theorem armedRaise_frame (ps : Parts) (s : State) (a : Nat) (h_power : ps.power = true) : (armedRaise s a).outside ps = s.outside ps := by
  unfold armedRaise; dsimp only; (repeat' split) <;> simp [h_power]

@[simp] theorem setPoint_frame (ps : Parts) (s : State) (k : Nat) (h_regs : ps.regs = true) : (setPoint s k).outside ps = s.outside ps := by
  unfold setPoint; simp [h_regs]

@[simp] theorem endRaise_frame (ps : Parts) (s : State) (t : Nat) (h_power : ps.power = true) : (endRaise s t).outside ps = s.outside ps := by
  simp [endRaise, h_power]

@[simp] theorem updatePoint_frame (ps : Parts) (s : State) (t : Nat) (h_regs : ps.regs = true) (h_belt : ps.belt = true) (h_power : ps.power = true) : (updatePoint s t).outside ps = s.outside ps := by
  unfold updatePoint; (repeat' split) <;> simp [h_regs, h_belt, h_power]

@[simp] theorem publishCeiling_frame (ps : Parts) (s : State) (h_regs : ps.regs = true) (h_belt : ps.belt = true) (h_power : ps.power = true) : (publishCeiling s).outside ps = s.outside ps := by
  simp [publishCeiling, h_regs, h_belt, h_power]

@[simp] theorem eraseReduced_frame (ps : Parts) (s : State) (h_flash : ps.flash = true) : (eraseReduced s).outside ps = s.outside ps := by
  simp [eraseReduced, h_flash]

@[simp] theorem sbEvent_frame (ps : Parts) (s : State) (b : Nat) (h_sideband : ps.sideband = true) : (sbEvent s b).outside ps = s.outside ps := by
  simp [sbEvent, h_sideband]

@[simp] theorem dropCommit_frame (ps : Parts) (s : State) (page : Nat) (h_regs : ps.regs = true) : (dropCommit s page).outside ps = s.outside ps := by
  simp [dropCommit, h_regs]

@[simp] theorem addCommit_frame (ps : Parts) (s : State) (page : Nat) (t : Option Nat) (h_regs : ps.regs = true) : (addCommit s page t).outside ps = s.outside ps := by
  simp [addCommit, h_regs]

@[simp] theorem askCommit_frame (ps : Parts) (s : State) (page : Nat) (t : Option Nat) (h_regs : ps.regs = true) (h_power : ps.power = true) : (askCommit s page t).outside ps = s.outside ps := by
  unfold askCommit; (repeat' split) <;> simp [h_regs, h_power]

@[simp] theorem writeCommit_frame (ps : Parts) (s : State) (page v : Nat) (h_regs : ps.regs = true) (h_power : ps.power = true) : (writeCommit s page v).outside ps = s.outside ps := by
  simp [writeCommit, h_regs, h_power]

@[simp] theorem pageRead_frame (ps : Parts) (s : State) (m : Master) (ty page off : Nat) (h_regs : ps.regs = true) : (pageRead s m ty page off).1.outside ps = s.outside ps := by
  unfold pageRead; dsimp only; (repeat' split) <;> simp [h_regs]

@[simp] theorem setRing_frame (ps : Parts) (s : State) (n : Nat) (r : Ring) (h_serving : ps.serving = true) : (setRing s n r).outside ps = s.outside ps := by
  simp [setRing, h_serving]

@[simp] theorem hubRead_frame (ps : Parts) (s : State) (m : Master) (a : Nat) (h_regs : ps.regs = true) : (hubRead s m a).1.outside ps = s.outside ps := by
  unfold hubRead; (repeat' split) <;> simp [h_regs]

@[simp] theorem clearRegs_frame (ps : Parts) (s : State) (page : Nat) (offs : List Nat) (h_regs : ps.regs = true) : (clearRegs s page offs).outside ps = s.outside ps := by
  simp [clearRegs, h_regs]

@[simp] theorem startDraw_frame (ps : Parts) (s : State) (cl page : Nat) (h_regs : ps.regs = true) (h_seq : ps.seq = true) : (startDraw s cl page).outside ps = s.outside ps := by
  simp [startDraw, h_regs, h_seq]

@[simp] theorem refreshSand_frame (ps : Parts) (s : State) (w level : Nat) (h_regs : ps.regs = true) : (refreshSand s w level).outside ps = s.outside ps := by
  simp [refreshSand, h_regs]

@[simp] theorem sandMark_frame (ps : Parts) (s : State) (w : Nat) (h_sand : ps.sand = true) : (sandMark s w).outside ps = s.outside ps := by
  simp [sandMark, h_sand]

@[simp] theorem queueSand_frame (ps : Parts) (s : State) (w base size : Nat) (urgent : Bool) (h_regs : ps.regs = true) (h_sand : ps.sand = true) : (queueSand s w base size urgent).outside ps = s.outside ps := by
  simp [queueSand, h_regs, h_sand]

@[simp] theorem releaseCatch_frame (ps : Parts) (s : State) (h_regs : ps.regs = true) (h_sand : ps.sand = true) (h_flash : ps.flash = true) (h_catching : ps.catching = true) : (releaseCatch s).outside ps = s.outside ps := by
  simp [releaseCatch, h_regs, h_sand, h_flash, h_catching]

@[simp] theorem setLink_frame (ps : Parts) (s : State) (n : Nat) (l : LinkState) (h_net : ps.net = true) : (setLink s n l).outside ps = s.outside ps := by
  simp [setLink, h_net]

@[simp] theorem sendPattern_frame (ps : Parts) (s : State) (m : Nat) (h_net : ps.net = true) : (sendPattern s m).outside ps = s.outside ps := by
  simp [sendPattern, h_net]

@[simp] theorem unholdModel_frame (ps : Parts) (s : State) (m : Nat) (h_regs : ps.regs = true) : (unholdModel s m).outside ps = s.outside ps := by
  simp [unholdModel, h_regs]

@[simp] theorem unholdAdapter_frame (ps : Parts) (s : State) (m a : Nat) (h_regs : ps.regs = true) : (unholdAdapter s m a).outside ps = s.outside ps := by
  simp [unholdAdapter, h_regs]

@[simp] theorem askAbort_frame (ps : Parts) (s : State) (w : Nat) (h_regs : ps.regs = true) : (askAbort s w).outside ps = s.outside ps := by
  simp [askAbort, h_regs]

theorem actWrite_frame (ps : Parts) (s : State) (ty inst page off v : Nat) (h_regs : ps.regs = true) (h_seq : ps.seq = true) (h_sand : ps.sand = true) (h_tenant : ps.tenant = true) (h_net : ps.net = true) (h_power : ps.power = true) (h_flash : ps.flash = true) (h_catching : ps.catching = true) : ∀ t, (actWrite s ty inst page off v) = some t → t.outside ps = s.outside ps := by
  intro t h; unfold actWrite at h
  dsimp only at h
  have done : ∀ a : State, a.outside ps = s.outside ps → some a = some t → t.outside ps = s.outside ps := by
    intro a ha hs; injection hs with hs; rw [← hs]; exact ha
  by_cases h1 : off = Reg.F_CTRL
  · rw [if_pos h1] at h; refine done _ ?_ h; simp [h_regs, h_seq, h_sand, h_tenant, h_net, h_power, h_flash, h_catching]
  rw [if_neg h1] at h
  by_cases h1 : off = Reg.F_EVENT
  · rw [if_pos h1] at h; refine done _ ?_ h; simp [h_regs, h_seq, h_sand, h_tenant, h_net, h_power, h_flash, h_catching]
  rw [if_neg h1] at h
  by_cases h1 : off = Reg.F_EVENT_EN
  · rw [if_pos h1] at h; refine done _ ?_ h; simp [h_regs, h_seq, h_sand, h_tenant, h_net, h_power, h_flash, h_catching]
  rw [if_neg h1] at h
  by_cases h1 : off = Reg.F_COMMIT
  · rw [if_pos h1] at h; refine done _ ?_ h; simp [h_regs, h_seq, h_sand, h_tenant, h_net, h_power, h_flash, h_catching]
  rw [if_neg h1] at h
  split at h
  · split at h
    · refine done _ ?_ h; simp [h_regs, h_seq, h_sand, h_tenant, h_net, h_power, h_flash, h_catching]
    · cases h
  · (repeat' split at h) <;> first | (cases h; done) | (refine done _ ?_ h; simp [h_regs, h_seq, h_sand, h_tenant, h_net, h_power, h_flash, h_catching])

@[simp] theorem pageWrite_frame (ps : Parts) (s : State) (ty inst page off v : Nat) (h_regs : ps.regs = true) (h_time : ps.time = true) (h_seq : ps.seq = true) (h_sand : ps.sand = true) (h_tenant : ps.tenant = true) (h_net : ps.net = true) (h_power : ps.power = true) (h_flash : ps.flash = true) (h_catching : ps.catching = true) : (pageWrite s ty inst page off v).outside ps = s.outside ps := by
  unfold pageWrite
  split
  · rfl
  · dsimp only
    split
    · rename_i h; exact actWrite_frame _ _ _ _ _ _ _ h_regs h_seq h_sand h_tenant h_net h_power h_flash h_catching _ h
    · split <;> simp [h_regs, h_time, h_seq, h_sand, h_tenant, h_net, h_power, h_flash, h_catching]

@[simp] theorem hubWrite_frame (ps : Parts) (s : State) (m : Master) (a v : Nat) (h_regs : ps.regs = true) (h_time : ps.time = true) (h_seq : ps.seq = true) (h_sand : ps.sand = true) (h_tenant : ps.tenant = true) (h_net : ps.net = true) (h_power : ps.power = true) (h_flash : ps.flash = true) (h_catching : ps.catching = true) : (hubWrite s m a v).1.outside ps = s.outside ps := by
  unfold hubWrite; (repeat' split) <;> simp [h_regs, h_time, h_seq, h_sand, h_tenant, h_net, h_power, h_flash, h_catching]

@[simp] theorem postLink_frame (ps : Parts) (s : State) (l cause op1 count tag pkg : Nat) (h_regs : ps.regs = true) (h_belt : ps.belt = true) : (postLink s l cause op1 count tag pkg).outside ps = s.outside ps := by
  simp [postLink, h_regs, h_belt]

@[simp] theorem resendTx_frame (ps : Parts) (s : State) (l : Nat) (y0 : Nat) (h_regs : ps.regs = true) (h_net : ps.net = true) : (resendTx s l y0).outside ps = s.outside ps := by
  induction y0 generalizing s with
  | zero => rfl
  | succ n ih =>
    unfold resendTx
    dsimp only
    split
    · rfl
    · split
      · rfl
      · rw [ih]; simp [h_regs, h_net]

@[simp] theorem noteIv_frame (ps : Parts) (s : State) (l : Nat) (f : Frame) (h_tenant : ps.tenant = true) : (noteIv s l f).outside ps = s.outside ps := by
  simp [noteIv, h_tenant]

@[simp] theorem transmit_frame (ps : Parts) (s : State) (l : Nat) (x : Sent) (h_regs : ps.regs = true) (h_tenant : ps.tenant = true) (h_net : ps.net = true) : (transmit s l x).outside ps = s.outside ps := by
  simp [transmit, h_regs, h_tenant, h_net]

@[simp] theorem sendOn_frame (ps : Parts) (s : State) (l : Nat) (x : Sent) (h_regs : ps.regs = true) (h_tenant : ps.tenant = true) (h_net : ps.net = true) : (sendOn s l x).outside ps = s.outside ps := by
  simp [sendOn, h_regs, h_tenant, h_net]

@[simp] theorem drainTx_frame (ps : Parts) (s : State) (l : Nat) (y0 : Nat) (h_regs : ps.regs = true) (h_tenant : ps.tenant = true) (h_net : ps.net = true) : (drainTx s l y0).outside ps = s.outside ps := by
  induction y0 generalizing s with
  | zero => rfl
  | succ n ih => unfold drainTx; dsimp only; (repeat' split) <;> simp [ih, h_regs, h_tenant, h_net]

@[simp] theorem drainLink_frame (ps : Parts) (s : State) (l : Nat) (h_regs : ps.regs = true) (h_tenant : ps.tenant = true) (h_net : ps.net = true) : (drainLink s l).outside ps = s.outside ps := by
  simp [drainLink, h_regs, h_tenant, h_net]

@[simp] theorem sendTurns_frame (ps : Parts) (s : State) (links : List Nat) (owner : Option Nat) (turn : Nat) (fs : List Frame) (h_regs : ps.regs = true) (h_tenant : ps.tenant = true) (h_net : ps.net = true) : (sendTurns s links owner turn fs).outside ps = s.outside ps := by
  simp [sendTurns, h_regs, h_tenant, h_net]

@[simp] theorem sendFrames_frame (ps : Parts) (s : State) (links : List Nat) (owner : Option Nat) (fs : List Frame) (h_regs : ps.regs = true) (h_tenant : ps.tenant = true) (h_net : ps.net = true) : (sendFrames s links owner fs).outside ps = s.outside ps := by
  simp [sendFrames, h_regs, h_tenant, h_net]

@[simp] theorem freeFlits_frame (ps : Parts) (s : State) (l : Nat) (f : Frame) (h_net : ps.net = true) : (freeFlits s l f).outside ps = s.outside ps := by
  simp [freeFlits, h_net]

@[simp] theorem noteCodewords_frame (ps : Parts) (s : State) (l corrected lost : Nat) (h_regs : ps.regs = true) : (noteCodewords s l corrected lost).outside ps = s.outside ps := by
  simp [noteCodewords, h_regs]

@[simp] theorem noteArrival_frame (ps : Parts) (s : State) (l : Nat) (a : Arrival) (h_regs : ps.regs = true) (h_net : ps.net = true) : (noteArrival s l a).outside ps = s.outside ps := by
  unfold noteArrival; (repeat' split) <;> simp [h_regs, h_net]

@[simp] theorem takeFrame_frame (ps : Parts) (s : State) (l : Nat) (f : Frame) (a : Arrival) (h_regs : ps.regs = true) (h_net : ps.net = true) : (takeFrame s l f a).1.outside ps = s.outside ps := by
  unfold takeFrame; (repeat' split) <;> simp [h_regs, h_net]

@[simp] theorem hopOn_frame (ps : Parts) (s : State) (l out : Nat) (f : Frame) (h_regs : ps.regs = true) (h_tenant : ps.tenant = true) (h_net : ps.net = true) : (hopOn s l out f).outside ps = s.outside ps := by
  simp [hopOn, h_regs, h_tenant, h_net]

@[simp] theorem dropNoRoute_frame (ps : Parts) (s : State) (l : Nat) (f : Frame) (h_regs : ps.regs = true) (h_belt : ps.belt = true) (h_net : ps.net = true) : (dropNoRoute s l f).outside ps = s.outside ps := by
  simp [dropNoRoute, h_regs, h_belt, h_net]

@[simp] theorem forward_frame (ps : Parts) (s : State) (l : Nat) (f : Frame) (h_regs : ps.regs = true) (h_belt : ps.belt = true) (h_tenant : ps.tenant = true) (h_net : ps.net = true) : (forward s l f).outside ps = s.outside ps := by
  unfold forward; (repeat' split) <;> simp [h_regs, h_belt, h_tenant, h_net]

@[simp] theorem stompTo_frame (ps : Parts) (s : State) (out : Nat) (f : Frame) (h_regs : ps.regs = true) (h_net : ps.net = true) : (stompTo s out f).outside ps = s.outside ps := by
  simp [stompTo, h_regs, h_net]

@[simp] theorem stompOn_frame (ps : Parts) (s : State) (l : Nat) (f : Frame) (h_regs : ps.regs = true) (h_net : ps.net = true) : (stompOn s l f).outside ps = s.outside ps := by
  unfold stompOn; (repeat' split) <;> simp [h_regs, h_net]

@[simp] theorem setPs_frame (ps : Parts) (s : State) (hi lo v : Nat) (h_regs : ps.regs = true) : (setPs s hi lo v).outside ps = s.outside ps := by
  simp [setPs, h_regs]

@[simp] theorem noteCause_frame (ps : Parts) (s : State) (b link : Nat) (first : Bool) (h_regs : ps.regs = true) : (noteCause s b link first).outside ps = s.outside ps := by
  simp [noteCause, h_regs]

@[simp] theorem beginWake_frame (ps : Parts) (s : State) (h_regs : ps.regs = true) (h_power : ps.power = true) (h_wake : ps.wake = true) (h_sideband : ps.sideband = true) : (beginWake s).outside ps = s.outside ps := by
  simp [beginWake, h_regs, h_power, h_wake, h_sideband]

@[simp] theorem wakeSource_frame (ps : Parts) (s : State) (b link : Nat) (h_regs : ps.regs = true) (h_power : ps.power = true) (h_wake : ps.wake = true) (h_sideband : ps.sideband = true) : (wakeSource s b link).outside ps = s.outside ps := by
  simp [wakeSource, h_regs, h_power, h_wake, h_sideband]

@[simp] theorem mailboxWake_frame (ps : Parts) (s : State) (h_regs : ps.regs = true) (h_power : ps.power = true) (h_wake : ps.wake = true) (h_sideband : ps.sideband = true) : (mailboxWake s).outside ps = s.outside ps := by
  simp [mailboxWake, h_regs, h_power, h_wake, h_sideband]

@[simp] theorem setFt_frame (ps : Parts) (s : State) (b : Nat) (v : Bool) (h_regs : ps.regs = true) : (setFt s b v).outside ps = s.outside ps := by
  simp [setFt, h_regs]

@[simp] theorem enterHoldover_frame (ps : Parts) (s : State) (h_regs : ps.regs = true) (h_belt : ps.belt = true) : (enterHoldover s).outside ps = s.outside ps := by
  simp [enterHoldover, h_regs, h_belt]

@[simp] theorem leaveHoldover_frame (ps : Parts) (s : State) (h_regs : ps.regs = true) : (leaveHoldover s).outside ps = s.outside ps := by
  simp [leaveHoldover, h_regs]

@[simp] theorem noteOffset_frame (ps : Parts) (s : State) (off rate : Int) (h_regs : ps.regs = true) (h_time : ps.time = true) : (noteOffset s off rate).outside ps = s.outside ps := by
  simp [noteOffset, h_regs, h_time]

@[simp] theorem stepTime_frame (ps : Parts) (s : State) (off : Int) (h_now : ps.now = true) (h_time : ps.time = true) (h_boot : ps.boot = true) : (stepTime s off).outside ps = s.outside ps := by
  simp [stepTime, h_now, h_time, h_boot]

@[simp] theorem timeFrames_frame (ps : Parts) (s : State) (reached : Nat → Bool) (h_regs : ps.regs = true) (h_net : ps.net = true) : (timeFrames s reached).outside ps = s.outside ps := by
  simp [timeFrames, h_regs, h_net]

@[simp] theorem steer_frame (ps : Parts) (s : State) (f : TimeFrame) (phase : Nat) (step : Bool) (rate : Int) (h_regs : ps.regs = true) (h_now : ps.now = true) (h_time : ps.time = true) (h_belt : ps.belt = true) (h_boot : ps.boot = true) : (steer s f phase step rate).outside ps = s.outside ps := by
  simp [steer, h_regs, h_now, h_time, h_belt, h_boot]

@[simp] theorem hearTime_frame (ps : Parts) (s : State) (l : Nat) (f : TimeFrame) (phase : Nat) (step : Bool) (rate : Int) (h_regs : ps.regs = true) (h_now : ps.now = true) (h_time : ps.time = true) (h_belt : ps.belt = true) (h_net : ps.net = true) (h_boot : ps.boot = true) : (hearTime s l f phase step rate).outside ps = s.outside ps := by
  simp [hearTime, h_regs, h_now, h_time, h_belt, h_net, h_boot]

@[simp] theorem showLinkDelay_frame (ps : Parts) (s : State) (l delay : Nat) (h_regs : ps.regs = true) : (showLinkDelay s l delay).outside ps = s.outside ps := by
  simp [showLinkDelay, h_regs]

@[simp] theorem fireAlarm_frame (ps : Parts) (s : State) (t : Nat) (h_regs : ps.regs = true) (h_time : ps.time = true) (h_belt : ps.belt = true) (h_power : ps.power = true) (h_wake : ps.wake = true) (h_sideband : ps.sideband = true) : (fireAlarm s t).outside ps = s.outside ps := by
  unfold fireAlarm; (repeat' split) <;> simp [h_regs, h_time, h_belt, h_power, h_wake, h_sideband]

@[simp] theorem loseMirror_frame (ps : Parts) (s : State) (h_regs : ps.regs = true) (h_belt : ps.belt = true) (h_net : ps.net = true) : (loseMirror s).outside ps = s.outside ps := by
  simp [loseMirror, h_regs, h_belt, h_net]

@[simp] theorem checkPair_frame (ps : Parts) (s : State) (h_regs : ps.regs = true) (h_belt : ps.belt = true) (h_net : ps.net = true) : (checkPair s).outside ps = s.outside ps := by
  simp [checkPair, h_regs, h_belt, h_net]

@[simp] theorem showHealth_frame (ps : Parts) (s : State) (l : Nat) (h_regs : ps.regs = true) : (showHealth s l).outside ps = s.outside ps := by
  simp [showHealth, h_regs]

@[simp] theorem fenceLink_frame (ps : Parts) (s : State) (l st cause : Nat) (h_regs : ps.regs = true) (h_belt : ps.belt = true) (h_net : ps.net = true) : (fenceLink s l st cause).outside ps = s.outside ps := by
  simp [fenceLink, h_regs, h_belt, h_net]

@[simp] theorem raiseLink_frame (ps : Parts) (s : State) (l st m : Nat) (t : Training) (h_regs : ps.regs = true) (h_tenant : ps.tenant = true) (h_net : ps.net = true) : (raiseLink s l st m t).outside ps = s.outside ps := by
  unfold raiseLink; (repeat' split) <;> simp [h_regs, h_tenant, h_net]

@[simp] theorem peerStep_frame (ps : Parts) (s : State) (l want : Nat) (t : Training) (h_regs : ps.regs = true) (h_belt : ps.belt = true) (h_tenant : ps.tenant = true) (h_net : ps.net = true) : (peerStep s l want t).outside ps = s.outside ps := by
  unfold peerStep; (repeat' split) <;> simp [h_regs, h_belt, h_tenant, h_net]

@[simp] theorem endTraining_frame (ps : Parts) (s : State) (l want : Nat) (t : Training) (h_regs : ps.regs = true) (h_belt : ps.belt = true) (h_tenant : ps.tenant = true) (h_net : ps.net = true) : (endTraining s l want t).outside ps = s.outside ps := by
  simp [endTraining, h_regs, h_belt, h_tenant, h_net]

@[simp] theorem setPortLanes_frame (ps : Parts) (s : State) (dark : Nat) (h_regs : ps.regs = true) (h_belt : ps.belt = true) (h_sideband : ps.sideband = true) : (setPortLanes s dark).outside ps = s.outside ps := by
  simp [setPortLanes, h_regs, h_belt, h_sideband]

@[simp] theorem sendPort_frame (ps : Parts) (s : State) (f : PortFrame) (h_port : ps.port = true) : (sendPort s f).outside ps = s.outside ps := by
  simp [sendPort, h_port]

@[simp] theorem dropPort_frame (ps : Parts) (s : State) (h_regs : ps.regs = true) : (dropPort s).outside ps = s.outside ps := by
  simp [dropPort, h_regs]

@[simp] theorem takePort_frame (ps : Parts) (s : State) (type : Nat) (h : PortHead) (h_regs : ps.regs = true) (h_port : ps.port = true) : (takePort s type h).1.outside ps = s.outside ps := by
  simp [takePort, h_regs, h_port]

@[simp] theorem withPort_frame (ps : Parts) (s : State) (type : Nat) (h : PortHead) (k : State → State) (h_regs : ps.regs = true) (h_port : ps.port = true) (h_k : ∀ (x0 : State), (k x0).outside ps = x0.outside ps) : (withPort s type h k).outside ps = s.outside ps := by
  simp [withPort, h_regs, h_port, h_k]

@[simp] theorem exchangeTime_frame (ps : Parts) (s : State) (tag t2 t3 : Nat) (rate : Int) (h_regs : ps.regs = true) (h_now : ps.now = true) (h_time : ps.time = true) (h_boot : ps.boot = true) : (exchangeTime s tag t2 t3 rate).outside ps = s.outside ps := by
  unfold exchangeTime; (repeat' split) <;> simp [h_regs, h_now, h_time, h_boot]

@[simp] theorem answer_frame (ps : Parts) (s : State) (tag op status result : Nat) (payload : List Byte) (h_port : ps.port = true) : (answer s tag op status result payload).outside ps = s.outside ps := by
  simp [answer, h_port]

@[simp] theorem reply_frame (ps : Parts) (s : State) (tag op status : Nat) (h_port : ps.port = true) : (reply s tag op status).outside ps = s.outside ps := by
  simp [reply, h_port]

@[simp] theorem withMail_frame (ps : Parts) (s : State) (h : PortHead) (tag op : Nat) (k : State → State) (h_regs : ps.regs = true) (h_port : ps.port = true) (h_k : ∀ (x0 : State), (k x0).outside ps = x0.outside ps) : (withMail s h tag op k).outside ps = s.outside ps := by
  simp [withMail, h_regs, h_port, h_k]

@[simp] theorem awaitCommit_frame (ps : Parts) (s : State) (tag op page : Nat) (h_port : ps.port = true) : (awaitCommit s tag op page).outside ps = s.outside ps := by
  simp [awaitCommit, h_port]

@[simp] theorem answerWaiting_frame (ps : Parts) (s : State) (page status : Nat) (h_port : ps.port = true) : (answerWaiting s page status).outside ps = s.outside ps := by
  simp [answerWaiting, h_port]

@[simp] theorem answerWithdrawn_frame (ps : Parts) (s t : State) (page : Nat) (h_port : ps.port = true) : (answerWithdrawn s t page).outside ps = t.outside ps := by
  simp [answerWithdrawn, h_port]

@[simp] theorem ringWrite_frame (ps : Parts) (s : State) (a : Nat) (bs : List Byte) (h_serving : ps.serving = true) : (ringWrite s a bs).outside ps = s.outside ps := by
  simp [ringWrite, h_serving]

@[simp] theorem putRecord_frame (ps : Parts) (s : State) (n : Nat) (rec : List Byte) (h_serving : ps.serving = true) : (putRecord s n rec).outside ps = s.outside ps := by
  simp [putRecord, h_serving]

@[simp] theorem drainRingN_frame (ps : Parts) (s : State) (n : Nat) (y0 : Nat) (h_serving : ps.serving = true) : (drainRingN s n y0).outside ps = s.outside ps := by
  induction y0 generalizing s with
  | zero => rfl
  | succ n ih => unfold drainRingN; (repeat' split) <;> simp [ih, h_serving]

@[simp] theorem drainRing_frame (ps : Parts) (s : State) (n : Nat) (h_serving : ps.serving = true) : (drainRing s n).outside ps = s.outside ps := by
  simp [drainRing, h_serving]

@[simp] theorem postRing_frame (ps : Parts) (s : State) (n : Nat) (rec : List Byte) (h_serving : ps.serving = true) : (postRing s n rec).outside ps = s.outside ps := by
  simp [postRing, h_serving]

@[simp] theorem deliverEvent_frame (ps : Parts) (s : State) (e : Event) (h_regs : ps.regs = true) (h_belt : ps.belt = true) (h_serving : ps.serving = true) : (deliverEvent s e).outside ps = s.outside ps := by
  unfold deliverEvent; (repeat' split) <;> simp [h_regs, h_belt, h_serving]

@[simp] theorem drainStoreN_frame (ps : Parts) (s : State) (y0 : Nat) (h_belt : ps.belt = true) (h_serving : ps.serving = true) : (drainStoreN s y0).outside ps = s.outside ps := by
  induction y0 generalizing s with
  | zero => rfl
  | succ n ih => unfold drainStoreN; (repeat' split) <;> simp [ih, h_belt, h_serving]

@[simp] theorem drainStore_frame (ps : Parts) (s : State) (h_belt : ps.belt = true) (h_serving : ps.serving = true) : (drainStore s).outside ps = s.outside ps := by
  simp [drainStore, h_belt, h_serving]

@[simp] theorem sendHostRead_frame (ps : Parts) (s : State) (why : ReadFor) (addr len : Nat) (h_port : ps.port = true) : (sendHostRead s why addr len).outside ps = s.outside ps := by
  simp [sendHostRead, h_port]

@[simp] theorem peNote_frame (ps : Parts) (s : State) (c : Ctx) (k a n : Nat) (h_regs : ps.regs = true) (h_gddr : ps.gddr = true) (h_belt : ps.belt = true) : (peNote s c k a n).outside ps = s.outside ps := by
  unfold peNote; (repeat' split) <;> simp [h_regs, h_gddr, h_belt]

@[simp] theorem peWrite_frame (ps : Parts) (s : State) (k a : Nat) (bs : List Byte) (h_regs : ps.regs = true) (h_gddr : ps.gddr = true) (h_belt : ps.belt = true) : (peWrite s k a bs).outside ps = s.outside ps := by
  unfold peWrite; (repeat' split) <;> simp [h_regs, h_gddr, h_belt]

@[simp] theorem postPool_frame (ps : Parts) (s : State) (k cause op1 tag count : Nat) (h_regs : ps.regs = true) (h_belt : ps.belt = true) (h_serving : ps.serving = true) : (postPool s k cause op1 tag count).outside ps = s.outside ps := by
  simp [postPool, h_regs, h_belt, h_serving]

@[simp] theorem setDesc_frame (ps : Parts) (s : State) (k i d : Nat) (h_regs : ps.regs = true) (h_gddr : ps.gddr = true) (h_belt : ps.belt = true) : (setDesc s k i d).outside ps = s.outside ps := by
  simp [setDesc, h_regs, h_gddr, h_belt]

@[simp] theorem countPool_frame (ps : Parts) (s : State) (k : Nat) (h_regs : ps.regs = true) : (countPool s k).outside ps = s.outside ps := by
  simp [countPool, h_regs]

@[simp] theorem setList_frame (ps : Parts) (s : State) (k j : Nat) (h : ListHead) (h_regs : ps.regs = true) (h_gddr : ps.gddr = true) (h_belt : ps.belt = true) : (setList s k j h).outside ps = s.outside ps := by
  simp [setList, h_regs, h_gddr, h_belt]

@[simp] theorem noteHead_frame (ps : Parts) (s : State) (k j : Nat) (h_regs : ps.regs = true) (h_gddr : ps.gddr = true) (h_belt : ps.belt = true) : (noteHead s k j).outside ps = s.outside ps := by
  simp [noteHead, h_regs, h_gddr, h_belt]

@[simp] theorem walkList_frame (ps : Parts) (s : State) (k j : Nat) (h_regs : ps.regs = true) (h_gddr : ps.gddr = true) (h_belt : ps.belt = true) : (walkList s k j).outside ps = s.outside ps := by
  simp [walkList, h_regs, h_gddr, h_belt]

@[simp] theorem setParked_frame (ps : Parts) (s : State) (e : Nat) (v : Option Parked) (h_serving : ps.serving = true) : (setParked s e v).outside ps = s.outside ps := by
  simp [setParked, h_serving]

@[simp] theorem evictSession_frame (ps : Parts) (s : State) (k e : Nat) (h_regs : ps.regs = true) (h_gddr : ps.gddr = true) (h_belt : ps.belt = true) (h_serving : ps.serving = true) : (evictSession s k e).outside ps = s.outside ps := by
  unfold evictSession; dsimp only; (repeat' split) <;> simp [h_regs, h_gddr, h_belt, h_serving]

theorem takeFrameAux_frame (ps : Parts) (s : State) (k : Nat) (y0 : Nat) (h_regs : ps.regs = true) (h_gddr : ps.gddr = true) (h_belt : ps.belt = true) (h_serving : ps.serving = true) : ∀ t, (takeFrameAux s k y0) = some t → t.1.outside ps = s.outside ps := by
  induction y0 generalizing s with
  | zero =>
    intro t h; unfold takeFrameAux at h
    cases hf : (freeFrames s k).head? <;> simp_all
    rw [← h]
  | succ n ih =>
    intro t h; unfold takeFrameAux at h
    split at h
    · cases h; rfl
    · split at h
      · cases h
      · rw [ih _ t h]; simp [h_regs, h_gddr, h_belt, h_serving]

theorem takeFreeFrame_frame (ps : Parts) (s : State) (k : Nat) (h_regs : ps.regs = true) (h_gddr : ps.gddr = true) (h_belt : ps.belt = true) (h_serving : ps.serving = true) : ∀ t, (takeFreeFrame s k) = some t → t.1.outside ps = s.outside ps := by
  unfold takeFreeFrame; exact takeFrameAux_frame _ _ _ _ h_regs h_gddr h_belt h_serving

theorem addPage_frame (ps : Parts) (s : State) (k j : Nat) (h_regs : ps.regs = true) (h_gddr : ps.gddr = true) (h_belt : ps.belt = true) (h_serving : ps.serving = true) : ∀ t, (addPage s k j) = some t → t.outside ps = s.outside ps := by
  intro t h; unfold addPage at h
  cases hf : takeFreeFrame s k with
  | none => simp [hf] at h
  | some r =>
    have h2 := takeFreeFrame_frame ps s k h_regs h_gddr h_belt h_serving r hf
    simp [hf] at h; rw [← h]
    split <;> simp [h_regs, h_gddr, h_belt, h_serving, h2]

theorem addPages_frame (ps : Parts) (s : State) (k j : Nat) (y0 : Nat) (h_regs : ps.regs = true) (h_gddr : ps.gddr = true) (h_belt : ps.belt = true) (h_serving : ps.serving = true) : ∀ t, (addPages s k j y0) = some t → t.outside ps = s.outside ps := by
  induction y0 generalizing s with
  | zero => intro t h; cases h; rfl
  | succ n ih =>
    intro t h; unfold addPages at h
    cases hf : addPage s k j with
    | none => simp [hf] at h
    | some r => simp [hf] at h; rw [ih _ t h, addPage_frame ps s k j h_regs h_gddr h_belt h_serving r hf]

@[simp] theorem truncateList_frame (ps : Parts) (s : State) (k j n : Nat) (h_regs : ps.regs = true) (h_gddr : ps.gddr = true) (h_belt : ps.belt = true) : (truncateList s k j n).outside ps = s.outside ps := by
  unfold truncateList; dsimp only; (repeat' split) <;> simp [h_regs, h_gddr, h_belt]

@[simp] theorem setPrefix_frame (ps : Parts) (s : State) (p : Nat) (v : Option Prefix) (h_serving : ps.serving = true) : (setPrefix s p v).outside ps = s.outside ps := by
  simp [setPrefix, h_serving]

@[simp] theorem refChain_frame (ps : Parts) (s : State) (k f : Nat) (up : Bool) (h_regs : ps.regs = true) (h_gddr : ps.gddr = true) (h_belt : ps.belt = true) : (refChain s k f up).outside ps = s.outside ps := by
  simp [refChain, h_regs, h_gddr, h_belt]

@[simp] theorem retirePrefix_frame (ps : Parts) (s : State) (p : Nat) (h_regs : ps.regs = true) (h_gddr : ps.gddr = true) (h_belt : ps.belt = true) (h_serving : ps.serving = true) : (retirePrefix s p).outside ps = s.outside ps := by
  unfold retirePrefix; (repeat' split) <;> simp [h_regs, h_gddr, h_belt, h_serving]

@[simp] theorem retirePrefixes_frame (ps : Parts) (s : State) (h_regs : ps.regs = true) (h_gddr : ps.gddr = true) (h_belt : ps.belt = true) (h_serving : ps.serving = true) : (retirePrefixes s).outside ps = s.outside ps := by
  simp [retirePrefixes, h_regs, h_gddr, h_belt, h_serving]

@[simp] theorem makeList_frame (ps : Parts) (s : State) (k j req d fmt blk : Nat) (pfx : Option ListHead) (h_regs : ps.regs = true) (h_gddr : ps.gddr = true) (h_belt : ps.belt = true) : (makeList s k j req d fmt blk pfx).outside ps = s.outside ps := by
  unfold makeList; (repeat' split) <;> simp [h_regs, h_gddr, h_belt]

@[simp] theorem dropList_frame (ps : Parts) (s : State) (k j : Nat) (h_regs : ps.regs = true) (h_gddr : ps.gddr = true) (h_belt : ps.belt = true) (h_serving : ps.serving = true) : (dropList s k j).outside ps = s.outside ps := by
  simp [dropList, h_regs, h_gddr, h_belt, h_serving]

@[simp] theorem gPut_frame (ps : Parts) (s : State) (k a : Nat) (ws : List (Nat × List Byte)) (h_regs : ps.regs = true) (h_gddr : ps.gddr = true) (h_belt : ps.belt = true) : (gPut s k a ws).outside ps = s.outside ps := by
  simp [gPut, h_regs, h_gddr, h_belt]

theorem appendRow_frame (ps : Parts) (s : State) (k j rows r : Nat) (kv vv : ByteView) (h_regs : ps.regs = true) (h_gddr : ps.gddr = true) (h_belt : ps.belt = true) (h_serving : ps.serving = true) : ∀ t, (appendRow s k j rows r kv vv) = some t → t.outside ps = s.outside ps := by
  intro t h; unfold appendRow at h
  dsimp only at h
  split at h
  · simp at h; rw [← h]; simp [h_regs, h_gddr, h_belt, h_serving]
  · cases hf : addPage s k j with
    | none => simp [hf] at h
    | some r => simp [hf] at h; rw [← h]; simp [addPage_frame ps s k j h_regs h_gddr h_belt h_serving r hf, h_regs, h_gddr, h_belt, h_serving]

@[simp] theorem movePin_frame (ps : Parts) (s : State) (cur prev pinsCur pinsPrev v : Nat) (up : Bool) (h_regs : ps.regs = true) : (movePin s cur prev pinsCur pinsPrev v up).outside ps = s.outside ps := by
  simp [movePin, h_regs]

@[simp] theorem pinBase_frame (ps : Parts) (s : State) (m v : Nat) (up : Bool) (h_regs : ps.regs = true) : (pinBase s m v up).outside ps = s.outside ps := by
  simp [pinBase, h_regs]

@[simp] theorem pinAdapter_frame (ps : Parts) (s : State) (m : Nat) (a : Option Nat) (v : Nat) (up : Bool) (h_regs : ps.regs = true) : (pinAdapter s m a v up).outside ps = s.outside ps := by
  unfold pinAdapter; (repeat' split) <;> simp [h_regs]

@[simp] theorem setReq_frame (ps : Parts) (s : State) (r : Request) (h_serving : ps.serving = true) : (setReq s r).outside ps = s.outside ps := by
  simp [setReq, h_serving]

@[simp] theorem dropReq_frame (ps : Parts) (s : State) (id : Nat) (h_serving : ps.serving = true) : (dropReq s id).outside ps = s.outside ps := by
  simp [dropReq, h_serving]

@[simp] theorem noteReq_frame (ps : Parts) (s : State) (r : Request) (kind pos w : Nat) (h_serving : ps.serving = true) : (noteReq s r kind pos w).outside ps = s.outside ps := by
  simp [noteReq, h_serving]

@[simp] theorem releasePins_frame (ps : Parts) (s : State) (r : Request) (h_regs : ps.regs = true) : (releasePins s r).outside ps = s.outside ps := by
  simp [releasePins, h_regs]

@[simp] theorem complete_frame (ps : Parts) (s : State) (q tag req op status result : Nat) (h_regs : ps.regs = true) (h_serving : ps.serving = true) : (complete s q tag req op status result).outside ps = s.outside ps := by
  simp [complete, h_regs, h_serving]

@[simp] theorem setFam_frame (ps : Parts) (s : State) (i : Nat) (f : Option Family) (h_serving : ps.serving = true) : (setFam s i f).outside ps = s.outside ps := by
  simp [setFam, h_serving]

@[simp] theorem settleLists_frame (ps : Parts) (s : State) (h_regs : ps.regs = true) (h_gddr : ps.gddr = true) (h_belt : ps.belt = true) (h_serving : ps.serving = true) : (settleLists s).outside ps = s.outside ps := by
  simp [settleLists, h_regs, h_gddr, h_belt, h_serving]

@[simp] theorem freeLists_frame (ps : Parts) (s : State) (r : Request) (h_regs : ps.regs = true) (h_gddr : ps.gddr = true) (h_belt : ps.belt = true) (h_serving : ps.serving = true) : (freeLists s r).outside ps = s.outside ps := by
  simp [freeLists, h_regs, h_gddr, h_belt, h_serving]

@[simp] theorem unbindRing_frame (ps : Parts) (s : State) (n : Nat) (h_serving : ps.serving = true) : (unbindRing s n).outside ps = s.outside ps := by
  simp [unbindRing, h_serving]

@[simp] theorem retireReq_frame (ps : Parts) (s : State) (r : Request) (completed : Bool) (h_serving : ps.serving = true) : (retireReq s r completed).outside ps = s.outside ps := by
  simp [retireReq, h_serving]

@[simp] theorem completeWaiting_frame (ps : Parts) (s : State) (r : Request) (w : Option (Nat × Nat)) (op status result : Nat) (h_regs : ps.regs = true) (h_serving : ps.serving = true) : (completeWaiting s r w op status result).outside ps = s.outside ps := by
  unfold completeWaiting; (repeat' split) <;> simp [h_regs, h_serving]

@[simp] theorem endReq_frame (ps : Parts) (s : State) (r : Request) (kind pos : Nat) (pins lists : Bool) (h_regs : ps.regs = true) (h_gddr : ps.gddr = true) (h_belt : ps.belt = true) (h_serving : ps.serving = true) : (endReq s r kind pos pins lists).outside ps = s.outside ps := by
  simp [endReq, h_regs, h_gddr, h_belt, h_serving]

@[simp] theorem completeReq_frame (ps : Parts) (s : State) (r : Request) (pos : Nat) (h_regs : ps.regs = true) (h_gddr : ps.gddr = true) (h_belt : ps.belt = true) (h_serving : ps.serving = true) : (completeReq s r pos).outside ps = s.outside ps := by
  simp [completeReq, h_regs, h_gddr, h_belt, h_serving]

@[simp] theorem cancelReq_frame (ps : Parts) (s : State) (r : Request) (h_regs : ps.regs = true) (h_gddr : ps.gddr = true) (h_belt : ps.belt = true) (h_serving : ps.serving = true) : (cancelReq s r).outside ps = s.outside ps := by
  simp [cancelReq, h_regs, h_gddr, h_belt, h_serving]

theorem takeSerial_frame (ps : Parts) (s : State) (k : Nat) (h_regs : ps.regs = true) : ∀ t, (takeSerial s k) = some t → t.1.outside ps = s.outside ps := by
  simp [takeSerial, h_regs]

@[simp] theorem parkReq_frame (ps : Parts) (s : State) (r : Request) (preempted : Bool) (h_regs : ps.regs = true) (h_gddr : ps.gddr = true) (h_belt : ps.belt = true) (h_serving : ps.serving = true) : (parkReq s r preempted).1.outside ps = s.outside ps := by
  unfold parkReq; dsimp only; split
  · rfl
  · split
    · simp [h_regs, h_gddr, h_belt, h_serving]
    · rename_i s2 ser hs
      have h2 := takeSerial_frame ps s _ h_regs _ hs
      simp [h_regs, h_gddr, h_belt, h_serving, h2]

@[simp] theorem pauseReq_frame (ps : Parts) (s : State) (r : Request) (h_regs : ps.regs = true) (h_gddr : ps.gddr = true) (h_belt : ps.belt = true) (h_serving : ps.serving = true) : (pauseReq s r).outside ps = s.outside ps := by
  unfold pauseReq
  split
  · simp [h_regs, h_gddr, h_belt, h_serving]
  have hp := parkReq_frame ps s r false h_regs h_gddr h_belt h_serving
  split
  · rename_i h; rw [h] at hp; simpa [h_regs, h_gddr, h_belt, h_serving] using hp
  · rename_i h; rw [h] at hp
    (try split) <;> simp_all

@[simp] theorem preemptReq_frame (ps : Parts) (s : State) (r : Request) (h_regs : ps.regs = true) (h_gddr : ps.gddr = true) (h_belt : ps.belt = true) (h_serving : ps.serving = true) : (preemptReq s r).outside ps = s.outside ps := by
  unfold preemptReq
  split
  · simp [h_regs, h_gddr, h_belt, h_serving]
  have hp := parkReq_frame ps s r true h_regs h_gddr h_belt h_serving
  split
  · rename_i h; rw [h] at hp; simpa [h_regs, h_gddr, h_belt, h_serving] using hp
  · rename_i h; rw [h] at hp
    (try split) <;> simp_all

@[simp] theorem freeParked_frame (ps : Parts) (s : State) (e : Nat) (h_regs : ps.regs = true) (h_gddr : ps.gddr = true) (h_belt : ps.belt = true) (h_serving : ps.serving = true) : (freeParked s e).outside ps = s.outside ps := by
  unfold freeParked; dsimp only; (repeat' split) <;> simp [h_regs, h_gddr, h_belt, h_serving]

@[simp] theorem parkedNow_frame (ps : Parts) (s : State) (e : Nat) (p : Parked) (r : Request) (h_regs : ps.regs = true) (h_gddr : ps.gddr = true) (h_belt : ps.belt = true) (h_serving : ps.serving = true) : (parkedNow s e p r).outside ps = s.outside ps := by
  simp [parkedNow, h_regs, h_gddr, h_belt, h_serving]

@[simp] theorem restoreLists_frame (ps : Parts) (s : State) (p : Parked) (j : Nat) (h_regs : ps.regs = true) (h_gddr : ps.gddr = true) (h_belt : ps.belt = true) : (restoreLists s p j).outside ps = s.outside ps := by
  simp [restoreLists, h_regs, h_gddr, h_belt]

@[simp] theorem claimFrames_frame (ps : Parts) (s : State) (k j np n : Nat) (fs : List Nat) (h_regs : ps.regs = true) (h_gddr : ps.gddr = true) (h_belt : ps.belt = true) : (claimFrames s k j np n fs).outside ps = s.outside ps := by
  simp [claimFrames, h_regs, h_gddr, h_belt]

@[simp] theorem repin_frame (ps : Parts) (s : State) (r : Request) (p : Parked) (h_regs : ps.regs = true) : (repin s r p).1.outside ps = s.outside ps := by
  simp [repin, h_regs]

@[simp] theorem restored_frame (ps : Parts) (s : State) (e : Nat) (p : Parked) (r : Request) (h_regs : ps.regs = true) (h_gddr : ps.gddr = true) (h_belt : ps.belt = true) (h_serving : ps.serving = true) : (restored s e p r).outside ps = s.outside ps := by
  simp [restored, h_regs, h_gddr, h_belt, h_serving]

@[simp] theorem tryResume_frame (ps : Parts) (s : State) (e : Nat) (p : Parked) (r : Request) (h_regs : ps.regs = true) (h_gddr : ps.gddr = true) (h_belt : ps.belt = true) (h_serving : ps.serving = true) : (tryResume s e p r).outside ps = s.outside ps := by
  unfold tryResume
  have hg : ∀ (s : State) k j n, ((addPages s k j n).getD s).outside ps = s.outside ps := by
    intro s k j n
    cases ha : addPages s k j n with
    | none => rfl
    | some t => exact addPages_frame ps s k j n h_regs h_gddr h_belt h_serving t ha
  dsimp only
  split
  · rfl
  · split
    · simp [h_regs, h_gddr, h_belt, h_serving]
    · split
      · rw [setReq_frame _ _ _ (by assumption), setParked_frame _ _ _ _ (by assumption), foldl_outside]
        · simp [h_regs, h_gddr, h_belt, h_serving]
        · intro s a; rw [claimFrames_frame]
          · exact hg _ _ _ _
          all_goals assumption
      · rfl

@[simp] theorem fillMembers_frame (ps : Parts) (s : State) (i : Nat) (y0 : Nat) (h_serving : ps.serving = true) : (fillMembers s i y0).outside ps = s.outside ps := by
  induction y0 generalizing s with
  | zero => rfl
  | succ n ih => unfold fillMembers; dsimp only; split <;> (try rfl); split <;> simp [ih, h_serving]

@[simp] theorem reserveMember_frame (ps : Parts) (s : State) (i m : Nat) (r : Request) (h_regs : ps.regs = true) (h_gddr : ps.gddr = true) (h_belt : ps.belt = true) (h_serving : ps.serving = true) : (reserveMember s i m r).outside ps = s.outside ps := by
  unfold reserveMember
  have hg : ∀ (s : State) k j n, ((addPages s k j n).getD s).outside ps = s.outside ps := by
    intro s k j n
    cases ha : addPages s k j n with
    | none => rfl
    | some t => exact addPages_frame ps s k j n h_regs h_gddr h_belt h_serving t ha
  dsimp only
  (repeat' split) <;> simp [h_regs, h_gddr, h_belt, h_serving, hg]

@[simp] theorem openStep_frame (ps : Parts) (s : State) (i : Nat) (h_regs : ps.regs = true) (h_ns : ps.ns = true) (h_gddr : ps.gddr = true) (h_belt : ps.belt = true) (h_serving : ps.serving = true) : (openStep s i).outside ps = s.outside ps := by
  unfold openStep
  split
  · rfl
  · dsimp only
    rw [foldl_outside]
    · rw [foldl_outside]
      · simp [h_regs, h_ns, h_gddr, h_belt, h_serving]
      · intro s a; split <;> simp [h_regs, h_ns, h_gddr, h_belt, h_serving]
    · intro s a; simp [h_regs, h_ns, h_gddr, h_belt, h_serving]

@[simp] theorem closeStep_frame (ps : Parts) (s : State) (i : Nat) (h_regs : ps.regs = true) (h_gddr : ps.gddr = true) (h_belt : ps.belt = true) (h_serving : ps.serving = true) : (closeStep s i).outside ps = s.outside ps := by
  unfold closeStep
  split
  · rfl
  · dsimp only
    rw [foldl_outside]
    · simp [h_regs, h_gddr, h_belt, h_serving]
    · intro s a; (repeat' split) <;> simp [h_regs, h_gddr, h_belt, h_serving]

@[simp] theorem checkReady_frame (ps : Parts) (s : State) (id : Nat) (h_serving : ps.serving = true) : (checkReady s id).outside ps = s.outside ps := by
  unfold checkReady; (repeat' split) <;> simp [h_serving]

@[simp] theorem settleServing_frame (ps : Parts) (s : State) (h_regs : ps.regs = true) (h_gddr : ps.gddr = true) (h_belt : ps.belt = true) (h_serving : ps.serving = true) : (settleServing s).outside ps = s.outside ps := by
  unfold settleServing
  dsimp only
  rw [foldl_outside]
  · simp [h_regs, h_gddr, h_belt, h_serving]
  · intro s a; (repeat' split) <;> simp [h_regs, h_gddr, h_belt, h_serving]

@[simp] theorem acceptToken_frame (ps : Parts) (s : State) (ring : Nat) (row : List Byte) (h_regs : ps.regs = true) (h_gddr : ps.gddr = true) (h_belt : ps.belt = true) (h_serving : ps.serving = true) : (acceptToken s ring row).outside ps = s.outside ps := by
  unfold acceptToken; dsimp only; (repeat' split) <;> simp [h_regs, h_gddr, h_belt, h_serving]

@[simp] theorem postRows_frame (ps : Parts) (s : State) (l : List (Nat × List Byte)) (h_regs : ps.regs = true) (h_gddr : ps.gddr = true) (h_belt : ps.belt = true) (h_serving : ps.serving = true) : (postRows s l).1.outside ps = s.outside ps := by
  induction l generalizing s with
  | nil => rfl
  | cons x rest ih => obtain ⟨n, row⟩ := x; unfold postRows; split <;> simp [ih, h_regs, h_gddr, h_belt, h_serving]

@[simp] theorem ackDoorbell_frame (ps : Parts) (s : State) (tag n party idx status : Nat) (h_port : ps.port = true) : (ackDoorbell s tag n party idx status).outside ps = s.outside ps := by
  simp [ackDoorbell, h_port]

@[simp] theorem refusedBell_frame (ps : Parts) (s : State) (n : Nat) (h_regs : ps.regs = true) : (refusedBell s n).outside ps = s.outside ps := by
  simp [refusedBell, h_regs]

@[simp] theorem nextStoreRead_frame (ps : Parts) (s : State) (x : HostXfer) (h_port : ps.port = true) : (nextStoreRead s x).outside ps = s.outside ps := by
  simp [nextStoreRead, h_port]

@[simp] theorem storeBytes_frame (ps : Parts) (s : State) (slot : Option Nat) (a : Nat) (bs : List Byte) (h_regs : ps.regs = true) (h_gddr : ps.gddr = true) (h_belt : ps.belt = true) : (storeBytes s slot a bs).outside ps = s.outside ps := by
  simp [storeBytes, h_regs, h_gddr, h_belt]

@[simp] theorem consume_frame (ps : Parts) (s : State) (q : Nat) (h_serving : ps.serving = true) : (consume s q).outside ps = s.outside ps := by
  simp [consume, h_serving]

@[simp] theorem finish_frame (ps : Parts) (s : State) (q : Nat) (c : List Byte) (status result : Nat) (h_regs : ps.regs = true) (h_serving : ps.serving = true) : (finish s q c status result).outside ps = s.outside ps := by
  simp [finish, h_regs, h_serving]

@[simp] theorem withCommand_frame (ps : Parts) (s : State) (q op : Nat) (k : List Byte → State) (h_regs : ps.regs = true) (h_serving : ps.serving = true) (h_k : ∀ (x0 : List Byte), (k x0).outside ps = s.outside ps) : (withCommand s q op k).outside ps = s.outside ps := by
  simp [withCommand, h_regs, h_serving, h_k]

@[simp] theorem layImage_frame (ps : Parts) (s : State) (p : Parked) (r : Request) (bytes : List Byte) (h_regs : ps.regs = true) (h_gddr : ps.gddr = true) (h_belt : ps.belt = true) : (layImage s p r bytes).outside ps = s.outside ps := by
  simp [layImage, h_regs, h_gddr, h_belt]

@[simp] theorem endParked_frame (ps : Parts) (s : State) (e : Nat) (p : Parked) (record : Bool) (h_regs : ps.regs = true) (h_gddr : ps.gddr = true) (h_belt : ps.belt = true) (h_serving : ps.serving = true) : (endParked s e p record).outside ps = s.outside ps := by
  unfold endParked; dsimp only; (repeat' split) <;> simp [h_regs, h_gddr, h_belt, h_serving]

@[simp] theorem expireEntry_frame (ps : Parts) (s : State) (e t : Nat) (h_regs : ps.regs = true) (h_gddr : ps.gddr = true) (h_belt : ps.belt = true) (h_serving : ps.serving = true) : (expireEntry s e t).outside ps = s.outside ps := by
  unfold expireEntry; (repeat' split) <;> simp [h_regs, h_gddr, h_belt, h_serving]

@[simp] theorem setArray_frame (ps : Parts) (s : State) (cl k : Nat) (a : ArrayState) (h_seq : ps.seq = true) : (setArray s cl k a).outside ps = s.outside ps := by
  simp [setArray, h_seq]

@[simp] theorem loadFirst_frame (ps : Parts) (s : State) (f : Flight) (k : Nat) (h_seq : ps.seq = true) : (loadFirst s f k).outside ps = s.outside ps := by
  simp [loadFirst, h_seq]

@[simp] theorem runPass_frame (ps : Parts) (s : State) (f : Flight) (h_regs : ps.regs = true) (h_seq : ps.seq = true) (h_belt : ps.belt = true) : (runPass s f).outside ps = s.outside ps := by
  simp [runPass, h_regs, h_seq, h_belt]

@[simp] theorem advanceFlight_frame (ps : Parts) (s : State) (id : Nat) (h_regs : ps.regs = true) (h_seq : ps.seq = true) (h_belt : ps.belt = true) : (advanceFlight s id).outside ps = s.outside ps := by
  unfold advanceFlight; dsimp only; (repeat' split) <;> simp [h_regs, h_seq, h_belt]

@[simp] theorem settleUnits_frame (ps : Parts) (s : State) (h_regs : ps.regs = true) (h_seq : ps.seq = true) (h_belt : ps.belt = true) : (settleUnits s).outside ps = s.outside ps := by
  simp [settleUnits, h_regs, h_seq, h_belt]

@[simp] theorem leaveUnits_frame (ps : Parts) (s : State) (id : Nat) (h_regs : ps.regs = true) (h_seq : ps.seq = true) (h_belt : ps.belt = true) : (leaveUnits s id).outside ps = s.outside ps := by
  simp [leaveUnits, h_regs, h_seq, h_belt]

@[simp] theorem startPass_frame (ps : Parts) (s : State) (cl p i e : Nat) (h_regs : ps.regs = true) (h_seq : ps.seq = true) (h_belt : ps.belt = true) : (startPass s cl p i e).outside ps = s.outside ps := by
  simp [startPass, h_regs, h_seq, h_belt]

@[simp] theorem finishPass_frame (ps : Parts) (s : State) (f : Flight) (outs : List CoreOut) (h_regs : ps.regs = true) (h_seq : ps.seq = true) (h_ns : ps.ns = true) (h_belt : ps.belt = true) : (finishPass s f outs).outside ps = s.outside ps := by
  simp [finishPass, h_regs, h_seq, h_ns, h_belt]

@[simp] theorem endPass_frame (ps : Parts) (s : State) (f : Flight) (ops : List (Nat × List (Nat × List Byte))) (h_free : ps.free = true) (h_seq : ps.seq = true) : (endPass s f ops).1.outside ps = s.outside ps := by
  simp [endPass, h_free, h_seq]

@[simp] theorem startMvec_frame (ps : Parts) (s : State) (cl p i e : Nat) (h_regs : ps.regs = true) (h_seq : ps.seq = true) (h_belt : ps.belt = true) : (startMvec s cl p i e).outside ps = s.outside ps := by
  simp [startMvec, h_regs, h_seq, h_belt]

@[simp] theorem finishMvec_frame (ps : Parts) (s : State) (f : Flight) (outs : List CoreOut) (h_regs : ps.regs = true) (h_seq : ps.seq = true) (h_ns : ps.ns = true) (h_belt : ps.belt = true) : (finishMvec s f outs).outside ps = s.outside ps := by
  simp [finishMvec, h_regs, h_seq, h_ns, h_belt]

@[simp] theorem startVec_frame (ps : Parts) (s : State) (cl p i e : Nat) (h_regs : ps.regs = true) (h_seq : ps.seq = true) (h_ns : ps.ns = true) (h_belt : ps.belt = true) : (startVec s cl p i e).outside ps = s.outside ps := by
  unfold startVec
  dsimp only
  rw [advanceFlight_frame, issueFlight_frame _ _ _ _ _ _ _ _ _ (by assumption) (by assumption) (by assumption)]
  · apply foldl_outside; intro s a
    simp only [outside_ite, postCtx_frame, setLiveFlag_frame, noteCounts_frame, foldl_outside, nsWriteImage_frame, nsNote_frame, h_regs, h_seq, h_ns, h_belt,
      implies_true, ite_self]
  all_goals assumption

@[simp] theorem runVec_frame (ps : Parts) (s : State) (cl p : Nat) (mine : Nat → Bool) (h_regs : ps.regs = true) (h_seq : ps.seq = true) (h_ns : ps.ns = true) (h_belt : ps.belt = true) : (runVec s cl p mine).outside ps = s.outside ps := by
  unfold runVec
  refine withEntry_frame _ _ _ _ _ _ h_regs h_seq h_belt ?_
  intro i e; (repeat' split) <;> simp [h_regs, h_seq, h_ns, h_belt]

@[simp] theorem noteAllPages_frame (ps : Parts) (s : State) (c : Ctx) (page : Nat) (p : AttnPlan) (v : Bool) (seen : List (Nat × Nat)) (h_regs : ps.regs = true) (h_gddr : ps.gddr = true) (h_belt : ps.belt = true) : (noteAllPages s c page p v seen).1.outside ps = s.outside ps := by
  unfold noteAllPages; dsimp only; rw [foldl_outside, foldl_outside] <;> first | (intros; exact postCtx_frame _ _ _ _ _ (by assumption) (by assumption)) | (intro s a; apply foldl_outside; intro s a; simp [h_regs, h_gddr, h_belt]) | simp [h_regs, h_gddr, h_belt]

@[simp] theorem markList_frame (ps : Parts) (s : State) (k j : Nat) (dry : Bool) (h_serving : ps.serving = true) : (markList s k j dry).outside ps = s.outside ps := by
  unfold markList; (repeat' split) <;> simp [h_serving]

@[simp] theorem stallEntry_frame (ps : Parts) (s : State) (e : Nat) (h_regs : ps.regs = true) (h_serving : ps.serving = true) : (stallEntry s e).outside ps = s.outside ps := by
  unfold stallEntry
  split
  · rfl
  · apply foldl_outside
    intro s id
    split
    · rfl
    · split
      · simp [h_regs, h_serving]
      · split <;> simp [h_regs, h_serving]

@[simp] theorem appendCore_frame (ps : Parts) (s : State) (cl e c : Nat) (p : AttnPlan) (h_regs : ps.regs = true) (h_gddr : ps.gddr = true) (h_belt : ps.belt = true) (h_serving : ps.serving = true) : (appendCore s cl e c p).1.outside ps = s.outside ps := by
  unfold appendCore
  have hg : ∀ (s : State) k j rows r kv vv, ((appendRow s k j rows r kv vv).getD s).outside ps = s.outside ps := by
    intro s k j rows r kv vv
    cases ha : appendRow s k j rows r kv vv with
    | none => rfl
    | some t => exact appendRow_frame ps s k j rows r kv vv h_regs h_gddr h_belt h_serving t ha
  dsimp only
  split
  · split
    · rfl
    · split <;> simp [h_regs, h_gddr, h_belt, h_serving, hg]
  · dsimp only
    rw [foldl_outside]
    intro s a
    split <;> simp [hg]

@[simp] theorem refuseCore_frame (ps : Parts) (s : State) (cl pr i e c cause : Nat) (h_regs : ps.regs = true) (h_belt : ps.belt = true) : (refuseCore s cl pr i e c cause).outside ps = s.outside ps := by
  simp [refuseCore, h_regs, h_belt]

@[simp] theorem scoreCore_frame (ps : Parts) (a : AttnRun) (cl pr i e c : Nat) (h_regs : ps.regs = true) (h_ns : ps.ns = true) (h_gddr : ps.gddr = true) (h_belt : ps.belt = true) (h_serving : ps.serving = true) : (scoreCore a cl pr i e c).state.outside ps = a.state.outside ps := by
  unfold scoreCore; dsimp only; split <;> simp [h_regs, h_ns, h_gddr, h_belt, h_serving]

@[simp] theorem normaliseCore_frame (ps : Parts) (a : AttnRun) (cl pr i e c : Nat) (h_regs : ps.regs = true) (h_ns : ps.ns = true) (h_belt : ps.belt = true) : (normaliseCore a cl pr i e c).state.outside ps = a.state.outside ps := by
  unfold normaliseCore; dsimp only; split <;> simp [h_regs, h_ns, h_belt]

@[simp] theorem valueCore_frame (ps : Parts) (a : AttnRun) (cl pr i e c : Nat) (h_regs : ps.regs = true) (h_ns : ps.ns = true) (h_gddr : ps.gddr = true) (h_belt : ps.belt = true) : (valueCore a cl pr i e c).state.outside ps = a.state.outside ps := by
  unfold valueCore; dsimp only; split <;> simp [h_regs, h_ns, h_gddr, h_belt]

@[simp] theorem openSteps_frame (ps : Parts) (s : State) (cl e : Nat) (h_regs : ps.regs = true) (h_ns : ps.ns = true) (h_gddr : ps.gddr = true) (h_belt : ps.belt = true) (h_serving : ps.serving = true) : (openSteps s cl e).outside ps = s.outside ps := by
  unfold openSteps; split
  · rfl
  · apply foldl_outside; intro s a; dsimp only; (repeat' split) <;> simp [h_regs, h_ns, h_gddr, h_belt, h_serving]

@[simp] theorem noteLists_frame (ps : Parts) (s : State) (e : Nat) (lists : List (Nat × Nat)) (h_regs : ps.regs = true) (h_gddr : ps.gddr = true) (h_belt : ps.belt = true) : (noteLists s e lists).outside ps = s.outside ps := by
  simp [noteLists, h_regs, h_gddr, h_belt]

@[simp] theorem runAttn_frame (ps : Parts) (s : State) (cl p step : Nat) (core : AttnRun → Nat → Nat → Nat → AttnRun) (h_regs : ps.regs = true) (h_seq : ps.seq = true) (h_ns : ps.ns = true) (h_gddr : ps.gddr = true) (h_belt : ps.belt = true) (h_serving : ps.serving = true) (h_core : ∀ (x0 : AttnRun) (x1 : Nat) (x2 : Nat) (x3 : Nat), (core x0 x1 x2 x3).state.outside ps = x0.state.outside ps) : (runAttn s cl p step core).outside ps = s.outside ps := by
  unfold runAttn
  refine withEntry_frame _ _ _ _ _ _ h_regs h_seq h_belt ?_
  intro i e
  split
  · simp [h_regs, h_seq, h_ns, h_gddr, h_belt, h_serving]
  · dsimp only
    split
    · rw [rejectEntry_frame _ _ _ _ _ _ _ h_regs h_seq h_belt]
    · rw [issueFlight_frame _ _ _ _ _ _ _ _ _ (by assumption) (by assumption) (by assumption)]
      split
      · rw [stallEntry_frame, foldl_attn_outside]
        · simp [h_regs, h_seq, h_ns, h_gddr, h_belt, h_serving]
        · intro s a; exact h_core _ _ _ _
        all_goals assumption
      · rw [foldl_attn_outside]
        · simp [h_regs, h_seq, h_ns, h_gddr, h_belt, h_serving]
        · intro s a; exact h_core _ _ _ _

@[simp] theorem actRowOf_frame (ps : Parts) (s : State) (cl p i e row : Nat) (h_free : ps.free = true) (h_regs : ps.regs = true) (h_ns : ps.ns = true) (h_belt : ps.belt = true) : (actRowOf s cl p i e row).1.outside ps = s.outside ps := by
  unfold actRowOf
  dsimp only
  have hw : ∀ s c a b, (nsWriteRun s c a b).outside ps = s.outside ps := fun s c a b => nsWriteRun_frame _ _ _ _ _ h_regs h_ns h_belt
  have hp : ∀ s a b, (post s a b).outside ps = s.outside ps := fun s a b => post_frame _ _ _ _ h_regs h_belt
  have hi : ∀ s a b, (incReg s a b).outside ps = s.outside ps := fun s a b => incReg_frame _ _ _ _ h_regs
  have hf : ∀ s, (fresh s).1.outside ps = s.outside ps := fun s => fresh_frame _ _ h_free
  simp only [ite_fst, outside_ite, hw, hp]
  (repeat' split) <;> simp only [hp, hi, hf, hw, outside_ite, ite_self, h_free, h_regs, h_ns, h_belt]

@[simp] theorem doRow_frame (ps : Parts) (s : State) (cl p i e row : Nat) (h_free : ps.free = true) (h_regs : ps.regs = true) (h_ns : ps.ns = true) (h_belt : ps.belt = true) : (doRow s cl p i e row).1.outside ps = s.outside ps := by
  unfold doRow
  split <;> simp [h_free, h_regs, h_ns, h_belt]

@[simp] theorem putRows_frame (ps : Parts) (s : State) (c : Ctx) (cl core byte : Nat) (bs : List Byte) (h_regs : ps.regs = true) (h_ns : ps.ns = true) (h_belt : ps.belt = true) : (putRows s c cl core byte bs).outside ps = s.outside ps := by
  simp [putRows, h_regs, h_ns, h_belt]

@[simp] theorem postNoRoute_frame (ps : Parts) (s : State) (c : Ctx) (tag pkg : Nat) (h_regs : ps.regs = true) (h_belt : ps.belt = true) : (postNoRoute s c tag pkg).outside ps = s.outside ps := by
  simp [postNoRoute, h_regs, h_belt]

@[simp] theorem sendTo_frame (ps : Parts) (s : State) (cl e owner : Nat) (c : Ctx) (pkg ep turn : Nat) (blocks : List XBlock) (h_regs : ps.regs = true) (h_seq : ps.seq = true) (h_ns : ps.ns = true) (h_belt : ps.belt = true) (h_tenant : ps.tenant = true) (h_net : ps.net = true) : (sendTo s cl e owner c pkg ep turn blocks).outside ps = s.outside ps := by
  simp [sendTo, h_regs, h_seq, h_ns, h_belt, h_tenant, h_net]

@[simp] theorem sendMirror_frame (ps : Parts) (s : State) (cl e owner : Nat) (c : Ctx) (r : RouteEntry) (data : List Byte) (h_regs : ps.regs = true) (h_seq : ps.seq = true) (h_belt : ps.belt = true) (h_tenant : ps.tenant = true) (h_net : ps.net = true) : (sendMirror s cl e owner c r data).outside ps = s.outside ps := by
  simp [sendMirror, h_regs, h_seq, h_belt, h_tenant, h_net]

@[simp] theorem withXchg_frame (ps : Parts) (s : State) (cl p : Nat) (mine : Nat → Bool) (k : State → Nat → Nat → State × Work) (h_regs : ps.regs = true) (h_seq : ps.seq = true) (h_belt : ps.belt = true) (h_k : ∀ (x0 : State) (x1 : Nat) (x2 : Nat), (k x0 x1 x2).1.outside ps = x0.outside ps) : (withXchg s cl p mine k).outside ps = s.outside ps := by
  unfold withXchg
  refine withEntry_frame _ _ _ _ _ _ h_regs h_seq h_belt ?_
  intro i e
  split
  · simp [h_regs, h_seq, h_belt]
  · split
    · simp [h_regs, h_seq, h_belt]
    · split
      · simp [h_regs, h_seq, h_belt]
      · dsimp only
        rw [setWork_frame _ _ _ _ h_seq, h_k]; simp [h_regs, h_seq, h_belt]

@[simp] theorem xNote_frame (ps : Parts) (s : State) (cl p i e : Nat) (h_regs : ps.regs = true) (h_belt : ps.belt = true) : (xNote s cl p i e).outside ps = s.outside ps := by
  simp [xNote, h_regs, h_belt]

@[simp] theorem sendGroups_frame (ps : Parts) (s : State) (cl e owner : Nat) (c : Ctx) (bs : List XBlock) (h_regs : ps.regs = true) (h_seq : ps.seq = true) (h_ns : ps.ns = true) (h_belt : ps.belt = true) (h_tenant : ps.tenant = true) (h_net : ps.net = true) : (sendGroups s cl e owner c bs).outside ps = s.outside ps := by
  simp [sendGroups, h_regs, h_seq, h_ns, h_belt, h_tenant, h_net]

@[simp] theorem skipBad_frame (ps : Parts) (s : State) (c : Ctx) (at' : Nat) (rs : List RouteEntry) (ok : RouteEntry → Bool) (h_regs : ps.regs = true) (h_belt : ps.belt = true) : (skipBad s c at' rs ok).outside ps = s.outside ps := by
  simp [skipBad, h_regs, h_belt]

@[simp] theorem fixedRows_frame (ps : Parts) (s : State) (cl p i e owner : Nat) (h_regs : ps.regs = true) (h_seq : ps.seq = true) (h_ns : ps.ns = true) (h_belt : ps.belt = true) (h_tenant : ps.tenant = true) (h_net : ps.net = true) : (fixedRows s cl p i e owner).outside ps = s.outside ps := by
  simp [fixedRows, h_regs, h_seq, h_ns, h_belt, h_tenant, h_net]

@[simp] theorem dispatchRows_frame (ps : Parts) (s : State) (cl p i e owner : Nat) (h_regs : ps.regs = true) (h_seq : ps.seq = true) (h_ns : ps.ns = true) (h_belt : ps.belt = true) (h_tenant : ps.tenant = true) (h_net : ps.net = true) : (dispatchRows s cl p i e owner).outside ps = s.outside ps := by
  simp [dispatchRows, h_regs, h_seq, h_ns, h_belt, h_tenant, h_net]

@[simp] theorem returnBlocks_frame (ps : Parts) (s : State) (cl p i e owner : Nat) (h_regs : ps.regs = true) (h_seq : ps.seq = true) (h_ns : ps.ns = true) (h_belt : ps.belt = true) (h_tenant : ps.tenant = true) (h_net : ps.net = true) : (returnBlocks s cl p i e owner).outside ps = s.outside ps := by
  simp [returnBlocks, h_regs, h_seq, h_ns, h_belt, h_tenant, h_net]

@[simp] theorem dropParting_frame (ps : Parts) (s : State) (f : Frame) (h_regs : ps.regs = true) : (dropParting s f).outside ps = s.outside ps := by
  unfold dropParting; (repeat' split) <;> simp [h_regs]

@[simp] theorem admitFrame_frame (ps : Parts) (s : State) (l : Nat) (f : Frame) (near : Bool) (k : State → State) (h_regs : ps.regs = true) (h_net : ps.net = true) (h_power : ps.power = true) (h_wake : ps.wake = true) (h_sideband : ps.sideband = true) (h_k : ∀ (x0 : State), (k x0).outside ps = x0.outside ps) : (admitFrame s l f near k).outside ps = s.outside ps := by
  simp [admitFrame, h_regs, h_net, h_power, h_wake, h_sideband, h_k]

@[simp] theorem receiveFrame_frame (ps : Parts) (s : State) (l : Nat) (f : Frame) (a : Arrival) (type : Nat) (near : Bool) (k : State → State) (h_regs : ps.regs = true) (h_belt : ps.belt = true) (h_tenant : ps.tenant = true) (h_net : ps.net = true) (h_power : ps.power = true) (h_wake : ps.wake = true) (h_sideband : ps.sideband = true) (h_k : ∀ (x0 : State), (k x0).outside ps = x0.outside ps) : (receiveFrame s l f a type near k).outside ps = s.outside ps := by
  simp [receiveFrame, h_regs, h_belt, h_tenant, h_net, h_power, h_wake, h_sideband, h_k]

@[simp] theorem countXchg_frame (ps : Parts) (s : State) (f : Frame) (cl core : Nat) (h_regs : ps.regs = true) (h_seq : ps.seq = true) (h_belt : ps.belt = true) (h_net : ps.net = true) : (countXchg s f cl core).outside ps = s.outside ps := by
  simp [countXchg, h_regs, h_seq, h_belt, h_net]

@[simp] theorem finishMirror_frame (ps : Parts) (s : State) (m : MirrorCount) (h_regs : ps.regs = true) (h_gddr : ps.gddr = true) (h_belt : ps.belt = true) (h_tenant : ps.tenant = true) (h_net : ps.net = true) : (finishMirror s m).outside ps = s.outside ps := by
  unfold finishMirror; (repeat' split) <;> simp [h_regs, h_gddr, h_belt, h_tenant, h_net]

@[simp] theorem finishMirrors_frame (ps : Parts) (s : State) (h_regs : ps.regs = true) (h_gddr : ps.gddr = true) (h_belt : ps.belt = true) (h_tenant : ps.tenant = true) (h_net : ps.net = true) : (finishMirrors s).outside ps = s.outside ps := by
  simp [finishMirrors, h_regs, h_gddr, h_belt, h_tenant, h_net]

@[simp] theorem mirrorRows_frame (ps : Parts) (s : State) (a off : Nat) (bs : List Byte) (h_regs : ps.regs = true) (h_gddr : ps.gddr = true) (h_belt : ps.belt = true) : (mirrorRows s a off bs).outside ps = s.outside ps := by
  simp [mirrorRows, h_regs, h_gddr, h_belt]

@[simp] theorem takeMirror_frame (ps : Parts) (s : State) (l : Nat) (f : Frame) (h_regs : ps.regs = true) (h_gddr : ps.gddr = true) (h_belt : ps.belt = true) (h_tenant : ps.tenant = true) (h_net : ps.net = true) : (takeMirror s l f).outside ps = s.outside ps := by
  simp [takeMirror, h_regs, h_gddr, h_belt, h_tenant, h_net]

@[simp] theorem noteAck_frame (ps : Parts) (s : State) (f : Frame) (ep : Nat) (h_net : ps.net = true) : (noteAck s f ep).outside ps = s.outside ps := by
  simp [noteAck, h_net]

@[simp] theorem takeXchg_frame (ps : Parts) (s : State) (l : Nat) (f : Frame) (tagOk : Bool) (h_regs : ps.regs = true) (h_seq : ps.seq = true) (h_ns : ps.ns = true) (h_gddr : ps.gddr = true) (h_belt : ps.belt = true) (h_tenant : ps.tenant = true) (h_net : ps.net = true) : (takeXchg s l f tagOk).outside ps = s.outside ps := by
  simp [takeXchg, h_regs, h_seq, h_ns, h_gddr, h_belt, h_tenant, h_net]

@[simp] theorem setChState_frame (ps : Parts) (s : State) (w k v : Nat) (h_regs : ps.regs = true) : (setChState s w k v).outside ps = s.outside ps := by
  simp [setChState, h_regs]

@[simp] theorem upset_frame (ps : Parts) (s : State) (u : Upset) (h_regs : ps.regs = true) (h_ns : ps.ns = true) (h_gddr : ps.gddr = true) (h_table : ps.table = true) : (upset s u).outside ps = s.outside ps := by
  unfold upset; (repeat' split) <;> simp [h_regs, h_ns, h_gddr, h_table]

@[simp] theorem noteDevEcc_frame (ps : Parts) (s : State) (x : Nat × Nat) (h_regs : ps.regs = true) : (noteDevEcc s x).outside ps = s.outside ps := by
  simp [noteDevEcc, h_regs]

@[simp] theorem zeroRange_frame (ps : Parts) (s : State) (w base size : Nat) (h_gddr : ps.gddr = true) : (zeroRange s w base size).outside ps = s.outside ps := by
  simp [zeroRange, h_gddr]

@[simp] theorem setSandHead_frame (ps : Parts) (s : State) (w : Nat) (r : Option SandRange) (h_sand : ps.sand = true) : (setSandHead s w r).outside ps = s.outside ps := by
  simp [setSandHead, h_sand]

@[simp] theorem sandUnits_frame (ps : Parts) (s : State) (w units : Nat) (r : SandRange) (h_regs : ps.regs = true) (h_gddr : ps.gddr = true) (h_sand : ps.sand = true) (h_belt : ps.belt = true) : (sandUnits s w units r).outside ps = s.outside ps := by
  simp [sandUnits, h_regs, h_gddr, h_sand, h_belt]

@[simp] theorem copyEpoch_frame (ps : Parts) (s : State) (d k e : Nat) (h_regs : ps.regs = true) : (copyEpoch s d k e).outside ps = s.outside ps := by
  simp [copyEpoch, h_regs]

@[simp] theorem startSweep_frame (ps : Parts) (s : State) (k : Nat) (h_regs : ps.regs = true) (h_tenant : ps.tenant = true) : (startSweep s k).outside ps = s.outside ps := by
  unfold startSweep
  dsimp only
  rw [outside_mk]
  · rw [foldl_outside]
    · simp [h_regs, h_tenant]
    · intro s a; simp [h_regs, h_tenant]
  all_goals simp [h_regs, h_tenant]

@[simp] theorem advanceEpoch_frame (ps : Parts) (s : State) (k : Nat) (h_regs : ps.regs = true) (h_tenant : ps.tenant = true) : (advanceEpoch s k).outside ps = s.outside ps := by
  simp [advanceEpoch, h_regs, h_tenant]

@[simp] theorem sweepTags_frame (ps : Parts) (s : State) (d k : Nat) (h_ns : ps.ns = true) : (sweepTags s d k).outside ps = s.outside ps := by
  simp [sweepTags, h_ns]

@[simp] theorem setPwrBit_frame (ps : Parts) (s : State) (b : Nat) (v : Bool) (h_regs : ps.regs = true) : (setPwrBit s b v).outside ps = s.outside ps := by
  simp [setPwrBit, h_regs]

@[simp] theorem postPwr_frame (ps : Parts) (s : State) (cause op1 tag : Nat) (h_regs : ps.regs = true) (h_belt : ps.belt = true) : (postPwr s cause op1 tag).outside ps = s.outside ps := by
  simp [postPwr, h_regs, h_belt]

@[simp] theorem countSilent_frame (ps : Parts) (s : State) (i : Nat) (r : Option Nat) (h_power : ps.power = true) : (countSilent s i r).outside ps = s.outside ps := by
  unfold countSilent; (repeat' split) <;> simp [h_power]

@[simp] theorem showLost_frame (ps : Parts) (s : State) (h_regs : ps.regs = true) : (showLost s).outside ps = s.outside ps := by
  simp [showLost, h_regs]

@[simp] theorem noteLostRail_frame (ps : Parts) (s : State) (i : Nat) (h_regs : ps.regs = true) (h_belt : ps.belt = true) (h_power : ps.power = true) : (noteLostRail s i).outside ps = s.outside ps := by
  simp [noteLostRail, h_regs, h_belt, h_power]

@[simp] theorem railPower_frame (ps : Parts) (s : State) (i est : Nat) (r : Option Nat) (h_free : ps.free = true) : (railPower s i est r).1.outside ps = s.outside ps := by
  unfold railPower; (repeat' split) <;> simp [h_free]

@[simp] theorem measure_frame (ps : Parts) (s : State) (r : LoopReadings) (h_free : ps.free = true) (h_regs : ps.regs = true) (h_belt : ps.belt = true) (h_power : ps.power = true) : (measure s r).1.outside ps = s.outside ps := by
  simp [measure, h_free, h_regs, h_belt, h_power]

@[simp] theorem addEnergy_frame (ps : Parts) (s : State) (p : Nat) (h_regs : ps.regs = true) : (addEnergy s p).outside ps = s.outside ps := by
  simp [addEnergy, h_regs]

@[simp] theorem notePower_frame (ps : Parts) (s : State) (p est : Nat) (h_regs : ps.regs = true) (h_power : ps.power = true) : (notePower s p est).outside ps = s.outside ps := by
  simp [notePower, h_regs, h_power]

@[simp] theorem noteDisagree_frame (ps : Parts) (s : State) (p est : Nat) (h_regs : ps.regs = true) (h_power : ps.power = true) : (noteDisagree s p est).outside ps = s.outside ps := by
  simp [noteDisagree, h_regs, h_power]

@[simp] theorem checkDisagree_frame (ps : Parts) (s : State) (h_regs : ps.regs = true) (h_belt : ps.belt = true) : (checkDisagree s).outside ps = s.outside ps := by
  simp [checkDisagree, h_regs, h_belt]

@[simp] theorem withhold_frame (ps : Parts) (s : State) (d k : Nat) (h_regs : ps.regs = true) (h_belt : ps.belt = true) (h_power : ps.power = true) : (withhold s d k).outside ps = s.outside ps := by
  simp [withhold, h_regs, h_belt, h_power]

@[simp] theorem setOffset_frame (ps : Parts) (s : State) (d k v : Nat) (h_power : ps.power = true) : (setOffset s d k v).outside ps = s.outside ps := by
  simp [setOffset, h_power]

@[simp] theorem raiseOffset_frame (ps : Parts) (s : State) (d k v : Nat) (h_regs : ps.regs = true) (h_belt : ps.belt = true) (h_power : ps.power = true) : (raiseOffset s d k v).outside ps = s.outside ps := by
  simp [raiseOffset, h_regs, h_belt, h_power]

@[simp] theorem showOffsets_frame (ps : Parts) (s : State) (h_regs : ps.regs = true) : (showOffsets s).outside ps = s.outside ps := by
  simp [showOffsets, h_regs]

@[simp] theorem marginAlarm_frame (ps : Parts) (s : State) (d : Nat) (h_regs : ps.regs = true) (h_belt : ps.belt = true) (h_power : ps.power = true) : (marginAlarm s d).outside ps = s.outside ps := by
  simp [marginAlarm, h_regs, h_belt, h_power]

@[simp] theorem noteMargins_frame (ps : Parts) (s : State) (r : LoopReadings) (h_regs : ps.regs = true) (h_belt : ps.belt = true) (h_power : ps.power = true) : (noteMargins s r).outside ps = s.outside ps := by
  simp [noteMargins, h_regs, h_belt, h_power]

@[simp] theorem writeRecord_frame (ps : Parts) (s : State) (os : List (Nat × Nat)) (h_power : ps.power = true) : (writeRecord s os).outside ps = s.outside ps := by
  simp [writeRecord, h_power]

@[simp] theorem makeReplan_frame (ps : Parts) (s : State) (turn : Nat) (h_power : ps.power = true) : (makeReplan s turn).outside ps = s.outside ps := by
  simp [makeReplan, h_power]

@[simp] theorem applyReplan_frame (ps : Parts) (s : State) (t : Nat) (h_regs : ps.regs = true) (h_belt : ps.belt = true) (h_power : ps.power = true) : (applyReplan s t).outside ps = s.outside ps := by
  unfold applyReplan; (repeat' split) <;> simp [h_regs, h_belt, h_power]

@[simp] theorem noteHours_frame (ps : Parts) (s : State) (h_regs : ps.regs = true) (h_power : ps.power = true) : (noteHours s).outside ps = s.outside ps := by
  simp [noteHours, h_regs, h_power]

@[simp] theorem noteTemps_frame (ps : Parts) (s : State) (r : LoopReadings) (h_regs : ps.regs = true) : (noteTemps s r).outside ps = s.outside ps := by
  unfold noteTemps
  dsimp only
  rw [foldl_outside, foldl_outside, setReg_frame _ _ _ _ h_regs]
  · intro s a; exact setReg_frame _ _ _ _ h_regs
  · intro s a; exact setReg_frame _ _ _ _ h_regs

@[simp] theorem showPace_frame (ps : Parts) (s : State) (h_regs : ps.regs = true) : (showPace s).outside ps = s.outside ps := by
  simp [showPace, h_regs]

@[simp] theorem throttle_frame (ps : Parts) (s : State) (tj mem : Nat) (h_regs : ps.regs = true) (h_power : ps.power = true) (h_sideband : ps.sideband = true) : (throttle s tj mem).outside ps = s.outside ps := by
  simp [throttle, h_regs, h_power, h_sideband]

@[simp] theorem capRules_frame (ps : Parts) (s : State) (r : LoopReadings) (p' : Nat) (h_power : ps.power = true) : (capRules s r p').outside ps = s.outside ps := by
  simp [capRules, h_power]

@[simp] theorem capUnmet_frame (ps : Parts) (s : State) (h_regs : ps.regs = true) (h_belt : ps.belt = true) (h_power : ps.power = true) (h_sideband : ps.sideband = true) : (capUnmet s).outside ps = s.outside ps := by
  simp [capUnmet, h_regs, h_belt, h_power, h_sideband]

@[simp] theorem noteSense_frame (ps : Parts) (s : State) (p : Nat) (x : Int × Bool) (h_regs : ps.regs = true) (h_belt : ps.belt = true) (h_power : ps.power = true) : (noteSense s p x).outside ps = s.outside ps := by
  simp [noteSense, h_regs, h_belt, h_power]

@[simp] theorem noteDiode_frame (ps : Parts) (s : State) (mv : Nat) (h_regs : ps.regs = true) (h_belt : ps.belt = true) (h_power : ps.power = true) : (noteDiode s mv).outside ps = s.outside ps := by
  simp [noteDiode, h_regs, h_belt, h_power]

@[simp] theorem findRail_frame (ps : Parts) (s : State) (p : Nat) (h_power : ps.power = true) : (findRail s p).outside ps = s.outside ps := by
  simp [findRail, h_power]

@[simp] theorem findRails_frame (ps : Parts) (s : State) (r : LoopReadings) (h_power : ps.power = true) : (findRails s r).outside ps = s.outside ps := by
  simp [findRails, h_power]

@[simp] theorem askTime_frame (ps : Parts) (s : State) (h_regs : ps.regs = true) (h_time : ps.time = true) (h_belt : ps.belt = true) (h_port : ps.port = true) : (askTime s).outside ps = s.outside ps := by
  simp [askTime, h_regs, h_time, h_belt, h_port]

@[simp] theorem showLive_frame (ps : Parts) (s : State) (h_regs : ps.regs = true) : (showLive s).outside ps = s.outside ps := by
  simp [showLive, h_regs]

@[simp] theorem endInterval_frame (ps : Parts) (s : State) (h_power : ps.power = true) : (endInterval s).outside ps = s.outside ps := by
  simp [endInterval, h_power]

@[simp] theorem loseMemories_frame (ps : Parts) (s : State) (h_regs : ps.regs = true) (h_ns : ps.ns = true) (h_gddr : ps.gddr = true) (h_catching : ps.catching = true) : (loseMemories s).outside ps = s.outside ps := by
  simp [loseMemories, h_regs, h_ns, h_gddr, h_catching]

@[simp] theorem setTarget_frame (ps : Parts) (s : State) (n : Nat) (t : Option Target) (h_storage : ps.storage = true) : (setTarget s n t).outside ps = s.outside ps := by
  simp [setTarget, h_storage]

@[simp] theorem postStorage_frame (ps : Parts) (s : State) (slot : Option Nat) (a at' : Nat) (r : Nat × Option Nat) (h_regs : ps.regs = true) (h_belt : ps.belt = true) : (postStorage s slot a at' r).outside ps = s.outside ps := by
  simp [postStorage, h_regs, h_belt]

@[simp] theorem setLoad_frame (ps : Parts) (s : State) (l : Load) (h_storage : ps.storage = true) : (setLoad s l).outside ps = s.outside ps := by
  simp [setLoad, h_storage]

@[simp] theorem issueExtents_frame (ps : Parts) (s : State) (id : Nat) (y0 : Nat) (h_storage : ps.storage = true) : (issueExtents s id y0).outside ps = s.outside ps := by
  induction y0 generalizing s with
  | zero => rfl
  | succ n ih => unfold issueExtents; dsimp only; (repeat' split) <;> simp [ih, h_storage]

@[simp] theorem issueLoad_frame (ps : Parts) (s : State) (id : Nat) (h_storage : ps.storage = true) : (issueLoad s id).outside ps = s.outside ps := by
  simp [issueLoad, h_storage]

@[simp] theorem endLoad_frame (ps : Parts) (s : State) (l : Load) (h_regs : ps.regs = true) (h_belt : ps.belt = true) (h_storage : ps.storage = true) : (endLoad s l).outside ps = s.outside ps := by
  simp [endLoad, h_regs, h_belt, h_storage]

@[simp] theorem startDescs_frame (ps : Parts) (s : State) (id : Nat) (y0 : Nat) (h_regs : ps.regs = true) (h_gddr : ps.gddr = true) (h_belt : ps.belt = true) (h_storage : ps.storage = true) : (startDescs s id y0).outside ps = s.outside ps := by
  induction y0 generalizing s with
  | zero => unfold startDescs; split <;> simp [h_regs, h_gddr, h_belt, h_storage]
  | succ n ih => unfold startDescs; dsimp only; (repeat' split) <;> simp [ih, h_regs, h_gddr, h_belt, h_storage]

@[simp] theorem settleLoad_frame (ps : Parts) (s : State) (id : Nat) (h_regs : ps.regs = true) (h_gddr : ps.gddr = true) (h_belt : ps.belt = true) (h_storage : ps.storage = true) : (settleLoad s id).outside ps = s.outside ps := by
  unfold settleLoad; (repeat' split) <;> simp [h_regs, h_gddr, h_belt, h_storage]

@[simp] theorem putExtent_frame (ps : Parts) (s : State) (slot : Option Nat) (a : Nat) (bs : List Byte) (h_regs : ps.regs = true) (h_gddr : ps.gddr = true) (h_belt : ps.belt = true) : (putExtent s slot a bs).1.outside ps = s.outside ps := by
  simp [putExtent, h_regs, h_gddr, h_belt]

@[simp] theorem withFar_frame (ps : Parts) (s : State) (tag op target a raddr exts : Nat) (write : Bool) (k : State → Option Nat → State) (h_regs : ps.regs = true) (h_belt : ps.belt = true) (h_port : ps.port = true) (h_k : ∀ (x0 : State) (x1 : Option Nat), (k x0 x1).outside ps = x0.outside ps) : (withFar s tag op target a raddr exts write k).outside ps = s.outside ps := by
  unfold withFar; (repeat' split) <;> simp [h_regs, h_belt, h_port, h_k]

@[simp] theorem addFar_frame (ps : Parts) (s : State) (put : Bool) (target a raddr rkey exts : Nat) (slot : Option Nat) (serial : Nat) (h_storage : ps.storage = true) : (addFar s put target a raddr rkey exts slot serial).outside ps = s.outside ps := by
  simp [addFar, h_storage]

@[simp] theorem postSlot_frame (ps : Parts) (s : State) (slot : Option Nat) (cause op1 count : Nat) (h_regs : ps.regs = true) (h_belt : ps.belt = true) : (postSlot s slot cause op1 count).outside ps = s.outside ps := by
  simp [postSlot, h_regs, h_belt]

@[simp] theorem farExtent_frame (ps : Parts) (s : State) (x : FarXfer) (i : Nat) (e : ExtentEnd) (h_regs : ps.regs = true) (h_gddr : ps.gddr = true) (h_belt : ps.belt = true) : (farExtent s x i e).1.outside ps = s.outside ps := by
  unfold farExtent; (repeat' split) <;> simp [h_regs, h_gddr, h_belt]

@[simp] theorem withHost_frame (ps : Parts) (s : State) (tag op a n slot : Nat) (store : Bool) (k : State → Option Nat → State) (h_regs : ps.regs = true) (h_belt : ps.belt = true) (h_port : ps.port = true) (h_k : ∀ (x0 : State) (x1 : Option Nat), (k x0 x1).outside ps = x0.outside ps) : (withHost s tag op a n slot store k).outside ps = s.outside ps := by
  unfold withHost; dsimp only; (repeat' split) <;> simp [h_regs, h_belt, h_port, h_k]

@[simp] theorem addHost_frame (ps : Parts) (s : State) (x : HostXfer) (h_storage : ps.storage = true) : (addHost s x).outside ps = s.outside ps := by
  simp [addHost, h_storage]

@[simp] theorem fetchBytes_frame (ps : Parts) (s : State) (x : HostXfer) (h_regs : ps.regs = true) (h_gddr : ps.gddr = true) (h_belt : ps.belt = true) (h_port : ps.port = true) : (fetchBytes s x).outside ps = s.outside ps := by
  simp [fetchBytes, h_regs, h_gddr, h_belt, h_port]

@[simp] theorem startFetch_frame (ps : Parts) (s : State) (x : HostXfer) (h_regs : ps.regs = true) (h_gddr : ps.gddr = true) (h_belt : ps.belt = true) (h_storage : ps.storage = true) (h_port : ps.port = true) : (startFetch s x).outside ps = s.outside ps := by
  simp [startFetch, h_regs, h_gddr, h_belt, h_storage, h_port]

@[simp] theorem endHost_frame (ps : Parts) (s : State) (n : Nat) (store : Bool) (cause : Nat) (h_regs : ps.regs = true) (h_belt : ps.belt = true) (h_storage : ps.storage = true) : (endHost s n store cause).outside ps = s.outside ps := by
  unfold endHost; (repeat' split) <;> simp [h_regs, h_belt, h_storage]

@[simp] theorem joinBucket_frame (ps : Parts) (s : State) (tag : Nat) (l : List Byte) (h_net : ps.net = true) : (joinBucket s tag l).outside ps = s.outside ps := by
  unfold joinBucket; (repeat' split) <;> simp [h_net]

@[simp] theorem leaveBucket_frame (ps : Parts) (s : State) (tag own : Nat) (h_net : ps.net = true) : (leaveBucket s tag own).outside ps = s.outside ps := by
  simp [leaveBucket, h_net]

@[simp] theorem writeShard_frame (ps : Parts) (s : State) (f : Flight) (r : RedWork) (vs : List Num) (h_regs : ps.regs = true) (h_seq : ps.seq = true) (h_ns : ps.ns = true) (h_belt : ps.belt = true) : (writeShard s f r vs).outside ps = s.outside ps := by
  simp [writeShard, h_regs, h_seq, h_ns, h_belt]

@[simp] theorem writeNaNShard_frame (ps : Parts) (s : State) (f : Flight) (r : RedWork) (h_regs : ps.regs = true) (h_seq : ps.seq = true) (h_ns : ps.ns = true) (h_belt : ps.belt = true) : (writeNaNShard s f r).outside ps = s.outside ps := by
  simp [writeNaNShard, h_regs, h_seq, h_ns, h_belt]

@[simp] theorem orderedShard_frame (ps : Parts) (s : State) (f : Flight) (r : RedWork) (h_regs : ps.regs = true) (h_seq : ps.seq = true) (h_ns : ps.ns = true) (h_belt : ps.belt = true) : (orderedShard s f r).outside ps = s.outside ps := by
  simp [orderedShard, h_regs, h_seq, h_ns, h_belt]

@[simp] theorem takeTurn_frame (ps : Parts) (s : State) (id d : Nat) (h_seq : ps.seq = true) : (takeTurn s id d).outside ps = s.outside ps := by
  unfold takeTurn; (repeat' split) <;> simp [h_seq]

@[simp] theorem sendRed_frame (ps : Parts) (s : State) (f : Flight) (fr : Frame) (h_regs : ps.regs = true) (h_seq : ps.seq = true) (h_tenant : ps.tenant = true) (h_net : ps.net = true) : (sendRed s f fr).1.outside ps = s.outside ps := by
  simp [sendRed, h_regs, h_seq, h_tenant, h_net]

@[simp] theorem sendAll_frame (ps : Parts) (s : State) (f : Flight) (frs : List Frame) (h_regs : ps.regs = true) (h_seq : ps.seq = true) (h_tenant : ps.tenant = true) (h_net : ps.net = true) : (sendAll s f frs).1.outside ps = s.outside ps := by
  simp [sendAll, h_regs, h_seq, h_tenant, h_net]

@[simp] theorem postRed_frame (ps : Parts) (s : State) (f : Flight) (cause tag pkg : Nat) (h_regs : ps.regs = true) (h_belt : ps.belt = true) : (postRed s f cause tag pkg).outside ps = s.outside ps := by
  simp [postRed, h_regs, h_belt]

@[simp] theorem noteHop_frame (ps : Parts) (s : State) (f : Flight) (c : Counts) (h_regs : ps.regs = true) : (noteHop s f c).outside ps = s.outside ps := by
  simp [noteHop, h_regs]

@[simp] theorem fsyncAt_frame (ps : Parts) (s : State) (f : Flight) (r : RedWork) (h : RedHead) (h_regs : ps.regs = true) (h_seq : ps.seq = true) (h_tenant : ps.tenant = true) (h_net : ps.net = true) : (fsyncAt s f r h).1.outside ps = s.outside ps := by
  simp [fsyncAt, h_regs, h_seq, h_tenant, h_net]

@[simp] theorem orderedAt_frame (ps : Parts) (s : State) (f : Flight) (r : RedWork) (fr : Frame) (h : RedHead) (n : Nat) (h_regs : ps.regs = true) (h_seq : ps.seq = true) (h_ns : ps.ns = true) (h_belt : ps.belt = true) : (orderedAt s f r fr h n).outside ps = s.outside ps := by
  unfold orderedAt; dsimp only; (repeat' split) <;> simp [h_regs, h_seq, h_ns, h_belt]

@[simp] theorem ringAt_frame (ps : Parts) (s : State) (f : Flight) (r : RedWork) (fr : Frame) (h : RedHead) (o n : Nat) (h_regs : ps.regs = true) (h_seq : ps.seq = true) (h_ns : ps.ns = true) (h_belt : ps.belt = true) (h_tenant : ps.tenant = true) (h_net : ps.net = true) : (ringAt s f r fr h o n).1.outside ps = s.outside ps := by
  simp [ringAt, h_regs, h_seq, h_ns, h_belt, h_tenant, h_net]

@[simp] theorem mismatchAt_frame (ps : Parts) (s : State) (f : Flight) (r : RedWork) (fr : Frame) (h : RedHead) (o n : Nat) (h_regs : ps.regs = true) (h_seq : ps.seq = true) (h_ns : ps.ns = true) (h_belt : ps.belt = true) (h_tenant : ps.tenant = true) (h_net : ps.net = true) : (mismatchAt s f r fr h o n).1.outside ps = s.outside ps := by
  simp [mismatchAt, h_regs, h_seq, h_ns, h_belt, h_tenant, h_net]

@[simp] theorem redAt_frame (ps : Parts) (s : State) (f : Flight) (r : RedWork) (fr : Frame) (h_regs : ps.regs = true) (h_seq : ps.seq = true) (h_ns : ps.ns = true) (h_belt : ps.belt = true) (h_tenant : ps.tenant = true) (h_net : ps.net = true) : (redAt s f r fr).1.outside ps = s.outside ps := by
  unfold redAt; dsimp only; (repeat' split) <;> simp [h_regs, h_seq, h_ns, h_belt, h_tenant, h_net]

@[simp] theorem holdRx_frame (ps : Parts) (s : State) (l : Nat) (f : Frame) (h_net : ps.net = true) : (holdRx s l f).outside ps = s.outside ps := by
  simp [holdRx, h_net]

@[simp] theorem runHops_frame (ps : Parts) (s : State) (y0 : Nat) (y1 : List Hop) (h_regs : ps.regs = true) (h_seq : ps.seq = true) (h_ns : ps.ns = true) (h_belt : ps.belt = true) (h_tenant : ps.tenant = true) (h_net : ps.net = true) : (runHops s y0 y1).outside ps = s.outside ps := by
  induction y0 generalizing s y1 with
  | zero => rfl
  | succ n ih =>
    cases y1 with
    | nil => rfl
    | cons x xs =>
      unfold runHops; dsimp only
      split
      · rw [ih]; rw [outside_mk] <;> simp [h_regs, h_seq, h_ns, h_belt, h_tenant, h_net]
      · split
        · rw [ih]; simp [h_regs, h_seq, h_ns, h_belt, h_tenant, h_net]
        · rw [ih, redAt_frame _ _ _ _ _ h_regs h_seq h_ns h_belt h_tenant h_net]; split <;> simp [h_regs, h_seq, h_ns, h_belt, h_tenant, h_net]

@[simp] theorem flagFrames_frame (ps : Parts) (s : State) (f : Flight) (r : RedWork) (xs : List StartFrame) (h_regs : ps.regs = true) : (flagFrames s f r xs).1.outside ps = s.outside ps := by
  simp [flagFrames, h_regs]

@[simp] theorem dropHeld_frame (ps : Parts) (s : State) (cl core tag : Nat) (h_net : ps.net = true) : (dropHeld s cl core tag).outside ps = s.outside ps := by
  simp [dropHeld, h_net]

@[simp] theorem checkReach_frame (ps : Parts) (s : State) (f : Flight) (frs : List Frame) (r : RedWork) (h_regs : ps.regs = true) (h_belt : ps.belt = true) : (checkReach s f frs r).outside ps = s.outside ps := by
  simp [checkReach, h_regs, h_belt]

@[simp] theorem startReduce_frame (ps : Parts) (s : State) (cl p i e : Nat) (l : List Byte) (h_regs : ps.regs = true) (h_seq : ps.seq = true) (h_ns : ps.ns = true) (h_belt : ps.belt = true) (h_tenant : ps.tenant = true) (h_net : ps.net = true) : (startReduce s cl p i e l).outside ps = s.outside ps := by
  unfold startReduce; dsimp only; (repeat' split) <;> simp [h_regs, h_seq, h_ns, h_belt, h_tenant, h_net]

@[simp] theorem withReduce_frame (ps : Parts) (s : State) (cl p : Nat) (mine : Nat → Bool) (h_regs : ps.regs = true) (h_seq : ps.seq = true) (h_ns : ps.ns = true) (h_belt : ps.belt = true) (h_tenant : ps.tenant = true) (h_net : ps.net = true) : (withReduce s cl p mine).outside ps = s.outside ps := by
  unfold withReduce
  refine withEntry_frame _ _ _ _ _ _ h_regs h_seq h_belt ?_
  intro i e
  dsimp only
  (repeat' split) <;> simp [h_regs, h_seq, h_ns, h_belt, h_tenant, h_net]

@[simp] theorem endReduce_frame (ps : Parts) (s : State) (f : Flight) (r : RedWork) (h_regs : ps.regs = true) (h_seq : ps.seq = true) (h_ns : ps.ns = true) (h_belt : ps.belt = true) (h_net : ps.net = true) : (endReduce s f r).outside ps = s.outside ps := by
  simp [endReduce, h_regs, h_seq, h_ns, h_belt, h_net]

@[simp] theorem takeReduce_frame (ps : Parts) (s : State) (l : Nat) (f : Frame) (h_regs : ps.regs = true) (h_seq : ps.seq = true) (h_ns : ps.ns = true) (h_belt : ps.belt = true) (h_tenant : ps.tenant = true) (h_net : ps.net = true) : (takeReduce s l f).outside ps = s.outside ps := by
  unfold takeReduce; (repeat' split) <;> simp [h_regs, h_seq, h_ns, h_belt, h_tenant, h_net]

@[simp] theorem stompAdder_frame (ps : Parts) (s : State) (l : Nat) (f : Frame) (a : Arrival) (h_regs : ps.regs = true) (h_net : ps.net = true) : (stompAdder s l f a).outside ps = s.outside ps := by
  unfold stompAdder; (repeat' split) <;> simp [h_regs, h_net]

@[simp] theorem setSource_frame (ps : Parts) (s : State) (id : Nat) (g : GatherWork) (src : GatherSource) (h_seq : ps.seq = true) : (setSource s id g src).outside ps = s.outside ps := by
  simp [setSource, h_seq]

@[simp] theorem noteStale_frame (ps : Parts) (s : State) (id core pkg found : Nat) (h_regs : ps.regs = true) (h_seq : ps.seq = true) (h_belt : ps.belt = true) : (noteStale s id core pkg found).outside ps = s.outside ps := by
  unfold noteStale; (repeat' split) <;> simp [h_regs, h_seq, h_belt]

@[simp] theorem imageCame_frame (ps : Parts) (s : State) (id : Nat) (src : GatherSource) (data : List Byte) (stale : Option Nat) (h_regs : ps.regs = true) (h_seq : ps.seq = true) (h_ns : ps.ns = true) (h_belt : ps.belt = true) : (imageCame s id src data stale).outside ps = s.outside ps := by
  unfold imageCame; (repeat' split) <;> simp [h_regs, h_seq, h_ns, h_belt]

@[simp] theorem imageRefused_frame (ps : Parts) (s : State) (id : Nat) (src : GatherSource) (h_regs : ps.regs = true) (h_seq : ps.seq = true) (h_belt : ps.belt = true) : (imageRefused s id src).outside ps = s.outside ps := by
  unfold imageRefused; (repeat' split) <;> simp [h_regs, h_seq, h_belt]

@[simp] theorem gatherLocal_frame (ps : Parts) (s : State) (id : Nat) (src : GatherSource) (h_regs : ps.regs = true) (h_seq : ps.seq = true) (h_ns : ps.ns = true) (h_gddr : ps.gddr = true) (h_belt : ps.belt = true) : (gatherLocal s id src).outside ps = s.outside ps := by
  unfold gatherLocal; dsimp only; (repeat' split) <;> simp [h_regs, h_seq, h_ns, h_gddr, h_belt]

@[simp] theorem gatherRemote_frame (ps : Parts) (s : State) (id turn : Nat) (src : GatherSource) (h_regs : ps.regs = true) (h_tenant : ps.tenant = true) (h_net : ps.net = true) : (gatherRemote s id turn src).outside ps = s.outside ps := by
  unfold gatherRemote; (repeat' split) <;> simp [h_regs, h_tenant, h_net]

@[simp] theorem sendBack_frame (ps : Parts) (s : State) (f : Frame) (fs : List Frame) (h_regs : ps.regs = true) (h_tenant : ps.tenant = true) (h_net : ps.net = true) : (sendBack s f fs).outside ps = s.outside ps := by
  simp [sendBack, h_regs, h_tenant, h_net]

@[simp] theorem answerGather_frame (ps : Parts) (s : State) (c : Ctx) (f : Frame) (n : Nat) (h_regs : ps.regs = true) (h_gddr : ps.gddr = true) (h_belt : ps.belt = true) (h_tenant : ps.tenant = true) (h_net : ps.net = true) : (answerGather s c f n).outside ps = s.outside ps := by
  unfold answerGather; (repeat' split) <;> simp [h_regs, h_gddr, h_belt, h_tenant, h_net]

@[simp] theorem askImage_frame (ps : Parts) (s : State) (f : Frame) (h_regs : ps.regs = true) (h_gddr : ps.gddr = true) (h_belt : ps.belt = true) (h_tenant : ps.tenant = true) (h_net : ps.net = true) : (askImage s f).outside ps = s.outside ps := by
  simp [askImage, h_regs, h_gddr, h_belt, h_tenant, h_net]

@[simp] theorem takeGatherReq_frame (ps : Parts) (s : State) (l : Nat) (f : Frame) (h_regs : ps.regs = true) (h_gddr : ps.gddr = true) (h_belt : ps.belt = true) (h_tenant : ps.tenant = true) (h_net : ps.net = true) : (takeGatherReq s l f).outside ps = s.outside ps := by
  simp [takeGatherReq, h_regs, h_gddr, h_belt, h_tenant, h_net]

@[simp] theorem takeGatherResp_frame (ps : Parts) (s : State) (l : Nat) (f : Frame) (h_regs : ps.regs = true) (h_seq : ps.seq = true) (h_ns : ps.ns = true) (h_belt : ps.belt = true) (h_net : ps.net = true) : (takeGatherResp s l f).outside ps = s.outside ps := by
  unfold takeGatherResp; dsimp only; (repeat' split) <;> simp [h_regs, h_seq, h_ns, h_belt, h_net]

@[simp] theorem gatherNote_frame (ps : Parts) (s : State) (cl p i e k n : Nat) (h_regs : ps.regs = true) (h_belt : ps.belt = true) : (gatherNote s cl p i e k n).outside ps = s.outside ps := by
  simp [gatherNote, h_regs, h_belt]

@[simp] theorem startGather_frame (ps : Parts) (s : State) (cl p i e : Nat) (h_regs : ps.regs = true) (h_seq : ps.seq = true) (h_ns : ps.ns = true) (h_gddr : ps.gddr = true) (h_belt : ps.belt = true) (h_tenant : ps.tenant = true) (h_net : ps.net = true) : (startGather s cl p i e).outside ps = s.outside ps := by
  unfold startGather
  dsimp only
  rw [foldl_outside]
  · rw [foldl_outside]
    · rw [issueFlight_frame _ _ _ _ _ _ _ _ _ (by assumption) (by assumption) (by assumption), foldl_outside]
      intro s a; simp [h_regs, h_seq, h_ns, h_gddr, h_belt, h_tenant, h_net]
    · intro s a
      rw [foldl_outside]
      intro s a; split <;> simp [h_regs, h_seq, h_ns, h_gddr, h_belt, h_tenant, h_net]
  · intro s a; split <;> simp [h_regs, h_seq, h_ns, h_gddr, h_belt, h_tenant, h_net]

@[simp] theorem withControl_frame (ps : Parts) (s : State) (cl p t : Nat) (k : Nat → Nat → State) (h_regs : ps.regs = true) (h_seq : ps.seq = true) (h_belt : ps.belt = true) (h_k : ∀ (x0 : Nat) (x1 : Nat), (k x0 x1).outside ps = s.outside ps) : (withControl s cl p t k).outside ps = s.outside ps := by
  simp [withControl, h_regs, h_seq, h_belt, h_k]

@[simp] theorem holdProg_frame (ps : Parts) (s : State) (cl p code cause : Nat) (w : Wait) (h_regs : ps.regs = true) (h_seq : ps.seq = true) : (holdProg s cl p code cause w).outside ps = s.outside ps := by
  simp [holdProg, h_regs, h_seq]

@[simp] theorem setBase_frame (ps : Parts) (s : State) (cl p t : Nat) (h_seq : ps.seq = true) : (setBase s cl p t).outside ps = s.outside ps := by
  simp [setBase, h_seq]

@[simp] theorem timeoutProg_frame (ps : Parts) (s : State) (cl p : Nat) (h_regs : ps.regs = true) (h_seq : ps.seq = true) (h_belt : ps.belt = true) : (timeoutProg s cl p).outside ps = s.outside ps := by
  unfold timeoutProg; (repeat' split) <;> simp [h_regs, h_seq, h_belt]

@[simp] theorem writeLossScale_frame (ps : Parts) (s : State) (cl : Nat) (sigma : Int) (h_regs : ps.regs = true) (h_ns : ps.ns = true) (h_belt : ps.belt = true) : (writeLossScale s cl sigma).outside ps = s.outside ps := by
  simp [writeLossScale, h_regs, h_ns, h_belt]

@[simp] theorem updateLossScale_frame (ps : Parts) (s : State) (c : Ctx) (cl : Nat) (h_regs : ps.regs = true) (h_ns : ps.ns = true) (h_belt : ps.belt = true) : (updateLossScale s c cl).outside ps = s.outside ps := by
  simp [updateLossScale, h_regs, h_ns, h_belt]

@[simp] theorem refuseMove_frame (ps : Parts) (s : State) (cl p i : Nat) (r : (Nat × Option Nat) × Nat) (h_regs : ps.regs = true) (h_seq : ps.seq = true) (h_belt : ps.belt = true) : (refuseMove s cl p i r).outside ps = s.outside ps := by
  simp [refuseMove, h_regs, h_seq, h_belt]

@[simp] theorem noteSource_frame (ps : Parts) (s : State) (cl p i e : Nat) (h_regs : ps.regs = true) (h_gddr : ps.gddr = true) (h_belt : ps.belt = true) : (noteSource s cl p i e).outside ps = s.outside ps := by
  simp [noteSource, h_regs, h_gddr, h_belt]

@[simp] theorem withMove_frame (ps : Parts) (s : State) (cl p : Nat) (mine : Nat → Bool) (k : Nat → Nat → State) (h_regs : ps.regs = true) (h_seq : ps.seq = true) (h_belt : ps.belt = true) (h_k : ∀ (x0 : Nat) (x1 : Nat), (k x0 x1).outside ps = s.outside ps) : (withMove s cl p mine k).outside ps = s.outside ps := by
  simp [withMove, h_regs, h_seq, h_belt, h_k]

@[simp] theorem tokenOnly_frame (ps : Parts) (s : State) (cl p i e : Nat) (h_regs : ps.regs = true) (h_seq : ps.seq = true) (h_belt : ps.belt = true) : (tokenOnly s cl p i e).outside ps = s.outside ps := by
  simp [tokenOnly, h_regs, h_seq, h_belt]

@[simp] theorem deliverMove_frame (ps : Parts) (s : State) (f : Flight) (bs : List Byte) (h_regs : ps.regs = true) (h_ns : ps.ns = true) (h_gddr : ps.gddr = true) (h_table : ps.table = true) (h_belt : ps.belt = true) : (deliverMove s f bs).1.outside ps = s.outside ps := by
  unfold deliverMove; dsimp only; (repeat' split) <;> simp [h_regs, h_ns, h_gddr, h_table, h_belt]

@[simp] theorem endPiece_frame (ps : Parts) (s : State) (cl ctr : Nat) (post' ok : Bool) (dst src : Nat) (slot : Option Nat) (h_regs : ps.regs = true) (h_seq : ps.seq = true) (h_belt : ps.belt = true) : (endPiece s cl ctr post' ok dst src slot).outside ps = s.outside ps := by
  simp [endPiece, h_regs, h_seq, h_belt]

@[simp] theorem localPiece_frame (ps : Parts) (s : State) (w : Nat) (d : SwitchDesc) (slot : Option Nat) (bs : List Byte) (h_regs : ps.regs = true) (h_seq : ps.seq = true) (h_ns : ps.ns = true) (h_belt : ps.belt = true) : (localPiece s w d slot bs).outside ps = s.outside ps := by
  simp [localPiece, h_regs, h_seq, h_ns, h_belt]

@[simp] theorem sendPiece_frame (ps : Parts) (s : State) (w : Nat) (d : SwitchDesc) (slot : Option Nat) (bs : List Byte) (h_regs : ps.regs = true) (h_seq : ps.seq = true) (h_ns : ps.ns = true) (h_belt : ps.belt = true) (h_tenant : ps.tenant = true) (h_net : ps.net = true) : (sendPiece s w d slot bs).outside ps = s.outside ps := by
  simp [sendPiece, h_regs, h_seq, h_ns, h_belt, h_tenant, h_net]

@[simp] theorem takePiece_frame (ps : Parts) (s : State) (l : Nat) (f : Frame) (h_regs : ps.regs = true) (h_seq : ps.seq = true) (h_ns : ps.ns = true) (h_belt : ps.belt = true) (h_net : ps.net = true) : (takePiece s l f).outside ps = s.outside ps := by
  simp [takePiece, h_regs, h_seq, h_ns, h_belt, h_net]

@[simp] theorem endPlan_frame (ps : Parts) (s : State) (w st : Nat) (h_regs : ps.regs = true) : (endPlan s w st).outside ps = s.outside ps := by
  simp [endPlan, h_regs]

@[simp] theorem refuseSwitch_frame (ps : Parts) (s : State) (w i : Nat) (d : SwitchDesc) (r : SwitchRefusal) (h_regs : ps.regs = true) (h_seq : ps.seq = true) (h_ns : ps.ns = true) (h_belt : ps.belt = true) (h_tenant : ps.tenant = true) (h_net : ps.net = true) : (refuseSwitch s w i d r).outside ps = s.outside ps := by
  unfold refuseSwitch; (repeat' split) <;> simp [h_regs, h_seq, h_ns, h_belt, h_tenant, h_net]

@[simp] theorem runSwitch_frame (ps : Parts) (s : State) (w : Nat) (d : SwitchDesc) (h_regs : ps.regs = true) (h_seq : ps.seq = true) (h_ns : ps.ns = true) (h_gddr : ps.gddr = true) (h_belt : ps.belt = true) (h_tenant : ps.tenant = true) (h_net : ps.net = true) : (runSwitch s w d).outside ps = s.outside ps := by
  simp [runSwitch, h_regs, h_seq, h_ns, h_gddr, h_belt, h_tenant, h_net]

@[simp] theorem takeSwitch_frame (ps : Parts) (s : State) (w i : Nat) (h_regs : ps.regs = true) (h_seq : ps.seq = true) (h_ns : ps.ns = true) (h_gddr : ps.gddr = true) (h_belt : ps.belt = true) (h_tenant : ps.tenant = true) (h_net : ps.net = true) : (takeSwitch s w i).outside ps = s.outside ps := by
  unfold takeSwitch; dsimp only; (repeat' split) <;> simp [h_regs, h_seq, h_ns, h_gddr, h_belt, h_tenant, h_net]

@[simp] theorem checkOverrun_frame (ps : Parts) (s : State) (w t : Nat) (h_regs : ps.regs = true) (h_belt : ps.belt = true) : (checkOverrun s w t).outside ps = s.outside ps := by
  simp [checkOverrun, h_regs, h_belt]

@[simp] theorem setAtt_frame (ps : Parts) (s : State) (b : Nat) (v : Bool) (h_regs : ps.regs = true) : (setAtt s b v).outside ps = s.outside ps := by
  simp [setAtt, h_regs]

@[simp] theorem setMr_frame (ps : Parts) (s : State) (r : Nat) (bs : List Byte) (h_regs : ps.regs = true) : (setMr s r bs).outside ps = s.outside ps := by
  simp [setMr, h_regs]

@[simp] theorem extendMr_frame (ps : Parts) (s : State) (r : Nat) (d : List Byte) (h_regs : ps.regs = true) : (extendMr s r d).outside ps = s.outside ps := by
  simp [extendMr, h_regs]

@[simp] theorem extendConfig_frame (ps : Parts) (s : State) (kind slot parts conf turn : Nat) (h_regs : ps.regs = true) : (extendConfig s kind slot parts conf turn).outside ps = s.outside ps := by
  simp [extendConfig, h_regs]

@[simp] theorem setKeys_frame (ps : Parts) (s : State) (k : Nat) (v : SlotKeys) (h_keys : ps.keys = true) : (setKeys s k v).outside ps = s.outside ps := by
  simp [setKeys, h_keys]

@[simp] theorem refreshConf_frame (ps : Parts) (s : State) (h_regs : ps.regs = true) : (refreshConf s).outside ps = s.outside ps := by
  simp [refreshConf, h_regs]

@[simp] theorem slotField_frame (ps : Parts) (s : State) (k hi lo v : Nat) (h_regs : ps.regs = true) : (slotField s k hi lo v).outside ps = s.outside ps := by
  simp [slotField, h_regs]

@[simp] theorem loadSlot_frame (ps : Parts) (s : State) (k t : Nat) (h_regs : ps.regs = true) (h_tenant : ps.tenant = true) (h_keys : ps.keys = true) : (loadSlot s k t).outside ps = s.outside ps := by
  unfold loadSlot
  dsimp only
  rw [refreshConf_frame _ _ h_regs, extendConfig_frame _ _ _ _ _ _ _ h_regs]
  simp only [slotField_frame, setReg_frame, h_regs, h_tenant, h_keys]
  rw [outside_mk]
  · simp [h_regs, h_tenant, h_keys]
  all_goals simp [h_regs, h_tenant, h_keys]

@[simp] theorem haltGroup_frame (ps : Parts) (s : State) (parts : Nat) (h_regs : ps.regs = true) (h_seq : ps.seq = true) : (haltGroup s parts).outside ps = s.outside ps := by
  simp [haltGroup, h_regs, h_seq]

@[simp] theorem stopPlans_frame (ps : Parts) (s : State) (parts : Nat) (h_regs : ps.regs = true) : (stopPlans s parts).outside ps = s.outside ps := by
  simp [stopPlans, h_regs]

@[simp] theorem disableModels_frame (ps : Parts) (s : State) (k parts : Nat) (h_regs : ps.regs = true) : (disableModels s k parts).outside ps = s.outside ps := by
  unfold disableModels
  apply foldl_outside; intro s a; dsimp only
  split
  · exact setFieldBoth_frame _ _ _ _ _ _ h_regs
  · rfl

@[simp] theorem moveJobPin_frame (ps : Parts) (s : State) (w0 w1 : Nat) (up : Bool) (h_regs : ps.regs = true) : (moveJobPin s w0 w1 up).outside ps = s.outside ps := by
  simp [moveJobPin, h_regs]

@[simp] theorem moveFpin_frame (ps : Parts) (s : State) (w : Nat) (up : Bool) (h_regs : ps.regs = true) : (moveFpin s w up).outside ps = s.outside ps := by
  simp [moveFpin, h_regs]

@[simp] theorem clearJobPins_frame (ps : Parts) (s : State) (p : Nat) (h_regs : ps.regs = true) : (clearJobPins s p).outside ps = s.outside ps := by
  simp [clearJobPins, h_regs]

@[simp] theorem dropFlights_frame (ps : Parts) (s : State) (mine : Flight → Bool) (h_regs : ps.regs = true) (h_seq : ps.seq = true) (h_belt : ps.belt = true) (h_net : ps.net = true) : (dropFlights s mine).outside ps = s.outside ps := by
  simp [dropFlights, h_regs, h_seq, h_belt, h_net]

@[simp] theorem dropCopies_frame (ps : Parts) (s : State) (parts : Nat) (h_regs : ps.regs = true) (h_seq : ps.seq = true) : (dropCopies s parts).outside ps = s.outside ps := by
  simp [dropCopies, h_regs, h_seq]

@[simp] theorem dropGroup_frame (ps : Parts) (s : State) (parts : Nat) (h_regs : ps.regs = true) (h_seq : ps.seq = true) (h_gddr : ps.gddr = true) (h_belt : ps.belt = true) (h_net : ps.net = true) : (dropGroup s parts).outside ps = s.outside ps := by
  simp [dropGroup, h_regs, h_seq, h_gddr, h_belt, h_net]

@[simp] theorem dropRecords_frame (ps : Parts) (s : State) (parts : Nat) (h_seq : ps.seq = true) : (dropRecords s parts).outside ps = s.outside ps := by
  simp [dropRecords, h_seq]

@[simp] theorem dropHeldReduces_frame (ps : Parts) (s : State) (parts : Nat) (h_net : ps.net = true) : (dropHeldReduces s parts).outside ps = s.outside ps := by
  simp [dropHeldReduces, h_net]

@[simp] theorem dropStorage_frame (ps : Parts) (s : State) (k parts : Nat) (h_storage : ps.storage = true) (h_port : ps.port = true) : (dropStorage s k parts).outside ps = s.outside ps := by
  simp [dropStorage, h_storage, h_port]

@[simp] theorem dropPool_frame (ps : Parts) (s : State) (k : Nat) (h_regs : ps.regs = true) (h_gddr : ps.gddr = true) (h_belt : ps.belt = true) : (dropPool s k).outside ps = s.outside ps := by
  simp [dropPool, h_regs, h_gddr, h_belt]

@[simp] theorem dropServing_frame (ps : Parts) (s : State) (k parts : Nat) (h_regs : ps.regs = true) (h_gddr : ps.gddr = true) (h_belt : ps.belt = true) (h_port : ps.port = true) (h_serving : ps.serving = true) : (dropServing s k parts).outside ps = s.outside ps := by
  unfold dropServing
  dsimp only
  rw [outside_mk]
  · rw [foldl_outside, foldl_outside, foldl_outside]
    · intro s a; split <;> simp [h_regs, h_gddr, h_belt, h_port, h_serving]
    · intro s a; simp [h_regs, h_gddr, h_belt, h_port, h_serving]
    · intro s a; simp [h_regs, h_gddr, h_belt, h_port, h_serving]
  all_goals simp [h_regs, h_gddr, h_belt, h_port, h_serving]

@[simp] theorem beginPart_frame (ps : Parts) (s : State) (k t : Nat) (h_regs : ps.regs = true) (h_seq : ps.seq = true) (h_gddr : ps.gddr = true) (h_belt : ps.belt = true) (h_tenant : ps.tenant = true) (h_net : ps.net = true) (h_storage : ps.storage = true) (h_port : ps.port = true) (h_serving : ps.serving = true) : (beginPart s k t).outside ps = s.outside ps := by
  unfold beginPart
  dsimp only
  simp only [dropServing_frame, dropStorage_frame, dropRecords_frame, dropHeldReduces_frame, dropGroup_frame, setReg_frame, h_regs, h_seq, h_gddr, h_belt, h_tenant, h_net, h_storage, h_port, h_serving]
  rw [foldl_outside]
  · simp only [disableModels_frame, stopPlans_frame, haltGroup_frame, h_regs, h_seq, h_gddr, h_belt, h_tenant, h_net, h_storage, h_port, h_serving]
    rw [foldl_outside]
    · rw [outside_mk] <;> simp [h_regs, h_seq, h_gddr, h_belt, h_tenant, h_net, h_storage, h_port, h_serving]
    · intro s a; exact setReg_frame _ _ _ _ h_regs
  · intro s a; simp [h_regs, h_seq, h_gddr, h_belt, h_tenant, h_net, h_storage, h_port, h_serving]

@[simp] theorem queueRegions_frame (ps : Parts) (s : State) (k w : Nat) (h_regs : ps.regs = true) (h_sand : ps.sand = true) : (queueRegions s k w).outside ps = s.outside ps := by
  simp [queueRegions, h_regs, h_sand]

@[simp] theorem zeroRing_frame (ps : Parts) (s : State) (n : Nat) (h_regs : ps.regs = true) (h_serving : ps.serving = true) : (zeroRing s n).outside ps = s.outside ps := by
  simp [zeroRing, h_regs, h_serving]

@[simp] theorem zeroise_frame (ps : Parts) (s : State) (k : Nat) (h_regs : ps.regs = true) (h_seq : ps.seq = true) (h_gddr : ps.gddr = true) (h_sand : ps.sand = true) (h_belt : ps.belt = true) (h_tenant : ps.tenant = true) (h_keys : ps.keys = true) (h_net : ps.net = true) (h_storage : ps.storage = true) (h_port : ps.port = true) (h_serving : ps.serving = true) : (zeroise s k).outside ps = s.outside ps := by
  unfold zeroise
  dsimp only
  rw [foldl_outside]
  · rw [foldl_outside]
    · simp only [advanceEpoch_frame, slotField_frame, h_regs, h_seq, h_gddr, h_sand, h_belt, h_tenant, h_keys, h_net, h_storage, h_port, h_serving]
      rw [outside_mk] <;> simp [h_regs, h_seq, h_gddr, h_sand, h_belt, h_tenant, h_keys, h_net, h_storage, h_port, h_serving]
    · intro s a; simp [h_regs, h_seq, h_gddr, h_sand, h_belt, h_tenant, h_keys, h_net, h_storage, h_port, h_serving]
  · intro s a; simp [h_regs, h_seq, h_gddr, h_sand, h_belt, h_tenant, h_keys, h_net, h_storage, h_port, h_serving]

@[simp] theorem disableRegions_frame (ps : Parts) (s : State) (k : Nat) (h_regs : ps.regs = true) : (disableRegions s k).outside ps = s.outside ps := by
  unfold disableRegions
  apply foldl_outside; intro s a
  apply foldl_outside; intro s a
  exact setFieldBoth_frame _ _ _ _ _ _ h_regs

@[simp] theorem makeQuote_frame (ps : Parts) (s : State) (report : List Byte) (h_free : ps.free = true) (h_regs : ps.regs = true) : (makeQuote s report).1.outside ps = s.outside ps := by
  simp [makeQuote, h_free, h_regs]

@[simp] theorem commitKey_frame (ps : Parts) (ty : Nat) (s : State) (k : Nat) (h_regs : ps.regs = true) : (commitKey ty s k).outside ps = s.outside ps := by
  simp [commitKey, h_regs]

@[simp] theorem clearShots_frame (ps : Parts) (ty : Nat) (s : State) (k : Nat) (h_regs : ps.regs = true) : (clearShots ty s k).outside ps = s.outside ps := by
  simp [clearShots, h_regs]

@[simp] theorem showDelay_frame (ps : Parts) (s : State) (h_regs : ps.regs = true) : (showDelay s).outside ps = s.outside ps := by
  simp [showDelay, h_regs]

@[simp] theorem roleChanged_frame (ps : Parts) (s0 s : State) (h_regs : ps.regs = true) (h_time : ps.time = true) : (roleChanged s0 s).outside ps = s.outside ps := by
  simp [roleChanged, h_regs, h_time]

@[simp] theorem alarmChanged_frame (ps : Parts) (s : State) (t : Nat) (h_regs : ps.regs = true) (h_time : ps.time = true) : (alarmChanged s t).outside ps = s.outside ps := by
  simp [alarmChanged, h_regs, h_time]

@[simp] theorem applyTime_frame (ps : Parts) (s0 s : State) (t : Nat) (h_regs : ps.regs = true) (h_time : ps.time = true) : (applyTime s0 s t).outside ps = s.outside ps := by
  simp [applyTime, h_regs, h_time]

@[simp] theorem noteShares_frame (ps : Parts) (s : State) (h_regs : ps.regs = true) (h_belt : ps.belt = true) : (noteShares s).outside ps = s.outside ps := by
  simp [noteShares, h_regs, h_belt]

@[simp] theorem applyOwn_frame (ps : Parts) (s0 s : State) (t : Nat) (h_regs : ps.regs = true) (h_belt : ps.belt = true) : (applyOwn s0 s t).outside ps = s.outside ps := by
  simp [applyOwn, h_regs, h_belt]

@[simp] theorem applySlots_frame (ps : Parts) (s : State) (ks : List Nat) (t : Nat) (h_regs : ps.regs = true) (h_seq : ps.seq = true) (h_gddr : ps.gddr = true) (h_belt : ps.belt = true) (h_tenant : ps.tenant = true) (h_keys : ps.keys = true) (h_net : ps.net = true) (h_storage : ps.storage = true) (h_port : ps.port = true) (h_serving : ps.serving = true) : (applySlots s ks t).outside ps = s.outside ps := by
  simp [applySlots, h_regs, h_seq, h_gddr, h_belt, h_tenant, h_keys, h_net, h_storage, h_port, h_serving]

@[simp] theorem applyPower_frame (ps : Parts) (s0 s : State) (h_power : ps.power = true) : (applyPower s0 s).outside ps = s.outside ps := by
  simp [applyPower, h_power]

@[simp] theorem applyState_frame (ps : Parts) (s : State) (h_regs : ps.regs = true) : (applyState s).outside ps = s.outside ps := by
  simp [applyState, h_regs]

@[simp] theorem applyPairing_frame (ps : Parts) (s0 s : State) (h_regs : ps.regs = true) (h_net : ps.net = true) : (applyPairing s0 s).outside ps = s.outside ps := by
  simp [applyPairing, h_regs, h_net]

@[simp] theorem startCopy_frame (ps : Parts) (s : State) (c : TableCopy) (h_regs : ps.regs = true) (h_seq : ps.seq = true) (h_belt : ps.belt = true) : (startCopy s c).outside ps = s.outside ps := by
  unfold startCopy; dsimp only; (repeat' split) <;> simp [h_regs, h_seq, h_belt]

@[simp] theorem applySeq_frame (ps : Parts) (s0 s : State) (cl t : Nat) (h_regs : ps.regs = true) (h_seq : ps.seq = true) (h_belt : ps.belt = true) : (applySeq s0 s cl t).outside ps = s.outside ps := by
  unfold applySeq; (repeat' split) <;> simp [h_regs, h_seq, h_belt]

@[simp] theorem applyLoss_frame (ps : Parts) (s : State) (cl : Nat) (h_regs : ps.regs = true) (h_ns : ps.ns = true) (h_belt : ps.belt = true) : (applyLoss s cl).outside ps = s.outside ps := by
  simp [applyLoss, h_regs, h_ns, h_belt]

@[simp] theorem applySnap_frame (ps : Parts) (s : State) (cl t : Nat) (h_seq : ps.seq = true) : (applySnap s cl t).outside ps = s.outside ps := by
  simp [applySnap, h_seq]

@[simp] theorem applyCatch_frame (ps : Parts) (s0 s : State) (w : Nat) (h_regs : ps.regs = true) (h_sand : ps.sand = true) : (applyCatch s0 s w).outside ps = s.outside ps := by
  simp [applyCatch, h_regs, h_sand]

@[simp] theorem applySand_frame (ps : Parts) (s : State) (w : Nat) (h_regs : ps.regs = true) (h_sand : ps.sand = true) : (applySand s w).outside ps = s.outside ps := by
  simp [applySand, h_regs, h_sand]

@[simp] theorem applyMem_frame (ps : Parts) (s0 s : State) (w t : Nat) (h_regs : ps.regs = true) (h_sand : ps.sand = true) : (applyMem s0 s w t).outside ps = s.outside ps := by
  simp [applyMem, h_regs, h_sand]

@[simp] theorem applySwitch_frame (ps : Parts) (s0 s : State) (w : Nat) (h_regs : ps.regs = true) : (applySwitch s0 s w).outside ps = s.outside ps := by
  simp [applySwitch, h_regs]

@[simp] theorem newMode_frame (ps : Parts) (s : State) (l : Nat) (h_regs : ps.regs = true) (h_belt : ps.belt = true) (h_net : ps.net = true) : (newMode s l).outside ps = s.outside ps := by
  simp [newMode, h_regs, h_belt, h_net]

@[simp] theorem retrain_frame (ps : Parts) (s : State) (l : Nat) (h_regs : ps.regs = true) (h_net : ps.net = true) : (retrain s l).outside ps = s.outside ps := by
  simp [retrain, h_regs, h_net]

@[simp] theorem applyLink_frame (ps : Parts) (s0 s : State) (l : Nat) (h_regs : ps.regs = true) (h_belt : ps.belt = true) (h_net : ps.net = true) : (applyLink s0 s l).outside ps = s.outside ps := by
  simp [applyLink, h_regs, h_belt, h_net]

@[simp] theorem applyPins_frame (ps : Parts) (s0 s : State) (h_regs : ps.regs = true) : (applyPins s0 s).outside ps = s.outside ps := by
  simp [applyPins, h_regs]

@[simp] theorem applyRings_frame (ps : Parts) (s0 s : State) (keys : List Nat) (h_serving : ps.serving = true) : (applyRings s0 s keys).outside ps = s.outside ps := by
  simp [applyRings, h_serving]

@[simp] theorem applyPools_frame (ps : Parts) (s0 s : State) (h_regs : ps.regs = true) : (applyPools s0 s).outside ps = s.outside ps := by
  simp [applyPools, h_regs]

@[simp] theorem applyPage_frame (ps : Parts) (s0 s : State) (page ty inst t : Nat) (h_regs : ps.regs = true) (h_time : ps.time = true) (h_seq : ps.seq = true) (h_ns : ps.ns = true) (h_gddr : ps.gddr = true) (h_sand : ps.sand = true) (h_belt : ps.belt = true) (h_tenant : ps.tenant = true) (h_keys : ps.keys = true) (h_net : ps.net = true) (h_storage : ps.storage = true) (h_port : ps.port = true) (h_serving : ps.serving = true) (h_power : ps.power = true) : (applyPage s0 s page ty inst t).outside ps = s.outside ps := by
  unfold applyPage; (repeat' split) <;> simp [h_regs, h_time, h_seq, h_ns, h_gddr, h_sand, h_belt, h_tenant, h_keys, h_net, h_storage, h_port, h_serving, h_power]

@[simp] theorem noteRefused_frame (ps : Parts) (s : State) (page ty inst turn : Nat) (r : Refuse) (h_regs : ps.regs = true) (h_belt : ps.belt = true) : (noteRefused s page ty inst turn r).outside ps = s.outside ps := by
  simp [noteRefused, h_regs, h_belt]

@[simp] theorem refuseCommit_frame (ps : Parts) (s : State) (page ty inst : Nat) (c : Commit) (r : Refuse) (h_regs : ps.regs = true) (h_belt : ps.belt = true) (h_tenant : ps.tenant = true) (h_port : ps.port = true) : (refuseCommit s page ty inst c r).outside ps = s.outside ps := by
  simp [refuseCommit, h_regs, h_belt, h_tenant, h_port]

@[simp] theorem noteLate_frame (ps : Parts) (s : State) (page ty inst t : Nat) (c : Commit) (h_regs : ps.regs = true) (h_belt : ps.belt = true) : (noteLate s page ty inst t c).outside ps = s.outside ps := by
  unfold noteLate; (repeat' split) <;> simp [h_regs, h_belt]

@[simp] theorem takeCommit_frame (ps : Parts) (s : State) (page ty inst t : Nat) (c : Commit) (h_regs : ps.regs = true) (h_time : ps.time = true) (h_seq : ps.seq = true) (h_ns : ps.ns = true) (h_gddr : ps.gddr = true) (h_sand : ps.sand = true) (h_belt : ps.belt = true) (h_tenant : ps.tenant = true) (h_keys : ps.keys = true) (h_net : ps.net = true) (h_storage : ps.storage = true) (h_port : ps.port = true) (h_serving : ps.serving = true) (h_power : ps.power = true) : (takeCommit s page ty inst t c).outside ps = s.outside ps := by
  simp [takeCommit, h_regs, h_time, h_seq, h_ns, h_gddr, h_sand, h_belt, h_tenant, h_keys, h_net, h_storage, h_port, h_serving, h_power]

@[simp] theorem doCommit_frame (ps : Parts) (s : State) (t : Nat) (c : Commit) (r : Option Refuse) (h_regs : ps.regs = true) (h_time : ps.time = true) (h_seq : ps.seq = true) (h_ns : ps.ns = true) (h_gddr : ps.gddr = true) (h_sand : ps.sand = true) (h_belt : ps.belt = true) (h_tenant : ps.tenant = true) (h_keys : ps.keys = true) (h_net : ps.net = true) (h_storage : ps.storage = true) (h_port : ps.port = true) (h_serving : ps.serving = true) (h_power : ps.power = true) : (doCommit s t c r).outside ps = s.outside ps := by
  unfold doCommit; (repeat' split) <;> simp [h_regs, h_time, h_seq, h_ns, h_gddr, h_sand, h_belt, h_tenant, h_keys, h_net, h_storage, h_port, h_serving, h_power]

@[simp] theorem commitStep_frame (ps : Parts) (s : State) (t : Nat) (reached : Nat → Bool) (h_regs : ps.regs = true) (h_time : ps.time = true) (h_seq : ps.seq = true) (h_ns : ps.ns = true) (h_gddr : ps.gddr = true) (h_sand : ps.sand = true) (h_belt : ps.belt = true) (h_tenant : ps.tenant = true) (h_keys : ps.keys = true) (h_net : ps.net = true) (h_storage : ps.storage = true) (h_port : ps.port = true) (h_serving : ps.serving = true) (h_power : ps.power = true) : (commitStep s t reached).outside ps = s.outside ps := by
  simp [commitStep, h_regs, h_time, h_seq, h_ns, h_gddr, h_sand, h_belt, h_tenant, h_keys, h_net, h_storage, h_port, h_serving, h_power]

@[simp] theorem postModel_frame (ps : Parts) (s : State) (m cause op1 : Nat) (h_regs : ps.regs = true) (h_belt : ps.belt = true) : (postModel s m cause op1).outside ps = s.outside ps := by
  simp [postModel, h_regs, h_belt]

@[simp] theorem refusePub_frame (ps : Parts) (s : State) (m st hold why : Nat) (h_regs : ps.regs = true) (h_belt : ps.belt = true) : (refusePub s m st hold why).outside ps = s.outside ps := by
  simp [refusePub, h_regs, h_belt]

@[simp] theorem movePub_frame (ps : Parts) (s : State) (cur prev pinsCur pinsPrev new : Nat) (h_regs : ps.regs = true) : (movePub s cur prev pinsCur pinsPrev new).outside ps = s.outside ps := by
  simp [movePub, h_regs]

@[simp] theorem publishBase_frame (ps : Parts) (s : State) (m : Nat) (h_regs : ps.regs = true) (h_belt : ps.belt = true) : (publishBase s m).outside ps = s.outside ps := by
  unfold publishBase; dsimp only; (repeat' split) <;> simp [h_regs, h_belt]

@[simp] theorem publishAdapter_frame (ps : Parts) (s : State) (m a : Nat) (h_regs : ps.regs = true) (h_belt : ps.belt = true) : (publishAdapter s m a).outside ps = s.outside ps := by
  unfold publishAdapter; dsimp only; (repeat' split) <;> simp [h_regs, h_belt]

@[simp] theorem publications_frame (ps : Parts) (s : State) (h_regs : ps.regs = true) (h_belt : ps.belt = true) : (publications s).outside ps = s.outside ps := by
  simp [publications, h_regs, h_belt]

@[simp] theorem retireBlanks_frame (ps : Parts) (s : State) (h_regs : ps.regs = true) (h_belt : ps.belt = true) : (retireBlanks s).outside ps = s.outside ps := by
  simp [retireBlanks, h_regs, h_belt]

@[simp] theorem beginEntry_frame (ps : Parts) (s : State) (h_regs : ps.regs = true) (h_wake : ps.wake = true) : (beginEntry s).outside ps = s.outside ps := by
  simp [beginEntry, h_regs, h_wake]

@[simp] theorem setRcl_frame (ps : Parts) (s : State) (v : Nat) (h_regs : ps.regs = true) : (setRcl s v).outside ps = s.outside ps := by
  simp [setRcl, h_regs]

@[simp] theorem postRcl_frame (ps : Parts) (s : State) (cause op1 mask : Nat) (h_regs : ps.regs = true) (h_belt : ps.belt = true) : (postRcl s cause op1 mask).outside ps = s.outside ps := by
  simp [postRcl, h_regs, h_belt]

@[simp] theorem showStep_frame (ps : Parts) (s : State) (h_regs : ps.regs = true) : (showStep s).outside ps = s.outside ps := by
  simp [showStep, h_regs]

@[simp] theorem startParting_frame (ps : Parts) (s : State) (h_regs : ps.regs = true) (h_reclaim : ps.reclaim = true) : (startParting s).outside ps = s.outside ps := by
  unfold startParting; (repeat' split) <;> simp [h_regs, h_reclaim]

@[simp] theorem stopDie_frame (ps : Parts) (s : State) (d : Nat) (h_regs : ps.regs = true) : (stopDie s d).outside ps = s.outside ps := by
  simp [stopDie, h_regs]

@[simp] theorem stopReclaimed_frame (ps : Parts) (s : State) (t : Nat) (reached : Nat → Bool) (h_regs : ps.regs = true) (h_reclaim : ps.reclaim = true) : (stopReclaimed s t reached).outside ps = s.outside ps := by
  simp [stopReclaimed, h_regs, h_reclaim]

@[simp] theorem partReclaimed_frame (ps : Parts) (s : State) (t : Nat) (h_regs : ps.regs = true) (h_seq : ps.seq = true) (h_gddr : ps.gddr = true) (h_belt : ps.belt = true) (h_tenant : ps.tenant = true) (h_net : ps.net = true) (h_storage : ps.storage = true) (h_port : ps.port = true) (h_serving : ps.serving = true) : (partReclaimed s t).outside ps = s.outside ps := by
  unfold partReclaimed; (repeat' split) <;> simp [h_regs, h_seq, h_gddr, h_belt, h_tenant, h_net, h_storage, h_port, h_serving]

@[simp] theorem reclaimDeadline_frame (ps : Parts) (s : State) (t : Nat) (h_regs : ps.regs = true) (h_belt : ps.belt = true) (h_reclaim : ps.reclaim = true) : (reclaimDeadline s t).outside ps = s.outside ps := by
  simp [reclaimDeadline, h_regs, h_belt, h_reclaim]

@[simp] theorem passToServing_frame (ps : Parts) (s : State) (mask : Nat) (h_regs : ps.regs = true) : (passToServing s mask).outside ps = s.outside ps := by
  simp [passToServing, h_regs]

@[simp] theorem passOver_frame (ps : Parts) (s : State) (h_regs : ps.regs = true) (h_belt : ps.belt = true) (h_reclaim : ps.reclaim = true) : (passOver s).outside ps = s.outside ps := by
  simp [passOver, h_regs, h_belt, h_reclaim]

@[simp] theorem handOver_frame (ps : Parts) (s0 s : State) (h_regs : ps.regs = true) (h_belt : ps.belt = true) (h_reclaim : ps.reclaim = true) : (handOver s0 s).outside ps = s.outside ps := by
  simp [handOver, h_regs, h_belt, h_reclaim]

@[simp] theorem failReclaim_frame (ps : Parts) (s : State) (h_regs : ps.regs = true) (h_belt : ps.belt = true) : (failReclaim s).outside ps = s.outside ps := by
  simp [failReclaim, h_regs, h_belt]

@[simp] theorem abandonTransfers_frame (ps : Parts) (s : State) (h_regs : ps.regs = true) (h_seq : ps.seq = true) (h_belt : ps.belt = true) (h_net : ps.net = true) (h_storage : ps.storage = true) (h_port : ps.port = true) : (abandonTransfers s).outside ps = s.outside ps := by
  unfold abandonTransfers
  dsimp only
  rw [outside_mk]
  · simp only [stopPlans_frame, dropFlights_frame, h_regs, h_seq, h_belt, h_net, h_storage, h_port]
    rw [foldl_outside]
    intro s a; exact setField_frame _ _ _ _ _ _ h_regs
  all_goals simp [h_regs, h_seq, h_belt, h_net, h_storage, h_port]

@[simp] theorem withdrawCommits_frame (ps : Parts) (s : State) (h_regs : ps.regs = true) (h_port : ps.port = true) : (withdrawCommits s).outside ps = s.outside ps := by
  simp [withdrawCommits, h_regs, h_port]

@[simp] theorem beginDump_frame (ps : Parts) (s : State) (cause die : Nat) (h_regs : ps.regs = true) (h_catching : ps.catching = true) : (beginDump s cause die).outside ps = s.outside ps := by
  simp [beginDump, h_regs, h_catching]

@[simp] theorem raiseCatch_frame (ps : Parts) (s : State) (cause die : Nat) (h_regs : ps.regs = true) (h_seq : ps.seq = true) (h_belt : ps.belt = true) (h_net : ps.net = true) (h_storage : ps.storage = true) (h_port : ps.port = true) (h_catching : ps.catching = true) (h_sideband : ps.sideband = true) : (raiseCatch s cause die).outside ps = s.outside ps := by
  simp [raiseCatch, h_regs, h_seq, h_belt, h_net, h_storage, h_port, h_catching, h_sideband]

@[simp] theorem putGddr_frame (ps : Parts) (s : State) (a : Nat) (bs : List Byte) (h_gddr : ps.gddr = true) : (putGddr s a bs).outside ps = s.outside ps := by
  simp [putGddr, h_gddr]

@[simp] theorem writeSections_frame (ps : Parts) (s : State) (p t0 dies : Nat) (h_gddr : ps.gddr = true) : (writeSections s p t0 dies).outside ps = s.outside ps := by
  simp [writeSections, h_gddr]

@[simp] theorem writeExtension_frame (ps : Parts) (s : State) (p : Nat) (h_gddr : ps.gddr = true) : (writeExtension s p).outside ps = s.outside ps := by
  simp [writeExtension, h_gddr]

@[simp] theorem writeShare_frame (ps : Parts) (s : State) (p cause t0 dies : Nat) (h_gddr : ps.gddr = true) : (writeShare s p cause t0 dies).outside ps = s.outside ps := by
  simp [writeShare, h_gddr]

@[simp] theorem writeReduced_frame (ps : Parts) (s : State) (cause t0 dies : Nat) (h_flash : ps.flash = true) : (writeReduced s cause t0 dies).outside ps = s.outside ps := by
  simp [writeReduced, h_flash]

@[simp] theorem writeOwn_frame (ps : Parts) (s : State) (d : Nat) (h_gddr : ps.gddr = true) (h_flash : ps.flash = true) : (writeOwn s d).outside ps = s.outside ps := by
  simp [writeOwn, h_gddr, h_flash]

@[simp] theorem setTries_frame (ps : Parts) (s : State) (d n : Nat) (h_belt : ps.belt = true) : (setTries s d n).outside ps = s.outside ps := by
  simp [setTries, h_belt]

@[simp] theorem goDark_frame (ps : Parts) (s : State) (h_regs : ps.regs = true) (h_belt : ps.belt = true) (h_net : ps.net = true) (h_power : ps.power = true) : (goDark s).outside ps = s.outside ps := by
  simp [goDark, h_regs, h_belt, h_net, h_power]

@[simp] theorem leaveRest_frame (ps : Parts) (s : State) (h_regs : ps.regs = true) (h_time : ps.time = true) (h_seq : ps.seq = true) (h_ns : ps.ns = true) (h_table : ps.table = true) : (leaveRest s).outside ps = s.outside ps := by
  unfold leaveRest
  dsimp only
  rw [setField_frame _ _ _ _ _ _ h_regs, foldl_outside]
  · rw [outside_mk]
    · rw [setFt_frame _ _ _ _ h_regs, foldl_outside]
      intro s a; simp [h_regs, h_time, h_seq, h_ns, h_table]
    all_goals simp [h_regs, h_time, h_seq, h_ns, h_table]
  · intro s a; split
    · rfl
    · exact setField_frame _ _ _ _ _ _ h_regs

@[simp] theorem reachRun_frame (ps : Parts) (s : State) (h_regs : ps.regs = true) (h_time : ps.time = true) (h_seq : ps.seq = true) (h_ns : ps.ns = true) (h_table : ps.table = true) (h_wake : ps.wake = true) : (reachRun s).outside ps = s.outside ps := by
  simp [reachRun, h_regs, h_time, h_seq, h_ns, h_table, h_wake]

@[simp] theorem setStep_frame (ps : Parts) (s : State) (n : Nat) (h_regs : ps.regs = true) : (setStep s n).outside ps = s.outside ps := by
  simp [setStep, h_regs]

@[simp] theorem bootFail_frame (ps : Parts) (s : State) (code die : Nat) (h_regs : ps.regs = true) : (bootFail s code die).outside ps = s.outside ps := by
  simp [bootFail, h_regs]

@[simp] theorem startUp_frame (ps : Parts) (s : State) (h_regs : ps.regs = true) (h_boot : ps.boot = true) : (startUp s).outside ps = s.outside ps := by
  simp [startUp, h_regs, h_boot]

@[simp] theorem coldState_frame (ps : Parts) (s : State) (good : Bool) (h_regs : ps.regs = true) (h_now : ps.now = true) (h_time : ps.time = true) (h_seq : ps.seq = true) (h_ns : ps.ns = true) (h_gddr : ps.gddr = true) (h_table : ps.table = true) (h_sand : ps.sand = true) (h_belt : ps.belt = true) (h_tenant : ps.tenant = true) (h_keys : ps.keys = true) (h_net : ps.net = true) (h_storage : ps.storage = true) (h_port : ps.port = true) (h_serving : ps.serving = true) (h_tripped : ps.tripped = true) (h_power : ps.power = true) (h_wake : ps.wake = true) (h_pins : ps.pins = true) (h_boot : ps.boot = true) (h_flash : ps.flash = true) (h_catching : ps.catching = true) (h_reclaim : ps.reclaim = true) (h_sideband : ps.sideband = true) (h_board : ps.board = true) : (coldState s good).outside ps = s.outside ps := by
  unfold coldState; dsimp only; split <;> simp [State.outside, MemState.outside, setReg, h_regs, h_now, h_time, h_seq, h_ns, h_gddr, h_table, h_sand, h_belt, h_tenant, h_keys, h_net, h_storage, h_port, h_serving, h_tripped, h_power, h_wake, h_pins, h_boot, h_flash, h_catching, h_reclaim, h_sideband, h_board]

@[simp] theorem warmState_frame (ps : Parts) (s : State) (h_regs : ps.regs = true) (h_now : ps.now = true) (h_time : ps.time = true) (h_seq : ps.seq = true) (h_ns : ps.ns = true) (h_gddr : ps.gddr = true) (h_table : ps.table = true) (h_sand : ps.sand = true) (h_belt : ps.belt = true) (h_tenant : ps.tenant = true) (h_keys : ps.keys = true) (h_net : ps.net = true) (h_storage : ps.storage = true) (h_port : ps.port = true) (h_serving : ps.serving = true) (h_tripped : ps.tripped = true) (h_power : ps.power = true) (h_wake : ps.wake = true) (h_pins : ps.pins = true) (h_boot : ps.boot = true) (h_flash : ps.flash = true) (h_catching : ps.catching = true) (h_reclaim : ps.reclaim = true) (h_sideband : ps.sideband = true) (h_board : ps.board = true) : (warmState s).outside ps = s.outside ps := by
  unfold warmState coldState; dsimp only; split
  · rw [setField_frame _ _ _ _ _ _ h_regs]; split <;> simp [State.outside, MemState.outside, setReg, h_regs, h_now, h_time, h_seq, h_ns, h_gddr, h_table, h_sand, h_belt, h_tenant, h_keys, h_net, h_storage, h_port, h_serving, h_tripped, h_power, h_wake, h_pins, h_boot, h_flash, h_catching, h_reclaim, h_sideband, h_board]
  · split <;> simp [State.outside, MemState.outside, setReg, h_regs, h_now, h_time, h_seq, h_ns, h_gddr, h_table, h_sand, h_belt, h_tenant, h_keys, h_net, h_storage, h_port, h_serving, h_tripped, h_power, h_wake, h_pins, h_boot, h_flash, h_catching, h_reclaim, h_sideband, h_board]

@[simp] theorem runImage_frame (ps : Parts) (s : State) (h_regs : ps.regs = true) : (runImage s).outside ps = s.outside ps := by
  simp [runImage, h_regs]

@[simp] theorem serveRecovery_frame (ps : Parts) (s : State) (h_regs : ps.regs = true) (h_boot : ps.boot = true) : (serveRecovery s).outside ps = s.outside ps := by
  simp [serveRecovery, h_regs, h_boot]

@[simp] theorem enterRecovery_frame (ps : Parts) (s : State) (h_regs : ps.regs = true) (h_boot : ps.boot = true) : (enterRecovery s).outside ps = s.outside ps := by
  simp [enterRecovery, h_regs, h_boot]

@[simp] theorem endStep3_frame (ps : Parts) (s : State) (h_regs : ps.regs = true) (h_boot : ps.boot = true) : (endStep3 s).outside ps = s.outside ps := by
  simp [endStep3, h_regs, h_boot]

@[simp] theorem deriveKey_frame (ps : Parts) (s : State) (h_tenant : ps.tenant = true) : (deriveKey s).outside ps = s.outside ps := by
  simp [deriveKey, h_tenant]

@[simp] theorem loadOffsets_frame (ps : Parts) (s : State) (h_regs : ps.regs = true) (h_power : ps.power = true) : (loadOffsets s).outside ps = s.outside ps := by
  unfold loadOffsets; (repeat' split) <;> simp [h_regs, h_power]

@[simp] theorem trimRails_frame (ps : Parts) (s : State) (h_power : ps.power = true) : (trimRails s).outside ps = s.outside ps := by
  simp [trimRails, h_power]

@[simp] theorem endStep4_frame (ps : Parts) (s : State) (h_regs : ps.regs = true) (h_belt : ps.belt = true) (h_tenant : ps.tenant = true) (h_power : ps.power = true) (h_boot : ps.boot = true) : (endStep4 s).outside ps = s.outside ps := by
  simp [endStep4, h_regs, h_belt, h_tenant, h_power, h_boot]

@[simp] theorem withholdPart_frame (ps : Parts) (s : State) (p : Nat) (h_regs : ps.regs = true) : (withholdPart s p).outside ps = s.outside ps := by
  simp [withholdPart, h_regs]

@[simp] theorem showFailedDie_frame (ps : Parts) (s : State) (d : Nat) (h_regs : ps.regs = true) : (showFailedDie s d).outside ps = s.outside ps := by
  simp [showFailedDie, h_regs]

@[simp] theorem loseMDie_frame (ps : Parts) (s : State) (p : Nat) (h_regs : ps.regs = true) : (loseMDie s p).outside ps = s.outside ps := by
  simp [loseMDie, h_regs]

@[simp] theorem darkODie_frame (ps : Parts) (s : State) (d : Nat) (h_regs : ps.regs = true) (h_belt : ps.belt = true) : (darkODie s d).outside ps = s.outside ps := by
  unfold darkODie
  apply foldl_outside; intro s a; dsimp only
  rw [showHealth_frame _ _ _ h_regs, postLink_frame _ _ _ _ _ _ _ _ h_regs h_belt, setField_frame _ _ _ _ _ _ h_regs]

@[simp] theorem postFailed_frame (ps : Parts) (s : State) (d : Nat) (h_free : ps.free = true) (h_regs : ps.regs = true) (h_belt : ps.belt = true) : (postFailed s d).outside ps = s.outside ps := by
  simp [postFailed, h_free, h_regs, h_belt]

@[simp] theorem failDie_frame (ps : Parts) (s : State) (code d : Nat) (h_free : ps.free = true) (h_regs : ps.regs = true) (h_belt : ps.belt = true) (h_boot : ps.boot = true) : (failDie s code d).outside ps = s.outside ps := by
  simp [failDie, h_free, h_regs, h_belt, h_boot]

@[simp] theorem endStep5_frame (ps : Parts) (s : State) (x : StepEnd) (h_free : ps.free = true) (h_regs : ps.regs = true) (h_belt : ps.belt = true) (h_boot : ps.boot = true) : (endStep5 s x).outside ps = s.outside ps := by
  simp [endStep5, h_free, h_regs, h_belt, h_boot]

@[simp] theorem failEdge_frame (ps : Parts) (s : State) (d : Nat) (h_free : ps.free = true) (h_regs : ps.regs = true) (h_belt : ps.belt = true) : (failEdge s d).outside ps = s.outside ps := by
  simp [failEdge, h_free, h_regs, h_belt]

@[simp] theorem disablePrograms_frame (ps : Parts) (s : State) (h_regs : ps.regs = true) (h_seq : ps.seq = true) : (disablePrograms s).outside ps = s.outside ps := by
  simp [disablePrograms, h_regs, h_seq]

@[simp] theorem endStep6_frame (ps : Parts) (s : State) (x : StepEnd) (h_free : ps.free = true) (h_regs : ps.regs = true) (h_seq : ps.seq = true) (h_ns : ps.ns = true) (h_table : ps.table = true) (h_belt : ps.belt = true) (h_boot : ps.boot = true) : (endStep6 s x).outside ps = s.outside ps := by
  simp [endStep6, h_free, h_regs, h_seq, h_ns, h_table, h_belt, h_boot]

@[simp] theorem openWindow_frame (ps : Parts) (s : State) (w live : Nat) (clamshell : Bool) (h_regs : ps.regs = true) (h_sand : ps.sand = true) (h_belt : ps.belt = true) : (openWindow s w live clamshell).outside ps = s.outside ps := by
  simp [openWindow, h_regs, h_sand, h_belt]

@[simp] theorem endStep7_frame (ps : Parts) (s : State) (x : StepEnd) (h_regs : ps.regs = true) (h_sand : ps.sand = true) (h_belt : ps.belt = true) : (endStep7 s x).outside ps = s.outside ps := by
  simp [endStep7, h_regs, h_sand, h_belt]

@[simp] theorem endStep8_frame (ps : Parts) (s : State) (x : StepEnd) (h_regs : ps.regs = true) (h_belt : ps.belt = true) (h_tenant : ps.tenant = true) (h_net : ps.net = true) (h_sideband : ps.sideband = true) : (endStep8 s x).outside ps = s.outside ps := by
  simp [endStep8, h_regs, h_belt, h_tenant, h_net, h_sideband]

@[simp] theorem putDefault_frame (ps : Parts) (s : State) (item key hi lo : Nat) (h_regs : ps.regs = true) : (putDefault s item key hi lo).outside ps = s.outside ps := by
  unfold putDefault; (repeat' split) <;> simp [h_regs]

@[simp] theorem commitDefaults_frame (ps : Parts) (s : State) (h_regs : ps.regs = true) : (commitDefaults s).outside ps = s.outside ps := by
  unfold commitDefaults
  dsimp only
  simp only [putDefault_frame, h_regs]
  apply foldl_outside; intro s a; exact putDefault_frame _ _ _ _ _ _ h_regs

@[simp] theorem answerRecovery_frame (ps : Parts) (s : State) (tag status : Nat) (h_port : ps.port = true) : (answerRecovery s tag status).outside ps = s.outside ps := by
  simp [answerRecovery, h_port]

@[simp] theorem withRecovery_frame (ps : Parts) (s : State) (h : PortHead) (k : State → Nat → Nat → State) (h_regs : ps.regs = true) (h_port : ps.port = true) (h_k : ∀ (x0 : State) (x1 : Nat) (x2 : Nat), (k x0 x1 x2).outside ps = x0.outside ps) : (withRecovery s h k).outside ps = s.outside ps := by
  unfold withRecovery
  refine withPort_frame _ _ _ _ _ h_regs h_port ?_
  intro s
  split
  · simp [h_regs, h_port]
  · exact h_k _ _ _

@[simp] theorem sbRead_frame (ps : Parts) (s : State) (i : Nat) (h_sideband : ps.sideband = true) : (sbRead s i).1.outside ps = s.outside ps := by
  unfold sbRead; (repeat' split) <;> simp [h_sideband]

@[simp] theorem loadTap_frame (ps : Parts) (s : State) (i : TapInstr) (data : Nat) (h_board : ps.board = true) : (loadTap s i data).outside ps = s.outside ps := by
  simp [loadTap, h_board]

@[simp] theorem readWords_frame (ps : Parts) (s : State) (addr n : Nat) (h_regs : ps.regs = true) : (readWords s addr n).1.outside ps = s.outside ps := by
  simp [readWords, h_regs]

@[simp] theorem writeWords_frame (ps : Parts) (s : State) (addr : Nat) (ws : List Nat) (h_regs : ps.regs = true) (h_time : ps.time = true) (h_seq : ps.seq = true) (h_sand : ps.sand = true) (h_tenant : ps.tenant = true) (h_net : ps.net = true) (h_port : ps.port = true) (h_power : ps.power = true) (h_flash : ps.flash = true) (h_catching : ps.catching = true) : (writeWords s addr ws).1.outside ps = s.outside ps := by
  simp [writeWords, h_regs, h_time, h_seq, h_sand, h_tenant, h_net, h_port, h_power, h_flash, h_catching]

@[simp] theorem armPage_frame (ps : Parts) (s : State) (page : Nat) (t : Option Nat) (h_regs : ps.regs = true) (h_power : ps.power = true) : (armPage s page t).outside ps = s.outside ps := by
  unfold armPage; (repeat' split) <;> simp [h_regs, h_power]

@[simp] theorem commitFor_frame (ps : Parts) (s : State) (tag op page turn : Nat) (write : State → State) (h_regs : ps.regs = true) (h_port : ps.port = true) (h_power : ps.power = true) (h_write : ∀ (x0 : State), (write x0).outside ps = x0.outside ps) : (commitFor s tag op page turn write).outside ps = s.outside ps := by
  simp [commitFor, h_regs, h_port, h_power, h_write]

@[simp] theorem setPairBit_frame (ps : Parts) (s : State) (b : Nat) (v : Bool) (h_regs : ps.regs = true) : (setPairBit s b v).outside ps = s.outside ps := by
  simp [setPairBit, h_regs]

@[simp] theorem addIdle_frame (ps : Parts) (s : State) (cl c n : Nat) (h_regs : ps.regs = true) : (addIdle s cl c n).outside ps = s.outside ps := by
  simp [addIdle, h_regs]

@[simp] theorem chargeCluster_frame (ps : Parts) (s : State) (c : Charge) (h_regs : ps.regs = true) : (chargeCluster s c).outside ps = s.outside ps := by
  unfold chargeCluster; dsimp only; (repeat' split) <;> simp [h_regs]

@[simp] theorem chargeIdle_frame (ps : Parts) (s : State) (cs : List Charge) (h_regs : ps.regs = true) : (chargeIdle s cs).outside ps = s.outside ps := by
  simp [chargeIdle, h_regs]

@[simp] theorem takeSnaps_frame (ps : Parts) (s : State) (t : Nat) (reached : Nat → Bool) (h_regs : ps.regs = true) (h_seq : ps.seq = true) : (takeSnaps s t reached).outside ps = s.outside ps := by
  unfold takeSnaps
  apply foldl_outside; intro s a; dsimp only
  rw [outside_mk]
  · rw [foldl_outside]
    intro s a; exact setReg64_frame _ _ _ _ h_regs
  all_goals simp [h_regs, h_seq]

@[simp] theorem reach_frame (ps : Parts) (s : State) (d t : Nat) (h_time : ps.time = true) (h_catching : ps.catching = true) : (reach s d t).outside ps = s.outside ps := by
  simp [reach, h_time, h_catching]

@[simp] theorem strobe_frame (ps : Parts) (s : State) (t : Nat) (reached : Nat → Bool) (h_now : ps.now = true) (h_time : ps.time = true) (h_catching : ps.catching = true) : (strobe s t reached).outside ps = s.outside ps := by
  simp [strobe, h_now, h_time, h_catching]

@[simp] theorem releaseTurns_frame (ps : Parts) (s : State) (t : Nat) (reached : Nat → Bool) (h_regs : ps.regs = true) (h_seq : ps.seq = true) : (releaseTurns s t reached).outside ps = s.outside ps := by
  unfold releaseTurns
  apply foldl_outside; intro s a; dsimp only
  (repeat' split) <;> simp [h_regs, h_seq]

@[simp] theorem timeoutTokens_frame (ps : Parts) (s : State) (reached : Nat → Bool) (h_regs : ps.regs = true) (h_seq : ps.seq = true) (h_belt : ps.belt = true) : (timeoutTokens s reached).outside ps = s.outside ps := by
  simp [timeoutTokens, h_regs, h_seq, h_belt]

@[simp] theorem expireParked_frame (ps : Parts) (s : State) (t : Nat) (h_regs : ps.regs = true) (h_gddr : ps.gddr = true) (h_belt : ps.belt = true) (h_serving : ps.serving = true) : (expireParked s t).outside ps = s.outside ps := by
  simp [expireParked, h_regs, h_gddr, h_belt, h_serving]

@[simp] theorem updateVarm_frame (ps : Parts) (s : State) (t : Nat) (h_power : ps.power = true) : (updateVarm s t).outside ps = s.outside ps := by
  simp [updateVarm, h_power]

@[simp] theorem headBoundary_frame (ps : Parts) (s : State) (t : Nat) (h_regs : ps.regs = true) (h_belt : ps.belt = true) (h_power : ps.power = true) (h_wake : ps.wake = true) : (headBoundary s t).outside ps = s.outside ps := by
  simp [headBoundary, h_regs, h_belt, h_power, h_wake]

@[simp] theorem planDeadlines_frame (ps : Parts) (s : State) (t : Nat) (reached : Nat → Bool) (h_regs : ps.regs = true) (h_belt : ps.belt = true) : (planDeadlines s t reached).outside ps = s.outside ps := by
  simp [planDeadlines, h_regs, h_belt]

@[simp] theorem boundary_frame (ps : Parts) (s : State) (t : Nat) (reached : Nat → Bool) (h_regs : ps.regs = true) (h_time : ps.time = true) (h_seq : ps.seq = true) (h_ns : ps.ns = true) (h_gddr : ps.gddr = true) (h_sand : ps.sand = true) (h_belt : ps.belt = true) (h_tenant : ps.tenant = true) (h_keys : ps.keys = true) (h_net : ps.net = true) (h_storage : ps.storage = true) (h_port : ps.port = true) (h_serving : ps.serving = true) (h_power : ps.power = true) (h_wake : ps.wake = true) (h_reclaim : ps.reclaim = true) (h_sideband : ps.sideband = true) : (boundary s t reached).outside ps = s.outside ps := by
  simp [boundary, h_regs, h_time, h_seq, h_ns, h_gddr, h_sand, h_belt, h_tenant, h_keys, h_net, h_storage, h_port, h_serving, h_power, h_wake, h_reclaim, h_sideband]

@[simp] theorem commitRow_frame (ps : Parts) (s : State) (page : Nat) (mine : Bool) (h_regs : ps.regs = true) (h_time : ps.time = true) (h_seq : ps.seq = true) (h_ns : ps.ns = true) (h_gddr : ps.gddr = true) (h_sand : ps.sand = true) (h_belt : ps.belt = true) (h_tenant : ps.tenant = true) (h_keys : ps.keys = true) (h_net : ps.net = true) (h_storage : ps.storage = true) (h_port : ps.port = true) (h_serving : ps.serving = true) (h_power : ps.power = true) (h_wake : ps.wake = true) (h_catching : ps.catching = true) (h_reclaim : ps.reclaim = true) (h_sideband : ps.sideband = true) : (commitRow s page mine).outside ps = s.outside ps := by
  unfold commitRow; (repeat' split) <;> simp [h_regs, h_time, h_seq, h_ns, h_gddr, h_sand, h_belt, h_tenant, h_keys, h_net, h_storage, h_port, h_serving, h_power, h_wake, h_catching, h_reclaim, h_sideband]

@[simp] theorem takeWake_frame (ps : Parts) (s : State) (l : Nat) (f : Frame) (h_regs : ps.regs = true) (h_net : ps.net = true) (h_power : ps.power = true) (h_wake : ps.wake = true) (h_sideband : ps.sideband = true) : (takeWake s l f).outside ps = s.outside ps := by
  simp [takeWake, h_regs, h_net, h_power, h_wake, h_sideband]

@[simp] theorem deliverFrame_frame (ps : Parts) (s : State) (l : Nat) (f : Frame) (tagOk : Bool) (h_regs : ps.regs = true) (h_seq : ps.seq = true) (h_ns : ps.ns = true) (h_gddr : ps.gddr = true) (h_belt : ps.belt = true) (h_tenant : ps.tenant = true) (h_net : ps.net = true) (h_power : ps.power = true) (h_wake : ps.wake = true) (h_sideband : ps.sideband = true) : (deliverFrame s l f tagOk).outside ps = s.outside ps := by
  unfold deliverFrame; (repeat' split) <;> simp [h_regs, h_seq, h_ns, h_gddr, h_belt, h_tenant, h_net, h_power, h_wake, h_sideband]

@[simp] theorem dropRx_frame (ps : Parts) (s : State) (l : Nat) (f : Frame) (h_net : ps.net = true) : (dropRx s l f).outside ps = s.outside ps := by
  simp [dropRx, h_net]

@[simp] theorem written_frame (ps : Parts) (s : State) (m : Master) (a v : Nat) (h_regs : ps.regs = true) (h_time : ps.time = true) (h_seq : ps.seq = true) (h_sand : ps.sand = true) (h_tenant : ps.tenant = true) (h_net : ps.net = true) (h_port : ps.port = true) (h_power : ps.power = true) (h_flash : ps.flash = true) (h_catching : ps.catching = true) : (written s m a v).outside ps = s.outside ps := by
  simp [written, h_regs, h_time, h_seq, h_sand, h_tenant, h_net, h_port, h_power, h_flash, h_catching]

@[simp] theorem serveImages_frame (ps : Parts) (s : State) (h_regs : ps.regs = true) (h_seq : ps.seq = true) (h_ns : ps.ns = true) (h_gddr : ps.gddr = true) (h_belt : ps.belt = true) (h_tenant : ps.tenant = true) (h_net : ps.net = true) : (serveImages s).outside ps = s.outside ps := by
  unfold serveImages; dsimp only
  rw [foldl_outside, outside_mk] <;> first
    | (intro s a; simp [h_regs, h_seq, h_ns, h_gddr, h_belt, h_tenant, h_net])
    | (rw [foldl_outside]; intro s a; split <;> first | rfl | (rw [foldl_outside]; intro s a; simp [h_regs, h_seq, h_ns, h_gddr, h_belt, h_tenant, h_net]))
    | simp [h_regs, h_seq, h_ns, h_gddr, h_belt, h_tenant, h_net]

@[simp] theorem serveFetches_frame (ps : Parts) (s : State) (h_regs : ps.regs = true) (h_gddr : ps.gddr = true) (h_belt : ps.belt = true) (h_storage : ps.storage = true) (h_port : ps.port = true) : (serveFetches s).outside ps = s.outside ps := by
  simp [serveFetches, h_regs, h_gddr, h_belt, h_storage, h_port]

@[simp] theorem serveLoads_frame (ps : Parts) (s : State) (h_regs : ps.regs = true) (h_gddr : ps.gddr = true) (h_belt : ps.belt = true) (h_storage : ps.storage = true) : (serveLoads s).outside ps = s.outside ps := by
  simp [serveLoads, h_regs, h_gddr, h_belt, h_storage]

@[simp] theorem serveHeld_frame (ps : Parts) (s : State) (h_regs : ps.regs = true) (h_seq : ps.seq = true) (h_ns : ps.ns = true) (h_gddr : ps.gddr = true) (h_belt : ps.belt = true) (h_tenant : ps.tenant = true) (h_net : ps.net = true) (h_storage : ps.storage = true) (h_port : ps.port = true) (h_serving : ps.serving = true) : (serveHeld s).outside ps = s.outside ps := by
  unfold serveHeld; rw [settleServing_frame, serveLoads_frame, serveFetches_frame, serveImages_frame, finishMirrors_frame, landWrites_frame] <;> assumption

end Sys2Proof.Machine
end

