-- ==== Sys2Proof/Laws/Commands.lean ====
section
/-! SUPPORT. What each command may change: it leaves the parts of the state outside its own mask as they were. -/

namespace Sys2Proof.Machine

/-- The state that a command leaves: the next state, or the state as it was where the command stops. -/
def nextOf (r : Res) (s : State) : State := match r with | .next t => t | _ => s

set_option linter.unusedSimpArgs false
set_option linter.unusedVariables false


theorem execTimeFrame_frame (ps : Parts) (l : Nat) (f : TimeFrame) (a : Arrival) (phase : Nat) (step : Bool) (rate : Int) (s : State) (h_regs : ps.regs = true) (h_now : ps.now = true) (h_time : ps.time = true) (h_belt : ps.belt = true) (h_net : ps.net = true) (h_boot : ps.boot = true) : (nextOf (execTimeFrame l f a phase step rate s) s).outside ps = s.outside ps := by
  simp [nextOf, execTimeFrame, h_regs, h_now, h_time, h_belt, h_net, h_boot]

theorem execDelayRemeasure_frame (ps : Parts) (l : Nat) (r : TimeReply) (s : State) (h_regs : ps.regs = true) (h_net : ps.net = true) : (nextOf (execDelayRemeasure l r s) s).outside ps = s.outside ps := by
  simp [nextOf, execDelayRemeasure, h_regs, h_net]

theorem execAcquired_frame (ps : Parts) (s : State) (h_regs : ps.regs = true) : (nextOf (execAcquired s) s).outside ps = s.outside ps := by
  simp [nextOf, execAcquired, h_regs]

theorem execHoldover_frame (ps : Parts) (s : State) (h_regs : ps.regs = true) (h_belt : ps.belt = true) : (nextOf (execHoldover s) s).outside ps = s.outside ps := by
  simp [nextOf, execHoldover, h_regs, h_belt]

theorem execTimeNotAcquired_frame (ps : Parts) (s : State) (h_regs : ps.regs = true) (h_belt : ps.belt = true) : (nextOf (execTimeNotAcquired s) s).outside ps = s.outside ps := by
  simp [nextOf, execTimeNotAcquired, h_regs, h_belt]

theorem execRefclkLost_frame (ps : Parts) (s : State) (h_regs : ps.regs = true) (h_time : ps.time = true) (h_belt : ps.belt = true) : (nextOf (execRefclkLost s) s).outside ps = s.outside ps := by
  simp [nextOf, execRefclkLost, h_regs, h_time, h_belt]

theorem execRefclkReturn_frame (ps : Parts) (s : State) (h_regs : ps.regs = true) (h_time : ps.time = true) (h_belt : ps.belt = true) : (nextOf (execRefclkReturn s) s).outside ps = s.outside ps := by
  simp [nextOf, execRefclkReturn, h_regs, h_time, h_belt]

theorem execFabricTimeAlarm_frame (ps : Parts) (s : State) (h_regs : ps.regs = true) (h_time : ps.time = true) (h_belt : ps.belt = true) (h_power : ps.power = true) (h_wake : ps.wake = true) (h_sideband : ps.sideband = true) : (nextOf (execFabricTimeAlarm s) s).outside ps = s.outside ps := by
  simp [nextOf, execFabricTimeAlarm, h_regs, h_time, h_belt, h_power, h_wake, h_sideband]

theorem execLinkTrainingComplete_frame (ps : Parts) (l : Nat) (t : Training) (s : State) (h_regs : ps.regs = true) (h_belt : ps.belt = true) (h_tenant : ps.tenant = true) (h_net : ps.net = true) : (nextOf (execLinkTrainingComplete l t s) s).outside ps = s.outside ps := by
  simp [nextOf, execLinkTrainingComplete, h_regs, h_belt, h_tenant, h_net]

theorem execModeMismatchRetry_frame (ps : Parts) (l : Nat) (t : Training) (s : State) (h_regs : ps.regs = true) (h_belt : ps.belt = true) (h_tenant : ps.tenant = true) (h_net : ps.net = true) : (nextOf (execModeMismatchRetry l t s) s).outside ps = s.outside ps := by
  simp [nextOf, execModeMismatchRetry, h_regs, h_belt, h_tenant, h_net]

theorem execLightLoss_frame (ps : Parts) (l lane : Nat) (s : State) (h_regs : ps.regs = true) (h_belt : ps.belt = true) (h_net : ps.net = true) (h_sideband : ps.sideband = true) : (nextOf (execLightLoss l lane s) s).outside ps = s.outside ps := by
  simp [nextOf, execLightLoss, h_regs, h_belt, h_net, h_sideband]

theorem execReplayLimit_frame (ps : Parts) (l : Nat) (s : State) (h_regs : ps.regs = true) (h_net : ps.net = true) : (nextOf (execReplayLimit l s) s).outside ps = s.outside ps := by
  simp [nextOf, execReplayLimit, h_regs, h_net]

theorem execTimeExchange_frame (ps : Parts) (h : PortHead) (tag : Nat) (t : ExchangeTimes) (rate : Int) (s : State) (h_regs : ps.regs = true) (h_now : ps.now = true) (h_time : ps.time = true) (h_port : ps.port = true) (h_boot : ps.boot = true) : (nextOf (execTimeExchange h tag t rate s) s).outside ps = s.outside ps := by
  unfold execTimeExchange; (repeat' split) <;> simp [nextOf, h_regs, h_now, h_time, h_port, h_boot]

theorem execProducerDoorbell_frame (ps : Parts) (h : PortHead) (tag n q : Nat) (s : State) (h_regs : ps.regs = true) (h_port : ps.port = true) (h_serving : ps.serving = true) : (nextOf (execProducerDoorbell h tag n q s) s).outside ps = s.outside ps := by
  simp [nextOf, execProducerDoorbell, h_regs, h_port, h_serving]

theorem execConsumerDoorbell_frame (ps : Parts) (h : PortHead) (tag n q : Nat) (s : State) (h_regs : ps.regs = true) (h_port : ps.port = true) (h_serving : ps.serving = true) : (nextOf (execConsumerDoorbell h tag n q s) s).outside ps = s.outside ps := by
  simp [nextOf, execConsumerDoorbell, h_regs, h_port, h_serving]

theorem execHostReadRequest_frame (ps : Parts) (n : Nat) (s : State) (h_port : ps.port = true) : (nextOf (execHostReadRequest n s) s).outside ps = s.outside ps := by
  simp [nextOf, execHostReadRequest, h_port]

theorem execHostReadResponse_frame (ps : Parts) (h : PortHead) (tag : Nat) (bytes : List Byte) (s : State) (h_regs : ps.regs = true) (h_gddr : ps.gddr = true) (h_belt : ps.belt = true) (h_storage : ps.storage = true) (h_port : ps.port = true) (h_serving : ps.serving = true) : (nextOf (execHostReadResponse h tag bytes s) s).outside ps = s.outside ps := by
  unfold execHostReadResponse; simp only [nextOf]; (first | apply withEntry_frame | apply withMove_frame | apply withCommand_frame | apply withMail_frame | apply withPort_frame | apply withFar_frame | apply withHost_frame | apply withXchg_frame | apply withControl_frame) <;> first | assumption | (intros; (repeat' split) <;> simp [nextOf, h_regs, h_gddr, h_belt, h_storage, h_port, h_serving])

theorem execHostReadTimeout_frame (ps : Parts) (tag : Nat) (s : State) (h_regs : ps.regs = true) (h_belt : ps.belt = true) (h_storage : ps.storage = true) (h_port : ps.port = true) : (nextOf (execHostReadTimeout tag s) s).outside ps = s.outside ps := by
  unfold execHostReadTimeout; (repeat' split) <;> simp [nextOf, h_regs, h_belt, h_storage, h_port]

theorem execHostWrite_frame (ps : Parts) (n : Nat) (s : State) (h_port : ps.port = true) (h_serving : ps.serving = true) : (nextOf (execHostWrite n s) s).outside ps = s.outside ps := by
  simp [nextOf, execHostWrite, h_port, h_serving]

theorem execPendingRecordPost_frame (ps : Parts) (n : Nat) (s : State) (h_belt : ps.belt = true) (h_serving : ps.serving = true) : (nextOf (execPendingRecordPost n s) s).outside ps = s.outside ps := by
  simp [nextOf, execPendingRecordPost, h_belt, h_serving]

theorem execAdmitReq_frame (ps : Parts) (q : Nat) (s : State) (h_regs : ps.regs = true) (h_gddr : ps.gddr = true) (h_belt : ps.belt = true) (h_serving : ps.serving = true) : (nextOf (execAdmitReq q s) s).outside ps = s.outside ps := by
  unfold execAdmitReq; simp only [nextOf]; (first | apply withEntry_frame | apply withMove_frame | apply withCommand_frame | apply withMail_frame | apply withPort_frame | apply withFar_frame | apply withHost_frame | apply withXchg_frame | apply withControl_frame) <;> first | assumption | (intros; (repeat' split) <;> simp [nextOf, h_regs, h_gddr, h_belt, h_serving])

theorem execCancel_frame (ps : Parts) (q : Nat) (s : State) (h_regs : ps.regs = true) (h_gddr : ps.gddr = true) (h_belt : ps.belt = true) (h_serving : ps.serving = true) : (nextOf (execCancel q s) s).outside ps = s.outside ps := by
  unfold execCancel; simp only [nextOf]; (first | apply withEntry_frame | apply withMove_frame | apply withCommand_frame | apply withMail_frame | apply withPort_frame | apply withFar_frame | apply withHost_frame | apply withXchg_frame | apply withControl_frame) <;> first | assumption | (intros; (repeat' split) <;> simp [nextOf, h_regs, h_gddr, h_belt, h_serving])

theorem execPause_frame (ps : Parts) (q : Nat) (s : State) (h_regs : ps.regs = true) (h_gddr : ps.gddr = true) (h_belt : ps.belt = true) (h_serving : ps.serving = true) : (nextOf (execPause q s) s).outside ps = s.outside ps := by
  unfold execPause; simp only [nextOf]; (first | apply withEntry_frame | apply withMove_frame | apply withCommand_frame | apply withMail_frame | apply withPort_frame | apply withFar_frame | apply withHost_frame | apply withXchg_frame | apply withControl_frame) <;> first | assumption | (intros; (repeat' split) <;> simp [nextOf, h_regs, h_gddr, h_belt, h_serving])

theorem execResume_frame (ps : Parts) (q : Nat) (s : State) (h_regs : ps.regs = true) (h_gddr : ps.gddr = true) (h_belt : ps.belt = true) (h_serving : ps.serving = true) : (nextOf (execResume q s) s).outside ps = s.outside ps := by
  unfold execResume; simp only [nextOf]; (first | apply withEntry_frame | apply withMove_frame | apply withCommand_frame | apply withMail_frame | apply withPort_frame | apply withFar_frame | apply withHost_frame | apply withXchg_frame | apply withControl_frame) <;> first | assumption | (intros; (repeat' split) <;> simp [nextOf, h_regs, h_gddr, h_belt, h_serving])

theorem execResumeRetry_frame (ps : Parts) (e : Nat) (s : State) (h_regs : ps.regs = true) (h_gddr : ps.gddr = true) (h_belt : ps.belt = true) (h_serving : ps.serving = true) : (nextOf (execResumeRetry e s) s).outside ps = s.outside ps := by
  unfold execResumeRetry; (repeat' split) <;> simp [nextOf, h_regs, h_gddr, h_belt, h_serving]

theorem execSessionParked_frame (ps : Parts) (e : Nat) (s : State) (h_regs : ps.regs = true) (h_gddr : ps.gddr = true) (h_belt : ps.belt = true) (h_serving : ps.serving = true) : (nextOf (execSessionParked e s) s).outside ps = s.outside ps := by
  unfold execSessionParked; (repeat' split) <;> simp [nextOf, h_regs, h_gddr, h_belt, h_serving]

theorem execRestoreComplete_frame (ps : Parts) (e : Nat) (bad : Option Nat) (bytes : List Byte) (s : State) (h_regs : ps.regs = true) (h_gddr : ps.gddr = true) (h_belt : ps.belt = true) (h_serving : ps.serving = true) : (nextOf (execRestoreComplete e bad bytes s) s).outside ps = s.outside ps := by
  unfold execRestoreComplete; (repeat' split) <;> simp [nextOf, h_regs, h_gddr, h_belt, h_serving]

theorem execDropParked_frame (ps : Parts) (q : Nat) (s : State) (h_regs : ps.regs = true) (h_gddr : ps.gddr = true) (h_belt : ps.belt = true) (h_serving : ps.serving = true) : (nextOf (execDropParked q s) s).outside ps = s.outside ps := by
  unfold execDropParked; simp only [nextOf]; (first | apply withEntry_frame | apply withMove_frame | apply withCommand_frame | apply withMail_frame | apply withPort_frame | apply withFar_frame | apply withHost_frame | apply withXchg_frame | apply withControl_frame) <;> first | assumption | (intros; (repeat' split) <;> simp [nextOf, h_regs, h_gddr, h_belt, h_serving])

theorem execParkedSessionExpiry_frame (ps : Parts) (e : Nat) (s : State) (h_regs : ps.regs = true) (h_gddr : ps.gddr = true) (h_belt : ps.belt = true) (h_serving : ps.serving = true) : (nextOf (execParkedSessionExpiry e s) s).outside ps = s.outside ps := by
  simp [nextOf, execParkedSessionExpiry, h_regs, h_gddr, h_belt, h_serving]

theorem execPrefixDef_frame (ps : Parts) (q : Nat) (s : State) (h_regs : ps.regs = true) (h_gddr : ps.gddr = true) (h_belt : ps.belt = true) (h_serving : ps.serving = true) : (nextOf (execPrefixDef q s) s).outside ps = s.outside ps := by
  unfold execPrefixDef; simp only [nextOf]
  apply withCommand_frame <;> try assumption
  intro c
  split
  · simp [h_regs, h_gddr, h_belt, h_serving]
  · (repeat' split) <;> first
    | (simp [h_regs, h_gddr, h_belt, h_serving]; done)
    | (simp only [finish_frame, setPrefix_frame, h_regs, h_gddr, h_belt, h_serving]
       apply foldl_outside; intro s x; simp [h_regs, h_gddr, h_belt, h_serving])

theorem execPrefixDrop_frame (ps : Parts) (q : Nat) (s : State) (h_regs : ps.regs = true) (h_gddr : ps.gddr = true) (h_belt : ps.belt = true) (h_serving : ps.serving = true) : (nextOf (execPrefixDrop q s) s).outside ps = s.outside ps := by
  unfold execPrefixDrop; simp only [nextOf]; (first | apply withEntry_frame | apply withMove_frame | apply withCommand_frame | apply withMail_frame | apply withPort_frame | apply withFar_frame | apply withHost_frame | apply withXchg_frame | apply withControl_frame) <;> first | assumption | (intros; (repeat' split) <;> simp [nextOf, h_regs, h_gddr, h_belt, h_serving])

theorem execFamilyDef_frame (ps : Parts) (q : Nat) (s : State) (h_free : ps.free = true) (h_regs : ps.regs = true) (h_serving : ps.serving = true) : (nextOf (execFamilyDef q s) s).outside ps = s.outside ps := by
  simp [nextOf, execFamilyDef, h_free, h_regs, h_serving]

theorem execFamilyDrop_frame (ps : Parts) (q : Nat) (s : State) (h_regs : ps.regs = true) (h_serving : ps.serving = true) : (nextOf (execFamilyDrop q s) s).outside ps = s.outside ps := by
  unfold execFamilyDrop; simp only [nextOf]; (first | apply withEntry_frame | apply withMove_frame | apply withCommand_frame | apply withMail_frame | apply withPort_frame | apply withFar_frame | apply withHost_frame | apply withXchg_frame | apply withControl_frame) <;> first | assumption | (intros; (repeat' split) <;> simp [nextOf, h_regs, h_serving])

theorem execPass_frame (ps : Parts) (cl p : Nat) (s : State) (h_regs : ps.regs = true) (h_seq : ps.seq = true) (h_belt : ps.belt = true) : (nextOf (execPass cl p s) s).outside ps = s.outside ps := by
  unfold execPass; simp only [nextOf]; (first | apply withEntry_frame | apply withMove_frame | apply withCommand_frame | apply withMail_frame | apply withPort_frame | apply withFar_frame | apply withHost_frame | apply withXchg_frame | apply withControl_frame) <;> first | assumption | (intros; (repeat' split) <;> simp [nextOf, h_regs, h_seq, h_belt])

theorem execPassComplete_frame (ps : Parts) (f : Nat) (s : State) (h_free : ps.free = true) (h_regs : ps.regs = true) (h_seq : ps.seq = true) (h_ns : ps.ns = true) (h_belt : ps.belt = true) : (nextOf (execPassComplete f s) s).outside ps = s.outside ps := by
  unfold execPassComplete; (repeat' split) <;> simp [nextOf, h_free, h_regs, h_seq, h_ns, h_belt]

theorem execMvec_frame (ps : Parts) (cl p : Nat) (s : State) (h_regs : ps.regs = true) (h_seq : ps.seq = true) (h_belt : ps.belt = true) : (nextOf (execMvec cl p s) s).outside ps = s.outside ps := by
  unfold execMvec; simp only [nextOf]; (first | apply withEntry_frame | apply withMove_frame | apply withCommand_frame | apply withMail_frame | apply withPort_frame | apply withFar_frame | apply withHost_frame | apply withXchg_frame | apply withControl_frame) <;> first | assumption | (intros; (repeat' split) <;> simp [nextOf, h_regs, h_seq, h_belt])

theorem execMvecComplete_frame (ps : Parts) (f : Nat) (s : State) (h_regs : ps.regs = true) (h_seq : ps.seq = true) (h_ns : ps.ns = true) (h_belt : ps.belt = true) : (nextOf (execMvecComplete f s) s).outside ps = s.outside ps := by
  unfold execMvecComplete; (repeat' split) <;> simp [nextOf, h_regs, h_seq, h_ns, h_belt]

theorem execConvert_frame (ps : Parts) (cl p : Nat) (s : State) (h_regs : ps.regs = true) (h_seq : ps.seq = true) (h_ns : ps.ns = true) (h_belt : ps.belt = true) : (nextOf (execConvert cl p s) s).outside ps = s.outside ps := by
  simp [nextOf, execConvert, h_regs, h_seq, h_ns, h_belt]

theorem execSkewConversion_frame (ps : Parts) (cl p : Nat) (s : State) (h_regs : ps.regs = true) (h_seq : ps.seq = true) (h_ns : ps.ns = true) (h_belt : ps.belt = true) : (nextOf (execSkewConversion cl p s) s).outside ps = s.outside ps := by
  simp [nextOf, execSkewConversion, h_regs, h_seq, h_ns, h_belt]

theorem execAdd_frame (ps : Parts) (cl p : Nat) (s : State) (h_regs : ps.regs = true) (h_seq : ps.seq = true) (h_ns : ps.ns = true) (h_belt : ps.belt = true) : (nextOf (execAdd cl p s) s).outside ps = s.outside ps := by
  simp [nextOf, execAdd, h_regs, h_seq, h_ns, h_belt]

theorem execMultiply_frame (ps : Parts) (cl p : Nat) (s : State) (h_regs : ps.regs = true) (h_seq : ps.seq = true) (h_ns : ps.ns = true) (h_belt : ps.belt = true) : (nextOf (execMultiply cl p s) s).outside ps = s.outside ps := by
  simp [nextOf, execMultiply, h_regs, h_seq, h_ns, h_belt]

theorem execMultiplyAdd_frame (ps : Parts) (cl p : Nat) (s : State) (h_regs : ps.regs = true) (h_seq : ps.seq = true) (h_ns : ps.ns = true) (h_belt : ps.belt = true) : (nextOf (execMultiplyAdd cl p s) s).outside ps = s.outside ps := by
  simp [nextOf, execMultiplyAdd, h_regs, h_seq, h_ns, h_belt]

theorem execMultiplyImmediate_frame (ps : Parts) (cl p : Nat) (s : State) (h_regs : ps.regs = true) (h_seq : ps.seq = true) (h_ns : ps.ns = true) (h_belt : ps.belt = true) : (nextOf (execMultiplyImmediate cl p s) s).outside ps = s.outside ps := by
  simp [nextOf, execMultiplyImmediate, h_regs, h_seq, h_ns, h_belt]

theorem execRowMaximum_frame (ps : Parts) (cl p : Nat) (s : State) (h_regs : ps.regs = true) (h_seq : ps.seq = true) (h_ns : ps.ns = true) (h_belt : ps.belt = true) : (nextOf (execRowMaximum cl p s) s).outside ps = s.outside ps := by
  simp [nextOf, execRowMaximum, h_regs, h_seq, h_ns, h_belt]

theorem execRowSum_frame (ps : Parts) (cl p : Nat) (s : State) (h_regs : ps.regs = true) (h_seq : ps.seq = true) (h_ns : ps.ns = true) (h_belt : ps.belt = true) : (nextOf (execRowSum cl p s) s).outside ps = s.outside ps := by
  simp [nextOf, execRowSum, h_regs, h_seq, h_ns, h_belt]

theorem execExp_frame (ps : Parts) (cl p : Nat) (s : State) (h_regs : ps.regs = true) (h_seq : ps.seq = true) (h_ns : ps.ns = true) (h_belt : ps.belt = true) : (nextOf (execExp cl p s) s).outside ps = s.outside ps := by
  simp [nextOf, execExp, h_regs, h_seq, h_ns, h_belt]

theorem execLn_frame (ps : Parts) (cl p : Nat) (s : State) (h_regs : ps.regs = true) (h_seq : ps.seq = true) (h_ns : ps.ns = true) (h_belt : ps.belt = true) : (nextOf (execLn cl p s) s).outside ps = s.outside ps := by
  simp [nextOf, execLn, h_regs, h_seq, h_ns, h_belt]

theorem execReciprocalSquareRoot_frame (ps : Parts) (cl p : Nat) (s : State) (h_regs : ps.regs = true) (h_seq : ps.seq = true) (h_ns : ps.ns = true) (h_belt : ps.belt = true) : (nextOf (execReciprocalSquareRoot cl p s) s).outside ps = s.outside ps := by
  simp [nextOf, execReciprocalSquareRoot, h_regs, h_seq, h_ns, h_belt]

theorem execSoftmax_frame (ps : Parts) (cl p : Nat) (s : State) (h_regs : ps.regs = true) (h_seq : ps.seq = true) (h_ns : ps.ns = true) (h_belt : ps.belt = true) : (nextOf (execSoftmax cl p s) s).outside ps = s.outside ps := by
  simp [nextOf, execSoftmax, h_regs, h_seq, h_ns, h_belt]

theorem execRmsNormalisation_frame (ps : Parts) (cl p : Nat) (s : State) (h_regs : ps.regs = true) (h_seq : ps.seq = true) (h_ns : ps.ns = true) (h_belt : ps.belt = true) : (nextOf (execRmsNormalisation cl p s) s).outside ps = s.outside ps := by
  simp [nextOf, execRmsNormalisation, h_regs, h_seq, h_ns, h_belt]

theorem execLayerNormalisation_frame (ps : Parts) (cl p : Nat) (s : State) (h_regs : ps.regs = true) (h_seq : ps.seq = true) (h_ns : ps.ns = true) (h_belt : ps.belt = true) : (nextOf (execLayerNormalisation cl p s) s).outside ps = s.outside ps := by
  simp [nextOf, execLayerNormalisation, h_regs, h_seq, h_ns, h_belt]

theorem execLogProbability_frame (ps : Parts) (cl p : Nat) (s : State) (h_regs : ps.regs = true) (h_seq : ps.seq = true) (h_ns : ps.ns = true) (h_belt : ps.belt = true) : (nextOf (execLogProbability cl p s) s).outside ps = s.outside ps := by
  simp [nextOf, execLogProbability, h_regs, h_seq, h_ns, h_belt]

theorem execSilu_frame (ps : Parts) (cl p : Nat) (s : State) (h_regs : ps.regs = true) (h_seq : ps.seq = true) (h_ns : ps.ns = true) (h_belt : ps.belt = true) : (nextOf (execSilu cl p s) s).outside ps = s.outside ps := by
  simp [nextOf, execSilu, h_regs, h_seq, h_ns, h_belt]

theorem execGelu_frame (ps : Parts) (cl p : Nat) (s : State) (h_regs : ps.regs = true) (h_seq : ps.seq = true) (h_ns : ps.ns = true) (h_belt : ps.belt = true) : (nextOf (execGelu cl p s) s).outside ps = s.outside ps := by
  simp [nextOf, execGelu, h_regs, h_seq, h_ns, h_belt]

theorem execMoment_frame (ps : Parts) (cl p : Nat) (s : State) (h_regs : ps.regs = true) (h_seq : ps.seq = true) (h_ns : ps.ns = true) (h_belt : ps.belt = true) : (nextOf (execMoment cl p s) s).outside ps = s.outside ps := by
  simp [nextOf, execMoment, h_regs, h_seq, h_ns, h_belt]

theorem execMaster_frame (ps : Parts) (cl p : Nat) (s : State) (h_regs : ps.regs = true) (h_seq : ps.seq = true) (h_ns : ps.ns = true) (h_belt : ps.belt = true) : (nextOf (execMaster cl p s) s).outside ps = s.outside ps := by
  simp [nextOf, execMaster, h_regs, h_seq, h_ns, h_belt]

theorem execCacheRule_frame (ps : Parts) (cl p : Nat) (s : State) (h_regs : ps.regs = true) (h_seq : ps.seq = true) (h_ns : ps.ns = true) (h_belt : ps.belt = true) : (nextOf (execCacheRule cl p s) s).outside ps = s.outside ps := by
  simp [nextOf, execCacheRule, h_regs, h_seq, h_ns, h_belt]

theorem execDropout_frame (ps : Parts) (cl p : Nat) (s : State) (h_regs : ps.regs = true) (h_seq : ps.seq = true) (h_ns : ps.ns = true) (h_belt : ps.belt = true) : (nextOf (execDropout cl p s) s).outside ps = s.outside ps := by
  simp [nextOf, execDropout, h_regs, h_seq, h_ns, h_belt]

theorem execNormalFillTable_frame (ps : Parts) (cl p : Nat) (s : State) (h_regs : ps.regs = true) (h_seq : ps.seq = true) (h_ns : ps.ns = true) (h_belt : ps.belt = true) : (nextOf (execNormalFillTable cl p s) s).outside ps = s.outside ps := by
  simp [nextOf, execNormalFillTable, h_regs, h_seq, h_ns, h_belt]

theorem execNormalFillTransform_frame (ps : Parts) (cl p : Nat) (s : State) (h_regs : ps.regs = true) (h_seq : ps.seq = true) (h_ns : ps.ns = true) (h_belt : ps.belt = true) : (nextOf (execNormalFillTransform cl p s) s).outside ps = s.outside ps := by
  simp [nextOf, execNormalFillTransform, h_regs, h_seq, h_ns, h_belt]

theorem execUniformFill_frame (ps : Parts) (cl p : Nat) (s : State) (h_regs : ps.regs = true) (h_seq : ps.seq = true) (h_ns : ps.ns = true) (h_belt : ps.belt = true) : (nextOf (execUniformFill cl p s) s).outside ps = s.outside ps := by
  simp [nextOf, execUniformFill, h_regs, h_seq, h_ns, h_belt]

theorem execVecComplete_frame (ps : Parts) (f : Nat) (s : State) (h_regs : ps.regs = true) (h_seq : ps.seq = true) (h_ns : ps.ns = true) (h_belt : ps.belt = true) : (nextOf (execVecComplete f s) s).outside ps = s.outside ps := by
  unfold execVecComplete; (repeat' split) <;> simp [nextOf, h_regs, h_seq, h_ns, h_belt]

theorem execAttnScores_frame (ps : Parts) (cl p : Nat) (s : State) (h_regs : ps.regs = true) (h_seq : ps.seq = true) (h_ns : ps.ns = true) (h_gddr : ps.gddr = true) (h_belt : ps.belt = true) (h_serving : ps.serving = true) : (nextOf (execAttnScores cl p s) s).outside ps = s.outside ps := by
  simp [nextOf, execAttnScores, h_regs, h_seq, h_ns, h_gddr, h_belt, h_serving]

theorem execAttnNormalise_frame (ps : Parts) (cl p : Nat) (s : State) (h_regs : ps.regs = true) (h_seq : ps.seq = true) (h_ns : ps.ns = true) (h_gddr : ps.gddr = true) (h_belt : ps.belt = true) (h_serving : ps.serving = true) : (nextOf (execAttnNormalise cl p s) s).outside ps = s.outside ps := by
  simp [nextOf, execAttnNormalise, h_regs, h_seq, h_ns, h_gddr, h_belt, h_serving]

theorem execAttnValues_frame (ps : Parts) (cl p : Nat) (s : State) (h_regs : ps.regs = true) (h_seq : ps.seq = true) (h_ns : ps.ns = true) (h_gddr : ps.gddr = true) (h_belt : ps.belt = true) (h_serving : ps.serving = true) : (nextOf (execAttnValues cl p s) s).outside ps = s.outside ps := by
  simp [nextOf, execAttnValues, h_regs, h_seq, h_ns, h_gddr, h_belt, h_serving]

theorem execAttnComplete_frame (ps : Parts) (f : Nat) (s : State) (h_regs : ps.regs = true) (h_seq : ps.seq = true) (h_ns : ps.ns = true) (h_gddr : ps.gddr = true) (h_belt : ps.belt = true) (h_serving : ps.serving = true) : (nextOf (execAttnComplete f s) s).outside ps = s.outside ps := by
  unfold execAttnComplete; (repeat' split) <;> simp [nextOf, h_regs, h_seq, h_ns, h_gddr, h_belt, h_serving]

theorem execSample_frame (ps : Parts) (cl p : Nat) (s : State) (h_free : ps.free = true) (h_regs : ps.regs = true) (h_seq : ps.seq = true) (h_ns : ps.ns = true) (h_gddr : ps.gddr = true) (h_belt : ps.belt = true) (h_serving : ps.serving = true) : (nextOf (execSample cl p s) s).outside ps = s.outside ps := by
  unfold execSample; simp only [nextOf]
  apply withEntry_frame <;> try assumption
  intro i e
  (repeat' split) <;> simp [h_free, h_regs, h_seq, h_ns, h_gddr, h_belt, h_serving]

theorem execSampleComplete_frame (ps : Parts) (f : Nat) (s : State) (h_regs : ps.regs = true) (h_seq : ps.seq = true) (h_gddr : ps.gddr = true) (h_belt : ps.belt = true) (h_serving : ps.serving = true) : (nextOf (execSampleComplete f s) s).outside ps = s.outside ps := by
  unfold execSampleComplete; simp only [nextOf]; (try dsimp only)
  (repeat' split) <;> simp [h_regs, h_seq, h_gddr, h_belt, h_serving]

theorem execExchangeFixed_frame (ps : Parts) (cl p : Nat) (s : State) (h_regs : ps.regs = true) (h_seq : ps.seq = true) (h_ns : ps.ns = true) (h_belt : ps.belt = true) (h_tenant : ps.tenant = true) (h_net : ps.net = true) : (nextOf (execExchangeFixed cl p s) s).outside ps = s.outside ps := by
  simp [nextOf, execExchangeFixed, h_regs, h_seq, h_ns, h_belt, h_tenant, h_net]

theorem execDispatch_frame (ps : Parts) (cl p : Nat) (s : State) (h_regs : ps.regs = true) (h_seq : ps.seq = true) (h_ns : ps.ns = true) (h_belt : ps.belt = true) (h_tenant : ps.tenant = true) (h_net : ps.net = true) : (nextOf (execDispatch cl p s) s).outside ps = s.outside ps := by
  simp [nextOf, execDispatch, h_regs, h_seq, h_ns, h_belt, h_tenant, h_net]

theorem execReturnRows_frame (ps : Parts) (cl p : Nat) (s : State) (h_regs : ps.regs = true) (h_seq : ps.seq = true) (h_ns : ps.ns = true) (h_belt : ps.belt = true) (h_tenant : ps.tenant = true) (h_net : ps.net = true) : (nextOf (execReturnRows cl p s) s).outside ps = s.outside ps := by
  simp [nextOf, execReturnRows, h_regs, h_seq, h_ns, h_belt, h_tenant, h_net]

theorem execCombine_frame (ps : Parts) (cl p : Nat) (s : State) (h_regs : ps.regs = true) (h_seq : ps.seq = true) (h_belt : ps.belt = true) : (nextOf (execCombine cl p s) s).outside ps = s.outside ps := by
  simp [nextOf, execCombine, h_regs, h_seq, h_belt]

theorem execXchgComplete_frame (ps : Parts) (f : Nat) (s : State) (h_regs : ps.regs = true) (h_seq : ps.seq = true) (h_ns : ps.ns = true) (h_belt : ps.belt = true) : (nextOf (execXchgComplete f s) s).outside ps = s.outside ps := by
  unfold execXchgComplete; (repeat' split) <;> simp [nextOf, h_regs, h_seq, h_ns, h_belt]

theorem execXchgFrame_frame (ps : Parts) (l : Nat) (f : Frame) (a : Arrival) (tagOk : Bool) (s : State) (h_regs : ps.regs = true) (h_seq : ps.seq = true) (h_ns : ps.ns = true) (h_gddr : ps.gddr = true) (h_belt : ps.belt = true) (h_tenant : ps.tenant = true) (h_net : ps.net = true) (h_power : ps.power = true) (h_wake : ps.wake = true) (h_sideband : ps.sideband = true) : (nextOf (execXchgFrame l f a tagOk s) s).outside ps = s.outside ps := by
  simp [nextOf, execXchgFrame, h_regs, h_seq, h_ns, h_gddr, h_belt, h_tenant, h_net, h_power, h_wake, h_sideband]

theorem execGddr7CrcRetry_frame (ps : Parts) (a n attempt : Nat) (write : Bool) (s : State) (h_regs : ps.regs = true) (h_gddr : ps.gddr = true) (h_belt : ps.belt = true) : (nextOf (execGddr7CrcRetry a n attempt write s) s).outside ps = s.outside ps := by
  simp [nextOf, execGddr7CrcRetry, h_regs, h_gddr, h_belt]

theorem execCorrectionWriteBack_frame (ps : Parts) (a : Nat) (s : State) (h_ns : ps.ns = true) : (nextOf (execCorrectionWriteBack a s) s).outside ps = s.outside ps := by
  simp [nextOf, execCorrectionWriteBack, h_ns]

theorem execCommandAddressParityError_frame (ps : Parts) (w : Nat) (s : State) (h_regs : ps.regs = true) : (nextOf (execCommandAddressParityError w s) s).outside ps = s.outside ps := by
  simp [nextOf, execCommandAddressParityError, h_regs]

theorem execSandAgeing_frame (ps : Parts) (w : Nat) (s : State) (h_regs : ps.regs = true) (h_sand : ps.sand = true) : (nextOf (execSandAgeing w s) s).outside ps = s.outside ps := by
  simp [nextOf, execSandAgeing, h_regs, h_sand]

theorem execSanded_frame (ps : Parts) (x : SandRun) (s : State) (h_regs : ps.regs = true) (h_gddr : ps.gddr = true) (h_sand : ps.sand = true) (h_belt : ps.belt = true) : (nextOf (execSanded x s) s).outside ps = s.outside ps := by
  unfold execSanded; (repeat' split) <;> simp [nextOf, h_regs, h_gddr, h_sand, h_belt]

theorem execTagSweepComplete_frame (ps : Parts) (d k : Nat) (s : State) (h_regs : ps.regs = true) (h_ns : ps.ns = true) (h_tenant : ps.tenant = true) : (nextOf (execTagSweepComplete d k s) s).outside ps = s.outside ps := by
  unfold execTagSweepComplete; dsimp only; (repeat' split) <;> simp [nextOf, h_regs, h_ns, h_tenant]

theorem execPeriodicReplan_frame (ps : Parts) (s : State) (h_power : ps.power = true) : (nextOf (execPeriodicReplan s) s).outside ps = s.outside ps := by
  simp [nextOf, execPeriodicReplan, h_power]

theorem execControlLoop_frame (ps : Parts) (r : LoopReadings) (s : State) (h_free : ps.free = true) (h_regs : ps.regs = true) (h_time : ps.time = true) (h_ns : ps.ns = true) (h_gddr : ps.gddr = true) (h_table : ps.table = true) (h_belt : ps.belt = true) (h_net : ps.net = true) (h_port : ps.port = true) (h_power : ps.power = true) (h_sideband : ps.sideband = true) : (nextOf (execControlLoop r s) s).outside ps = s.outside ps := by
  simp [nextOf, execControlLoop, h_free, h_regs, h_time, h_ns, h_gddr, h_table, h_belt, h_net, h_port, h_power, h_sideband]

theorem execMeasurementLost_frame (ps : Parts) (i : Nat) (s : State) (h_regs : ps.regs = true) (h_belt : ps.belt = true) (h_power : ps.power = true) : (nextOf (execMeasurementLost i s) s).outside ps = s.outside ps := by
  simp [nextOf, execMeasurementLost, h_regs, h_belt, h_power]

theorem execPowerEstimateDisagrees_frame (ps : Parts) (s : State) (h_regs : ps.regs = true) (h_belt : ps.belt = true) : (nextOf (execPowerEstimateDisagrees s) s).outside ps = s.outside ps := by
  simp [nextOf, execPowerEstimateDisagrees, h_regs, h_belt]

theorem execDroop_frame (ps : Parts) (d : Nat) (s : State) (h_regs : ps.regs = true) (h_power : ps.power = true) : (nextOf (execDroop d s) s).outside ps = s.outside ps := by
  simp [nextOf, execDroop, h_regs, h_power]

theorem execDroopRecovery_frame (ps : Parts) (d n : Nat) (s : State) (h_regs : ps.regs = true) (h_power : ps.power = true) : (nextOf (execDroopRecovery d n s) s).outside ps = s.outside ps := by
  simp [nextOf, execDroopRecovery, h_regs, h_power]

theorem execVstepAck_frame (ps : Parts) (p : Nat) (s : State) (h_regs : ps.regs = true) (h_power : ps.power = true) : (nextOf (execVstepAck p s) s).outside ps = s.outside ps := by
  simp [nextOf, execVstepAck, h_regs, h_power]

theorem execRegulatorStepTimeout_frame (ps : Parts) (p : Nat) (s : State) (h_regs : ps.regs = true) (h_belt : ps.belt = true) (h_power : ps.power = true) : (nextOf (execRegulatorStepTimeout p s) s).outside ps = s.outside ps := by
  simp [nextOf, execRegulatorStepTimeout, h_regs, h_belt, h_power]

theorem execThermalTrip_frame (ps : Parts) (d : Nat) (s : State) (h_regs : ps.regs = true) (h_ns : ps.ns = true) (h_gddr : ps.gddr = true) (h_belt : ps.belt = true) (h_tripped : ps.tripped = true) (h_catching : ps.catching = true) (h_sideband : ps.sideband = true) (h_board : ps.board = true) : (nextOf (execThermalTrip d s) s).outside ps = s.outside ps := by
  simp [nextOf, execThermalTrip, h_regs, h_ns, h_gddr, h_belt, h_tripped, h_catching, h_sideband, h_board]

theorem execTargetSet_frame (ps : Parts) (h : PortHead) (tag n : Nat) (record : List Byte) (s : State) (h_regs : ps.regs = true) (h_storage : ps.storage = true) (h_port : ps.port = true) : (nextOf (execTargetSet h tag n record s) s).outside ps = s.outside ps := by
  simp [nextOf, execTargetSet, h_regs, h_storage, h_port]

theorem execTargetClear_frame (ps : Parts) (h : PortHead) (tag n : Nat) (s : State) (h_regs : ps.regs = true) (h_storage : ps.storage = true) (h_port : ps.port = true) : (nextOf (execTargetClear h tag n s) s).outside ps = s.outside ps := by
  simp [nextOf, execTargetClear, h_regs, h_storage, h_port]

theorem execStorageFrame_frame (ps : Parts) (l : Nat) (f : StorageFrame) (fill sent : Nat) (s : State) (h_regs : ps.regs = true) (h_net : ps.net = true) : (nextOf (execStorageFrame l f fill sent s) s).outside ps = s.outside ps := by
  simp [nextOf, execStorageFrame, h_regs, h_net]

theorem execCongestionNotification_frame (ps : Parts) (n : Nat) (s : State) (h_storage : ps.storage = true) : (nextOf (execCongestionNotification n s) s).outside ps = s.outside ps := by
  unfold execCongestionNotification; (repeat' split) <;> simp [nextOf, h_storage]

theorem execCongestionRecovery_frame (ps : Parts) (n : Nat) (s : State) (h_storage : ps.storage = true) : (nextOf (execCongestionRecovery n s) s).outside ps = s.outside ps := by
  unfold execCongestionRecovery; (repeat' split) <;> simp [nextOf, h_storage]

theorem execLoad_frame (ps : Parts) (h : PortHead) (tag list n : Nat) (s : State) (h_regs : ps.regs = true) (h_gddr : ps.gddr = true) (h_belt : ps.belt = true) (h_storage : ps.storage = true) (h_port : ps.port = true) : (nextOf (execLoad h tag list n s) s).outside ps = s.outside ps := by
  unfold execLoad; simp only [nextOf]; (first | apply withEntry_frame | apply withMove_frame | apply withCommand_frame | apply withMail_frame | apply withPort_frame | apply withFar_frame | apply withHost_frame | apply withXchg_frame | apply withControl_frame) <;> first | assumption | (intros; (repeat' split) <;> simp [nextOf, h_regs, h_gddr, h_belt, h_storage, h_port])

theorem execLoadExtent_frame (ps : Parts) (n off : Nat) (x : ExtentEnd) (s : State) (h_regs : ps.regs = true) (h_gddr : ps.gddr = true) (h_belt : ps.belt = true) (h_storage : ps.storage = true) : (nextOf (execLoadExtent n off x s) s).outside ps = s.outside ps := by
  unfold execLoadExtent; (repeat' split) <;> simp [nextOf, h_regs, h_gddr, h_belt, h_storage]

theorem execPriorityPause_frame (ps : Parts) (l prio : Nat) (s : State) (h_net : ps.net = true) : (nextOf (execPriorityPause l prio s) s).outside ps = s.outside ps := by
  simp [nextOf, execPriorityPause, h_net]

theorem execPriorityPauseExpiry_frame (ps : Parts) (l : Nat) (s : State) (h_net : ps.net = true) (h_storage : ps.storage = true) : (nextOf (execPriorityPauseExpiry l s) s).outside ps = s.outside ps := by
  simp [nextOf, execPriorityPauseExpiry, h_net, h_storage]

theorem execFarPut_frame (ps : Parts) (h : PortHead) (tag target a raddr rkey exts : Nat) (s : State) (h_regs : ps.regs = true) (h_belt : ps.belt = true) (h_storage : ps.storage = true) (h_port : ps.port = true) : (nextOf (execFarPut h tag target a raddr rkey exts s) s).outside ps = s.outside ps := by
  unfold execFarPut; simp only [nextOf]
  apply withMail_frame <;> try assumption
  intro s
  apply withFar_frame <;> try assumption
  intro s x
  split
  · simp [h_regs, h_belt, h_storage, h_port]
  · first
    | (simp [h_regs, h_belt, h_storage, h_port]; done)
    | (split
       · simp [h_regs, h_belt, h_storage, h_port]
       · rename_i hs
         have h2 := takeSerial_frame ps _ _ h_regs _ hs
         simp [h_regs, h_belt, h_storage, h_port]; exact h2)

theorem execFarGet_frame (ps : Parts) (h : PortHead) (tag target a raddr rkey exts serial : Nat) (s : State) (h_regs : ps.regs = true) (h_belt : ps.belt = true) (h_storage : ps.storage = true) (h_port : ps.port = true) : (nextOf (execFarGet h tag target a raddr rkey exts serial s) s).outside ps = s.outside ps := by
  unfold execFarGet; simp only [nextOf]
  apply withMail_frame <;> try assumption
  intro s
  apply withFar_frame <;> try assumption
  intro s x
  split
  · simp [h_regs, h_belt, h_storage, h_port]
  · first
    | (simp [h_regs, h_belt, h_storage, h_port]; done)
    | (split
       · simp [h_regs, h_belt, h_storage, h_port]
       · rename_i hs
         have h2 := takeSerial_frame ps _ _ h_regs _ hs
         simp [h_regs, h_belt, h_storage, h_port]; exact h2)

theorem execFarTransferComplete_frame (ps : Parts) (n : Nat) (ends : List ExtentEnd) (s : State) (h_regs : ps.regs = true) (h_gddr : ps.gddr = true) (h_belt : ps.belt = true) (h_storage : ps.storage = true) : (nextOf (execFarTransferComplete n ends s) s).outside ps = s.outside ps := by
  unfold execFarTransferComplete; (repeat' split) <;> simp [nextOf, h_regs, h_gddr, h_belt, h_storage]

theorem execStore_frame (ps : Parts) (h : PortHead) (tag a caddr n slot : Nat) (s : State) (h_regs : ps.regs = true) (h_belt : ps.belt = true) (h_storage : ps.storage = true) (h_port : ps.port = true) : (nextOf (execStore h tag a caddr n slot s) s).outside ps = s.outside ps := by
  unfold execStore; simp only [nextOf]; (first | apply withEntry_frame | apply withMove_frame | apply withCommand_frame | apply withMail_frame | apply withPort_frame | apply withFar_frame | apply withHost_frame | apply withXchg_frame | apply withControl_frame) <;> first | assumption | (intros; (repeat' split) <;> simp [nextOf, h_regs, h_belt, h_storage, h_port])

theorem execFetch_frame (ps : Parts) (h : PortHead) (tag a caddr n slot : Nat) (s : State) (h_regs : ps.regs = true) (h_gddr : ps.gddr = true) (h_belt : ps.belt = true) (h_storage : ps.storage = true) (h_port : ps.port = true) : (nextOf (execFetch h tag a caddr n slot s) s).outside ps = s.outside ps := by
  unfold execFetch; simp only [nextOf]
  apply withMail_frame <;> try assumption
  intro s
  apply withHost_frame <;> try assumption
  intro s x
  simp [h_regs, h_gddr, h_belt, h_storage, h_port]

theorem execStoreComplete_frame (ps : Parts) (n : Nat) (s : State) (h_regs : ps.regs = true) (h_belt : ps.belt = true) (h_storage : ps.storage = true) : (nextOf (execStoreComplete n s) s).outside ps = s.outside ps := by
  simp [nextOf, execStoreComplete, h_regs, h_belt, h_storage]

theorem execFetchComplete_frame (ps : Parts) (n : Nat) (s : State) (h_regs : ps.regs = true) (h_belt : ps.belt = true) (h_storage : ps.storage = true) : (nextOf (execFetchComplete n s) s).outside ps = s.outside ps := by
  simp [nextOf, execFetchComplete, h_regs, h_belt, h_storage]

theorem execReduceThroughput_frame (ps : Parts) (cl p : Nat) (s : State) (h_regs : ps.regs = true) (h_seq : ps.seq = true) (h_ns : ps.ns = true) (h_belt : ps.belt = true) (h_tenant : ps.tenant = true) (h_net : ps.net = true) : (nextOf (execReduceThroughput cl p s) s).outside ps = s.outside ps := by
  simp [nextOf, execReduceThroughput, h_regs, h_seq, h_ns, h_belt, h_tenant, h_net]

theorem execReduceOrdered_frame (ps : Parts) (cl p : Nat) (s : State) (h_regs : ps.regs = true) (h_seq : ps.seq = true) (h_ns : ps.ns = true) (h_belt : ps.belt = true) (h_tenant : ps.tenant = true) (h_net : ps.net = true) : (nextOf (execReduceOrdered cl p s) s).outside ps = s.outside ps := by
  simp [nextOf, execReduceOrdered, h_regs, h_seq, h_ns, h_belt, h_tenant, h_net]

theorem execFlagSync_frame (ps : Parts) (cl p : Nat) (s : State) (h_regs : ps.regs = true) (h_seq : ps.seq = true) (h_ns : ps.ns = true) (h_belt : ps.belt = true) (h_tenant : ps.tenant = true) (h_net : ps.net = true) : (nextOf (execFlagSync cl p s) s).outside ps = s.outside ps := by
  simp [nextOf, execFlagSync, h_regs, h_seq, h_ns, h_belt, h_tenant, h_net]

theorem execReduceComplete_frame (ps : Parts) (f : Nat) (s : State) (h_regs : ps.regs = true) (h_seq : ps.seq = true) (h_ns : ps.ns = true) (h_belt : ps.belt = true) (h_net : ps.net = true) : (nextOf (execReduceComplete f s) s).outside ps = s.outside ps := by
  unfold execReduceComplete; (repeat' split) <;> simp [nextOf, h_regs, h_seq, h_ns, h_belt, h_net]

theorem execReductionTimeout_frame (ps : Parts) (f : Nat) (s : State) (h_regs : ps.regs = true) (h_seq : ps.seq = true) (h_ns : ps.ns = true) (h_belt : ps.belt = true) (h_net : ps.net = true) : (nextOf (execReductionTimeout f s) s).outside ps = s.outside ps := by
  unfold execReductionTimeout; (repeat' split) <;> simp [nextOf, h_regs, h_seq, h_ns, h_belt, h_net]

theorem execBucketOrphaned_frame (ps : Parts) (n : Nat) (s : State) (h_regs : ps.regs = true) (h_belt : ps.belt = true) (h_net : ps.net = true) : (nextOf (execBucketOrphaned n s) s).outside ps = s.outside ps := by
  unfold execBucketOrphaned; (repeat' split) <;> simp [nextOf, h_regs, h_belt, h_net]

theorem execReduceFrame_frame (ps : Parts) (l : Nat) (f : Frame) (a : Arrival) (s : State) (h_regs : ps.regs = true) (h_seq : ps.seq = true) (h_ns : ps.ns = true) (h_belt : ps.belt = true) (h_tenant : ps.tenant = true) (h_net : ps.net = true) (h_power : ps.power = true) (h_wake : ps.wake = true) (h_sideband : ps.sideband = true) : (nextOf (execReduceFrame l f a s) s).outside ps = s.outside ps := by
  simp [nextOf, execReduceFrame, h_regs, h_seq, h_ns, h_belt, h_tenant, h_net, h_power, h_wake, h_sideband]

theorem execGatherRequest_frame (ps : Parts) (l : Nat) (f : Frame) (a : Arrival) (s : State) (h_regs : ps.regs = true) (h_gddr : ps.gddr = true) (h_belt : ps.belt = true) (h_tenant : ps.tenant = true) (h_net : ps.net = true) (h_power : ps.power = true) (h_wake : ps.wake = true) (h_sideband : ps.sideband = true) : (nextOf (execGatherRequest l f a s) s).outside ps = s.outside ps := by
  simp [nextOf, execGatherRequest, h_regs, h_gddr, h_belt, h_tenant, h_net, h_power, h_wake, h_sideband]

theorem execGatherResponse_frame (ps : Parts) (l : Nat) (f : Frame) (a : Arrival) (s : State) (h_regs : ps.regs = true) (h_seq : ps.seq = true) (h_ns : ps.ns = true) (h_belt : ps.belt = true) (h_tenant : ps.tenant = true) (h_net : ps.net = true) (h_power : ps.power = true) (h_wake : ps.wake = true) (h_sideband : ps.sideband = true) : (nextOf (execGatherResponse l f a s) s).outside ps = s.outside ps := by
  simp [nextOf, execGatherResponse, h_regs, h_seq, h_ns, h_belt, h_tenant, h_net, h_power, h_wake, h_sideband]

theorem execGather_frame (ps : Parts) (cl p : Nat) (s : State) (h_regs : ps.regs = true) (h_seq : ps.seq = true) (h_ns : ps.ns = true) (h_gddr : ps.gddr = true) (h_belt : ps.belt = true) (h_tenant : ps.tenant = true) (h_net : ps.net = true) : (nextOf (execGather cl p s) s).outside ps = s.outside ps := by
  unfold execGather; simp only [nextOf]; (first | apply withEntry_frame | apply withMove_frame | apply withCommand_frame | apply withMail_frame | apply withPort_frame | apply withFar_frame | apply withHost_frame | apply withXchg_frame | apply withControl_frame) <;> first | assumption | (intros; (repeat' split) <;> simp [nextOf, h_regs, h_seq, h_ns, h_gddr, h_belt, h_tenant, h_net])

theorem execGatherComplete_frame (ps : Parts) (f : Nat) (s : State) (h_regs : ps.regs = true) (h_seq : ps.seq = true) (h_belt : ps.belt = true) : (nextOf (execGatherComplete f s) s).outside ps = s.outside ps := by
  unfold execGatherComplete; (repeat' split) <;> simp [nextOf, h_regs, h_seq, h_belt]

theorem execGatherSourceLost_frame (ps : Parts) (f n : Nat) (s : State) (h_regs : ps.regs = true) (h_seq : ps.seq = true) (h_ns : ps.ns = true) (h_belt : ps.belt = true) : (nextOf (execGatherSourceLost f n s) s).outside ps = s.outside ps := by
  unfold execGatherSourceLost; (repeat' split) <;> simp [nextOf, h_regs, h_seq, h_ns, h_belt]

theorem execWaitTurn_frame (ps : Parts) (cl p : Nat) (s : State) (h_regs : ps.regs = true) (h_seq : ps.seq = true) (h_belt : ps.belt = true) : (nextOf (execWaitTurn cl p s) s).outside ps = s.outside ps := by
  simp [nextOf, execWaitTurn, h_regs, h_seq, h_belt]

theorem execWaitToken_frame (ps : Parts) (cl p : Nat) (s : State) (h_regs : ps.regs = true) (h_seq : ps.seq = true) (h_belt : ps.belt = true) : (nextOf (execWaitToken cl p s) s).outside ps = s.outside ps := by
  simp [nextOf, execWaitToken, h_regs, h_seq, h_belt]

theorem execTokenTimeout_frame (ps : Parts) (cl p : Nat) (s : State) (h_regs : ps.regs = true) (h_seq : ps.seq = true) (h_belt : ps.belt = true) : (nextOf (execTokenTimeout cl p s) s).outside ps = s.outside ps := by
  simp [nextOf, execTokenTimeout, h_regs, h_seq, h_belt]

theorem execGate_frame (ps : Parts) (cl p : Nat) (s : State) (h_regs : ps.regs = true) (h_seq : ps.seq = true) (h_ns : ps.ns = true) (h_belt : ps.belt = true) : (nextOf (execGate cl p s) s).outside ps = s.outside ps := by
  simp [nextOf, execGate, h_regs, h_seq, h_ns, h_belt]

theorem execHint_frame (ps : Parts) (cl p : Nat) (s : State) (h_regs : ps.regs = true) (h_seq : ps.seq = true) (h_belt : ps.belt = true) (h_power : ps.power = true) : (nextOf (execHint cl p s) s).outside ps = s.outside ps := by
  simp [nextOf, execHint, h_regs, h_seq, h_belt, h_power]

theorem execMark_frame (ps : Parts) (cl p : Nat) (s : State) (h_regs : ps.regs = true) (h_seq : ps.seq = true) (h_ns : ps.ns = true) (h_belt : ps.belt = true) : (nextOf (execMark cl p s) s).outside ps = s.outside ps := by
  simp [nextOf, execMark, h_regs, h_seq, h_ns, h_belt]

theorem execJump_frame (ps : Parts) (cl p : Nat) (s : State) (h_regs : ps.regs = true) (h_seq : ps.seq = true) (h_belt : ps.belt = true) : (nextOf (execJump cl p s) s).outside ps = s.outside ps := by
  simp [nextOf, execJump, h_regs, h_seq, h_belt]

theorem execEndEntry_frame (ps : Parts) (cl p : Nat) (s : State) (h_regs : ps.regs = true) (h_seq : ps.seq = true) (h_belt : ps.belt = true) : (nextOf (execEndEntry cl p s) s).outside ps = s.outside ps := by
  simp [nextOf, execEndEntry, h_regs, h_seq, h_belt]

theorem execPriorityAgeing_frame (ps : Parts) (cl : Nat) (x : Contender) (s : State) (h_seq : ps.seq = true) : (nextOf (execPriorityAgeing cl x s) s).outside ps = s.outside ps := by
  simp [nextOf, execPriorityAgeing, h_seq]

theorem execMove_frame (ps : Parts) (cl p : Nat) (s : State) (h_regs : ps.regs = true) (h_seq : ps.seq = true) (h_gddr : ps.gddr = true) (h_belt : ps.belt = true) : (nextOf (execMove cl p s) s).outside ps = s.outside ps := by
  unfold execMove; simp only [nextOf]; (first | apply withEntry_frame | apply withMove_frame | apply withCommand_frame | apply withMail_frame | apply withPort_frame | apply withFar_frame | apply withHost_frame | apply withXchg_frame | apply withControl_frame) <;> first | assumption | (intros; dsimp only; (repeat' split) <;> simp [nextOf, h_regs, h_seq, h_gddr, h_belt])

theorem execActivationSpill_frame (ps : Parts) (cl p : Nat) (s : State) (h_regs : ps.regs = true) (h_seq : ps.seq = true) (h_gddr : ps.gddr = true) (h_belt : ps.belt = true) : (nextOf (execActivationSpill cl p s) s).outside ps = s.outside ps := by
  unfold execActivationSpill; simp only [nextOf]; (first | apply withEntry_frame | apply withMove_frame | apply withCommand_frame | apply withMail_frame | apply withPort_frame | apply withFar_frame | apply withHost_frame | apply withXchg_frame | apply withControl_frame) <;> first | assumption | (intros; dsimp only; (repeat' split) <;> simp [nextOf, h_regs, h_seq, h_gddr, h_belt])

theorem execSpillExpand_frame (ps : Parts) (cl p : Nat) (s : State) (h_regs : ps.regs = true) (h_seq : ps.seq = true) (h_gddr : ps.gddr = true) (h_belt : ps.belt = true) : (nextOf (execSpillExpand cl p s) s).outside ps = s.outside ps := by
  unfold execSpillExpand; simp only [nextOf]; (first | apply withEntry_frame | apply withMove_frame | apply withCommand_frame | apply withMail_frame | apply withPort_frame | apply withFar_frame | apply withHost_frame | apply withXchg_frame | apply withControl_frame) <;> first | assumption | (intros; dsimp only; (repeat' split) <;> simp [nextOf, h_regs, h_seq, h_gddr, h_belt])

theorem execMoveComplete_frame (ps : Parts) (f : Nat) (s : State) (h_regs : ps.regs = true) (h_seq : ps.seq = true) (h_ns : ps.ns = true) (h_gddr : ps.gddr = true) (h_table : ps.table = true) (h_belt : ps.belt = true) : (nextOf (execMoveComplete f s) s).outside ps = s.outside ps := by
  unfold execMoveComplete; (repeat' split) <;> simp [nextOf, h_regs, h_seq, h_ns, h_gddr, h_table, h_belt]

theorem execSwitchPiece_frame (ps : Parts) (l : Nat) (f : Frame) (a : Arrival) (s : State) (h_regs : ps.regs = true) (h_seq : ps.seq = true) (h_ns : ps.ns = true) (h_belt : ps.belt = true) (h_tenant : ps.tenant = true) (h_net : ps.net = true) (h_power : ps.power = true) (h_wake : ps.wake = true) (h_sideband : ps.sideband = true) : (nextOf (execSwitchPiece l f a s) s).outside ps = s.outside ps := by
  simp [nextOf, execSwitchPiece, h_regs, h_seq, h_ns, h_belt, h_tenant, h_net, h_power, h_wake, h_sideband]

theorem execSwitchDescriptor_frame (ps : Parts) (w : Nat) (s : State) (h_regs : ps.regs = true) (h_seq : ps.seq = true) (h_ns : ps.ns = true) (h_gddr : ps.gddr = true) (h_belt : ps.belt = true) (h_tenant : ps.tenant = true) (h_net : ps.net = true) : (nextOf (execSwitchDescriptor w s) s).outside ps = s.outside ps := by
  unfold execSwitchDescriptor; dsimp only; (repeat' split) <;> simp [nextOf, h_regs, h_seq, h_ns, h_gddr, h_belt, h_tenant, h_net]

theorem execSwitchOverrun_frame (ps : Parts) (w : Nat) (s : State) (h_regs : ps.regs = true) (h_belt : ps.belt = true) : (nextOf (execSwitchOverrun w s) s).outside ps = s.outside ps := by
  simp [nextOf, execSwitchOverrun, h_regs, h_belt]

theorem execKeyZeroise_frame (ps : Parts) (k : Nat) (s : State) (h_regs : ps.regs = true) (h_seq : ps.seq = true) (h_gddr : ps.gddr = true) (h_sand : ps.sand = true) (h_belt : ps.belt = true) (h_tenant : ps.tenant = true) (h_keys : ps.keys = true) (h_net : ps.net = true) (h_storage : ps.storage = true) (h_port : ps.port = true) (h_serving : ps.serving = true) : (nextOf (execKeyZeroise k s) s).outside ps = s.outside ps := by
  simp [nextOf, execKeyZeroise, h_regs, h_seq, h_gddr, h_sand, h_belt, h_tenant, h_keys, h_net, h_storage, h_port, h_serving]

theorem execForcedZeroise_frame (ps : Parts) (k : Nat) (s : State) (h_regs : ps.regs = true) (h_seq : ps.seq = true) (h_gddr : ps.gddr = true) (h_sand : ps.sand = true) (h_belt : ps.belt = true) (h_tenant : ps.tenant = true) (h_keys : ps.keys = true) (h_net : ps.net = true) (h_storage : ps.storage = true) (h_port : ps.port = true) (h_serving : ps.serving = true) : (nextOf (execForcedZeroise k s) s).outside ps = s.outside ps := by
  simp [nextOf, execForcedZeroise, h_regs, h_seq, h_gddr, h_sand, h_belt, h_tenant, h_keys, h_net, h_storage, h_port, h_serving]

theorem execPartingComplete_frame (ps : Parts) (k : Nat) (s : State) (h_regs : ps.regs = true) (h_belt : ps.belt = true) (h_tenant : ps.tenant = true) (h_reclaim : ps.reclaim = true) : (nextOf (execPartingComplete k s) s).outside ps = s.outside ps := by
  simp [nextOf, execPartingComplete, h_regs, h_belt, h_tenant, h_reclaim]

theorem execAttestationRequest_frame (ps : Parts) (h : PortHead) (tag : Nat) (nonce : List Byte) (s : State) (h_free : ps.free = true) (h_regs : ps.regs = true) (h_port : ps.port = true) : (nextOf (execAttestationRequest h tag nonce s) s).outside ps = s.outside ps := by
  simp [nextOf, execAttestationRequest, h_free, h_regs, h_port]

theorem execKeyEstablishment_frame (ps : Parts) (h : PortHead) (tag : Nat) (ct : List Byte) (s : State) (h_regs : ps.regs = true) (h_port : ps.port = true) : (nextOf (execKeyEstablishment h tag ct s) s).outside ps = s.outside ps := by
  unfold execKeyEstablishment; simp only [nextOf]; (first | apply withEntry_frame | apply withMove_frame | apply withCommand_frame | apply withMail_frame | apply withPort_frame | apply withFar_frame | apply withHost_frame | apply withXchg_frame | apply withControl_frame) <;> first | assumption | (intros; (repeat' split) <;> simp [nextOf, h_regs, h_port])

theorem execQuote_frame (ps : Parts) (h : PortHead) (tag : Nat) (nonce : List Byte) (s : State) (h_free : ps.free = true) (h_regs : ps.regs = true) (h_port : ps.port = true) : (nextOf (execQuote h tag nonce s) s).outside ps = s.outside ps := by
  simp [nextOf, execQuote, h_free, h_regs, h_port]

theorem execIdentityReq_frame (ps : Parts) (h : PortHead) (tag : Nat) (s : State) (h_regs : ps.regs = true) (h_port : ps.port = true) : (nextOf (execIdentityReq h tag s) s).outside ps = s.outside ps := by
  simp [nextOf, execIdentityReq, h_regs, h_port]

theorem execSlotLoad_frame (ps : Parts) (h : PortHead) (tag slot conf parts : Nat) (key : List Byte) (s : State) (h_regs : ps.regs = true) (h_tenant : ps.tenant = true) (h_port : ps.port = true) : (nextOf (execSlotLoad h tag slot conf parts key s) s).outside ps = s.outside ps := by
  simp [nextOf, execSlotLoad, h_regs, h_tenant, h_port]

theorem execSlotPart_frame (ps : Parts) (h : PortHead) (tag slot turn : Nat) (s : State) (h_regs : ps.regs = true) (h_belt : ps.belt = true) (h_port : ps.port = true) : (nextOf (execSlotPart h tag slot turn s) s).outside ps = s.outside ps := by
  simp [nextOf, execSlotPart, h_regs, h_belt, h_port]

theorem execExtend_frame (ps : Parts) (h : PortHead) (tag r : Nat) (bytes : List Byte) (s : State) (h_regs : ps.regs = true) (h_port : ps.port = true) : (nextOf (execExtend h tag r bytes s) s).outside ps = s.outside ps := by
  simp [nextOf, execExtend, h_regs, h_port]

theorem execRekey_frame (ps : Parts) (h : PortHead) (tag : Nat) (s : State) (h_regs : ps.regs = true) (h_port : ps.port = true) : (nextOf (execRekey h tag s) s).outside ps = s.outside ps := by
  simp [nextOf, execRekey, h_regs, h_port]

theorem execDebugAuth_frame (ps : Parts) (h : PortHead) (tag : Nat) (token : List Byte) (s : State) (h_regs : ps.regs = true) (h_port : ps.port = true) : (nextOf (execDebugAuth h tag token s) s).outside ps = s.outside ps := by
  simp [nextOf, execDebugAuth, h_regs, h_port]

theorem execTrustedDomainAdmit_frame (ps : Parts) (h : PortHead) (tag : Nat) (s : State) (h_regs : ps.regs = true) (h_port : ps.port = true) : (nextOf (execTrustedDomainAdmit h tag s) s).outside ps = s.outside ps := by
  simp [nextOf, execTrustedDomainAdmit, h_regs, h_port]

theorem execTableLoaded_frame (ps : Parts) (cl : Nat) (s : State) (h_regs : ps.regs = true) (h_seq : ps.seq = true) (h_gddr : ps.gddr = true) (h_table : ps.table = true) (h_belt : ps.belt = true) : (nextOf (execTableLoaded cl s) s).outside ps = s.outside ps := by
  unfold execTableLoaded; (repeat' split) <;> simp [nextOf, h_regs, h_seq, h_gddr, h_table, h_belt]

theorem execReclaim_frame (ps : Parts) (h : PortHead) (tag mask : Nat) (hold : Bool) (deadline : Nat) (s : State) (h_regs : ps.regs = true) (h_belt : ps.belt = true) (h_port : ps.port = true) (h_reclaim : ps.reclaim = true) : (nextOf (execReclaim h tag mask hold deadline s) s).outside ps = s.outside ps := by
  simp [nextOf, execReclaim, h_regs, h_belt, h_port, h_reclaim]

theorem execGroupQuiet_frame (ps : Parts) (s : State) (h_regs : ps.regs = true) (h_belt : ps.belt = true) (h_reclaim : ps.reclaim = true) : (nextOf (execGroupQuiet s) s).outside ps = s.outside ps := by
  simp [nextOf, execGroupQuiet, h_regs, h_belt, h_reclaim]

theorem execReclaimGo_frame (ps : Parts) (h : PortHead) (tag : Nat) (s : State) (h_regs : ps.regs = true) (h_port : ps.port = true) (h_reclaim : ps.reclaim = true) : (nextOf (execReclaimGo h tag s) s).outside ps = s.outside ps := by
  simp [nextOf, execReclaimGo, h_regs, h_port, h_reclaim]

theorem execReclaimForcedStop_frame (ps : Parts) (s : State) (h_regs : ps.regs = true) (h_seq : ps.seq = true) (h_gddr : ps.gddr = true) (h_belt : ps.belt = true) (h_net : ps.net = true) (h_storage : ps.storage = true) (h_reclaim : ps.reclaim = true) : (nextOf (execReclaimForcedStop s) s).outside ps = s.outside ps := by
  simp [nextOf, execReclaimForcedStop, h_regs, h_seq, h_gddr, h_belt, h_net, h_storage, h_reclaim]

theorem execReclaimLate_frame (ps : Parts) (s : State) (h_regs : ps.regs = true) (h_belt : ps.belt = true) (h_reclaim : ps.reclaim = true) : (nextOf (execReclaimLate s) s).outside ps = s.outside ps := by
  simp [nextOf, execReclaimLate, h_regs, h_belt, h_reclaim]

theorem execHandOver_frame (ps : Parts) (s : State) (h_regs : ps.regs = true) (h_belt : ps.belt = true) (h_reclaim : ps.reclaim = true) : (nextOf (execHandOver s) s).outside ps = s.outside ps := by
  simp [nextOf, execHandOver, h_regs, h_belt, h_reclaim]

theorem execCaught_frame (ps : Parts) (cause die : Nat) (s : State) (h_regs : ps.regs = true) (h_seq : ps.seq = true) (h_belt : ps.belt = true) (h_net : ps.net = true) (h_storage : ps.storage = true) (h_port : ps.port = true) (h_catching : ps.catching = true) (h_sideband : ps.sideband = true) : (nextOf (execCaught cause die s) s).outside ps = s.outside ps := by
  simp [nextOf, execCaught, h_regs, h_seq, h_belt, h_net, h_storage, h_port, h_catching, h_sideband]

theorem execCatchDumpComplete_frame (ps : Parts) (dies : Nat) (s : State) (h_regs : ps.regs = true) (h_gddr : ps.gddr = true) (h_belt : ps.belt = true) (h_flash : ps.flash = true) (h_catching : ps.catching = true) : (nextOf (execCatchDumpComplete dies s) s).outside ps = s.outside ps := by
  unfold execCatchDumpComplete; (repeat' split) <;> simp [nextOf, h_regs, h_gddr, h_belt, h_flash, h_catching]

theorem execStrobeLossDump_frame (ps : Parts) (d : Nat) (s : State) (h_regs : ps.regs = true) (h_seq : ps.seq = true) (h_gddr : ps.gddr = true) (h_flash : ps.flash = true) (h_catching : ps.catching = true) : (nextOf (execStrobeLossDump d s) s).outside ps = s.outside ps := by
  simp [nextOf, execStrobeLossDump, h_regs, h_seq, h_gddr, h_flash, h_catching]

theorem execCatchInfo_frame (ps : Parts) (h : PortHead) (tag : Nat) (s : State) (h_regs : ps.regs = true) (h_port : ps.port = true) : (nextOf (execCatchInfo h tag s) s).outside ps = s.outside ps := by
  simp [nextOf, execCatchInfo, h_regs, h_port]

theorem execCatchRelease_frame (ps : Parts) (h : PortHead) (tag : Nat) (s : State) (h_regs : ps.regs = true) (h_sand : ps.sand = true) (h_port : ps.port = true) (h_flash : ps.flash = true) (h_catching : ps.catching = true) : (nextOf (execCatchRelease h tag s) s).outside ps = s.outside ps := by
  simp [nextOf, execCatchRelease, h_regs, h_sand, h_port, h_flash, h_catching]

theorem execBeltCrcRetry_frame (ps : Parts) (b : BeltAttempt) (s : State) (h_belt : ps.belt = true) : (nextOf (execBeltCrcRetry b s) s).outside ps = s.outside ps := by
  simp [nextOf, execBeltCrcRetry, h_belt]

theorem execBeltLaneDown_frame (ps : Parts) (d : Nat) (s : State) (h_free : ps.free = true) (h_regs : ps.regs = true) (h_seq : ps.seq = true) (h_belt : ps.belt = true) (h_net : ps.net = true) (h_storage : ps.storage = true) (h_port : ps.port = true) (h_catching : ps.catching = true) (h_sideband : ps.sideband = true) : (nextOf (execBeltLaneDown d s) s).outside ps = s.outside ps := by
  simp [nextOf, execBeltLaneDown, h_free, h_regs, h_seq, h_belt, h_net, h_storage, h_port, h_catching, h_sideband]

theorem execEventFrame_frame (ps : Parts) (d : Nat) (s : State) (h_regs : ps.regs = true) (h_belt : ps.belt = true) (h_serving : ps.serving = true) : (nextOf (execEventFrame d s) s).outside ps = s.outside ps := by
  unfold execEventFrame; (repeat' split) <;> simp [nextOf, h_regs, h_belt, h_serving]

theorem execEventOverflow_frame (ps : Parts) (d : Nat) (s : State) (h_belt : ps.belt = true) : (nextOf (execEventOverflow d s) s).outside ps = s.outside ps := by
  simp [nextOf, execEventOverflow, h_belt]

theorem execEntryComplete_frame (ps : Parts) (s : State) (h_regs : ps.regs = true) (h_belt : ps.belt = true) (h_net : ps.net = true) (h_power : ps.power = true) (h_wake : ps.wake = true) (h_sideband : ps.sideband = true) : (nextOf (execEntryComplete s) s).outside ps = s.outside ps := by
  simp [nextOf, execEntryComplete, h_regs, h_belt, h_net, h_power, h_wake, h_sideband]

theorem execWakeNFall_frame (ps : Parts) (s : State) (h_regs : ps.regs = true) (h_power : ps.power = true) (h_wake : ps.wake = true) (h_sideband : ps.sideband = true) : (nextOf (execWakeNFall s) s).outside ps = s.outside ps := by
  simp [nextOf, execWakeNFall, h_regs, h_power, h_wake, h_sideband]

theorem execWakePattern_frame (ps : Parts) (l : Nat) (s : State) (h_regs : ps.regs = true) (h_power : ps.power = true) (h_wake : ps.wake = true) (h_sideband : ps.sideband = true) : (nextOf (execWakePattern l s) s).outside ps = s.outside ps := by
  simp [nextOf, execWakePattern, h_regs, h_power, h_wake, h_sideband]

theorem execWakePatternEnd_frame (ps : Parts) (mask : Nat) (s : State) (h_regs : ps.regs = true) (h_tenant : ps.tenant = true) (h_net : ps.net = true) : (nextOf (execWakePatternEnd mask s) s).outside ps = s.outside ps := by
  simp [nextOf, execWakePatternEnd, h_regs, h_tenant, h_net]

theorem execPortWakeFrame_frame (ps : Parts) (h : PortHead) (s : State) (h_regs : ps.regs = true) (h_port : ps.port = true) (h_power : ps.power = true) (h_wake : ps.wake = true) (h_sideband : ps.sideband = true) : (nextOf (execPortWakeFrame h s) s).outside ps = s.outside ps := by
  simp [nextOf, execPortWakeFrame, h_regs, h_port, h_power, h_wake, h_sideband]

theorem execArmedCommitWake_frame (ps : Parts) (page : Nat) (s : State) (h_regs : ps.regs = true) (h_power : ps.power = true) (h_wake : ps.wake = true) (h_sideband : ps.sideband = true) : (nextOf (execArmedCommitWake page s) s).outside ps = s.outside ps := by
  unfold execArmedCommitWake; (repeat' split) <;> simp [nextOf, h_regs, h_power, h_wake, h_sideband]

theorem execWakeStageReady_frame (ps : Parts) (s : State) (h_regs : ps.regs = true) (h_time : ps.time = true) (h_seq : ps.seq = true) (h_ns : ps.ns = true) (h_table : ps.table = true) (h_power : ps.power = true) (h_wake : ps.wake = true) : (nextOf (execWakeStageReady s) s).outside ps = s.outside ps := by
  simp [nextOf, execWakeStageReady, h_regs, h_time, h_seq, h_ns, h_table, h_power, h_wake]

theorem execWakeStageRetry_frame (ps : Parts) (s : State) (h_wake : ps.wake = true) : (nextOf (execWakeStageRetry s) s).outside ps = s.outside ps := by
  simp [nextOf, execWakeStageRetry, h_wake]

theorem execWakeStalled_frame (ps : Parts) (s : State) (h_regs : ps.regs = true) (h_seq : ps.seq = true) (h_belt : ps.belt = true) (h_net : ps.net = true) (h_storage : ps.storage = true) (h_port : ps.port = true) (h_catching : ps.catching = true) (h_sideband : ps.sideband = true) : (nextOf (execWakeStalled s) s).outside ps = s.outside ps := by
  simp [nextOf, execWakeStalled, h_regs, h_seq, h_belt, h_net, h_storage, h_port, h_catching, h_sideband]

theorem execMirrorResumed_frame (ps : Parts) (s : State) (h_regs : ps.regs = true) (h_belt : ps.belt = true) (h_net : ps.net = true) : (nextOf (execMirrorResumed s) s).outside ps = s.outside ps := by
  simp [nextOf, execMirrorResumed, h_regs, h_belt, h_net]

theorem execPwrgoodRise_frame (ps : Parts) (s : State) (h_regs : ps.regs = true) (h_now : ps.now = true) (h_time : ps.time = true) (h_seq : ps.seq = true) (h_ns : ps.ns = true) (h_gddr : ps.gddr = true) (h_table : ps.table = true) (h_sand : ps.sand = true) (h_belt : ps.belt = true) (h_tenant : ps.tenant = true) (h_keys : ps.keys = true) (h_net : ps.net = true) (h_storage : ps.storage = true) (h_port : ps.port = true) (h_serving : ps.serving = true) (h_tripped : ps.tripped = true) (h_power : ps.power = true) (h_wake : ps.wake = true) (h_pins : ps.pins = true) (h_boot : ps.boot = true) (h_flash : ps.flash = true) (h_catching : ps.catching = true) (h_reclaim : ps.reclaim = true) (h_sideband : ps.sideband = true) (h_board : ps.board = true) : (nextOf (execPwrgoodRise s) s).outside ps = s.outside ps := by
  simp [nextOf, execPwrgoodRise, h_regs, h_now, h_time, h_seq, h_ns, h_gddr, h_table, h_sand, h_belt, h_tenant, h_keys, h_net, h_storage, h_port, h_serving, h_tripped, h_power, h_wake, h_pins, h_boot, h_flash, h_catching, h_reclaim, h_sideband, h_board]

theorem execPwrgoodFall_frame (ps : Parts) (s : State) (h_regs : ps.regs = true) (h_now : ps.now = true) (h_time : ps.time = true) (h_seq : ps.seq = true) (h_ns : ps.ns = true) (h_gddr : ps.gddr = true) (h_table : ps.table = true) (h_sand : ps.sand = true) (h_belt : ps.belt = true) (h_tenant : ps.tenant = true) (h_keys : ps.keys = true) (h_net : ps.net = true) (h_storage : ps.storage = true) (h_port : ps.port = true) (h_serving : ps.serving = true) (h_tripped : ps.tripped = true) (h_power : ps.power = true) (h_wake : ps.wake = true) (h_pins : ps.pins = true) (h_boot : ps.boot = true) (h_flash : ps.flash = true) (h_catching : ps.catching = true) (h_reclaim : ps.reclaim = true) (h_sideband : ps.sideband = true) (h_board : ps.board = true) : (nextOf (execPwrgoodFall s) s).outside ps = s.outside ps := by
  simp [nextOf, execPwrgoodFall, h_regs, h_now, h_time, h_seq, h_ns, h_gddr, h_table, h_sand, h_belt, h_tenant, h_keys, h_net, h_storage, h_port, h_serving, h_tripped, h_power, h_wake, h_pins, h_boot, h_flash, h_catching, h_reclaim, h_sideband, h_board]

theorem execResetNAssert_frame (ps : Parts) (s : State) (h_regs : ps.regs = true) (h_now : ps.now = true) (h_time : ps.time = true) (h_seq : ps.seq = true) (h_ns : ps.ns = true) (h_gddr : ps.gddr = true) (h_table : ps.table = true) (h_sand : ps.sand = true) (h_belt : ps.belt = true) (h_tenant : ps.tenant = true) (h_keys : ps.keys = true) (h_net : ps.net = true) (h_storage : ps.storage = true) (h_port : ps.port = true) (h_serving : ps.serving = true) (h_tripped : ps.tripped = true) (h_power : ps.power = true) (h_wake : ps.wake = true) (h_pins : ps.pins = true) (h_boot : ps.boot = true) (h_flash : ps.flash = true) (h_catching : ps.catching = true) (h_reclaim : ps.reclaim = true) (h_sideband : ps.sideband = true) (h_board : ps.board = true) : (nextOf (execResetNAssert s) s).outside ps = s.outside ps := by
  simp [nextOf, execResetNAssert, h_regs, h_now, h_time, h_seq, h_ns, h_gddr, h_table, h_sand, h_belt, h_tenant, h_keys, h_net, h_storage, h_port, h_serving, h_tripped, h_power, h_wake, h_pins, h_boot, h_flash, h_catching, h_reclaim, h_sideband, h_board]

theorem execResetNRelease_frame (ps : Parts) (s : State) (h_regs : ps.regs = true) (h_pins : ps.pins = true) (h_boot : ps.boot = true) (h_board : ps.board = true) : (nextOf (execResetNRelease s) s).outside ps = s.outside ps := by
  simp [nextOf, execResetNRelease, h_regs, h_pins, h_boot, h_board]

theorem execBringUpStepEnd_frame (ps : Parts) (x : StepEnd) (s : State) (h_free : ps.free = true) (h_regs : ps.regs = true) (h_seq : ps.seq = true) (h_ns : ps.ns = true) (h_table : ps.table = true) (h_sand : ps.sand = true) (h_belt : ps.belt = true) (h_tenant : ps.tenant = true) (h_net : ps.net = true) (h_power : ps.power = true) (h_boot : ps.boot = true) (h_sideband : ps.sideband = true) : (nextOf (execBringUpStepEnd x s) s).outside ps = s.outside ps := by
  unfold execBringUpStepEnd; (repeat' split) <;> simp [nextOf, h_free, h_regs, h_seq, h_ns, h_table, h_sand, h_belt, h_tenant, h_net, h_power, h_boot, h_sideband]

theorem execReady_frame (ps : Parts) (s : State) (h_regs : ps.regs = true) (h_belt : ps.belt = true) (h_power : ps.power = true) : (nextOf (execReady s) s).outside ps = s.outside ps := by
  simp [nextOf, execReady, h_regs, h_belt, h_power]

theorem execRecoveryChunk_frame (ps : Parts) (h : PortHead) (tag off total : Nat) (bytes : List Byte) (s : State) (h_regs : ps.regs = true) (h_port : ps.port = true) (h_boot : ps.boot = true) (h_flash : ps.flash = true) : (nextOf (execRecoveryChunk h tag off total bytes s) s).outside ps = s.outside ps := by
  simp [nextOf, execRecoveryChunk, h_regs, h_port, h_boot, h_flash]

theorem execRecoveryCommit_frame (ps : Parts) (h : PortHead) (tag off total : Nat) (s : State) (h_regs : ps.regs = true) (h_port : ps.port = true) (h_boot : ps.boot = true) : (nextOf (execRecoveryCommit h tag off total s) s).outside ps = s.outside ps := by
  simp [nextOf, execRecoveryCommit, h_regs, h_port, h_boot]

theorem execRecoveryStatus_frame (ps : Parts) (h : PortHead) (tag : Nat) (s : State) (h_regs : ps.regs = true) (h_port : ps.port = true) : (nextOf (execRecoveryStatus h tag s) s).outside ps = s.outside ps := by
  simp [nextOf, execRecoveryStatus, h_regs, h_port]

theorem execPortTraining_frame (ps : Parts) (dark : Nat) (s : State) (h_regs : ps.regs = true) (h_belt : ps.belt = true) (h_port : ps.port = true) (h_sideband : ps.sideband = true) : (nextOf (execPortTraining dark s) s).outside ps = s.outside ps := by
  simp [nextOf, execPortTraining, h_regs, h_belt, h_port, h_sideband]

theorem execPortLinkControl_frame (ps : Parts) (ack : Nat) (nak : Option Nat) (s : State) (h_regs : ps.regs = true) (h_port : ps.port = true) : (nextOf (execPortLinkControl ack nak s) s).outside ps = s.outside ps := by
  unfold execPortLinkControl; (repeat' split) <;> simp [nextOf, h_regs, h_port]

theorem execSbWake_frame (ps : Parts) (s : State) (h_regs : ps.regs = true) (h_power : ps.power = true) (h_wake : ps.wake = true) (h_sideband : ps.sideband = true) : (nextOf (execSbWake s) s).outside ps = s.outside ps := by
  simp [nextOf, execSbWake, h_regs, h_power, h_wake, h_sideband]

theorem execSbEventsClear_frame (ps : Parts) (v : Nat) (s : State) (h_sideband : ps.sideband = true) : (nextOf (execSbEventsClear v s) s).outside ps = s.outside ps := by
  simp [nextOf, execSbEventsClear, h_sideband]

theorem execSidebandFault_frame (ps : Parts) (s : State) (h_regs : ps.regs = true) (h_belt : ps.belt = true) (h_sideband : ps.sideband = true) : (nextOf (execSidebandFault s) s).outside ps = s.outside ps := by
  simp [nextOf, execSidebandFault, h_regs, h_belt, h_sideband]

theorem execSidebandRetest_frame (ps : Parts) (ok : Bool) (s : State) (h_sideband : ps.sideband = true) : (nextOf (execSidebandRetest ok s) s).outside ps = s.outside ps := by
  simp [nextOf, execSidebandRetest, h_sideband]

theorem execDynamicAddressAssignment_frame (ps : Parts) (a : Nat) (s : State) (h_sideband : ps.sideband = true) : (nextOf (execDynamicAddressAssignment a s) s).outside ps = s.outside ps := by
  simp [nextOf, execDynamicAddressAssignment, h_sideband]

theorem execBypass_frame (ps : Parts) (s : State) (h_board : ps.board = true) : (nextOf (execBypass s) s).outside ps = s.outside ps := by
  simp [nextOf, execBypass, h_board]

theorem execIdcode_frame (ps : Parts) (s : State) (h_board : ps.board = true) : (nextOf (execIdcode s) s).outside ps = s.outside ps := by
  simp [nextOf, execIdcode, h_board]

theorem execSamplePreload_frame (ps : Parts) (pins : Nat) (s : State) (h_board : ps.board = true) : (nextOf (execSamplePreload pins s) s).outside ps = s.outside ps := by
  simp [nextOf, execSamplePreload, h_board]

theorem execExtest_frame (ps : Parts) (pins : Nat) (s : State) (h_board : ps.board = true) : (nextOf (execExtest pins s) s).outside ps = s.outside ps := by
  simp [nextOf, execExtest, h_board]

theorem execClamp_frame (ps : Parts) (s : State) (h_board : ps.board = true) : (nextOf (execClamp s) s).outside ps = s.outside ps := by
  simp [nextOf, execClamp, h_board]

theorem execHighz_frame (ps : Parts) (s : State) (h_board : ps.board = true) : (nextOf (execHighz s) s).outside ps = s.outside ps := by
  simp [nextOf, execHighz, h_board]

theorem execExtestPulse_frame (ps : Parts) (pins : Nat) (s : State) (h_board : ps.board = true) : (nextOf (execExtestPulse pins s) s).outside ps = s.outside ps := by
  simp [nextOf, execExtestPulse, h_board]

theorem execExtestTrain_frame (ps : Parts) (pins : Nat) (s : State) (h_board : ps.board = true) : (nextOf (execExtestTrain pins s) s).outside ps = s.outside ps := by
  simp [nextOf, execExtestTrain, h_board]

theorem execTrstNAssert_frame (ps : Parts) (s : State) (h_board : ps.board = true) : (nextOf (execTrstNAssert s) s).outside ps = s.outside ps := by
  simp [nextOf, execTrstNAssert, h_board]

theorem execDebugInstruction_frame (ps : Parts) (s : State)  : (nextOf (execDebugInstruction s) s).outside ps = s.outside ps := by
  unfold execDebugInstruction; (repeat' split) <;> simp [nextOf]

theorem execRegRead_frame (ps : Parts) (h : PortHead) (tag addr n : Nat) (s : State) (h_regs : ps.regs = true) (h_port : ps.port = true) : (nextOf (execRegRead h tag addr n s) s).outside ps = s.outside ps := by
  simp [nextOf, execRegRead, h_regs, h_port]

theorem execRegWrite_frame (ps : Parts) (h : PortHead) (tag addr : Nat) (words : List Nat) (s : State) (h_regs : ps.regs = true) (h_time : ps.time = true) (h_seq : ps.seq = true) (h_sand : ps.sand = true) (h_tenant : ps.tenant = true) (h_net : ps.net = true) (h_port : ps.port = true) (h_power : ps.power = true) (h_flash : ps.flash = true) (h_catching : ps.catching = true) : (nextOf (execRegWrite h tag addr words s) s).outside ps = s.outside ps := by
  simp [nextOf, execRegWrite, h_regs, h_time, h_seq, h_sand, h_tenant, h_net, h_port, h_power, h_flash, h_catching]

theorem execArm_frame (ps : Parts) (h : PortHead) (tag turn : Nat) (pairs : List (Nat × Nat)) (s : State) (h_regs : ps.regs = true) (h_time : ps.time = true) (h_seq : ps.seq = true) (h_sand : ps.sand = true) (h_tenant : ps.tenant = true) (h_net : ps.net = true) (h_port : ps.port = true) (h_power : ps.power = true) (h_flash : ps.flash = true) (h_catching : ps.catching = true) : (nextOf (execArm h tag turn pairs s) s).outside ps = s.outside ps := by
  unfold execArm; simp only [nextOf]; (first | apply withEntry_frame | apply withMove_frame | apply withCommand_frame | apply withMail_frame | apply withPort_frame | apply withFar_frame | apply withHost_frame | apply withXchg_frame | apply withControl_frame) <;> first | assumption | (intros; (repeat' split) <;> simp [nextOf, h_regs, h_time, h_seq, h_sand, h_tenant, h_net, h_port, h_power, h_flash, h_catching])

theorem execPairSet_frame (ps : Parts) (h : PortHead) (tag partner l0 l1 base size slot : Nat) (s : State) (h_regs : ps.regs = true) (h_belt : ps.belt = true) (h_port : ps.port = true) (h_power : ps.power = true) : (nextOf (execPairSet h tag partner l0 l1 base size slot s) s).outside ps = s.outside ps := by
  unfold execPairSet; simp only [nextOf]; (first | apply withEntry_frame | apply withMove_frame | apply withCommand_frame | apply withMail_frame | apply withPort_frame | apply withFar_frame | apply withHost_frame | apply withXchg_frame | apply withControl_frame) <;> first | assumption | (intros; (repeat' split) <;> simp [nextOf, h_regs, h_belt, h_port, h_power])

theorem execPairClear_frame (ps : Parts) (h : PortHead) (tag : Nat) (s : State) (h_regs : ps.regs = true) (h_port : ps.port = true) (h_power : ps.power = true) : (nextOf (execPairClear h tag s) s).outside ps = s.outside ps := by
  unfold execPairClear; simp only [nextOf]; (first | apply withEntry_frame | apply withMove_frame | apply withCommand_frame | apply withMail_frame | apply withPort_frame | apply withFar_frame | apply withHost_frame | apply withXchg_frame | apply withControl_frame) <;> first | assumption | (intros; (repeat' split) <;> simp [nextOf, h_regs, h_port, h_power])

theorem execPairSolo_frame (ps : Parts) (h : PortHead) (tag : Nat) (solo : Bool) (s : State) (h_regs : ps.regs = true) (h_port : ps.port = true) (h_power : ps.power = true) : (nextOf (execPairSolo h tag solo s) s).outside ps = s.outside ps := by
  unfold execPairSolo; simp only [nextOf]; (first | apply withEntry_frame | apply withMove_frame | apply withCommand_frame | apply withMail_frame | apply withPort_frame | apply withFar_frame | apply withHost_frame | apply withXchg_frame | apply withControl_frame) <;> first | assumption | (intros; (repeat' split) <;> simp [nextOf, h_regs, h_port, h_power])

theorem execCapSet_frame (ps : Parts) (h : PortHead) (tag cap window turn : Nat) (s : State) (h_regs : ps.regs = true) (h_port : ps.port = true) (h_power : ps.power = true) : (nextOf (execCapSet h tag cap window turn s) s).outside ps = s.outside ps := by
  unfold execCapSet; simp only [nextOf]; (first | apply withEntry_frame | apply withMove_frame | apply withCommand_frame | apply withMail_frame | apply withPort_frame | apply withFar_frame | apply withHost_frame | apply withXchg_frame | apply withControl_frame) <;> first | assumption | (intros; (repeat' split) <;> simp [nextOf, h_regs, h_port, h_power])

theorem execShareSet_frame (ps : Parts) (h : PortHead) (tag : Nat) (shares : List Nat) (turn : Nat) (s : State) (h_regs : ps.regs = true) (h_port : ps.port = true) (h_power : ps.power = true) : (nextOf (execShareSet h tag shares turn s) s).outside ps = s.outside ps := by
  unfold execShareSet; simp only [nextOf]
  apply withMail_frame <;> try assumption
  intro s
  split
  · simp [h_regs, h_port, h_power]
  · apply commitFor_frame <;> try assumption
    intro s; simp [h_regs, h_port, h_power]

theorem execOpSet_frame (ps : Parts) (h : PortHead) (tag mask point turn : Nat) (s : State) (h_regs : ps.regs = true) (h_port : ps.port = true) (h_power : ps.power = true) : (nextOf (execOpSet h tag mask point turn s) s).outside ps = s.outside ps := by
  unfold execOpSet; simp only [nextOf]
  apply withMail_frame <;> try assumption
  intro s
  split
  · simp [h_regs, h_port, h_power]
  · apply commitFor_frame <;> try assumption
    intro s; simp [h_regs, h_port, h_power]

theorem execStateSet_frame (ps : Parts) (h : PortHead) (tag target turn : Nat) (s : State) (h_regs : ps.regs = true) (h_port : ps.port = true) (h_power : ps.power = true) (h_wake : ps.wake = true) (h_sideband : ps.sideband = true) : (nextOf (execStateSet h tag target turn s) s).outside ps = s.outside ps := by
  unfold execStateSet; simp only [nextOf]; (first | apply withEntry_frame | apply withMove_frame | apply withCommand_frame | apply withMail_frame | apply withPort_frame | apply withFar_frame | apply withHost_frame | apply withXchg_frame | apply withControl_frame) <;> first | assumption | (intros; (repeat' split) <;> simp [nextOf, h_regs, h_port, h_power, h_wake, h_sideband])

theorem execPowerRead_frame (ps : Parts) (h : PortHead) (tag : Nat) (s : State) (h_regs : ps.regs = true) (h_port : ps.port = true) : (nextOf (execPowerRead h tag s) s).outside ps = s.outside ps := by
  simp [nextOf, execPowerRead, h_regs, h_port]

theorem execReplan_frame (ps : Parts) (h : PortHead) (tag turn : Nat) (s : State) (h_regs : ps.regs = true) (h_port : ps.port = true) (h_power : ps.power = true) : (nextOf (execReplan h tag turn s) s).outside ps = s.outside ps := by
  simp [nextOf, execReplan, h_regs, h_port, h_power]

theorem execWakeLinks_frame (ps : Parts) (h : PortHead) (tag mask : Nat) (s : State) (h_regs : ps.regs = true) (h_net : ps.net = true) (h_port : ps.port = true) : (nextOf (execWakeLinks h tag mask s) s).outside ps = s.outside ps := by
  simp [nextOf, execWakeLinks, h_regs, h_net, h_port]

theorem execPackageIdleUpdate_frame (ps : Parts) (s : State) (h_regs : ps.regs = true) : (nextOf (execPackageIdleUpdate s) s).outside ps = s.outside ps := by
  simp [nextOf, execPackageIdleUpdate, h_regs]

theorem execTurnBoundary_frame (ps : Parts) (mask : Nat) (charges : List Charge) (s : State) (h_regs : ps.regs = true) (h_now : ps.now = true) (h_time : ps.time = true) (h_seq : ps.seq = true) (h_ns : ps.ns = true) (h_gddr : ps.gddr = true) (h_sand : ps.sand = true) (h_belt : ps.belt = true) (h_tenant : ps.tenant = true) (h_keys : ps.keys = true) (h_net : ps.net = true) (h_storage : ps.storage = true) (h_port : ps.port = true) (h_serving : ps.serving = true) (h_power : ps.power = true) (h_wake : ps.wake = true) (h_catching : ps.catching = true) (h_reclaim : ps.reclaim = true) (h_sideband : ps.sideband = true) : (nextOf (execTurnBoundary mask charges s) s).outside ps = s.outside ps := by
  simp [nextOf, execTurnBoundary, h_regs, h_now, h_time, h_seq, h_ns, h_gddr, h_sand, h_belt, h_tenant, h_keys, h_net, h_storage, h_port, h_serving, h_power, h_wake, h_catching, h_reclaim, h_sideband]

theorem execProgramEnable_frame (ps : Parts) (cl : Nat) (s : State) (h_regs : ps.regs = true) (h_time : ps.time = true) (h_seq : ps.seq = true) (h_ns : ps.ns = true) (h_gddr : ps.gddr = true) (h_sand : ps.sand = true) (h_belt : ps.belt = true) (h_tenant : ps.tenant = true) (h_keys : ps.keys = true) (h_net : ps.net = true) (h_storage : ps.storage = true) (h_port : ps.port = true) (h_serving : ps.serving = true) (h_power : ps.power = true) (h_wake : ps.wake = true) (h_catching : ps.catching = true) (h_reclaim : ps.reclaim = true) (h_sideband : ps.sideband = true) : (nextOf (execProgramEnable cl s) s).outside ps = s.outside ps := by
  simp [nextOf, execProgramEnable, h_regs, h_time, h_seq, h_ns, h_gddr, h_sand, h_belt, h_tenant, h_keys, h_net, h_storage, h_port, h_serving, h_power, h_wake, h_catching, h_reclaim, h_sideband]

theorem execProgramDisable_frame (ps : Parts) (cl : Nat) (s : State) (h_regs : ps.regs = true) (h_time : ps.time = true) (h_seq : ps.seq = true) (h_ns : ps.ns = true) (h_gddr : ps.gddr = true) (h_sand : ps.sand = true) (h_belt : ps.belt = true) (h_tenant : ps.tenant = true) (h_keys : ps.keys = true) (h_net : ps.net = true) (h_storage : ps.storage = true) (h_port : ps.port = true) (h_serving : ps.serving = true) (h_power : ps.power = true) (h_wake : ps.wake = true) (h_catching : ps.catching = true) (h_reclaim : ps.reclaim = true) (h_sideband : ps.sideband = true) : (nextOf (execProgramDisable cl s) s).outside ps = s.outside ps := by
  simp [nextOf, execProgramDisable, h_regs, h_time, h_seq, h_ns, h_gddr, h_sand, h_belt, h_tenant, h_keys, h_net, h_storage, h_port, h_serving, h_power, h_wake, h_catching, h_reclaim, h_sideband]

theorem execTableCopy_frame (ps : Parts) (cl : Nat) (s : State) (h_regs : ps.regs = true) (h_time : ps.time = true) (h_seq : ps.seq = true) (h_ns : ps.ns = true) (h_gddr : ps.gddr = true) (h_sand : ps.sand = true) (h_belt : ps.belt = true) (h_tenant : ps.tenant = true) (h_keys : ps.keys = true) (h_net : ps.net = true) (h_storage : ps.storage = true) (h_port : ps.port = true) (h_serving : ps.serving = true) (h_power : ps.power = true) (h_wake : ps.wake = true) (h_catching : ps.catching = true) (h_reclaim : ps.reclaim = true) (h_sideband : ps.sideband = true) : (nextOf (execTableCopy cl s) s).outside ps = s.outside ps := by
  simp [nextOf, execTableCopy, h_regs, h_time, h_seq, h_ns, h_gddr, h_sand, h_belt, h_tenant, h_keys, h_net, h_storage, h_port, h_serving, h_power, h_wake, h_catching, h_reclaim, h_sideband]

theorem execOwnershipChange_frame (ps : Parts) (s : State) (h_regs : ps.regs = true) (h_time : ps.time = true) (h_seq : ps.seq = true) (h_ns : ps.ns = true) (h_gddr : ps.gddr = true) (h_sand : ps.sand = true) (h_belt : ps.belt = true) (h_tenant : ps.tenant = true) (h_keys : ps.keys = true) (h_net : ps.net = true) (h_storage : ps.storage = true) (h_port : ps.port = true) (h_serving : ps.serving = true) (h_power : ps.power = true) (h_wake : ps.wake = true) (h_catching : ps.catching = true) (h_reclaim : ps.reclaim = true) (h_sideband : ps.sideband = true) : (nextOf (execOwnershipChange s) s).outside ps = s.outside ps := by
  simp [nextOf, execOwnershipChange, h_regs, h_time, h_seq, h_ns, h_gddr, h_sand, h_belt, h_tenant, h_keys, h_net, h_storage, h_port, h_serving, h_power, h_wake, h_catching, h_reclaim, h_sideband]

theorem execRoleChange_frame (ps : Parts) (s : State) (h_regs : ps.regs = true) (h_time : ps.time = true) (h_seq : ps.seq = true) (h_ns : ps.ns = true) (h_gddr : ps.gddr = true) (h_sand : ps.sand = true) (h_belt : ps.belt = true) (h_tenant : ps.tenant = true) (h_keys : ps.keys = true) (h_net : ps.net = true) (h_storage : ps.storage = true) (h_port : ps.port = true) (h_serving : ps.serving = true) (h_power : ps.power = true) (h_wake : ps.wake = true) (h_catching : ps.catching = true) (h_reclaim : ps.reclaim = true) (h_sideband : ps.sideband = true) : (nextOf (execRoleChange s) s).outside ps = s.outside ps := by
  simp [nextOf, execRoleChange, h_regs, h_time, h_seq, h_ns, h_gddr, h_sand, h_belt, h_tenant, h_keys, h_net, h_storage, h_port, h_serving, h_power, h_wake, h_catching, h_reclaim, h_sideband]

theorem execLossScaleLoad_frame (ps : Parts) (cl : Nat) (s : State) (h_regs : ps.regs = true) (h_time : ps.time = true) (h_seq : ps.seq = true) (h_ns : ps.ns = true) (h_gddr : ps.gddr = true) (h_sand : ps.sand = true) (h_belt : ps.belt = true) (h_tenant : ps.tenant = true) (h_keys : ps.keys = true) (h_net : ps.net = true) (h_storage : ps.storage = true) (h_port : ps.port = true) (h_serving : ps.serving = true) (h_power : ps.power = true) (h_wake : ps.wake = true) (h_catching : ps.catching = true) (h_reclaim : ps.reclaim = true) (h_sideband : ps.sideband = true) : (nextOf (execLossScaleLoad cl s) s).outside ps = s.outside ps := by
  simp [nextOf, execLossScaleLoad, h_regs, h_time, h_seq, h_ns, h_gddr, h_sand, h_belt, h_tenant, h_keys, h_net, h_storage, h_port, h_serving, h_power, h_wake, h_catching, h_reclaim, h_sideband]

theorem execSandQueue_frame (ps : Parts) (w : Nat) (s : State) (h_regs : ps.regs = true) (h_time : ps.time = true) (h_seq : ps.seq = true) (h_ns : ps.ns = true) (h_gddr : ps.gddr = true) (h_sand : ps.sand = true) (h_belt : ps.belt = true) (h_tenant : ps.tenant = true) (h_keys : ps.keys = true) (h_net : ps.net = true) (h_storage : ps.storage = true) (h_port : ps.port = true) (h_serving : ps.serving = true) (h_power : ps.power = true) (h_wake : ps.wake = true) (h_catching : ps.catching = true) (h_reclaim : ps.reclaim = true) (h_sideband : ps.sideband = true) : (nextOf (execSandQueue w s) s).outside ps = s.outside ps := by
  simp [nextOf, execSandQueue, h_regs, h_time, h_seq, h_ns, h_gddr, h_sand, h_belt, h_tenant, h_keys, h_net, h_storage, h_port, h_serving, h_power, h_wake, h_catching, h_reclaim, h_sideband]

theorem execCatchShareChange_frame (ps : Parts) (w : Nat) (s : State) (h_regs : ps.regs = true) (h_time : ps.time = true) (h_seq : ps.seq = true) (h_ns : ps.ns = true) (h_gddr : ps.gddr = true) (h_sand : ps.sand = true) (h_belt : ps.belt = true) (h_tenant : ps.tenant = true) (h_keys : ps.keys = true) (h_net : ps.net = true) (h_storage : ps.storage = true) (h_port : ps.port = true) (h_serving : ps.serving = true) (h_power : ps.power = true) (h_wake : ps.wake = true) (h_catching : ps.catching = true) (h_reclaim : ps.reclaim = true) (h_sideband : ps.sideband = true) : (nextOf (execCatchShareChange w s) s).outside ps = s.outside ps := by
  simp [nextOf, execCatchShareChange, h_regs, h_time, h_seq, h_ns, h_gddr, h_sand, h_belt, h_tenant, h_keys, h_net, h_storage, h_port, h_serving, h_power, h_wake, h_catching, h_reclaim, h_sideband]

theorem execPublish_frame (ps : Parts) (s : State) (h_regs : ps.regs = true) (h_time : ps.time = true) (h_seq : ps.seq = true) (h_ns : ps.ns = true) (h_gddr : ps.gddr = true) (h_sand : ps.sand = true) (h_belt : ps.belt = true) (h_tenant : ps.tenant = true) (h_keys : ps.keys = true) (h_net : ps.net = true) (h_storage : ps.storage = true) (h_port : ps.port = true) (h_serving : ps.serving = true) (h_power : ps.power = true) (h_wake : ps.wake = true) (h_catching : ps.catching = true) (h_reclaim : ps.reclaim = true) (h_sideband : ps.sideband = true) : (nextOf (execPublish s) s).outside ps = s.outside ps := by
  simp [nextOf, execPublish, h_regs, h_time, h_seq, h_ns, h_gddr, h_sand, h_belt, h_tenant, h_keys, h_net, h_storage, h_port, h_serving, h_power, h_wake, h_catching, h_reclaim, h_sideband]

theorem execAdapterPublish_frame (ps : Parts) (s : State) (h_regs : ps.regs = true) (h_time : ps.time = true) (h_seq : ps.seq = true) (h_ns : ps.ns = true) (h_gddr : ps.gddr = true) (h_sand : ps.sand = true) (h_belt : ps.belt = true) (h_tenant : ps.tenant = true) (h_keys : ps.keys = true) (h_net : ps.net = true) (h_storage : ps.storage = true) (h_port : ps.port = true) (h_serving : ps.serving = true) (h_power : ps.power = true) (h_wake : ps.wake = true) (h_catching : ps.catching = true) (h_reclaim : ps.reclaim = true) (h_sideband : ps.sideband = true) : (nextOf (execAdapterPublish s) s).outside ps = s.outside ps := by
  simp [nextOf, execAdapterPublish, h_regs, h_time, h_seq, h_ns, h_gddr, h_sand, h_belt, h_tenant, h_keys, h_net, h_storage, h_port, h_serving, h_power, h_wake, h_catching, h_reclaim, h_sideband]

theorem execSwitchPlanStart_frame (ps : Parts) (w : Nat) (s : State) (h_regs : ps.regs = true) (h_time : ps.time = true) (h_seq : ps.seq = true) (h_ns : ps.ns = true) (h_gddr : ps.gddr = true) (h_sand : ps.sand = true) (h_belt : ps.belt = true) (h_tenant : ps.tenant = true) (h_keys : ps.keys = true) (h_net : ps.net = true) (h_storage : ps.storage = true) (h_port : ps.port = true) (h_serving : ps.serving = true) (h_power : ps.power = true) (h_wake : ps.wake = true) (h_catching : ps.catching = true) (h_reclaim : ps.reclaim = true) (h_sideband : ps.sideband = true) : (nextOf (execSwitchPlanStart w s) s).outside ps = s.outside ps := by
  simp [nextOf, execSwitchPlanStart, h_regs, h_time, h_seq, h_ns, h_gddr, h_sand, h_belt, h_tenant, h_keys, h_net, h_storage, h_port, h_serving, h_power, h_wake, h_catching, h_reclaim, h_sideband]

theorem execLinkModeChange_frame (ps : Parts) (l : Nat) (s : State) (h_regs : ps.regs = true) (h_time : ps.time = true) (h_seq : ps.seq = true) (h_ns : ps.ns = true) (h_gddr : ps.gddr = true) (h_sand : ps.sand = true) (h_belt : ps.belt = true) (h_tenant : ps.tenant = true) (h_keys : ps.keys = true) (h_net : ps.net = true) (h_storage : ps.storage = true) (h_port : ps.port = true) (h_serving : ps.serving = true) (h_power : ps.power = true) (h_wake : ps.wake = true) (h_catching : ps.catching = true) (h_reclaim : ps.reclaim = true) (h_sideband : ps.sideband = true) : (nextOf (execLinkModeChange l s) s).outside ps = s.outside ps := by
  simp [nextOf, execLinkModeChange, h_regs, h_time, h_seq, h_ns, h_gddr, h_sand, h_belt, h_tenant, h_keys, h_net, h_storage, h_port, h_serving, h_power, h_wake, h_catching, h_reclaim, h_sideband]

theorem execLinkRetrain_frame (ps : Parts) (l : Nat) (s : State) (h_regs : ps.regs = true) (h_time : ps.time = true) (h_seq : ps.seq = true) (h_ns : ps.ns = true) (h_gddr : ps.gddr = true) (h_sand : ps.sand = true) (h_belt : ps.belt = true) (h_tenant : ps.tenant = true) (h_keys : ps.keys = true) (h_net : ps.net = true) (h_storage : ps.storage = true) (h_port : ps.port = true) (h_serving : ps.serving = true) (h_power : ps.power = true) (h_wake : ps.wake = true) (h_catching : ps.catching = true) (h_reclaim : ps.reclaim = true) (h_sideband : ps.sideband = true) : (nextOf (execLinkRetrain l s) s).outside ps = s.outside ps := by
  simp [nextOf, execLinkRetrain, h_regs, h_time, h_seq, h_ns, h_gddr, h_sand, h_belt, h_tenant, h_keys, h_net, h_storage, h_port, h_serving, h_power, h_wake, h_catching, h_reclaim, h_sideband]

theorem execPowerStateEntry_frame (ps : Parts) (s : State) (h_regs : ps.regs = true) (h_time : ps.time = true) (h_seq : ps.seq = true) (h_ns : ps.ns = true) (h_gddr : ps.gddr = true) (h_sand : ps.sand = true) (h_belt : ps.belt = true) (h_tenant : ps.tenant = true) (h_keys : ps.keys = true) (h_net : ps.net = true) (h_storage : ps.storage = true) (h_port : ps.port = true) (h_serving : ps.serving = true) (h_power : ps.power = true) (h_wake : ps.wake = true) (h_catching : ps.catching = true) (h_reclaim : ps.reclaim = true) (h_sideband : ps.sideband = true) : (nextOf (execPowerStateEntry s) s).outside ps = s.outside ps := by
  simp [nextOf, execPowerStateEntry, h_regs, h_time, h_seq, h_ns, h_gddr, h_sand, h_belt, h_tenant, h_keys, h_net, h_storage, h_port, h_serving, h_power, h_wake, h_catching, h_reclaim, h_sideband]

theorem execSlotCfgLoad_frame (ps : Parts) (s : State) (h_regs : ps.regs = true) (h_time : ps.time = true) (h_seq : ps.seq = true) (h_ns : ps.ns = true) (h_gddr : ps.gddr = true) (h_sand : ps.sand = true) (h_belt : ps.belt = true) (h_tenant : ps.tenant = true) (h_keys : ps.keys = true) (h_net : ps.net = true) (h_storage : ps.storage = true) (h_port : ps.port = true) (h_serving : ps.serving = true) (h_power : ps.power = true) (h_wake : ps.wake = true) (h_catching : ps.catching = true) (h_reclaim : ps.reclaim = true) (h_sideband : ps.sideband = true) : (nextOf (execSlotCfgLoad s) s).outside ps = s.outside ps := by
  simp [nextOf, execSlotCfgLoad, h_regs, h_time, h_seq, h_ns, h_gddr, h_sand, h_belt, h_tenant, h_keys, h_net, h_storage, h_port, h_serving, h_power, h_wake, h_catching, h_reclaim, h_sideband]

theorem execSlotCfgPart_frame (ps : Parts) (s : State) (h_regs : ps.regs = true) (h_time : ps.time = true) (h_seq : ps.seq = true) (h_ns : ps.ns = true) (h_gddr : ps.gddr = true) (h_sand : ps.sand = true) (h_belt : ps.belt = true) (h_tenant : ps.tenant = true) (h_keys : ps.keys = true) (h_net : ps.net = true) (h_storage : ps.storage = true) (h_port : ps.port = true) (h_serving : ps.serving = true) (h_power : ps.power = true) (h_wake : ps.wake = true) (h_catching : ps.catching = true) (h_reclaim : ps.reclaim = true) (h_sideband : ps.sideband = true) : (nextOf (execSlotCfgPart s) s).outside ps = s.outside ps := by
  simp [nextOf, execSlotCfgPart, h_regs, h_time, h_seq, h_ns, h_gddr, h_sand, h_belt, h_tenant, h_keys, h_net, h_storage, h_port, h_serving, h_power, h_wake, h_catching, h_reclaim, h_sideband]

theorem execHeldFrameDeparture_frame (ps : Parts) (l vc : Nat) (tagOk : Bool) (s : State) (h_regs : ps.regs = true) (h_seq : ps.seq = true) (h_ns : ps.ns = true) (h_gddr : ps.gddr = true) (h_belt : ps.belt = true) (h_tenant : ps.tenant = true) (h_net : ps.net = true) (h_power : ps.power = true) (h_wake : ps.wake = true) (h_sideband : ps.sideband = true) : (nextOf (execHeldFrameDeparture l vc tagOk s) s).outside ps = s.outside ps := by
  unfold execHeldFrameDeparture; (repeat' split) <;> simp [nextOf, h_regs, h_seq, h_ns, h_gddr, h_belt, h_tenant, h_net, h_power, h_wake, h_sideband]

theorem execControlFrame_frame (ps : Parts) (l ack : Nat) (nak : Option Nat) (c : CreditReport) (s : State) (h_regs : ps.regs = true) (h_tenant : ps.tenant = true) (h_net : ps.net = true) : (nextOf (execControlFrame l ack nak c s) s).outside ps = s.outside ps := by
  unfold execControlFrame; (repeat' split) <;> simp [nextOf, h_regs, h_tenant, h_net]

theorem execLinkWakeFrame_frame (ps : Parts) (l : Nat) (f : Frame) (a : Arrival) (s : State) (h_regs : ps.regs = true) (h_seq : ps.seq = true) (h_ns : ps.ns = true) (h_gddr : ps.gddr = true) (h_belt : ps.belt = true) (h_tenant : ps.tenant = true) (h_net : ps.net = true) (h_power : ps.power = true) (h_wake : ps.wake = true) (h_sideband : ps.sideband = true) : (nextOf (execLinkWakeFrame l f a s) s).outside ps = s.outside ps := by
  simp [nextOf, execLinkWakeFrame, h_regs, h_seq, h_ns, h_gddr, h_belt, h_tenant, h_net, h_power, h_wake, h_sideband]

theorem execHalt_frame (ps : Parts) (m : Master) (cl v : Nat) (s : State) (h_regs : ps.regs = true) (h_time : ps.time = true) (h_seq : ps.seq = true) (h_sand : ps.sand = true) (h_tenant : ps.tenant = true) (h_net : ps.net = true) (h_port : ps.port = true) (h_power : ps.power = true) (h_flash : ps.flash = true) (h_catching : ps.catching = true) : (nextOf (execHalt m cl v s) s).outside ps = s.outside ps := by
  simp [nextOf, execHalt, h_regs, h_time, h_seq, h_sand, h_tenant, h_net, h_port, h_power, h_flash, h_catching]

theorem execCommitGo_frame (ps : Parts) (m : Master) (page : Nat) (s : State) (h_regs : ps.regs = true) (h_time : ps.time = true) (h_seq : ps.seq = true) (h_sand : ps.sand = true) (h_tenant : ps.tenant = true) (h_net : ps.net = true) (h_port : ps.port = true) (h_power : ps.power = true) (h_flash : ps.flash = true) (h_catching : ps.catching = true) : (nextOf (execCommitGo m page s) s).outside ps = s.outside ps := by
  simp [nextOf, execCommitGo, h_regs, h_time, h_seq, h_sand, h_tenant, h_net, h_port, h_power, h_flash, h_catching]

theorem execCommitArm_frame (ps : Parts) (m : Master) (page : Nat) (s : State) (h_regs : ps.regs = true) (h_time : ps.time = true) (h_seq : ps.seq = true) (h_sand : ps.sand = true) (h_tenant : ps.tenant = true) (h_net : ps.net = true) (h_port : ps.port = true) (h_power : ps.power = true) (h_flash : ps.flash = true) (h_catching : ps.catching = true) : (nextOf (execCommitArm m page s) s).outside ps = s.outside ps := by
  simp [nextOf, execCommitArm, h_regs, h_time, h_seq, h_sand, h_tenant, h_net, h_port, h_power, h_flash, h_catching]

theorem execCommitDisarm_frame (ps : Parts) (m : Master) (page : Nat) (s : State) (h_regs : ps.regs = true) (h_time : ps.time = true) (h_seq : ps.seq = true) (h_sand : ps.sand = true) (h_tenant : ps.tenant = true) (h_net : ps.net = true) (h_port : ps.port = true) (h_power : ps.power = true) (h_flash : ps.flash = true) (h_catching : ps.catching = true) : (nextOf (execCommitDisarm m page s) s).outside ps = s.outside ps := by
  simp [nextOf, execCommitDisarm, h_regs, h_time, h_seq, h_sand, h_tenant, h_net, h_port, h_power, h_flash, h_catching]

theorem execRegisterWrite_frame (ps : Parts) (m : Master) (addr v : Nat) (s : State) (h_regs : ps.regs = true) (h_time : ps.time = true) (h_seq : ps.seq = true) (h_sand : ps.sand = true) (h_tenant : ps.tenant = true) (h_net : ps.net = true) (h_port : ps.port = true) (h_power : ps.power = true) (h_flash : ps.flash = true) (h_catching : ps.catching = true) : (nextOf (execRegisterWrite m addr v s) s).outside ps = s.outside ps := by
  simp [nextOf, execRegisterWrite, h_regs, h_time, h_seq, h_sand, h_tenant, h_net, h_port, h_power, h_flash, h_catching]

theorem execLowWordRead_frame (ps : Parts) (m : Master) (addr : Nat) (s : State) (h_regs : ps.regs = true) : (nextOf (execLowWordRead m addr s) s).outside ps = s.outside ps := by
  simp [nextOf, execLowWordRead, h_regs]

theorem execErrClr_frame (ps : Parts) (m : Master) (page : Nat) (s : State) (h_regs : ps.regs = true) (h_time : ps.time = true) (h_seq : ps.seq = true) (h_sand : ps.sand = true) (h_tenant : ps.tenant = true) (h_net : ps.net = true) (h_port : ps.port = true) (h_power : ps.power = true) (h_flash : ps.flash = true) (h_catching : ps.catching = true) : (nextOf (execErrClr m page s) s).outside ps = s.outside ps := by
  simp [nextOf, execErrClr, h_regs, h_time, h_seq, h_sand, h_tenant, h_net, h_port, h_power, h_flash, h_catching]

theorem execEventClear_frame (ps : Parts) (m : Master) (page v : Nat) (s : State) (h_regs : ps.regs = true) (h_time : ps.time = true) (h_seq : ps.seq = true) (h_sand : ps.sand = true) (h_tenant : ps.tenant = true) (h_net : ps.net = true) (h_port : ps.port = true) (h_power : ps.power = true) (h_flash : ps.flash = true) (h_catching : ps.catching = true) : (nextOf (execEventClear m page v s) s).outside ps = s.outside ps := by
  simp [nextOf, execEventClear, h_regs, h_time, h_seq, h_sand, h_tenant, h_net, h_port, h_power, h_flash, h_catching]

theorem execCheckDraw_frame (ps : Parts) (m : Master) (cl : Nat) (s : State) (h_regs : ps.regs = true) (h_time : ps.time = true) (h_seq : ps.seq = true) (h_sand : ps.sand = true) (h_tenant : ps.tenant = true) (h_net : ps.net = true) (h_port : ps.port = true) (h_power : ps.power = true) (h_flash : ps.flash = true) (h_catching : ps.catching = true) : (nextOf (execCheckDraw m cl s) s).outside ps = s.outside ps := by
  simp [nextOf, execCheckDraw, h_regs, h_time, h_seq, h_sand, h_tenant, h_net, h_port, h_power, h_flash, h_catching]

theorem execCheckDrawDone_frame (ps : Parts) (cl : Nat) (s : State) (h_regs : ps.regs = true) (h_seq : ps.seq = true) : (nextOf (execCheckDrawDone cl s) s).outside ps = s.outside ps := by
  unfold execCheckDrawDone; (repeat' split) <;> simp [nextOf, h_regs, h_seq]

theorem execCntClear_frame (ps : Parts) (m : Master) (cl : Nat) (s : State) (h_regs : ps.regs = true) (h_time : ps.time = true) (h_seq : ps.seq = true) (h_sand : ps.sand = true) (h_tenant : ps.tenant = true) (h_net : ps.net = true) (h_port : ps.port = true) (h_power : ps.power = true) (h_flash : ps.flash = true) (h_catching : ps.catching = true) : (nextOf (execCntClear m cl s) s).outside ps = s.outside ps := by
  simp [nextOf, execCntClear, h_regs, h_time, h_seq, h_sand, h_tenant, h_net, h_port, h_power, h_flash, h_catching]

theorem execNsClear_frame (ps : Parts) (m : Master) (d : Nat) (s : State) (h_regs : ps.regs = true) (h_time : ps.time = true) (h_seq : ps.seq = true) (h_sand : ps.sand = true) (h_tenant : ps.tenant = true) (h_net : ps.net = true) (h_port : ps.port = true) (h_power : ps.power = true) (h_flash : ps.flash = true) (h_catching : ps.catching = true) : (nextOf (execNsClear m d s) s).outside ps = s.outside ps := by
  simp [nextOf, execNsClear, h_regs, h_time, h_seq, h_sand, h_tenant, h_net, h_port, h_power, h_flash, h_catching]

theorem execMemClear_frame (ps : Parts) (m : Master) (w : Nat) (s : State) (h_regs : ps.regs = true) (h_time : ps.time = true) (h_seq : ps.seq = true) (h_sand : ps.sand = true) (h_tenant : ps.tenant = true) (h_net : ps.net = true) (h_port : ps.port = true) (h_power : ps.power = true) (h_flash : ps.flash = true) (h_catching : ps.catching = true) : (nextOf (execMemClear m w s) s).outside ps = s.outside ps := by
  simp [nextOf, execMemClear, h_regs, h_time, h_seq, h_sand, h_tenant, h_net, h_port, h_power, h_flash, h_catching]

theorem execQmClear_frame (ps : Parts) (m : Master) (s : State) (h_regs : ps.regs = true) (h_time : ps.time = true) (h_seq : ps.seq = true) (h_sand : ps.sand = true) (h_tenant : ps.tenant = true) (h_net : ps.net = true) (h_port : ps.port = true) (h_power : ps.power = true) (h_flash : ps.flash = true) (h_catching : ps.catching = true) : (nextOf (execQmClear m s) s).outside ps = s.outside ps := by
  simp [nextOf, execQmClear, h_regs, h_time, h_seq, h_sand, h_tenant, h_net, h_port, h_power, h_flash, h_catching]

theorem execPeClear_frame (ps : Parts) (m : Master) (s : State) (h_regs : ps.regs = true) (h_time : ps.time = true) (h_seq : ps.seq = true) (h_sand : ps.sand = true) (h_tenant : ps.tenant = true) (h_net : ps.net = true) (h_port : ps.port = true) (h_power : ps.power = true) (h_flash : ps.flash = true) (h_catching : ps.catching = true) : (nextOf (execPeClear m s) s).outside ps = s.outside ps := by
  simp [nextOf, execPeClear, h_regs, h_time, h_seq, h_sand, h_tenant, h_net, h_port, h_power, h_flash, h_catching]

theorem execLinkClear_frame (ps : Parts) (m : Master) (l : Nat) (s : State) (h_regs : ps.regs = true) (h_time : ps.time = true) (h_seq : ps.seq = true) (h_sand : ps.sand = true) (h_tenant : ps.tenant = true) (h_net : ps.net = true) (h_port : ps.port = true) (h_power : ps.power = true) (h_flash : ps.flash = true) (h_catching : ps.catching = true) : (nextOf (execLinkClear m l s) s).outside ps = s.outside ps := by
  simp [nextOf, execLinkClear, h_regs, h_time, h_seq, h_sand, h_tenant, h_net, h_port, h_power, h_flash, h_catching]

theorem execIdleClear_frame (ps : Parts) (m : Master) (cl : Nat) (s : State) (h_regs : ps.regs = true) (h_time : ps.time = true) (h_seq : ps.seq = true) (h_sand : ps.sand = true) (h_tenant : ps.tenant = true) (h_net : ps.net = true) (h_port : ps.port = true) (h_power : ps.power = true) (h_flash : ps.flash = true) (h_catching : ps.catching = true) : (nextOf (execIdleClear m cl s) s).outside ps = s.outside ps := by
  simp [nextOf, execIdleClear, h_regs, h_time, h_seq, h_sand, h_tenant, h_net, h_port, h_power, h_flash, h_catching]

theorem execPwrClear_frame (ps : Parts) (m : Master) (s : State) (h_regs : ps.regs = true) (h_time : ps.time = true) (h_seq : ps.seq = true) (h_sand : ps.sand = true) (h_tenant : ps.tenant = true) (h_net : ps.net = true) (h_port : ps.port = true) (h_power : ps.power = true) (h_flash : ps.flash = true) (h_catching : ps.catching = true) : (nextOf (execPwrClear m s) s).outside ps = s.outside ps := by
  simp [nextOf, execPwrClear, h_regs, h_time, h_seq, h_sand, h_tenant, h_net, h_port, h_power, h_flash, h_catching]

theorem execDieClear_frame (ps : Parts) (m : Master) (d : Nat) (s : State) (h_regs : ps.regs = true) (h_time : ps.time = true) (h_seq : ps.seq = true) (h_sand : ps.sand = true) (h_tenant : ps.tenant = true) (h_net : ps.net = true) (h_port : ps.port = true) (h_power : ps.power = true) (h_flash : ps.flash = true) (h_catching : ps.catching = true) : (nextOf (execDieClear m d s) s).outside ps = s.outside ps := by
  simp [nextOf, execDieClear, h_regs, h_time, h_seq, h_sand, h_tenant, h_net, h_port, h_power, h_flash, h_catching]

theorem execPortClear_frame (ps : Parts) (m : Master) (s : State) (h_regs : ps.regs = true) (h_time : ps.time = true) (h_seq : ps.seq = true) (h_sand : ps.sand = true) (h_tenant : ps.tenant = true) (h_net : ps.net = true) (h_port : ps.port = true) (h_power : ps.power = true) (h_flash : ps.flash = true) (h_catching : ps.catching = true) : (nextOf (execPortClear m s) s).outside ps = s.outside ps := by
  simp [nextOf, execPortClear, h_regs, h_time, h_seq, h_sand, h_tenant, h_net, h_port, h_power, h_flash, h_catching]

theorem execLinkKeyWrite_frame (ps : Parts) (m : Master) (i v : Nat) (s : State) (h_regs : ps.regs = true) (h_time : ps.time = true) (h_seq : ps.seq = true) (h_sand : ps.sand = true) (h_tenant : ps.tenant = true) (h_net : ps.net = true) (h_port : ps.port = true) (h_power : ps.power = true) (h_flash : ps.flash = true) (h_catching : ps.catching = true) : (nextOf (execLinkKeyWrite m i v s) s).outside ps = s.outside ps := by
  simp [nextOf, execLinkKeyWrite, h_regs, h_time, h_seq, h_sand, h_tenant, h_net, h_port, h_power, h_flash, h_catching]

theorem execUnhold_frame (ps : Parts) (m : Master) (s : State) (h_regs : ps.regs = true) (h_time : ps.time = true) (h_seq : ps.seq = true) (h_sand : ps.sand = true) (h_tenant : ps.tenant = true) (h_net : ps.net = true) (h_port : ps.port = true) (h_power : ps.power = true) (h_flash : ps.flash = true) (h_catching : ps.catching = true) : (nextOf (execUnhold m s) s).outside ps = s.outside ps := by
  simp [nextOf, execUnhold, h_regs, h_time, h_seq, h_sand, h_tenant, h_net, h_port, h_power, h_flash, h_catching]

theorem execUnholdAdapter_frame (ps : Parts) (m : Master) (s : State) (h_regs : ps.regs = true) (h_time : ps.time = true) (h_seq : ps.seq = true) (h_sand : ps.sand = true) (h_tenant : ps.tenant = true) (h_net : ps.net = true) (h_port : ps.port = true) (h_power : ps.power = true) (h_flash : ps.flash = true) (h_catching : ps.catching = true) : (nextOf (execUnholdAdapter m s) s).outside ps = s.outside ps := by
  simp [nextOf, execUnholdAdapter, h_regs, h_time, h_seq, h_sand, h_tenant, h_net, h_port, h_power, h_flash, h_catching]

theorem execSwAbort_frame (ps : Parts) (m : Master) (w : Nat) (s : State) (h_regs : ps.regs = true) (h_time : ps.time = true) (h_seq : ps.seq = true) (h_sand : ps.sand = true) (h_tenant : ps.tenant = true) (h_net : ps.net = true) (h_port : ps.port = true) (h_power : ps.power = true) (h_flash : ps.flash = true) (h_catching : ps.catching = true) : (nextOf (execSwAbort m w s) s).outside ps = s.outside ps := by
  simp [nextOf, execSwAbort, h_regs, h_time, h_seq, h_sand, h_tenant, h_net, h_port, h_power, h_flash, h_catching]

theorem execPsWakeLinks_frame (ps : Parts) (m : Master) (v : Nat) (s : State) (h_regs : ps.regs = true) (h_time : ps.time = true) (h_seq : ps.seq = true) (h_sand : ps.sand = true) (h_tenant : ps.tenant = true) (h_net : ps.net = true) (h_port : ps.port = true) (h_power : ps.power = true) (h_flash : ps.flash = true) (h_catching : ps.catching = true) : (nextOf (execPsWakeLinks m v s) s).outside ps = s.outside ps := by
  simp [nextOf, execPsWakeLinks, h_regs, h_time, h_seq, h_sand, h_tenant, h_net, h_port, h_power, h_flash, h_catching]

theorem execRetrainingComplete_frame (ps : Parts) (w k : Nat) (ok : Bool) (s : State) (h_regs : ps.regs = true) (h_seq : ps.seq = true) (h_ns : ps.ns = true) (h_gddr : ps.gddr = true) (h_belt : ps.belt = true) (h_tenant : ps.tenant = true) (h_net : ps.net = true) (h_storage : ps.storage = true) (h_port : ps.port = true) (h_serving : ps.serving = true) : (nextOf (execRetrainingComplete w k ok s) s).outside ps = s.outside ps := by
  simp [nextOf, execRetrainingComplete, h_regs, h_seq, h_ns, h_gddr, h_belt, h_tenant, h_net, h_storage, h_port, h_serving]

end Sys2Proof.Machine
end

