-- ==== Sys2Proof/Laws/Sparse.lean ====
section
/-! SUPPORT. Sparse maps: a read after a write, and the canonical form that every write and every removal keeps. -/

namespace Sys2Proof.Machine

set_option linter.unusedSectionVars false

section
variable {α : Type} [DecidableEq α] (d : Nat → α)

@[simp] theorem sget_nil (k : Nat) : sget d ([] : List (Nat × α)) k = d k := rfl

theorem swf_nil : swf d ([] : List (Nat × α)) := by simp [swf]

theorem swf_tail {e : Nat × α} {m : List (Nat × α)} (h : swf d (e :: m)) : swf d m :=
  ⟨(List.pairwise_cons.1 h.1).2, fun x hx => h.2 x (List.mem_cons_of_mem _ hx)⟩

/-- A key below every key of the list is not listed. -/
theorem sget_of_lt {m : List (Nat × α)} {k : Nat} (h : ∀ e ∈ m, k < e.1) : sget d m k = d k := by
  induction m with
  | nil => rfl
  | cons e m ih =>
    obtain ⟨k', v⟩ := e
    have h1 : k < k' := h (k', v) (by simp)
    simp only [sget]
    rw [if_neg (by omega)]
    exact ih fun e he => h e (List.mem_cons_of_mem _ he)

/-- A read after a write to the same key gives the value written. -/
theorem sget_sset_rising {m : List (Nat × α)} (h : m.Pairwise fun a b => a.1 < b.1) (k : Nat) (v : α) : sget d (sset d m k v) k = v := by
  induction m with
  | nil => simp only [sset]; split <;> simp_all [sget]
  | cons e m ih =>
    obtain ⟨k', v'⟩ := e
    have hlt : ∀ x ∈ m, k' < x.1 := (List.pairwise_cons.1 h).1
    simp only [sset]
    split
    · rename_i hk
      split
      · rename_i hv
        rw [hv]
        apply sget_of_lt
        intro x hx
        rcases List.mem_cons.1 hx with rfl | hx
        · exact hk
        · exact Nat.lt_trans hk (hlt x hx)
      · simp [sget]
    · rename_i hk
      split
      · rename_i hkk
        subst hkk
        split
        · rename_i hv; rw [hv]; exact sget_of_lt d hlt
        · simp [sget]
      · rename_i hne
        simp only [sget]
        rw [if_neg hne]
        exact ih (List.pairwise_cons.1 h).2

@[simp] theorem sget_sset_self {m : List (Nat × α)} (h : swf d m) (k : Nat) (v : α) : sget d (sset d m k v) k = v :=
  sget_sset_rising d h.1 k v

/-- A write leaves every other key as it read. -/
theorem sget_sset_ne (m : List (Nat × α)) (k j : Nat) (v : α) (hj : j ≠ k) : sget d (sset d m k v) j = sget d m j := by
  induction m with
  | nil => simp only [sset]; split <;> simp [sget]; intro h; exact absurd h.symm hj
  | cons e m ih =>
    obtain ⟨k', v'⟩ := e
    simp only [sset]
    split
    · split
      · rfl
      · simp [sget, Ne.symm hj]
    · split
      · rename_i hkk
        subst hkk
        split <;> simp [sget, Ne.symm hj]
      · simp only [sget]
        split
        · rfl
        · exact ih

/-- A read after a write of anything but the default gives it, in any list. -/
theorem sget_sset_listed (m : List (Nat × α)) (k : Nat) (v : α) (hv : v ≠ d k) : sget d (sset d m k v) k = v := by
  induction m with
  | nil => simp [sset, hv, sget]
  | cons e m ih =>
    obtain ⟨k', v'⟩ := e
    simp only [sset]
    split
    · simp [sget]
    · split
      · simp [sget]
      · rename_i hne; simp [sget, hne, ih]

theorem sget_sset {m : List (Nat × α)} (h : swf d m) (k j : Nat) (v : α) :
    sget d (sset d m k v) j = if j = k then v else sget d m j := by
  split
  · rename_i hj; subst hj; exact sget_sset_self d h _ _
  · rename_i hj; exact sget_sset_ne d m k j v hj

/-- Every entry of a map after a write is the one written, or was there before. -/
theorem mem_sset {m : List (Nat × α)} {k : Nat} {v : α} {e : Nat × α} (h : e ∈ sset d m k v) :
    (e = (k, v) ∧ v ≠ d k) ∨ e ∈ m := by
  induction m with
  | nil => simp only [sset] at h; split at h <;> simp_all
  | cons x m ih =>
    obtain ⟨k', v'⟩ := x
    simp only [sset] at h
    split at h
    · split at h
      · exact .inr h
      · rcases List.mem_cons.1 h with rfl | h
        · exact .inl ⟨rfl, ‹_›⟩
        · exact .inr h
    · split at h
      · split at h
        · exact .inr (List.mem_cons_of_mem _ h)
        · rcases List.mem_cons.1 h with rfl | h
          · exact .inl ⟨rfl, ‹_›⟩
          · exact .inr (List.mem_cons_of_mem _ h)
      · rcases List.mem_cons.1 h with rfl | h
        · exact .inr (by simp)
        · rcases ih h with h | h
          · exact .inl h
          · exact .inr (List.mem_cons_of_mem _ h)

/-- A write keeps the keys strictly rising. -/
theorem sset_rising {m : List (Nat × α)} (h : m.Pairwise fun a b => a.1 < b.1) (k : Nat) (v : α) :
    (sset d m k v).Pairwise fun a b => a.1 < b.1 := by
  induction m with
  | nil => simp only [sset]; split <;> simp
  | cons x m ih =>
    obtain ⟨k', v'⟩ := x
    have hp := List.pairwise_cons.1 h
    simp only [sset]
    split
    · rename_i hk
      split
      · exact h
      · refine List.pairwise_cons.2 ⟨?_, h⟩
        intro e he
        rcases List.mem_cons.1 he with rfl | he
        · exact hk
        · exact Nat.lt_trans hk (hp.1 e he)
    · split
      · rename_i hkk
        subst hkk
        split
        · exact hp.2
        · exact List.pairwise_cons.2 ⟨hp.1, hp.2⟩
      · refine List.pairwise_cons.2 ⟨?_, ih hp.2⟩
        intro e he
        rcases mem_sset d he with ⟨rfl, _⟩ | he
        · simp only; omega
        · exact hp.1 e he

/-- A write keeps the canonical form. -/
theorem sset_wf {m : List (Nat × α)} (h : swf d m) (k : Nat) (v : α) : swf d (sset d m k v) := by
  refine ⟨sset_rising d h.1 k v, ?_⟩
  intro e he
  rcases mem_sset d he with ⟨rfl, hv⟩ | he
  · exact hv
  · exact h.2 e he

theorem ssetAll_wf {m : List (Nat × α)} (h : swf d m) (ws : List (Nat × α)) : swf d (ssetAll d m ws) := by
  unfold ssetAll
  induction ws generalizing m with
  | nil => exact h
  | cons w ws ih => exact ih (sset_wf d h _ _)

/-- A removal of entries keeps the canonical form. -/
theorem filter_wf {m : List (Nat × α)} (h : swf d m) (p : Nat × α → Bool) : swf d (m.filter p) :=
  ⟨h.1.sublist List.filter_sublist, fun e he => h.2 e (List.mem_filter.1 he).1⟩

/-- Many writes leave every key that none of them names. -/
theorem sget_ssetAll_of_not_mem (m : List (Nat × α)) (ws : List (Nat × α)) (j : Nat) (hj : ∀ w ∈ ws, w.1 ≠ j) :
    sget d (ssetAll d m ws) j = sget d m j := by
  unfold ssetAll
  induction ws generalizing m with
  | nil => rfl
  | cons w ws ih =>
    simp only [List.foldl]
    rw [ih _ fun x hx => hj x (List.mem_cons_of_mem _ hx)]
    exact sget_sset_ne d m w.1 j w.2 (Ne.symm (hj w (by simp)))

/-- What a removal of entries leaves of a key: its entry where the predicate keeps it, else the default. -/
theorem sget_filter {m : List (Nat × α)} (h : swf d m) (p : Nat × α → Bool) (k : Nat)
    (hp : ∀ e ∈ m, e.1 = k → p e = true) : sget d (m.filter p) k = sget d m k := by
  induction m with
  | nil => rfl
  | cons e m ih =>
    obtain ⟨k', v⟩ := e
    have ih := ih (swf_tail d h) fun e he => hp e (List.mem_cons_of_mem _ he)
    by_cases hk : k' = k
    · have hpe := hp (k', v) (by simp) hk
      rw [List.filter_cons, if_pos hpe]
      simp [sget, hk]
    · simp only [List.filter_cons]
      split <;> simp [sget, hk, ih]

/-- The canonical form as a predicate that proofs do not unfold. -/
def Canon (m : List (Nat × α)) : Prop := swf d m

@[simp] theorem canon_nil : Canon d ([] : List (Nat × α)) := swf_nil d
@[simp] theorem canon_sset {m : List (Nat × α)} (h : Canon d m) (k : Nat) (v : α) : Canon d (sset d m k v) := sset_wf d h k v
@[simp] theorem canon_ssetAll {m : List (Nat × α)} (h : Canon d m) (ws : List (Nat × α)) : Canon d (ssetAll d m ws) :=
  ssetAll_wf d h ws
@[simp] theorem canon_filter {m : List (Nat × α)} (h : Canon d m) (p : Nat × α → Bool) : Canon d (m.filter p) := filter_wf d h p

end

/-- The element of a list after a replacement. -/
theorem getNth_setNth {α : Type} (d : α) (l : List α) (i j : Nat) (v : α) :
    getNth d (setNth l i v) j = if i = j ∧ i < l.length then v else getNth d l j := by
  induction l generalizing i j with
  | nil => simp [setNth]
  | cons x l ih =>
    cases i with
    | zero =>
      cases j with
      | zero => simp [setNth, getNth]
      | succ j => simp [setNth, getNth]
    | succ i =>
      cases j with
      | zero => simp [setNth, getNth]
      | succ j =>
        have := ih i j
        simp only [getNth] at this
        simp only [setNth, getNth, List.getElem?_cons_succ, this, List.length_cons, Nat.succ.injEq, Nat.add_lt_add_iff_right]

end Sys2Proof.Machine
end

