-- ==== Sys2Proof/Laws/Memory.lean ====
section
/-! SUPPORT. Every operation over the memories keeps their canonical form (addresses strictly rising, no entry equal to
zero), and so does every operation that runs one. -/

namespace Sys2Proof.Machine

/-- Near SRAM, GDDR7 and table memory in canonical form. -/
structure MemState.ok (m : MemState) : Prop where
  ns : Canon byteZero m.ns
  gddr : Canon byteZero m.gddr
  table : Canon byteZero m.table

/-- The parts without the three memories. -/
def notMem : Parts :=
  ⟨true, true, true, true, true, true, false, false, false, true, true, true, true, true, true, true, true, true, true, true,
    true, true, true, true, true, true, true⟩

/-- What leaves the memories as they were keeps their form. -/
theorem memOk_of_frame {ps : Parts} {s t : State} (hp : ps = notMem) (hf : t.outside ps = s.outside ps) (h : s.mem.ok) :
    t.mem.ok := by
  subst hp
  have hm : (t.outside notMem).mem = (s.outside notMem).mem := by rw [hf]
  simp only [State.outside, MemState.outside, notMem, cond_false, MemState.mk.injEq] at hm
  obtain ⟨h1, _, _, h4, _, _, _, _, h9, _⟩ := hm
  exact ⟨by rw [h1]; exact h.ns, by rw [h4]; exact h.gddr, by rw [h9]; exact h.table⟩

@[simp] theorem memOk_ns {m : MemState} (h : m.ok) {x : List Host.Cell} {t u : List (Nat × Nat)} (hx : Canon byteZero x) :
    MemState.ok { m with ns := x, tags := t, nsErr := u } := ⟨hx, h.gddr, h.table⟩
@[simp] theorem memOk_gddr {m : MemState} (h : m.ok) {x : List Host.Cell} {t u : List (Nat × Nat)} {v : List (Nat × Bool)}
    {w : List HeldWrite} (hx : Canon byteZero x) : MemState.ok { m with gddr := x, gKey := t, gErr := u, crc := v, waiting := w } := ⟨h.ns, hx, h.table⟩
@[simp] theorem memOk_table {m : MemState} (h : m.ok) {x : List Host.Cell} {t : List (Nat × Nat)} (hx : Canon byteZero x) :
    MemState.ok { m with table := x, tableErr := t } := ⟨h.ns, h.gddr, hx⟩
@[simp] theorem memOk_rest {m : MemState} (h : m.ok) {a b c d e t x} {u v w} :
    MemState.ok { m with tags := a, nsErr := b, gKey := c, gErr := d, tableErr := e, crc := t, waiting := x, sand := u, partList := v, sandAged := w } :=
  ⟨h.ns, h.gddr, h.table⟩


@[simp] theorem memOk_ite (c : Prop) [Decidable c] (a b : State) (ha : a.mem.ok) (hb : b.mem.ok) : (if c then a else b).mem.ok := by split <;> assumption

@[simp] theorem memOk_fst_ite {α : Type} (c : Prop) [Decidable c] (a b : State × α) (ha : a.1.mem.ok) (hb : b.1.mem.ok) : (if c then a else b).1.mem.ok := by
  split <;> assumption

@[simp] theorem foldl_memOk {α : Type} (f : State → α → State) (h : ∀ s a, s.mem.ok → (f s a).mem.ok) (l : List α) (s : State) (hs : s.mem.ok) :
    (l.foldl f s).mem.ok := by
  induction l generalizing s with
  | nil => exact hs
  | cons a l ih => exact ih _ (h _ _ hs)

@[simp] theorem foldl_attn_memOk {α : Type} (f : AttnRun → α → AttnRun) (h : ∀ s a, s.state.mem.ok → (f s a).state.mem.ok)
    (l : List α) (s : AttnRun) (hs : s.state.mem.ok) : (l.foldl f s).state.mem.ok := by
  induction l generalizing s with
  | nil => exact hs
  | cons a l ih => exact ih _ (h _ _ hs)

@[simp] theorem foldl_fst_memOk {α β : Type} (f : State × β → α → State × β) (h : ∀ s a, s.1.mem.ok → (f s a).1.mem.ok)
    (l : List α) (s : State × β) (hs : s.1.mem.ok) : (l.foldl f s).1.mem.ok := by
  induction l generalizing s with
  | nil => exact hs
  | cons a l ih => exact ih _ (h _ _ hs)

set_option linter.unusedSimpArgs false
set_option linter.unusedVariables false


@[simp] theorem setReg_memOk (s : State) (k v : Nat) (hok : s.mem.ok)  : (setReg s k v).mem.ok := by
  exact memOk_of_frame rfl (setReg_frame notMem _ _ _ rfl) hok

@[simp] theorem setShd_memOk (s : State) (k v : Nat) (hok : s.mem.ok)  : (setShd s k v).mem.ok := by
  exact memOk_of_frame rfl (setShd_frame notMem _ _ _ rfl) hok

@[simp] theorem setBoth_memOk (s : State) (k v : Nat) (hok : s.mem.ok)  : (setBoth s k v).mem.ok := by
  exact memOk_of_frame rfl (setBoth_frame notMem _ _ _ rfl) hok

@[simp] theorem setReg64_memOk (s : State) (k v : Nat) (hok : s.mem.ok)  : (setReg64 s k v).mem.ok := by
  exact memOk_of_frame rfl (setReg64_frame notMem _ _ _ rfl) hok

@[simp] theorem incReg_memOk (s : State) (k n : Nat) (hok : s.mem.ok)  : (incReg s k n).mem.ok := by
  exact memOk_of_frame rfl (incReg_frame notMem _ _ _ rfl) hok

@[simp] theorem incReg64_memOk (s : State) (k w n : Nat) (hok : s.mem.ok)  : (incReg64 s k w n).mem.ok := by
  exact memOk_of_frame rfl (incReg64_frame notMem _ _ _ _ rfl) hok

@[simp] theorem setField_memOk (s : State) (k hi lo v : Nat) (hok : s.mem.ok)  : (setField s k hi lo v).mem.ok := by
  exact memOk_of_frame rfl (setField_frame notMem _ _ _ _ _ rfl) hok

@[simp] theorem setFieldBoth_memOk (s : State) (k hi lo v : Nat) (hok : s.mem.ok)  : (setFieldBoth s k hi lo v).mem.ok := by
  exact memOk_of_frame rfl (setFieldBoth_frame notMem _ _ _ _ _ rfl) hok

@[simp] theorem setAlert_memOk (s : State) (d : Nat) (b : Bool) (hok : s.mem.ok)  : (setAlert s d b).mem.ok := by
  exact memOk_of_frame rfl (setAlert_frame notMem _ _ _ rfl) hok

@[simp] theorem setEvent_memOk (s : State) (page b : Nat) (hok : s.mem.ok)  : (setEvent s page b).mem.ok := by
  exact memOk_of_frame rfl (setEvent_frame notMem _ _ _ rfl) hok

@[simp] theorem updateAlert_memOk (s : State) (page : Nat) (hok : s.mem.ok)  : (updateAlert s page).mem.ok := by
  exact memOk_of_frame rfl (updateAlert_frame notMem _ _ rfl) hok

@[simp] theorem noteError_memOk (s : State) (page : Nat) (hok : s.mem.ok)  : (noteError s page).mem.ok := by
  exact memOk_of_frame rfl (noteError_frame notMem _ _ rfl) hok

@[simp] theorem fresh_memOk (s : State) (hok : s.mem.ok)  : (fresh s).1.mem.ok := by
  exact memOk_of_frame rfl (fresh_frame notMem _ rfl) hok

@[simp] theorem post_memOk (s : State) (page : Nat) (e : Event) (hok : s.mem.ok)  : (post s page e).mem.ok := by
  exact memOk_of_frame rfl (post_frame notMem _ _ _ rfl rfl) hok

@[simp] theorem postOf_memOk (s : State) (page cause op1 : Nat) (hok : s.mem.ok)  : (postOf s page cause op1).mem.ok := by
  exact memOk_of_frame rfl (postOf_frame notMem _ _ _ _ rfl rfl) hok

@[simp] theorem postCtx_memOk (s : State) (c : Ctx) (cause op1 : Nat) (hok : s.mem.ok)  : (postCtx s c cause op1).mem.ok := by
  exact memOk_of_frame rfl (postCtx_frame notMem _ _ _ _ rfl rfl) hok

@[simp] theorem nsNote_memOk (s : State) (c : Ctx) (lines : List Nat) (hok : s.mem.ok)  : (nsNote s c lines).mem.ok := by
  exact memOk_of_frame rfl (nsNote_frame notMem _ _ _ rfl rfl) hok

@[simp] theorem nsClaim_memOk (s : State) (slot : Option Nat) (a : Nat) (hok : s.mem.ok)  : (nsClaim s slot a).mem.ok := by
  unfold nsClaim; dsimp only; split
  · exact hok
  · exact ⟨canon_filter _ hok.ns _, hok.gddr, hok.table⟩

@[simp] theorem nsWrite_memOk (s : State) (c : Ctx) (ws : List (Nat × Byte)) (hok : s.mem.ok)  : (nsWrite s c ws).mem.ok := by
  unfold nsWrite
  split
  · exact hok
  · rename_i w0 tl
    have h1 : (((((w0 :: tl).map fun (w : Nat × Byte) => w.1).map fun a => a / 256 * 256).eraseDups).foldl (fun s a => nsClaim s c.slot a) s).mem.ok :=
      foldl_memOk _ (fun s a hs => nsClaim_memOk s _ _ hs) _ _ hok
    dsimp only
    generalize List.foldl _ _ _ = s1 at *
    have h2 : ∀ k n, (incReg s1 k n).mem.ok := fun k n => incReg_memOk _ _ _ h1
    have h3 : ∀ k n x, MemState.ok { (incReg s1 k n).mem with ns := ssetAll byteZero (incReg s1 k n).mem.ns (w0 :: tl), nsErr := x } :=
      fun k n x => ⟨canon_ssetAll _ (h2 k n).ns _, (h2 k n).gddr, (h2 k n).table⟩
    split
    · exact h3 _ _ _
    · refine post_memOk _ _ _ (setReg_memOk _ _ _ (setReg_memOk _ _ _ (incReg_memOk _ _ _ ?_)))
      exact h3 _ _ _

@[simp] theorem nsWriteRun_memOk (s : State) (c : Ctx) (a : Nat) (bs : List Byte) (hok : s.mem.ok)  : (nsWriteRun s c a bs).mem.ok := by
  simp (maxDischargeDepth := 60) [nsWriteRun, hok]

@[simp] theorem nsWriteImage_memOk (s : State) (c : Ctx) (cl k l : Nat) (ws : List ByteWrite) (hok : s.mem.ok)  : (nsWriteImage s c cl k l ws).mem.ok := by
  simp (maxDischargeDepth := 60) [nsWriteImage, hok]

@[simp] theorem gNote_memOk (s : State) (c : Ctx) (a n : Nat) (hok : s.mem.ok)  : (gNote s c a n).mem.ok := by
  unfold gNote; dsimp only; (repeat' split) <;> simp (maxDischargeDepth := 60) [hok]

@[simp] theorem countRefused_memOk (s : State) (k : Nat) (hok : s.mem.ok)  : (countRefused s k).mem.ok := by
  exact memOk_of_frame rfl (countRefused_frame notMem _ _ rfl) hok

@[simp] theorem postRefusal_memOk (s : State) (c : Ctx) (a : Nat) (r : Nat × Option Nat) (hok : s.mem.ok)  : (postRefusal s c a r).mem.ok := by
  exact memOk_of_frame rfl (postRefusal_frame notMem _ _ _ _ rfl rfl) hok

@[simp] theorem gStore_memOk (s : State) (c : Ctx) (a : Nat) (bs : List Byte) (hok : s.mem.ok)  : (gStore s c a bs).mem.ok := by
  unfold gStore
  dsimp only
  split
  · refine incReg_memOk _ _ _ (incReg_memOk _ _ _ ?_)
    exact ⟨hok.ns, canon_ssetAll _ hok.gddr _, hok.table⟩
  · refine post_memOk _ _ _ (incReg_memOk _ _ _ (incReg_memOk _ _ _ ?_))
    exact ⟨hok.ns, canon_ssetAll _ hok.gddr _, hok.table⟩

@[simp] theorem gWrite_memOk (s : State) (c : Ctx) (a : Nat) (bs : List Byte) (hok : s.mem.ok)  : (gWrite s c a bs).mem.ok := by
  simp (maxDischargeDepth := 60) [gWrite, hok]

@[simp] theorem commitWrite_memOk (s : State) (a : Nat) (bs : List Byte) (hok : s.mem.ok)  : (commitWrite s a bs).mem.ok := by
  exact memOk_of_frame rfl (commitWrite_frame notMem _ _ _ rfl) hok

@[simp] theorem gLand_memOk (s : State) (c : Ctx) (a : Nat) (bs : List Byte) (hok : s.mem.ok)  : (gLand s c a bs).mem.ok := by
  simp (maxDischargeDepth := 60) [gLand, hok]

@[simp] theorem gAccept_memOk (s : State) (c : Ctx) (a : Nat) (bs : List Byte) (hok : s.mem.ok)  : (gAccept s c a bs).mem.ok := by
  simp (maxDischargeDepth := 60) [gAccept, hok]

@[simp] theorem landHeld_memOk (s : State) (x : HeldWrite) (hok : s.mem.ok)  : (landHeld s x).mem.ok := by
  unfold landHeld; (repeat' split) <;> simp (maxDischargeDepth := 60) [hok]

@[simp] theorem landWrites_memOk (s : State) (hok : s.mem.ok)  : (landWrites s).mem.ok := by
  unfold landWrites; (repeat' split) <;> simp_all (maxDischargeDepth := 60)

@[simp] theorem tblWrite_memOk (s : State) (cl b : Nat) (bs : List Byte) (hok : s.mem.ok)  : (tblWrite s cl b bs).mem.ok := by
  exact ⟨hok.ns, hok.gddr, canon_ssetAll _ hok.table _⟩

@[simp] theorem setProg_memOk (s : State) (cl p : Nat) (v : Prog) (hok : s.mem.ok)  : (setProg s cl p v).mem.ok := by
  exact memOk_of_frame rfl (setProg_frame notMem _ _ _ _ rfl) hok

@[simp] theorem setProgState_memOk (s : State) (cl p v : Nat) (hok : s.mem.ok)  : (setProgState s cl p v).mem.ok := by
  exact memOk_of_frame rfl (setProgState_frame notMem _ _ _ _ rfl) hok

@[simp] theorem setPC_memOk (s : State) (cl p v : Nat) (hok : s.mem.ok)  : (setPC s cl p v).mem.ok := by
  exact memOk_of_frame rfl (setPC_frame notMem _ _ _ _ rfl) hok

@[simp] theorem stopProg_memOk (s : State) (cl p code : Nat) (hok : s.mem.ok)  : (stopProg s cl p code).mem.ok := by
  exact memOk_of_frame rfl (stopProg_frame notMem _ _ _ _ rfl rfl) hok

@[simp] theorem haltProg_memOk (s : State) (cl p code : Nat) (hok : s.mem.ok)  : (haltProg s cl p code).mem.ok := by
  exact memOk_of_frame rfl (haltProg_frame notMem _ _ _ _ rfl rfl) hok

@[simp] theorem haltMask_memOk (s : State) (cl m code : Nat) (hok : s.mem.ok)  : (haltMask s cl m code).mem.ok := by
  exact memOk_of_frame rfl (haltMask_frame notMem _ _ _ _ rfl rfl) hok

@[simp] theorem startProg_memOk (s : State) (cl p turn : Nat) (hok : s.mem.ok)  : (startProg s cl p turn).mem.ok := by
  exact memOk_of_frame rfl (startProg_frame notMem _ _ _ _ rfl rfl) hok

@[simp] theorem removeFlight_memOk (s : State) (id : Nat) (hok : s.mem.ok)  : (removeFlight s id).mem.ok := by
  exact memOk_of_frame rfl (removeFlight_frame notMem _ _ rfl) hok

@[simp] theorem setWork_memOk (s : State) (id : Nat) (w : Work) (hok : s.mem.ok)  : (setWork s id w).mem.ok := by
  exact memOk_of_frame rfl (setWork_frame notMem _ _ _ rfl) hok

@[simp] theorem rejectEntry_memOk (s : State) (cl p i cause core : Nat) (hok : s.mem.ok)  : (rejectEntry s cl p i cause core).mem.ok := by
  exact memOk_of_frame rfl (rejectEntry_frame notMem _ _ _ _ _ _ rfl rfl rfl) hok

@[simp] theorem refuseEntry_memOk (s : State) (cl p i cause op1 : Nat) (hok : s.mem.ok)  : (refuseEntry s cl p i cause op1).mem.ok := by
  exact memOk_of_frame rfl (refuseEntry_frame notMem _ _ _ _ _ _ rfl rfl) hok

@[simp] theorem noteIssue_memOk (s : State) (cl p i : Nat) (next : Option Nat) (hok : s.mem.ok)  : (noteIssue s cl p i next).mem.ok := by
  exact memOk_of_frame rfl (noteIssue_frame notMem _ _ _ _ _ rfl rfl rfl) hok

@[simp] theorem issueFlight_memOk (s : State) (cl p i e : Nat) (units : List UnitId) (cores : Nat) (w : Work) (hok : s.mem.ok)  : (issueFlight s cl p i e units cores w).mem.ok := by
  exact memOk_of_frame rfl (issueFlight_frame notMem _ _ _ _ _ _ _ _ rfl rfl rfl) hok

@[simp] theorem issueNothing_memOk (s : State) (cl p i : Nat) (hok : s.mem.ok)  : (issueNothing s cl p i).mem.ok := by
  exact memOk_of_frame rfl (issueNothing_frame notMem _ _ _ _ rfl rfl rfl) hok

@[simp] theorem withEntry_memOk (s : State) (cl p : Nat) (mine : Nat → Bool) (k : Nat → Nat → State) (hok : s.mem.ok) (h_k : ∀ (x0 : Nat) (x1 : Nat), (k x0 x1).mem.ok) : (withEntry s cl p mine k).mem.ok := by
  simp (maxDischargeDepth := 60) [withEntry, hok, h_k]

@[simp] theorem blockProg_memOk (s : State) (cl p : Nat) (hok : s.mem.ok)  : (blockProg s cl p).mem.ok := by
  exact memOk_of_frame rfl (blockProg_frame notMem _ _ _ rfl) hok

@[simp] theorem setToken_memOk (s : State) (cl c v : Nat) (hok : s.mem.ok)  : (setToken s cl c v).mem.ok := by
  exact memOk_of_frame rfl (setToken_frame notMem _ _ _ _ rfl) hok

@[simp] theorem endWait_memOk (s : State) (cl p : Nat) (hok : s.mem.ok)  : (endWait s cl p).mem.ok := by
  exact memOk_of_frame rfl (endWait_frame notMem _ _ _ rfl rfl) hok

@[simp] theorem takeTokens_memOk (s : State) (cl c target : Nat) (hok : s.mem.ok)  : (takeTokens s cl c target).mem.ok := by
  exact memOk_of_frame rfl (takeTokens_frame notMem _ _ _ _ rfl rfl) hok

@[simp] theorem serveWaits_memOk (s : State) (cl c : Nat) (hok : s.mem.ok)  : (serveWaits s cl c).mem.ok := by
  exact memOk_of_frame rfl (serveWaits_frame notMem _ _ _ rfl rfl) hok

@[simp] theorem postToken_memOk (s : State) (cl c : Nat) (hok : s.mem.ok)  : (postToken s cl c).mem.ok := by
  exact memOk_of_frame rfl (postToken_frame notMem _ _ _ rfl rfl rfl) hok

@[simp] theorem setLiveFlag_memOk (s : State) (cl f : Nat) (b : Bool) (hok : s.mem.ok)  : (setLiveFlag s cl f b).mem.ok := by
  exact memOk_of_frame rfl (setLiveFlag_frame notMem _ _ _ _ rfl) hok

@[simp] theorem setSyncFlag_memOk (s : State) (cl f : Nat) (b : Bool) (hok : s.mem.ok)  : (setSyncFlag s cl f b).mem.ok := by
  exact memOk_of_frame rfl (setSyncFlag_frame notMem _ _ _ _ rfl) hok

@[simp] theorem noteSticky_memOk (s : State) (cl core sticky : Nat) (hok : s.mem.ok)  : (noteSticky s cl core sticky).mem.ok := by
  exact memOk_of_frame rfl (noteSticky_frame notMem _ _ _ _ rfl) hok

@[simp] theorem noteCounts_memOk (s : State) (cl core : Nat) (grad : Bool) (c : Counts) (hok : s.mem.ok)  : (noteCounts s cl core grad c).mem.ok := by
  exact memOk_of_frame rfl (noteCounts_frame notMem _ _ _ _ _ rfl) hok

@[simp] theorem addRecord_memOk (s : State) (c : Ctx) (cl n : Nat) (k : Counts) (hok : s.mem.ok)  : (addRecord s c cl n k).mem.ok := by
  simp (maxDischargeDepth := 60) [addRecord, hok]

@[simp] theorem setRail_memOk (s : State) (p c : Nat) (hok : s.mem.ok)  : (setRail s p c).mem.ok := by
  exact memOk_of_frame rfl (setRail_frame notMem _ _ _ rfl) hok

@[simp] theorem showCodes_memOk (s : State) (hok : s.mem.ok)  : (showCodes s).mem.ok := by
  exact memOk_of_frame rfl (showCodes_frame notMem _ rfl) hok

@[simp] theorem driveRail_memOk (s : State) (p c : Nat) (hok : s.mem.ok)  : (driveRail s p c).mem.ok := by
  exact memOk_of_frame rfl (driveRail_frame notMem _ _ _ rfl) hok

@[simp] theorem raiseRails_memOk (s : State) (k : Nat) (hok : s.mem.ok)  : (raiseRails s k).mem.ok := by
  exact memOk_of_frame rfl (raiseRails_frame notMem _ _ rfl) hok

@[simp] theorem settleRails_memOk (s : State) (hok : s.mem.ok)  : (settleRails s).mem.ok := by
  exact memOk_of_frame rfl (settleRails_frame notMem _ rfl rfl) hok

@[simp] theorem stepRails_memOk (s : State) (hok : s.mem.ok)  : (stepRails s).mem.ok := by
  exact memOk_of_frame rfl (stepRails_frame notMem _ rfl) hok

@[simp] theorem armedRaise_memOk (s : State) (a : Nat) (hok : s.mem.ok)  : (armedRaise s a).mem.ok := by
  exact memOk_of_frame rfl (armedRaise_frame notMem _ _ rfl) hok

@[simp] theorem setPoint_memOk (s : State) (k : Nat) (hok : s.mem.ok)  : (setPoint s k).mem.ok := by
  exact memOk_of_frame rfl (setPoint_frame notMem _ _ rfl) hok

@[simp] theorem endRaise_memOk (s : State) (t : Nat) (hok : s.mem.ok)  : (endRaise s t).mem.ok := by
  exact memOk_of_frame rfl (endRaise_frame notMem _ _ rfl) hok

@[simp] theorem updatePoint_memOk (s : State) (t : Nat) (hok : s.mem.ok)  : (updatePoint s t).mem.ok := by
  exact memOk_of_frame rfl (updatePoint_frame notMem _ _ rfl rfl rfl) hok

@[simp] theorem publishCeiling_memOk (s : State) (hok : s.mem.ok)  : (publishCeiling s).mem.ok := by
  exact memOk_of_frame rfl (publishCeiling_frame notMem _ rfl rfl rfl) hok

@[simp] theorem eraseReduced_memOk (s : State) (hok : s.mem.ok)  : (eraseReduced s).mem.ok := by
  exact memOk_of_frame rfl (eraseReduced_frame notMem _ rfl) hok

@[simp] theorem sbEvent_memOk (s : State) (b : Nat) (hok : s.mem.ok)  : (sbEvent s b).mem.ok := by
  exact memOk_of_frame rfl (sbEvent_frame notMem _ _ rfl) hok

@[simp] theorem dropCommit_memOk (s : State) (page : Nat) (hok : s.mem.ok)  : (dropCommit s page).mem.ok := by
  exact memOk_of_frame rfl (dropCommit_frame notMem _ _ rfl) hok

@[simp] theorem addCommit_memOk (s : State) (page : Nat) (t : Option Nat) (hok : s.mem.ok)  : (addCommit s page t).mem.ok := by
  exact memOk_of_frame rfl (addCommit_frame notMem _ _ _ rfl) hok

@[simp] theorem askCommit_memOk (s : State) (page : Nat) (t : Option Nat) (hok : s.mem.ok)  : (askCommit s page t).mem.ok := by
  exact memOk_of_frame rfl (askCommit_frame notMem _ _ _ rfl rfl) hok

@[simp] theorem writeCommit_memOk (s : State) (page v : Nat) (hok : s.mem.ok)  : (writeCommit s page v).mem.ok := by
  exact memOk_of_frame rfl (writeCommit_frame notMem _ _ _ rfl rfl) hok

@[simp] theorem pageRead_memOk (s : State) (m : Master) (ty page off : Nat) (hok : s.mem.ok)  : (pageRead s m ty page off).1.mem.ok := by
  exact memOk_of_frame rfl (pageRead_frame notMem _ _ _ _ _ rfl) hok

@[simp] theorem setRing_memOk (s : State) (n : Nat) (r : Ring) (hok : s.mem.ok)  : (setRing s n r).mem.ok := by
  exact memOk_of_frame rfl (setRing_frame notMem _ _ _ rfl) hok

@[simp] theorem hubRead_memOk (s : State) (m : Master) (a : Nat) (hok : s.mem.ok)  : (hubRead s m a).1.mem.ok := by
  exact memOk_of_frame rfl (hubRead_frame notMem _ _ _ rfl) hok

@[simp] theorem clearRegs_memOk (s : State) (page : Nat) (offs : List Nat) (hok : s.mem.ok)  : (clearRegs s page offs).mem.ok := by
  exact memOk_of_frame rfl (clearRegs_frame notMem _ _ _ rfl) hok

@[simp] theorem startDraw_memOk (s : State) (cl page : Nat) (hok : s.mem.ok)  : (startDraw s cl page).mem.ok := by
  exact memOk_of_frame rfl (startDraw_frame notMem _ _ _ rfl rfl) hok

@[simp] theorem refreshSand_memOk (s : State) (w level : Nat) (hok : s.mem.ok)  : (refreshSand s w level).mem.ok := by
  exact memOk_of_frame rfl (refreshSand_frame notMem _ _ _ rfl) hok

@[simp] theorem sandMark_memOk (s : State) (w : Nat) (hok : s.mem.ok)  : (sandMark s w).mem.ok := by
  exact memOk_of_frame rfl (sandMark_frame notMem _ _ rfl) hok

@[simp] theorem queueSand_memOk (s : State) (w base size : Nat) (urgent : Bool) (hok : s.mem.ok)  : (queueSand s w base size urgent).mem.ok := by
  exact memOk_of_frame rfl (queueSand_frame notMem _ _ _ _ _ rfl rfl) hok

@[simp] theorem releaseCatch_memOk (s : State) (hok : s.mem.ok)  : (releaseCatch s).mem.ok := by
  exact memOk_of_frame rfl (releaseCatch_frame notMem _ rfl rfl rfl rfl) hok

@[simp] theorem setLink_memOk (s : State) (n : Nat) (l : LinkState) (hok : s.mem.ok)  : (setLink s n l).mem.ok := by
  exact memOk_of_frame rfl (setLink_frame notMem _ _ _ rfl) hok

@[simp] theorem sendPattern_memOk (s : State) (m : Nat) (hok : s.mem.ok)  : (sendPattern s m).mem.ok := by
  exact memOk_of_frame rfl (sendPattern_frame notMem _ _ rfl) hok

@[simp] theorem unholdModel_memOk (s : State) (m : Nat) (hok : s.mem.ok)  : (unholdModel s m).mem.ok := by
  exact memOk_of_frame rfl (unholdModel_frame notMem _ _ rfl) hok

@[simp] theorem unholdAdapter_memOk (s : State) (m a : Nat) (hok : s.mem.ok)  : (unholdAdapter s m a).mem.ok := by
  exact memOk_of_frame rfl (unholdAdapter_frame notMem _ _ _ rfl) hok

@[simp] theorem askAbort_memOk (s : State) (w : Nat) (hok : s.mem.ok)  : (askAbort s w).mem.ok := by
  exact memOk_of_frame rfl (askAbort_frame notMem _ _ rfl) hok

theorem actWrite_memOk (s : State) (ty inst page off v : Nat) (hok : s.mem.ok)  : ∀ t, (actWrite s ty inst page off v) = some t → t.mem.ok := by
  intro t ht; exact memOk_of_frame (ps := notMem) rfl (actWrite_frame notMem _ _ _ _ _ _ rfl rfl rfl rfl rfl rfl rfl rfl _ ht) hok

@[simp] theorem pageWrite_memOk (s : State) (ty inst page off v : Nat) (hok : s.mem.ok)  : (pageWrite s ty inst page off v).mem.ok := by
  exact memOk_of_frame rfl (pageWrite_frame notMem _ _ _ _ _ _ rfl rfl rfl rfl rfl rfl rfl rfl rfl) hok

@[simp] theorem hubWrite_memOk (s : State) (m : Master) (a v : Nat) (hok : s.mem.ok)  : (hubWrite s m a v).1.mem.ok := by
  exact memOk_of_frame rfl (hubWrite_frame notMem _ _ _ _ rfl rfl rfl rfl rfl rfl rfl rfl rfl) hok

@[simp] theorem postLink_memOk (s : State) (l cause op1 count tag pkg : Nat) (hok : s.mem.ok)  : (postLink s l cause op1 count tag pkg).mem.ok := by
  exact memOk_of_frame rfl (postLink_frame notMem _ _ _ _ _ _ _ rfl rfl) hok

@[simp] theorem resendTx_memOk (s : State) (l : Nat) (y0 : Nat) (hok : s.mem.ok)  : (resendTx s l y0).mem.ok := by
  exact memOk_of_frame rfl (resendTx_frame notMem _ _ _ rfl rfl) hok

@[simp] theorem noteIv_memOk (s : State) (l : Nat) (f : Frame) (hok : s.mem.ok)  : (noteIv s l f).mem.ok := by
  exact memOk_of_frame rfl (noteIv_frame notMem _ _ _ rfl) hok

@[simp] theorem transmit_memOk (s : State) (l : Nat) (x : Sent) (hok : s.mem.ok)  : (transmit s l x).mem.ok := by
  exact memOk_of_frame rfl (transmit_frame notMem _ _ _ rfl rfl rfl) hok

@[simp] theorem sendOn_memOk (s : State) (l : Nat) (x : Sent) (hok : s.mem.ok)  : (sendOn s l x).mem.ok := by
  exact memOk_of_frame rfl (sendOn_frame notMem _ _ _ rfl rfl rfl) hok

@[simp] theorem drainTx_memOk (s : State) (l : Nat) (y0 : Nat) (hok : s.mem.ok)  : (drainTx s l y0).mem.ok := by
  exact memOk_of_frame rfl (drainTx_frame notMem _ _ _ rfl rfl rfl) hok

@[simp] theorem drainLink_memOk (s : State) (l : Nat) (hok : s.mem.ok)  : (drainLink s l).mem.ok := by
  exact memOk_of_frame rfl (drainLink_frame notMem _ _ rfl rfl rfl) hok

@[simp] theorem sendTurns_memOk (s : State) (links : List Nat) (owner : Option Nat) (turn : Nat) (fs : List Frame) (hok : s.mem.ok)  : (sendTurns s links owner turn fs).mem.ok := by
  exact memOk_of_frame rfl (sendTurns_frame notMem _ _ _ _ _ rfl rfl rfl) hok

@[simp] theorem sendFrames_memOk (s : State) (links : List Nat) (owner : Option Nat) (fs : List Frame) (hok : s.mem.ok)  : (sendFrames s links owner fs).mem.ok := by
  exact memOk_of_frame rfl (sendFrames_frame notMem _ _ _ _ rfl rfl rfl) hok

@[simp] theorem freeFlits_memOk (s : State) (l : Nat) (f : Frame) (hok : s.mem.ok)  : (freeFlits s l f).mem.ok := by
  exact memOk_of_frame rfl (freeFlits_frame notMem _ _ _ rfl) hok

@[simp] theorem noteCodewords_memOk (s : State) (l corrected lost : Nat) (hok : s.mem.ok)  : (noteCodewords s l corrected lost).mem.ok := by
  exact memOk_of_frame rfl (noteCodewords_frame notMem _ _ _ _ rfl) hok

@[simp] theorem noteArrival_memOk (s : State) (l : Nat) (a : Arrival) (hok : s.mem.ok)  : (noteArrival s l a).mem.ok := by
  exact memOk_of_frame rfl (noteArrival_frame notMem _ _ _ rfl rfl) hok

@[simp] theorem takeFrame_memOk (s : State) (l : Nat) (f : Frame) (a : Arrival) (hok : s.mem.ok)  : (takeFrame s l f a).1.mem.ok := by
  exact memOk_of_frame rfl (takeFrame_frame notMem _ _ _ _ rfl rfl) hok

@[simp] theorem hopOn_memOk (s : State) (l out : Nat) (f : Frame) (hok : s.mem.ok)  : (hopOn s l out f).mem.ok := by
  exact memOk_of_frame rfl (hopOn_frame notMem _ _ _ _ rfl rfl rfl) hok

@[simp] theorem dropNoRoute_memOk (s : State) (l : Nat) (f : Frame) (hok : s.mem.ok)  : (dropNoRoute s l f).mem.ok := by
  exact memOk_of_frame rfl (dropNoRoute_frame notMem _ _ _ rfl rfl rfl) hok

@[simp] theorem forward_memOk (s : State) (l : Nat) (f : Frame) (hok : s.mem.ok)  : (forward s l f).mem.ok := by
  exact memOk_of_frame rfl (forward_frame notMem _ _ _ rfl rfl rfl rfl) hok

@[simp] theorem stompTo_memOk (s : State) (out : Nat) (f : Frame) (hok : s.mem.ok)  : (stompTo s out f).mem.ok := by
  exact memOk_of_frame rfl (stompTo_frame notMem _ _ _ rfl rfl) hok

@[simp] theorem stompOn_memOk (s : State) (l : Nat) (f : Frame) (hok : s.mem.ok)  : (stompOn s l f).mem.ok := by
  exact memOk_of_frame rfl (stompOn_frame notMem _ _ _ rfl rfl) hok

@[simp] theorem setPs_memOk (s : State) (hi lo v : Nat) (hok : s.mem.ok)  : (setPs s hi lo v).mem.ok := by
  exact memOk_of_frame rfl (setPs_frame notMem _ _ _ _ rfl) hok

@[simp] theorem noteCause_memOk (s : State) (b link : Nat) (first : Bool) (hok : s.mem.ok)  : (noteCause s b link first).mem.ok := by
  exact memOk_of_frame rfl (noteCause_frame notMem _ _ _ _ rfl) hok

@[simp] theorem beginWake_memOk (s : State) (hok : s.mem.ok)  : (beginWake s).mem.ok := by
  exact memOk_of_frame rfl (beginWake_frame notMem _ rfl rfl rfl rfl) hok

@[simp] theorem wakeSource_memOk (s : State) (b link : Nat) (hok : s.mem.ok)  : (wakeSource s b link).mem.ok := by
  exact memOk_of_frame rfl (wakeSource_frame notMem _ _ _ rfl rfl rfl rfl) hok

@[simp] theorem mailboxWake_memOk (s : State) (hok : s.mem.ok)  : (mailboxWake s).mem.ok := by
  exact memOk_of_frame rfl (mailboxWake_frame notMem _ rfl rfl rfl rfl) hok

@[simp] theorem setFt_memOk (s : State) (b : Nat) (v : Bool) (hok : s.mem.ok)  : (setFt s b v).mem.ok := by
  exact memOk_of_frame rfl (setFt_frame notMem _ _ _ rfl) hok

@[simp] theorem enterHoldover_memOk (s : State) (hok : s.mem.ok)  : (enterHoldover s).mem.ok := by
  exact memOk_of_frame rfl (enterHoldover_frame notMem _ rfl rfl) hok

@[simp] theorem leaveHoldover_memOk (s : State) (hok : s.mem.ok)  : (leaveHoldover s).mem.ok := by
  exact memOk_of_frame rfl (leaveHoldover_frame notMem _ rfl) hok

@[simp] theorem noteOffset_memOk (s : State) (off rate : Int) (hok : s.mem.ok)  : (noteOffset s off rate).mem.ok := by
  exact memOk_of_frame rfl (noteOffset_frame notMem _ _ _ rfl rfl) hok

@[simp] theorem stepTime_memOk (s : State) (off : Int) (hok : s.mem.ok)  : (stepTime s off).mem.ok := by
  exact memOk_of_frame rfl (stepTime_frame notMem _ _ rfl rfl rfl) hok

@[simp] theorem timeFrames_memOk (s : State) (reached : Nat → Bool) (hok : s.mem.ok)  : (timeFrames s reached).mem.ok := by
  exact memOk_of_frame rfl (timeFrames_frame notMem _ _ rfl rfl) hok

@[simp] theorem steer_memOk (s : State) (f : TimeFrame) (phase : Nat) (step : Bool) (rate : Int) (hok : s.mem.ok)  : (steer s f phase step rate).mem.ok := by
  exact memOk_of_frame rfl (steer_frame notMem _ _ _ _ _ rfl rfl rfl rfl rfl) hok

@[simp] theorem hearTime_memOk (s : State) (l : Nat) (f : TimeFrame) (phase : Nat) (step : Bool) (rate : Int) (hok : s.mem.ok)  : (hearTime s l f phase step rate).mem.ok := by
  exact memOk_of_frame rfl (hearTime_frame notMem _ _ _ _ _ _ rfl rfl rfl rfl rfl rfl) hok

@[simp] theorem showLinkDelay_memOk (s : State) (l delay : Nat) (hok : s.mem.ok)  : (showLinkDelay s l delay).mem.ok := by
  exact memOk_of_frame rfl (showLinkDelay_frame notMem _ _ _ rfl) hok

@[simp] theorem fireAlarm_memOk (s : State) (t : Nat) (hok : s.mem.ok)  : (fireAlarm s t).mem.ok := by
  exact memOk_of_frame rfl (fireAlarm_frame notMem _ _ rfl rfl rfl rfl rfl rfl) hok

@[simp] theorem loseMirror_memOk (s : State) (hok : s.mem.ok)  : (loseMirror s).mem.ok := by
  exact memOk_of_frame rfl (loseMirror_frame notMem _ rfl rfl rfl) hok

@[simp] theorem checkPair_memOk (s : State) (hok : s.mem.ok)  : (checkPair s).mem.ok := by
  exact memOk_of_frame rfl (checkPair_frame notMem _ rfl rfl rfl) hok

@[simp] theorem showHealth_memOk (s : State) (l : Nat) (hok : s.mem.ok)  : (showHealth s l).mem.ok := by
  exact memOk_of_frame rfl (showHealth_frame notMem _ _ rfl) hok

@[simp] theorem fenceLink_memOk (s : State) (l st cause : Nat) (hok : s.mem.ok)  : (fenceLink s l st cause).mem.ok := by
  exact memOk_of_frame rfl (fenceLink_frame notMem _ _ _ _ rfl rfl rfl) hok

@[simp] theorem raiseLink_memOk (s : State) (l st m : Nat) (t : Training) (hok : s.mem.ok)  : (raiseLink s l st m t).mem.ok := by
  exact memOk_of_frame rfl (raiseLink_frame notMem _ _ _ _ _ rfl rfl rfl) hok

@[simp] theorem peerStep_memOk (s : State) (l want : Nat) (t : Training) (hok : s.mem.ok)  : (peerStep s l want t).mem.ok := by
  exact memOk_of_frame rfl (peerStep_frame notMem _ _ _ _ rfl rfl rfl rfl) hok

@[simp] theorem endTraining_memOk (s : State) (l want : Nat) (t : Training) (hok : s.mem.ok)  : (endTraining s l want t).mem.ok := by
  exact memOk_of_frame rfl (endTraining_frame notMem _ _ _ _ rfl rfl rfl rfl) hok

@[simp] theorem setPortLanes_memOk (s : State) (dark : Nat) (hok : s.mem.ok)  : (setPortLanes s dark).mem.ok := by
  exact memOk_of_frame rfl (setPortLanes_frame notMem _ _ rfl rfl rfl) hok

@[simp] theorem sendPort_memOk (s : State) (f : PortFrame) (hok : s.mem.ok)  : (sendPort s f).mem.ok := by
  exact memOk_of_frame rfl (sendPort_frame notMem _ _ rfl) hok

@[simp] theorem dropPort_memOk (s : State) (hok : s.mem.ok)  : (dropPort s).mem.ok := by
  exact memOk_of_frame rfl (dropPort_frame notMem _ rfl) hok

@[simp] theorem takePort_memOk (s : State) (type : Nat) (h : PortHead) (hok : s.mem.ok)  : (takePort s type h).1.mem.ok := by
  exact memOk_of_frame rfl (takePort_frame notMem _ _ _ rfl rfl) hok

@[simp] theorem withPort_memOk (s : State) (type : Nat) (h : PortHead) (k : State → State) (hok : s.mem.ok) (h_k : ∀ (x0 : State), x0.mem.ok → (k x0).mem.ok) : (withPort s type h k).mem.ok := by
  unfold withPort
  dsimp only
  split
  · exact h_k _ (takePort_memOk _ _ _ hok)
  · exact takePort_memOk _ _ _ hok

@[simp] theorem exchangeTime_memOk (s : State) (tag t2 t3 : Nat) (rate : Int) (hok : s.mem.ok)  : (exchangeTime s tag t2 t3 rate).mem.ok := by
  exact memOk_of_frame rfl (exchangeTime_frame notMem _ _ _ _ _ rfl rfl rfl rfl) hok

@[simp] theorem answer_memOk (s : State) (tag op status result : Nat) (payload : List Byte) (hok : s.mem.ok)  : (answer s tag op status result payload).mem.ok := by
  exact memOk_of_frame rfl (answer_frame notMem _ _ _ _ _ _ rfl) hok

@[simp] theorem reply_memOk (s : State) (tag op status : Nat) (hok : s.mem.ok)  : (reply s tag op status).mem.ok := by
  exact memOk_of_frame rfl (reply_frame notMem _ _ _ _ rfl) hok

@[simp] theorem withMail_memOk (s : State) (h : PortHead) (tag op : Nat) (k : State → State) (hok : s.mem.ok) (h_k : ∀ (x0 : State), x0.mem.ok → (k x0).mem.ok) : (withMail s h tag op k).mem.ok := by
  unfold withMail
  refine withPort_memOk _ _ _ _ hok ?_
  intro s hs
  (repeat' split) <;> first | exact h_k _ hs | simp (maxDischargeDepth := 60) [hs]

@[simp] theorem awaitCommit_memOk (s : State) (tag op page : Nat) (hok : s.mem.ok)  : (awaitCommit s tag op page).mem.ok := by
  exact memOk_of_frame rfl (awaitCommit_frame notMem _ _ _ _ rfl) hok

@[simp] theorem answerWaiting_memOk (s : State) (page status : Nat) (hok : s.mem.ok)  : (answerWaiting s page status).mem.ok := by
  exact memOk_of_frame rfl (answerWaiting_frame notMem _ _ _ rfl) hok

@[simp] theorem answerWithdrawn_memOk (s t : State) (page : Nat) (hok : t.mem.ok)  : (answerWithdrawn s t page).mem.ok := by
  exact memOk_of_frame rfl (answerWithdrawn_frame notMem _ _ _ rfl) hok

@[simp] theorem ringWrite_memOk (s : State) (a : Nat) (bs : List Byte) (hok : s.mem.ok)  : (ringWrite s a bs).mem.ok := by
  exact memOk_of_frame rfl (ringWrite_frame notMem _ _ _ rfl) hok

@[simp] theorem putRecord_memOk (s : State) (n : Nat) (rec : List Byte) (hok : s.mem.ok)  : (putRecord s n rec).mem.ok := by
  exact memOk_of_frame rfl (putRecord_frame notMem _ _ _ rfl) hok

@[simp] theorem drainRingN_memOk (s : State) (n : Nat) (y0 : Nat) (hok : s.mem.ok)  : (drainRingN s n y0).mem.ok := by
  exact memOk_of_frame rfl (drainRingN_frame notMem _ _ _ rfl) hok

@[simp] theorem drainRing_memOk (s : State) (n : Nat) (hok : s.mem.ok)  : (drainRing s n).mem.ok := by
  exact memOk_of_frame rfl (drainRing_frame notMem _ _ rfl) hok

@[simp] theorem postRing_memOk (s : State) (n : Nat) (rec : List Byte) (hok : s.mem.ok)  : (postRing s n rec).mem.ok := by
  exact memOk_of_frame rfl (postRing_frame notMem _ _ _ rfl) hok

@[simp] theorem deliverEvent_memOk (s : State) (e : Event) (hok : s.mem.ok)  : (deliverEvent s e).mem.ok := by
  exact memOk_of_frame rfl (deliverEvent_frame notMem _ _ rfl rfl rfl) hok

@[simp] theorem drainStoreN_memOk (s : State) (y0 : Nat) (hok : s.mem.ok)  : (drainStoreN s y0).mem.ok := by
  exact memOk_of_frame rfl (drainStoreN_frame notMem _ _ rfl rfl) hok

@[simp] theorem drainStore_memOk (s : State) (hok : s.mem.ok)  : (drainStore s).mem.ok := by
  exact memOk_of_frame rfl (drainStore_frame notMem _ rfl rfl) hok

@[simp] theorem sendHostRead_memOk (s : State) (why : ReadFor) (addr len : Nat) (hok : s.mem.ok)  : (sendHostRead s why addr len).mem.ok := by
  exact memOk_of_frame rfl (sendHostRead_frame notMem _ _ _ _ rfl) hok

@[simp] theorem peNote_memOk (s : State) (c : Ctx) (k a n : Nat) (hok : s.mem.ok)  : (peNote s c k a n).mem.ok := by
  unfold peNote; (repeat' split) <;> simp (maxDischargeDepth := 60) [hok]

@[simp] theorem peWrite_memOk (s : State) (k a : Nat) (bs : List Byte) (hok : s.mem.ok)  : (peWrite s k a bs).mem.ok := by
  unfold peWrite; (repeat' split) <;> simp (maxDischargeDepth := 60) [hok]

@[simp] theorem postPool_memOk (s : State) (k cause op1 tag count : Nat) (hok : s.mem.ok)  : (postPool s k cause op1 tag count).mem.ok := by
  exact memOk_of_frame rfl (postPool_frame notMem _ _ _ _ _ _ rfl rfl rfl) hok

@[simp] theorem setDesc_memOk (s : State) (k i d : Nat) (hok : s.mem.ok)  : (setDesc s k i d).mem.ok := by
  simp (maxDischargeDepth := 60) [setDesc, hok]

@[simp] theorem countPool_memOk (s : State) (k : Nat) (hok : s.mem.ok)  : (countPool s k).mem.ok := by
  exact memOk_of_frame rfl (countPool_frame notMem _ _ rfl) hok

@[simp] theorem setList_memOk (s : State) (k j : Nat) (h : ListHead) (hok : s.mem.ok)  : (setList s k j h).mem.ok := by
  simp (maxDischargeDepth := 60) [setList, hok]

@[simp] theorem noteHead_memOk (s : State) (k j : Nat) (hok : s.mem.ok)  : (noteHead s k j).mem.ok := by
  simp (maxDischargeDepth := 60) [noteHead, hok]

@[simp] theorem walkList_memOk (s : State) (k j : Nat) (hok : s.mem.ok)  : (walkList s k j).mem.ok := by
  unfold walkList; (repeat' split) <;> simp_all (maxDischargeDepth := 60)

@[simp] theorem setParked_memOk (s : State) (e : Nat) (v : Option Parked) (hok : s.mem.ok)  : (setParked s e v).mem.ok := by
  exact memOk_of_frame rfl (setParked_frame notMem _ _ _ rfl) hok

@[simp] theorem evictSession_memOk (s : State) (k e : Nat) (hok : s.mem.ok)  : (evictSession s k e).mem.ok := by
  unfold evictSession
  have h1 : ((heldFrames s k e).foldl (fun s i => setDesc s k i 0) s).mem.ok := foldl_memOk _ (fun s a hs => by simp (maxDischargeDepth := 60) [hs]) _ _ hok
  dsimp only
  split
  · exact h1
  · simp (maxDischargeDepth := 60) [h1]

theorem takeFrameAux_memOk (s : State) (k : Nat) (y0 : Nat) (hok : s.mem.ok)  : ∀ t, (takeFrameAux s k y0) = some t → t.1.mem.ok := by
  induction y0 generalizing s with
  | zero =>
    intro t ht; unfold takeFrameAux at ht
    cases hf : (freeFrames s k).head? <;> simp_all
    rw [← ht]; exact hok
  | succ n ih =>
    intro t ht; unfold takeFrameAux at ht
    split at ht
    · cases ht; exact hok
    · split at ht
      · cases ht
      · exact ih _ (evictSession_memOk _ _ _ hok) t ht

theorem takeFreeFrame_memOk (s : State) (k : Nat) (hok : s.mem.ok)  : ∀ t, (takeFreeFrame s k) = some t → t.1.mem.ok := by
  unfold takeFreeFrame; exact takeFrameAux_memOk _ _ _ hok

theorem addPage_memOk (s : State) (k j : Nat) (hok : s.mem.ok)  : ∀ t, (addPage s k j) = some t → t.mem.ok := by
  intro t ht; unfold addPage at ht
  cases hf : takeFreeFrame s k with
  | none => simp [hf] at ht
  | some r =>
    have h2 := takeFreeFrame_memOk s k hok r hf
    simp [hf] at ht; rw [← ht]
    split <;> simp (maxDischargeDepth := 60) [h2]

theorem addPages_memOk (s : State) (k j : Nat) (y0 : Nat) (hok : s.mem.ok)  : ∀ t, (addPages s k j y0) = some t → t.mem.ok := by
  induction y0 generalizing s with
  | zero => intro t ht; cases ht; exact hok
  | succ n ih =>
    intro t ht; unfold addPages at ht
    cases hf : addPage s k j with
    | none => simp [hf] at ht
    | some r => simp [hf] at ht; exact ih _ (addPage_memOk s k j hok r hf) t ht

@[simp] theorem truncateList_memOk (s : State) (k j n : Nat) (hok : s.mem.ok)  : (truncateList s k j n).mem.ok := by
  unfold truncateList
  have h1 : ∀ l : List Nat, (l.foldl (fun s i => setDesc s k i 0) s).mem.ok := fun l => foldl_memOk _ (fun s a hs => by simp (maxDischargeDepth := 60) [hs]) _ _ hok
  dsimp only
  split
  · exact hok
  · split <;> simp (maxDischargeDepth := 60) [h1]

@[simp] theorem setPrefix_memOk (s : State) (p : Nat) (v : Option Prefix) (hok : s.mem.ok)  : (setPrefix s p v).mem.ok := by
  exact memOk_of_frame rfl (setPrefix_frame notMem _ _ _ rfl) hok

@[simp] theorem refChain_memOk (s : State) (k f : Nat) (up : Bool) (hok : s.mem.ok)  : (refChain s k f up).mem.ok := by
  unfold refChain; (repeat' split) <;> simp_all (maxDischargeDepth := 60)

@[simp] theorem retirePrefix_memOk (s : State) (p : Nat) (hok : s.mem.ok)  : (retirePrefix s p).mem.ok := by
  unfold retirePrefix; (repeat' split) <;> simp_all (maxDischargeDepth := 60)

@[simp] theorem retirePrefixes_memOk (s : State) (hok : s.mem.ok)  : (retirePrefixes s).mem.ok := by
  unfold retirePrefixes; (repeat' split) <;> simp_all (maxDischargeDepth := 60)

@[simp] theorem makeList_memOk (s : State) (k j req d fmt blk : Nat) (pfx : Option ListHead) (hok : s.mem.ok)  : (makeList s k j req d fmt blk pfx).mem.ok := by
  unfold makeList; (repeat' split) <;> simp (maxDischargeDepth := 60) [hok]

@[simp] theorem dropList_memOk (s : State) (k j : Nat) (hok : s.mem.ok)  : (dropList s k j).mem.ok := by
  unfold dropList; (repeat' split) <;> simp_all (maxDischargeDepth := 60)

@[simp] theorem gPut_memOk (s : State) (k a : Nat) (ws : List (Nat × List Byte)) (hok : s.mem.ok)  : (gPut s k a ws).mem.ok := by
  unfold gPut; (repeat' split) <;> simp_all (maxDischargeDepth := 60)

theorem appendRow_memOk (s : State) (k j rows r : Nat) (kv vv : ByteView) (hok : s.mem.ok)  : ∀ t, (appendRow s k j rows r kv vv) = some t → t.mem.ok := by
  intro t ht; unfold appendRow at ht
  dsimp only at ht
  split at ht
  · simp at ht; rw [← ht]; simp (maxDischargeDepth := 60) [hok]
  · cases hf : addPage s k j with
    | none => simp [hf] at ht
    | some r => simp [hf] at ht; rw [← ht]; simp (maxDischargeDepth := 60) [addPage_memOk s k j hok r hf]

@[simp] theorem movePin_memOk (s : State) (cur prev pinsCur pinsPrev v : Nat) (up : Bool) (hok : s.mem.ok)  : (movePin s cur prev pinsCur pinsPrev v up).mem.ok := by
  exact memOk_of_frame rfl (movePin_frame notMem _ _ _ _ _ _ _ rfl) hok

@[simp] theorem pinBase_memOk (s : State) (m v : Nat) (up : Bool) (hok : s.mem.ok)  : (pinBase s m v up).mem.ok := by
  exact memOk_of_frame rfl (pinBase_frame notMem _ _ _ _ rfl) hok

@[simp] theorem pinAdapter_memOk (s : State) (m : Nat) (a : Option Nat) (v : Nat) (up : Bool) (hok : s.mem.ok)  : (pinAdapter s m a v up).mem.ok := by
  exact memOk_of_frame rfl (pinAdapter_frame notMem _ _ _ _ _ rfl) hok

@[simp] theorem setReq_memOk (s : State) (r : Request) (hok : s.mem.ok)  : (setReq s r).mem.ok := by
  exact memOk_of_frame rfl (setReq_frame notMem _ _ rfl) hok

@[simp] theorem dropReq_memOk (s : State) (id : Nat) (hok : s.mem.ok)  : (dropReq s id).mem.ok := by
  exact memOk_of_frame rfl (dropReq_frame notMem _ _ rfl) hok

@[simp] theorem noteReq_memOk (s : State) (r : Request) (kind pos w : Nat) (hok : s.mem.ok)  : (noteReq s r kind pos w).mem.ok := by
  exact memOk_of_frame rfl (noteReq_frame notMem _ _ _ _ _ rfl) hok

@[simp] theorem releasePins_memOk (s : State) (r : Request) (hok : s.mem.ok)  : (releasePins s r).mem.ok := by
  exact memOk_of_frame rfl (releasePins_frame notMem _ _ rfl) hok

@[simp] theorem complete_memOk (s : State) (q tag req op status result : Nat) (hok : s.mem.ok)  : (complete s q tag req op status result).mem.ok := by
  exact memOk_of_frame rfl (complete_frame notMem _ _ _ _ _ _ _ rfl rfl) hok

@[simp] theorem setFam_memOk (s : State) (i : Nat) (f : Option Family) (hok : s.mem.ok)  : (setFam s i f).mem.ok := by
  exact memOk_of_frame rfl (setFam_frame notMem _ _ _ rfl) hok

@[simp] theorem settleLists_memOk (s : State) (hok : s.mem.ok)  : (settleLists s).mem.ok := by
  unfold settleLists; (repeat' split) <;> simp_all (maxDischargeDepth := 60)

@[simp] theorem freeLists_memOk (s : State) (r : Request) (hok : s.mem.ok)  : (freeLists s r).mem.ok := by
  simp (maxDischargeDepth := 60) [freeLists, hok]

@[simp] theorem unbindRing_memOk (s : State) (n : Nat) (hok : s.mem.ok)  : (unbindRing s n).mem.ok := by
  exact memOk_of_frame rfl (unbindRing_frame notMem _ _ rfl) hok

@[simp] theorem retireReq_memOk (s : State) (r : Request) (completed : Bool) (hok : s.mem.ok)  : (retireReq s r completed).mem.ok := by
  exact memOk_of_frame rfl (retireReq_frame notMem _ _ _ rfl) hok

@[simp] theorem completeWaiting_memOk (s : State) (r : Request) (w : Option (Nat × Nat)) (op status result : Nat) (hok : s.mem.ok)  : (completeWaiting s r w op status result).mem.ok := by
  exact memOk_of_frame rfl (completeWaiting_frame notMem _ _ _ _ _ _ rfl rfl) hok

@[simp] theorem endReq_memOk (s : State) (r : Request) (kind pos : Nat) (pins lists : Bool) (hok : s.mem.ok)  : (endReq s r kind pos pins lists).mem.ok := by
  simp (maxDischargeDepth := 60) [endReq, hok]

@[simp] theorem completeReq_memOk (s : State) (r : Request) (pos : Nat) (hok : s.mem.ok)  : (completeReq s r pos).mem.ok := by
  simp (maxDischargeDepth := 60) [completeReq, hok]

@[simp] theorem cancelReq_memOk (s : State) (r : Request) (hok : s.mem.ok)  : (cancelReq s r).mem.ok := by
  simp (maxDischargeDepth := 60) [cancelReq, hok]

theorem takeSerial_memOk (s : State) (k : Nat) (hok : s.mem.ok)  : ∀ t, (takeSerial s k) = some t → t.1.mem.ok := by
  simp (maxDischargeDepth := 60) [takeSerial, hok]

@[simp] theorem parkReq_memOk (s : State) (r : Request) (preempted : Bool) (hok : s.mem.ok)  : (parkReq s r preempted).1.mem.ok := by
  unfold parkReq; dsimp only; split
  · exact hok
  · split
    · simp (maxDischargeDepth := 60) [hok]
    · rename_i s2 ser hs
      have h2 := takeSerial_memOk s _ hok _ hs
      refine setReq_memOk _ _ (setParked_memOk _ _ _ (releasePins_memOk _ _ (foldl_memOk _ ?_ _ _ h2)))
      intro s a hs; exact walkList_memOk _ _ _ hs

@[simp] theorem pauseReq_memOk (s : State) (r : Request) (hok : s.mem.ok)  : (pauseReq s r).mem.ok := by
  unfold pauseReq
  split
  · simp (maxDischargeDepth := 60) [hok]
  have hp := parkReq_memOk s r false hok
  split
  · rename_i hq; rw [hq] at hp
    first
    | exact hp
    | simp (maxDischargeDepth := 60) [hp]
  · rename_i hq; rw [hq] at hp
    first
    | (dsimp only
       split
       · simp (maxDischargeDepth := 60) [hp]
       · simp (maxDischargeDepth := 60) [hp])
    | exact completeWaiting_memOk _ _ _ _ _ _ (setReq_memOk _ _ hp)

@[simp] theorem preemptReq_memOk (s : State) (r : Request) (hok : s.mem.ok)  : (preemptReq s r).mem.ok := by
  unfold preemptReq
  split
  · simp (maxDischargeDepth := 60) [hok]
  have hp := parkReq_memOk s r true hok
  split
  · rename_i hq; rw [hq] at hp
    first
    | exact hp
    | simp (maxDischargeDepth := 60) [hp]
  · rename_i hq; rw [hq] at hp
    first
    | (dsimp only
       split
       · simp (maxDischargeDepth := 60) [hp]
       · simp (maxDischargeDepth := 60) [hp])
    | exact completeWaiting_memOk _ _ _ _ _ _ (setReq_memOk _ _ hp)

@[simp] theorem freeParked_memOk (s : State) (e : Nat) (hok : s.mem.ok)  : (freeParked s e).mem.ok := by
  unfold freeParked
  split
  · exact hok
  · rename_i p hp
    have h1 : (setParked (if p.evict = true then evictSession s p.pool e else s) e none).mem.ok := by
      apply setParked_memOk; split
      · exact evictSession_memOk _ _ _ hok
      · exact hok
    dsimp only
    split
    · exact h1
    · apply retirePrefixes_memOk; refine foldl_memOk _ ?_ _ _ h1; intro s a hs; exact refChain_memOk _ _ _ _ hs

@[simp] theorem parkedNow_memOk (s : State) (e : Nat) (p : Parked) (r : Request) (hok : s.mem.ok)  : (parkedNow s e p r).mem.ok := by
  unfold parkedNow; (repeat' split) <;> simp_all (maxDischargeDepth := 60)

@[simp] theorem restoreLists_memOk (s : State) (p : Parked) (j : Nat) (hok : s.mem.ok)  : (restoreLists s p j).mem.ok := by
  unfold restoreLists; (repeat' split) <;> simp_all (maxDischargeDepth := 60)

@[simp] theorem claimFrames_memOk (s : State) (k j np n : Nat) (fs : List Nat) (hok : s.mem.ok)  : (claimFrames s k j np n fs).mem.ok := by
  unfold claimFrames; (repeat' split) <;> simp_all (maxDischargeDepth := 60)

@[simp] theorem repin_memOk (s : State) (r : Request) (p : Parked) (hok : s.mem.ok)  : (repin s r p).1.mem.ok := by
  exact memOk_of_frame rfl (repin_frame notMem _ _ _ rfl) hok

@[simp] theorem restored_memOk (s : State) (e : Nat) (p : Parked) (r : Request) (hok : s.mem.ok)  : (restored s e p r).mem.ok := by
  simp (maxDischargeDepth := 60) [restored, hok]

@[simp] theorem tryResume_memOk (s : State) (e : Nat) (p : Parked) (r : Request) (hok : s.mem.ok)  : (tryResume s e p r).mem.ok := by
  unfold tryResume
  have hg : ∀ (s : State) k j n, s.mem.ok → ((addPages s k j n).getD s).mem.ok := by
    intro s k j n hs
    cases ha : addPages s k j n with
    | none => exact hs
    | some t => exact addPages_memOk s k j n hs t ha
  dsimp only
  split
  · exact hok
  · split
    · apply restored_memOk; apply setParked_memOk
      refine foldl_memOk _ ?_ _ _ (by simp (maxDischargeDepth := 60) [hok])
      intro s a hs; exact claimFrames_memOk _ _ _ _ _ _ hs
    · split
      · apply setReq_memOk; apply setParked_memOk
        refine foldl_memOk _ ?_ _ _ (by simp (maxDischargeDepth := 60) [hok])
        intro s a hs; exact claimFrames_memOk _ _ _ _ _ _ (hg _ _ _ _ hs)
      · exact hok

@[simp] theorem fillMembers_memOk (s : State) (i : Nat) (y0 : Nat) (hok : s.mem.ok)  : (fillMembers s i y0).mem.ok := by
  exact memOk_of_frame rfl (fillMembers_frame notMem _ _ _ rfl) hok

@[simp] theorem reserveMember_memOk (s : State) (i m : Nat) (r : Request) (hok : s.mem.ok)  : (reserveMember s i m r).mem.ok := by
  unfold reserveMember
  have hg : ∀ (s : State) k j n, s.mem.ok → ((addPages s k j n).getD s).mem.ok := by
    intro s k j n hs
    cases ha : addPages s k j n with
    | none => exact hs
    | some t => exact addPages_memOk s k j n hs t ha
  dsimp only
  have hs : ∀ s : State, s.mem.ok → (match famAt s i with
      | none => s
      | some f => setFam s i (some { f with starved := f.starved ++ [m] })).mem.ok := by
    intro s hs; split
    · exact hs
    · simp (maxDischargeDepth := 60) [hs]
  have hw := foldl_memOk (fun (s : State) x => walkList s r.pool (r.list + x)) (fun s a hs => walkList_memOk _ _ _ hs) (List.range r.h) _ hok
  split
  · first | exact hs _ hok | exact hs _ hw
  · split
    · apply setReq_memOk; refine foldl_memOk _ ?_ _ _ hw; intro s a hs; exact hg _ _ _ _ hs
    · apply hs; exact noteReq_memOk _ _ _ _ _ (incReg_memOk _ _ _ (setReq_memOk _ _ hw))

@[simp] theorem openStep_memOk (s : State) (i : Nat) (hok : s.mem.ok)  : (openStep s i).mem.ok := by
  unfold openStep
  split
  · exact hok
  · dsimp only
    refine foldl_memOk _ ?_ _ _ (foldl_memOk _ ?_ _ _ ?_)
    · intro s a hs; simp (maxDischargeDepth := 60) [hs]
    · intro s a hs; split
      · exact hs
      · simp (maxDischargeDepth := 60) [hs]
    · simp (maxDischargeDepth := 60) [hok]

@[simp] theorem closeStep_memOk (s : State) (i : Nat) (hok : s.mem.ok)  : (closeStep s i).mem.ok := by
  unfold closeStep
  split
  · exact hok
  · refine foldl_memOk _ ?_ _ _ (setFam_memOk _ _ _ hok)
    intro s a hs; split
    · exact hs
    · exact memOk_ite _ _ _ hs (memOk_ite _ _ _ (cancelReq_memOk _ _ hs) (memOk_ite _ _ _ (pauseReq_memOk _ _ hs) (memOk_ite _ _ _ (preemptReq_memOk _ _ hs) hs)))

@[simp] theorem checkReady_memOk (s : State) (id : Nat) (hok : s.mem.ok)  : (checkReady s id).mem.ok := by
  exact memOk_of_frame rfl (checkReady_frame notMem _ _ rfl) hok

@[simp] theorem settleServing_memOk (s : State) (hok : s.mem.ok)  : (settleServing s).mem.ok := by
  unfold settleServing
  dsimp only
  refine foldl_memOk _ ?_ _ _ ?_
  · intro s a hs; (repeat' split) <;> first | exact hs | simp (maxDischargeDepth := 60) [hs]
  · simp (maxDischargeDepth := 60) [hok]

@[simp] theorem acceptToken_memOk (s : State) (ring : Nat) (row : List Byte) (hok : s.mem.ok)  : (acceptToken s ring row).mem.ok := by
  unfold acceptToken; dsimp only; (repeat' split) <;> simp (maxDischargeDepth := 60) [hok]

@[simp] theorem ackDoorbell_memOk (s : State) (tag n party idx status : Nat) (hok : s.mem.ok)  : (ackDoorbell s tag n party idx status).mem.ok := by
  exact memOk_of_frame rfl (ackDoorbell_frame notMem _ _ _ _ _ _ rfl) hok

@[simp] theorem refusedBell_memOk (s : State) (n : Nat) (hok : s.mem.ok)  : (refusedBell s n).mem.ok := by
  exact memOk_of_frame rfl (refusedBell_frame notMem _ _ rfl) hok

@[simp] theorem nextStoreRead_memOk (s : State) (x : HostXfer) (hok : s.mem.ok)  : (nextStoreRead s x).mem.ok := by
  exact memOk_of_frame rfl (nextStoreRead_frame notMem _ _ rfl) hok

@[simp] theorem storeBytes_memOk (s : State) (slot : Option Nat) (a : Nat) (bs : List Byte) (hok : s.mem.ok)  : (storeBytes s slot a bs).mem.ok := by
  simp (maxDischargeDepth := 60) [storeBytes, hok]

@[simp] theorem consume_memOk (s : State) (q : Nat) (hok : s.mem.ok)  : (consume s q).mem.ok := by
  exact memOk_of_frame rfl (consume_frame notMem _ _ rfl) hok

@[simp] theorem finish_memOk (s : State) (q : Nat) (c : List Byte) (status result : Nat) (hok : s.mem.ok)  : (finish s q c status result).mem.ok := by
  exact memOk_of_frame rfl (finish_frame notMem _ _ _ _ _ rfl rfl) hok

@[simp] theorem withCommand_memOk (s : State) (q op : Nat) (k : List Byte → State) (hok : s.mem.ok) (h_k : ∀ (x0 : List Byte), (k x0).mem.ok) : (withCommand s q op k).mem.ok := by
  simp (maxDischargeDepth := 60) [withCommand, hok, h_k]

@[simp] theorem layImage_memOk (s : State) (p : Parked) (r : Request) (bytes : List Byte) (hok : s.mem.ok)  : (layImage s p r bytes).mem.ok := by
  unfold layImage; (repeat' split) <;> simp_all (maxDischargeDepth := 60)

@[simp] theorem endParked_memOk (s : State) (e : Nat) (p : Parked) (record : Bool) (hok : s.mem.ok)  : (endParked s e p record).mem.ok := by
  unfold endParked; dsimp only; (repeat' split) <;> simp (maxDischargeDepth := 60) [hok]

@[simp] theorem expireEntry_memOk (s : State) (e t : Nat) (hok : s.mem.ok)  : (expireEntry s e t).mem.ok := by
  unfold expireEntry; (repeat' split) <;> simp (maxDischargeDepth := 60) [hok]

@[simp] theorem setArray_memOk (s : State) (cl k : Nat) (a : ArrayState) (hok : s.mem.ok)  : (setArray s cl k a).mem.ok := by
  exact memOk_of_frame rfl (setArray_frame notMem _ _ _ _ rfl) hok

@[simp] theorem loadFirst_memOk (s : State) (f : Flight) (k : Nat) (hok : s.mem.ok)  : (loadFirst s f k).mem.ok := by
  exact memOk_of_frame rfl (loadFirst_frame notMem _ _ _ rfl) hok

@[simp] theorem runPass_memOk (s : State) (f : Flight) (hok : s.mem.ok)  : (runPass s f).mem.ok := by
  exact memOk_of_frame rfl (runPass_frame notMem _ _ rfl rfl rfl) hok

@[simp] theorem advanceFlight_memOk (s : State) (id : Nat) (hok : s.mem.ok)  : (advanceFlight s id).mem.ok := by
  exact memOk_of_frame rfl (advanceFlight_frame notMem _ _ rfl rfl rfl) hok

@[simp] theorem settleUnits_memOk (s : State) (hok : s.mem.ok)  : (settleUnits s).mem.ok := by
  exact memOk_of_frame rfl (settleUnits_frame notMem _ rfl rfl rfl) hok

@[simp] theorem leaveUnits_memOk (s : State) (id : Nat) (hok : s.mem.ok)  : (leaveUnits s id).mem.ok := by
  exact memOk_of_frame rfl (leaveUnits_frame notMem _ _ rfl rfl rfl) hok

@[simp] theorem startPass_memOk (s : State) (cl p i e : Nat) (hok : s.mem.ok)  : (startPass s cl p i e).mem.ok := by
  exact memOk_of_frame rfl (startPass_frame notMem _ _ _ _ _ rfl rfl rfl) hok

@[simp] theorem finishPass_memOk (s : State) (f : Flight) (outs : List CoreOut) (hok : s.mem.ok)  : (finishPass s f outs).mem.ok := by
  unfold finishPass; (repeat' split) <;> simp_all (maxDischargeDepth := 60)

@[simp] theorem endPass_memOk (s : State) (f : Flight) (ops : List (Nat × List (Nat × List Byte))) (hok : s.mem.ok)  : (endPass s f ops).1.mem.ok := by
  exact memOk_of_frame rfl (endPass_frame notMem _ _ _ rfl rfl) hok

@[simp] theorem startMvec_memOk (s : State) (cl p i e : Nat) (hok : s.mem.ok)  : (startMvec s cl p i e).mem.ok := by
  exact memOk_of_frame rfl (startMvec_frame notMem _ _ _ _ _ rfl rfl rfl) hok

@[simp] theorem finishMvec_memOk (s : State) (f : Flight) (outs : List CoreOut) (hok : s.mem.ok)  : (finishMvec s f outs).mem.ok := by
  unfold finishMvec; (repeat' split) <;> simp_all (maxDischargeDepth := 60)

@[simp] theorem startVec_memOk (s : State) (cl p i e : Nat) (hok : s.mem.ok)  : (startVec s cl p i e).mem.ok := by
  unfold startVec
  dsimp only
  refine advanceFlight_memOk _ _ (issueFlight_memOk _ _ _ _ _ _ _ _ (foldl_memOk _ ?_ _ _ hok))
  intro s a hs
  have hp : ∀ (b : Bool) st, st.mem.ok → (if b = true then setLiveFlag st cl 0 true else st).mem.ok := by
    intro b st hst; split <;> simp (maxDischargeDepth := 60) [hst]
  have hq : ∀ st (c : Ctx) x y, st.mem.ok → (if x = true then postCtx st c Cause.optimizerStateOverflow y else st).mem.ok := by
    intro st c x y hst; split <;> simp (maxDischargeDepth := 60) [hst]
  exact hq _ _ _ _ (hp _ _ (noteCounts_memOk _ _ _ _ _ (foldl_memOk _ (fun s a hs => nsWriteImage_memOk _ _ _ _ _ _ hs) _ _ (nsNote_memOk _ _ _ hs))))

@[simp] theorem runVec_memOk (s : State) (cl p : Nat) (mine : Nat → Bool) (hok : s.mem.ok)  : (runVec s cl p mine).mem.ok := by
  unfold runVec
  refine withEntry_memOk _ _ _ _ _ hok ?_
  intro i e; (repeat' split) <;> simp (maxDischargeDepth := 60) [hok]

@[simp] theorem noteAllPages_memOk (s : State) (c : Ctx) (page : Nat) (p : AttnPlan) (v : Bool) (seen : List (Nat × Nat)) (hok : s.mem.ok)  : (noteAllPages s c page p v seen).1.mem.ok := by
  unfold noteAllPages; (repeat' split) <;> simp_all (maxDischargeDepth := 60)

@[simp] theorem markList_memOk (s : State) (k j : Nat) (dry : Bool) (hok : s.mem.ok)  : (markList s k j dry).mem.ok := by
  exact memOk_of_frame rfl (markList_frame notMem _ _ _ _ rfl) hok

@[simp] theorem stallEntry_memOk (s : State) (e : Nat) (hok : s.mem.ok)  : (stallEntry s e).mem.ok := by
  exact memOk_of_frame rfl (stallEntry_frame notMem _ _ rfl rfl) hok

@[simp] theorem appendCore_memOk (s : State) (cl e c : Nat) (p : AttnPlan) (hok : s.mem.ok)  : (appendCore s cl e c p).1.mem.ok := by
  unfold appendCore
  have hg : ∀ (s : State) k j rows r kv vv, s.mem.ok → ((appendRow s k j rows r kv vv).getD s).mem.ok := by
    intro s k j rows r kv vv hs
    cases ha : appendRow s k j rows r kv vv with
    | none => exact hs
    | some t => exact appendRow_memOk s k j rows r kv vv hs t ha
  dsimp only
  split
  · split
    · exact hok
    · split
      · simp (maxDischargeDepth := 60) [hok]
      · apply markList_memOk
        refine foldl_memOk _ ?_ _ _ (by simp (maxDischargeDepth := 60) [hok]); intro s a hs; exact hg _ _ _ _ _ _ _ hs
  · dsimp only
    refine foldl_memOk _ ?_ _ _ hok
    intro s a hs
    split
    · exact hs
    · exact hg _ _ _ _ _ _ _ hs

@[simp] theorem refuseCore_memOk (s : State) (cl pr i e c cause : Nat) (hok : s.mem.ok)  : (refuseCore s cl pr i e c cause).mem.ok := by
  exact memOk_of_frame rfl (refuseCore_frame notMem _ _ _ _ _ _ _ rfl rfl) hok

@[simp] theorem scoreCore_memOk (a : AttnRun) (cl pr i e c : Nat) (hok : a.state.mem.ok)  : (scoreCore a cl pr i e c).state.mem.ok := by
  unfold scoreCore; dsimp only; split <;> simp (maxDischargeDepth := 60) [hok]

@[simp] theorem normaliseCore_memOk (a : AttnRun) (cl pr i e c : Nat) (hok : a.state.mem.ok)  : (normaliseCore a cl pr i e c).state.mem.ok := by
  unfold normaliseCore; dsimp only; split <;> simp (maxDischargeDepth := 60) [hok]

@[simp] theorem valueCore_memOk (a : AttnRun) (cl pr i e c : Nat) (hok : a.state.mem.ok)  : (valueCore a cl pr i e c).state.mem.ok := by
  unfold valueCore; dsimp only; split <;> simp (maxDischargeDepth := 60) [hok]

@[simp] theorem openSteps_memOk (s : State) (cl e : Nat) (hok : s.mem.ok)  : (openSteps s cl e).mem.ok := by
  unfold openSteps; split
  · exact hok
  · refine foldl_memOk _ ?_ _ _ hok
    intro s a hs; dsimp only; (repeat' split) <;> first | exact hs | simp (maxDischargeDepth := 60) [hs]

@[simp] theorem noteLists_memOk (s : State) (e : Nat) (lists : List (Nat × Nat)) (hok : s.mem.ok)  : (noteLists s e lists).mem.ok := by
  unfold noteLists; (repeat' split) <;> simp_all (maxDischargeDepth := 60)

@[simp] theorem runAttn_memOk (s : State) (cl p step : Nat) (core : AttnRun → Nat → Nat → Nat → AttnRun) (hok : s.mem.ok) (h_core : ∀ (x0 : AttnRun) (x1 : Nat) (x2 : Nat) (x3 : Nat), x0.state.mem.ok → (core x0 x1 x2 x3).state.mem.ok) : (runAttn s cl p step core).mem.ok := by
  unfold runAttn
  refine withEntry_memOk _ _ _ _ _ hok ?_
  intro i e
  split
  · simp (maxDischargeDepth := 60) [hok]
  · dsimp only
    split
    · exact rejectEntry_memOk _ _ _ _ _ _ hok
    · have h2 : ∀ (q : AttnRun), q.state.mem.ok → ((setBits (Ent.cores e) 16).foldl (fun a c => core a i e c) q).state.mem.ok := by
        intro q hq
        refine foldl_attn_memOk _ ?_ _ _ hq
        intro s a hs; exact h_core _ _ _ _ hs
      apply issueFlight_memOk
      by_cases hz : step = 0
      · simp only [hz, if_true]
        exact stallEntry_memOk _ _ (h2 _ (noteLists_memOk _ _ _ (openSteps_memOk _ _ _ hok)))
      · simp only [hz, if_false]
        exact h2 _ (noteLists_memOk _ _ _ hok)

@[simp] theorem actRowOf_memOk (s : State) (cl p i e row : Nat) (hok : s.mem.ok)  : (actRowOf s cl p i e row).1.mem.ok := by
  unfold actRowOf; dsimp only; (repeat' split) <;> simp (maxDischargeDepth := 60) [hok]

@[simp] theorem doRow_memOk (s : State) (cl p i e row : Nat) (hok : s.mem.ok)  : (doRow s cl p i e row).1.mem.ok := by
  unfold doRow
  split <;> simp (maxDischargeDepth := 60) [hok]

@[simp] theorem putRows_memOk (s : State) (c : Ctx) (cl core byte : Nat) (bs : List Byte) (hok : s.mem.ok)  : (putRows s c cl core byte bs).mem.ok := by
  simp (maxDischargeDepth := 60) [putRows, hok]

@[simp] theorem postNoRoute_memOk (s : State) (c : Ctx) (tag pkg : Nat) (hok : s.mem.ok)  : (postNoRoute s c tag pkg).mem.ok := by
  exact memOk_of_frame rfl (postNoRoute_frame notMem _ _ _ _ rfl rfl) hok

@[simp] theorem sendTo_memOk (s : State) (cl e owner : Nat) (c : Ctx) (pkg ep turn : Nat) (blocks : List XBlock) (hok : s.mem.ok)  : (sendTo s cl e owner c pkg ep turn blocks).mem.ok := by
  unfold sendTo; (repeat' split) <;> simp_all (maxDischargeDepth := 60)

@[simp] theorem sendMirror_memOk (s : State) (cl e owner : Nat) (c : Ctx) (r : RouteEntry) (data : List Byte) (hok : s.mem.ok)  : (sendMirror s cl e owner c r data).mem.ok := by
  exact memOk_of_frame rfl (sendMirror_frame notMem _ _ _ _ _ _ _ rfl rfl rfl rfl rfl) hok

@[simp] theorem withXchg_memOk (s : State) (cl p : Nat) (mine : Nat → Bool) (k : State → Nat → Nat → State × Work) (hok : s.mem.ok) (h_k : ∀ (x0 : State) (x1 : Nat) (x2 : Nat), x0.mem.ok → (k x0 x1 x2).1.mem.ok) : (withXchg s cl p mine k).mem.ok := by
  unfold withXchg
  refine withEntry_memOk _ _ _ _ _ hok ?_
  intro i e
  split
  · simp (maxDischargeDepth := 60) [hok]
  · split
    · simp (maxDischargeDepth := 60) [hok]
    · split
      · simp (maxDischargeDepth := 60) [hok]
      · exact setWork_memOk _ _ _ (h_k _ _ _ (issueFlight_memOk _ _ _ _ _ _ _ _ hok))

@[simp] theorem xNote_memOk (s : State) (cl p i e : Nat) (hok : s.mem.ok)  : (xNote s cl p i e).mem.ok := by
  exact memOk_of_frame rfl (xNote_frame notMem _ _ _ _ _ rfl rfl) hok

@[simp] theorem sendGroups_memOk (s : State) (cl e owner : Nat) (c : Ctx) (bs : List XBlock) (hok : s.mem.ok)  : (sendGroups s cl e owner c bs).mem.ok := by
  unfold sendGroups; (repeat' split) <;> simp_all (maxDischargeDepth := 60)

@[simp] theorem skipBad_memOk (s : State) (c : Ctx) (at' : Nat) (rs : List RouteEntry) (ok : RouteEntry → Bool) (hok : s.mem.ok)  : (skipBad s c at' rs ok).mem.ok := by
  exact memOk_of_frame rfl (skipBad_frame notMem _ _ _ _ _ rfl rfl) hok

@[simp] theorem fixedRows_memOk (s : State) (cl p i e owner : Nat) (hok : s.mem.ok)  : (fixedRows s cl p i e owner).mem.ok := by
  unfold fixedRows; (repeat' split) <;> simp_all (maxDischargeDepth := 60)

@[simp] theorem dispatchRows_memOk (s : State) (cl p i e owner : Nat) (hok : s.mem.ok)  : (dispatchRows s cl p i e owner).mem.ok := by
  simp (maxDischargeDepth := 60) [dispatchRows, hok]

@[simp] theorem returnBlocks_memOk (s : State) (cl p i e owner : Nat) (hok : s.mem.ok)  : (returnBlocks s cl p i e owner).mem.ok := by
  simp (maxDischargeDepth := 60) [returnBlocks, hok]

@[simp] theorem dropParting_memOk (s : State) (f : Frame) (hok : s.mem.ok)  : (dropParting s f).mem.ok := by
  exact memOk_of_frame rfl (dropParting_frame notMem _ _ rfl) hok

@[simp] theorem admitFrame_memOk (s : State) (l : Nat) (f : Frame) (near : Bool) (k : State → State) (hok : s.mem.ok) (h_k : ∀ (x0 : State), x0.mem.ok → (k x0).mem.ok) : (admitFrame s l f near k).mem.ok := by
  simp (maxDischargeDepth := 60) [admitFrame, hok, h_k]

@[simp] theorem receiveFrame_memOk (s : State) (l : Nat) (f : Frame) (a : Arrival) (type : Nat) (near : Bool) (k : State → State) (hok : s.mem.ok) (h_k : ∀ (x0 : State), x0.mem.ok → (k x0).mem.ok) : (receiveFrame s l f a type near k).mem.ok := by
  unfold receiveFrame; (repeat' split) <;> simp_all (maxDischargeDepth := 60)

@[simp] theorem countXchg_memOk (s : State) (f : Frame) (cl core : Nat) (hok : s.mem.ok)  : (countXchg s f cl core).mem.ok := by
  exact memOk_of_frame rfl (countXchg_frame notMem _ _ _ _ rfl rfl rfl rfl) hok

@[simp] theorem finishMirror_memOk (s : State) (m : MirrorCount) (hok : s.mem.ok)  : (finishMirror s m).mem.ok := by
  unfold finishMirror; (repeat' split) <;> simp (maxDischargeDepth := 60) [hok]

@[simp] theorem finishMirrors_memOk (s : State) (hok : s.mem.ok)  : (finishMirrors s).mem.ok := by
  unfold finishMirrors; (repeat' split) <;> simp_all (maxDischargeDepth := 60)

@[simp] theorem mirrorRows_memOk (s : State) (a off : Nat) (bs : List Byte) (hok : s.mem.ok)  : (mirrorRows s a off bs).mem.ok := by
  simp (maxDischargeDepth := 60) [mirrorRows, hok]

@[simp] theorem takeMirror_memOk (s : State) (l : Nat) (f : Frame) (hok : s.mem.ok)  : (takeMirror s l f).mem.ok := by
  simp (maxDischargeDepth := 60) [takeMirror, hok]

@[simp] theorem noteAck_memOk (s : State) (f : Frame) (ep : Nat) (hok : s.mem.ok)  : (noteAck s f ep).mem.ok := by
  exact memOk_of_frame rfl (noteAck_frame notMem _ _ _ rfl) hok

@[simp] theorem takeXchg_memOk (s : State) (l : Nat) (f : Frame) (tagOk : Bool) (hok : s.mem.ok)  : (takeXchg s l f tagOk).mem.ok := by
  simp (maxDischargeDepth := 60) [takeXchg, hok]

@[simp] theorem setChState_memOk (s : State) (w k v : Nat) (hok : s.mem.ok)  : (setChState s w k v).mem.ok := by
  exact memOk_of_frame rfl (setChState_frame notMem _ _ _ _ rfl) hok

@[simp] theorem upset_memOk (s : State) (u : Upset) (hok : s.mem.ok)  : (upset s u).mem.ok := by
  unfold upset; (repeat' split) <;> simp (maxDischargeDepth := 60) [hok]

@[simp] theorem noteDevEcc_memOk (s : State) (x : Nat × Nat) (hok : s.mem.ok)  : (noteDevEcc s x).mem.ok := by
  exact memOk_of_frame rfl (noteDevEcc_frame notMem _ _ rfl) hok

@[simp] theorem zeroRange_memOk (s : State) (w base size : Nat) (hok : s.mem.ok)  : (zeroRange s w base size).mem.ok := by
  unfold zeroRange; exact ⟨hok.ns, canon_filter _ hok.gddr _, hok.table⟩

@[simp] theorem setSandHead_memOk (s : State) (w : Nat) (r : Option SandRange) (hok : s.mem.ok)  : (setSandHead s w r).mem.ok := by
  exact memOk_of_frame rfl (setSandHead_frame notMem _ _ _ rfl) hok

@[simp] theorem sandUnits_memOk (s : State) (w units : Nat) (r : SandRange) (hok : s.mem.ok)  : (sandUnits s w units r).mem.ok := by
  simp (maxDischargeDepth := 60) [sandUnits, hok]

@[simp] theorem copyEpoch_memOk (s : State) (d k e : Nat) (hok : s.mem.ok)  : (copyEpoch s d k e).mem.ok := by
  exact memOk_of_frame rfl (copyEpoch_frame notMem _ _ _ _ rfl) hok

@[simp] theorem startSweep_memOk (s : State) (k : Nat) (hok : s.mem.ok)  : (startSweep s k).mem.ok := by
  exact memOk_of_frame rfl (startSweep_frame notMem _ _ rfl rfl) hok

@[simp] theorem advanceEpoch_memOk (s : State) (k : Nat) (hok : s.mem.ok)  : (advanceEpoch s k).mem.ok := by
  exact memOk_of_frame rfl (advanceEpoch_frame notMem _ _ rfl rfl) hok

@[simp] theorem sweepTags_memOk (s : State) (d k : Nat) (hok : s.mem.ok)  : (sweepTags s d k).mem.ok := by
  simp (maxDischargeDepth := 60) [sweepTags, hok]

@[simp] theorem setPwrBit_memOk (s : State) (b : Nat) (v : Bool) (hok : s.mem.ok)  : (setPwrBit s b v).mem.ok := by
  exact memOk_of_frame rfl (setPwrBit_frame notMem _ _ _ rfl) hok

@[simp] theorem postPwr_memOk (s : State) (cause op1 tag : Nat) (hok : s.mem.ok)  : (postPwr s cause op1 tag).mem.ok := by
  exact memOk_of_frame rfl (postPwr_frame notMem _ _ _ _ rfl rfl) hok

@[simp] theorem countSilent_memOk (s : State) (i : Nat) (r : Option Nat) (hok : s.mem.ok)  : (countSilent s i r).mem.ok := by
  exact memOk_of_frame rfl (countSilent_frame notMem _ _ _ rfl) hok

@[simp] theorem showLost_memOk (s : State) (hok : s.mem.ok)  : (showLost s).mem.ok := by
  exact memOk_of_frame rfl (showLost_frame notMem _ rfl) hok

@[simp] theorem noteLostRail_memOk (s : State) (i : Nat) (hok : s.mem.ok)  : (noteLostRail s i).mem.ok := by
  exact memOk_of_frame rfl (noteLostRail_frame notMem _ _ rfl rfl rfl) hok

@[simp] theorem railPower_memOk (s : State) (i est : Nat) (r : Option Nat) (hok : s.mem.ok)  : (railPower s i est r).1.mem.ok := by
  exact memOk_of_frame rfl (railPower_frame notMem _ _ _ _ rfl) hok

@[simp] theorem measure_memOk (s : State) (r : LoopReadings) (hok : s.mem.ok)  : (measure s r).1.mem.ok := by
  exact memOk_of_frame rfl (measure_frame notMem _ _ rfl rfl rfl rfl) hok

@[simp] theorem addEnergy_memOk (s : State) (p : Nat) (hok : s.mem.ok)  : (addEnergy s p).mem.ok := by
  exact memOk_of_frame rfl (addEnergy_frame notMem _ _ rfl) hok

@[simp] theorem notePower_memOk (s : State) (p est : Nat) (hok : s.mem.ok)  : (notePower s p est).mem.ok := by
  exact memOk_of_frame rfl (notePower_frame notMem _ _ _ rfl rfl) hok

@[simp] theorem noteDisagree_memOk (s : State) (p est : Nat) (hok : s.mem.ok)  : (noteDisagree s p est).mem.ok := by
  exact memOk_of_frame rfl (noteDisagree_frame notMem _ _ _ rfl rfl) hok

@[simp] theorem checkDisagree_memOk (s : State) (hok : s.mem.ok)  : (checkDisagree s).mem.ok := by
  exact memOk_of_frame rfl (checkDisagree_frame notMem _ rfl rfl) hok

@[simp] theorem withhold_memOk (s : State) (d k : Nat) (hok : s.mem.ok)  : (withhold s d k).mem.ok := by
  exact memOk_of_frame rfl (withhold_frame notMem _ _ _ rfl rfl rfl) hok

@[simp] theorem setOffset_memOk (s : State) (d k v : Nat) (hok : s.mem.ok)  : (setOffset s d k v).mem.ok := by
  exact memOk_of_frame rfl (setOffset_frame notMem _ _ _ _ rfl) hok

@[simp] theorem raiseOffset_memOk (s : State) (d k v : Nat) (hok : s.mem.ok)  : (raiseOffset s d k v).mem.ok := by
  exact memOk_of_frame rfl (raiseOffset_frame notMem _ _ _ _ rfl rfl rfl) hok

@[simp] theorem showOffsets_memOk (s : State) (hok : s.mem.ok)  : (showOffsets s).mem.ok := by
  exact memOk_of_frame rfl (showOffsets_frame notMem _ rfl) hok

@[simp] theorem marginAlarm_memOk (s : State) (d : Nat) (hok : s.mem.ok)  : (marginAlarm s d).mem.ok := by
  exact memOk_of_frame rfl (marginAlarm_frame notMem _ _ rfl rfl rfl) hok

@[simp] theorem noteMargins_memOk (s : State) (r : LoopReadings) (hok : s.mem.ok)  : (noteMargins s r).mem.ok := by
  exact memOk_of_frame rfl (noteMargins_frame notMem _ _ rfl rfl rfl) hok

@[simp] theorem writeRecord_memOk (s : State) (os : List (Nat × Nat)) (hok : s.mem.ok)  : (writeRecord s os).mem.ok := by
  exact memOk_of_frame rfl (writeRecord_frame notMem _ _ rfl) hok

@[simp] theorem makeReplan_memOk (s : State) (turn : Nat) (hok : s.mem.ok)  : (makeReplan s turn).mem.ok := by
  exact memOk_of_frame rfl (makeReplan_frame notMem _ _ rfl) hok

@[simp] theorem applyReplan_memOk (s : State) (t : Nat) (hok : s.mem.ok)  : (applyReplan s t).mem.ok := by
  exact memOk_of_frame rfl (applyReplan_frame notMem _ _ rfl rfl rfl) hok

@[simp] theorem noteHours_memOk (s : State) (hok : s.mem.ok)  : (noteHours s).mem.ok := by
  exact memOk_of_frame rfl (noteHours_frame notMem _ rfl rfl) hok

@[simp] theorem noteTemps_memOk (s : State) (r : LoopReadings) (hok : s.mem.ok)  : (noteTemps s r).mem.ok := by
  exact memOk_of_frame rfl (noteTemps_frame notMem _ _ rfl) hok

@[simp] theorem showPace_memOk (s : State) (hok : s.mem.ok)  : (showPace s).mem.ok := by
  exact memOk_of_frame rfl (showPace_frame notMem _ rfl) hok

@[simp] theorem throttle_memOk (s : State) (tj mem : Nat) (hok : s.mem.ok)  : (throttle s tj mem).mem.ok := by
  exact memOk_of_frame rfl (throttle_frame notMem _ _ _ rfl rfl rfl) hok

@[simp] theorem capRules_memOk (s : State) (r : LoopReadings) (p' : Nat) (hok : s.mem.ok)  : (capRules s r p').mem.ok := by
  exact memOk_of_frame rfl (capRules_frame notMem _ _ _ rfl) hok

@[simp] theorem capUnmet_memOk (s : State) (hok : s.mem.ok)  : (capUnmet s).mem.ok := by
  exact memOk_of_frame rfl (capUnmet_frame notMem _ rfl rfl rfl rfl) hok

@[simp] theorem noteSense_memOk (s : State) (p : Nat) (x : Int × Bool) (hok : s.mem.ok)  : (noteSense s p x).mem.ok := by
  exact memOk_of_frame rfl (noteSense_frame notMem _ _ _ rfl rfl rfl) hok

@[simp] theorem noteDiode_memOk (s : State) (mv : Nat) (hok : s.mem.ok)  : (noteDiode s mv).mem.ok := by
  exact memOk_of_frame rfl (noteDiode_frame notMem _ _ rfl rfl rfl) hok

@[simp] theorem findRail_memOk (s : State) (p : Nat) (hok : s.mem.ok)  : (findRail s p).mem.ok := by
  exact memOk_of_frame rfl (findRail_frame notMem _ _ rfl) hok

@[simp] theorem findRails_memOk (s : State) (r : LoopReadings) (hok : s.mem.ok)  : (findRails s r).mem.ok := by
  exact memOk_of_frame rfl (findRails_frame notMem _ _ rfl) hok

@[simp] theorem askTime_memOk (s : State) (hok : s.mem.ok)  : (askTime s).mem.ok := by
  exact memOk_of_frame rfl (askTime_frame notMem _ rfl rfl rfl rfl) hok

@[simp] theorem showLive_memOk (s : State) (hok : s.mem.ok)  : (showLive s).mem.ok := by
  exact memOk_of_frame rfl (showLive_frame notMem _ rfl) hok

@[simp] theorem endInterval_memOk (s : State) (hok : s.mem.ok)  : (endInterval s).mem.ok := by
  exact memOk_of_frame rfl (endInterval_frame notMem _ rfl) hok

@[simp] theorem loseMemories_memOk (s : State) (hok : s.mem.ok)  : (loseMemories s).mem.ok := by
  unfold loseMemories; dsimp only
  have h1 : MemState.ok { s.mem with ns := [], tags := [], nsErr := [], gddr := [], gErr := [], waiting := [] } := ⟨canon_nil _, canon_nil _, hok.table⟩
  split
  · exact setField_memOk _ _ _ _ _ h1
  · exact h1

@[simp] theorem setTarget_memOk (s : State) (n : Nat) (t : Option Target) (hok : s.mem.ok)  : (setTarget s n t).mem.ok := by
  exact memOk_of_frame rfl (setTarget_frame notMem _ _ _ rfl) hok

@[simp] theorem postStorage_memOk (s : State) (slot : Option Nat) (a at' : Nat) (r : Nat × Option Nat) (hok : s.mem.ok)  : (postStorage s slot a at' r).mem.ok := by
  exact memOk_of_frame rfl (postStorage_frame notMem _ _ _ _ _ rfl rfl) hok

@[simp] theorem setLoad_memOk (s : State) (l : Load) (hok : s.mem.ok)  : (setLoad s l).mem.ok := by
  exact memOk_of_frame rfl (setLoad_frame notMem _ _ rfl) hok

@[simp] theorem issueExtents_memOk (s : State) (id : Nat) (y0 : Nat) (hok : s.mem.ok)  : (issueExtents s id y0).mem.ok := by
  exact memOk_of_frame rfl (issueExtents_frame notMem _ _ _ rfl) hok

@[simp] theorem issueLoad_memOk (s : State) (id : Nat) (hok : s.mem.ok)  : (issueLoad s id).mem.ok := by
  exact memOk_of_frame rfl (issueLoad_frame notMem _ _ rfl) hok

@[simp] theorem endLoad_memOk (s : State) (l : Load) (hok : s.mem.ok)  : (endLoad s l).mem.ok := by
  exact memOk_of_frame rfl (endLoad_frame notMem _ _ rfl rfl rfl) hok

@[simp] theorem startDescs_memOk (s : State) (id : Nat) (y0 : Nat) (hok : s.mem.ok)  : (startDescs s id y0).mem.ok := by
  induction y0 generalizing s with
  | zero => unfold startDescs; split <;> first | exact hok | simp (maxDischargeDepth := 60) [hok]
  | succ n ih => unfold startDescs; dsimp only; (repeat' split) <;> first | exact hok | (apply ih; simp (maxDischargeDepth := 60) [hok]) | simp (maxDischargeDepth := 60) [hok]

@[simp] theorem settleLoad_memOk (s : State) (id : Nat) (hok : s.mem.ok)  : (settleLoad s id).mem.ok := by
  unfold settleLoad; (repeat' split) <;> simp (maxDischargeDepth := 60) [hok]

@[simp] theorem putExtent_memOk (s : State) (slot : Option Nat) (a : Nat) (bs : List Byte) (hok : s.mem.ok)  : (putExtent s slot a bs).1.mem.ok := by
  simp (maxDischargeDepth := 60) [putExtent, hok]

@[simp] theorem withFar_memOk (s : State) (tag op target a raddr exts : Nat) (write : Bool) (k : State → Option Nat → State) (hok : s.mem.ok) (h_k : ∀ (x0 : State) (x1 : Option Nat), x0.mem.ok → (k x0 x1).mem.ok) : (withFar s tag op target a raddr exts write k).mem.ok := by
  unfold withFar; (repeat' split) <;> simp (maxDischargeDepth := 60) [hok, h_k]

@[simp] theorem addFar_memOk (s : State) (put : Bool) (target a raddr rkey exts : Nat) (slot : Option Nat) (serial : Nat) (hok : s.mem.ok)  : (addFar s put target a raddr rkey exts slot serial).mem.ok := by
  exact memOk_of_frame rfl (addFar_frame notMem _ _ _ _ _ _ _ _ _ rfl) hok

@[simp] theorem postSlot_memOk (s : State) (slot : Option Nat) (cause op1 count : Nat) (hok : s.mem.ok)  : (postSlot s slot cause op1 count).mem.ok := by
  exact memOk_of_frame rfl (postSlot_frame notMem _ _ _ _ _ rfl rfl) hok

@[simp] theorem farExtent_memOk (s : State) (x : FarXfer) (i : Nat) (e : ExtentEnd) (hok : s.mem.ok)  : (farExtent s x i e).1.mem.ok := by
  unfold farExtent; (repeat' split) <;> simp (maxDischargeDepth := 60) [hok]

@[simp] theorem withHost_memOk (s : State) (tag op a n slot : Nat) (store : Bool) (k : State → Option Nat → State) (hok : s.mem.ok) (h_k : ∀ (x0 : State) (x1 : Option Nat), x0.mem.ok → (k x0 x1).mem.ok) : (withHost s tag op a n slot store k).mem.ok := by
  unfold withHost; dsimp only; (repeat' split) <;> simp (maxDischargeDepth := 60) [hok, h_k]

@[simp] theorem addHost_memOk (s : State) (x : HostXfer) (hok : s.mem.ok)  : (addHost s x).mem.ok := by
  exact memOk_of_frame rfl (addHost_frame notMem _ _ rfl) hok

@[simp] theorem fetchBytes_memOk (s : State) (x : HostXfer) (hok : s.mem.ok)  : (fetchBytes s x).mem.ok := by
  unfold fetchBytes; (repeat' split) <;> simp_all (maxDischargeDepth := 60)

@[simp] theorem startFetch_memOk (s : State) (x : HostXfer) (hok : s.mem.ok)  : (startFetch s x).mem.ok := by
  simp (maxDischargeDepth := 60) [startFetch, hok]

@[simp] theorem endHost_memOk (s : State) (n : Nat) (store : Bool) (cause : Nat) (hok : s.mem.ok)  : (endHost s n store cause).mem.ok := by
  exact memOk_of_frame rfl (endHost_frame notMem _ _ _ _ rfl rfl rfl) hok

@[simp] theorem joinBucket_memOk (s : State) (tag : Nat) (l : List Byte) (hok : s.mem.ok)  : (joinBucket s tag l).mem.ok := by
  exact memOk_of_frame rfl (joinBucket_frame notMem _ _ _ rfl) hok

@[simp] theorem leaveBucket_memOk (s : State) (tag own : Nat) (hok : s.mem.ok)  : (leaveBucket s tag own).mem.ok := by
  exact memOk_of_frame rfl (leaveBucket_frame notMem _ _ _ rfl) hok

@[simp] theorem writeShard_memOk (s : State) (f : Flight) (r : RedWork) (vs : List Num) (hok : s.mem.ok)  : (writeShard s f r vs).mem.ok := by
  simp (maxDischargeDepth := 60) [writeShard, hok]

@[simp] theorem writeNaNShard_memOk (s : State) (f : Flight) (r : RedWork) (hok : s.mem.ok)  : (writeNaNShard s f r).mem.ok := by
  simp (maxDischargeDepth := 60) [writeNaNShard, hok]

@[simp] theorem orderedShard_memOk (s : State) (f : Flight) (r : RedWork) (hok : s.mem.ok)  : (orderedShard s f r).mem.ok := by
  simp (maxDischargeDepth := 60) [orderedShard, hok]

@[simp] theorem takeTurn_memOk (s : State) (id d : Nat) (hok : s.mem.ok)  : (takeTurn s id d).mem.ok := by
  exact memOk_of_frame rfl (takeTurn_frame notMem _ _ _ rfl) hok

@[simp] theorem sendRed_memOk (s : State) (f : Flight) (fr : Frame) (hok : s.mem.ok)  : (sendRed s f fr).1.mem.ok := by
  exact memOk_of_frame rfl (sendRed_frame notMem _ _ _ rfl rfl rfl rfl) hok

@[simp] theorem sendAll_memOk (s : State) (f : Flight) (frs : List Frame) (hok : s.mem.ok)  : (sendAll s f frs).1.mem.ok := by
  exact memOk_of_frame rfl (sendAll_frame notMem _ _ _ rfl rfl rfl rfl) hok

@[simp] theorem postRed_memOk (s : State) (f : Flight) (cause tag pkg : Nat) (hok : s.mem.ok)  : (postRed s f cause tag pkg).mem.ok := by
  exact memOk_of_frame rfl (postRed_frame notMem _ _ _ _ _ rfl rfl) hok

@[simp] theorem noteHop_memOk (s : State) (f : Flight) (c : Counts) (hok : s.mem.ok)  : (noteHop s f c).mem.ok := by
  exact memOk_of_frame rfl (noteHop_frame notMem _ _ _ rfl) hok

@[simp] theorem fsyncAt_memOk (s : State) (f : Flight) (r : RedWork) (h : RedHead) (hok : s.mem.ok)  : (fsyncAt s f r h).1.mem.ok := by
  exact memOk_of_frame rfl (fsyncAt_frame notMem _ _ _ _ rfl rfl rfl rfl) hok

@[simp] theorem orderedAt_memOk (s : State) (f : Flight) (r : RedWork) (fr : Frame) (h : RedHead) (n : Nat) (hok : s.mem.ok)  : (orderedAt s f r fr h n).mem.ok := by
  unfold orderedAt; dsimp only; (repeat' split) <;> simp (maxDischargeDepth := 60) [hok]

@[simp] theorem ringAt_memOk (s : State) (f : Flight) (r : RedWork) (fr : Frame) (h : RedHead) (o n : Nat) (hok : s.mem.ok)  : (ringAt s f r fr h o n).1.mem.ok := by
  simp (maxDischargeDepth := 60) [ringAt, hok]

@[simp] theorem mismatchAt_memOk (s : State) (f : Flight) (r : RedWork) (fr : Frame) (h : RedHead) (o n : Nat) (hok : s.mem.ok)  : (mismatchAt s f r fr h o n).1.mem.ok := by
  simp (maxDischargeDepth := 60) [mismatchAt, hok]

@[simp] theorem redAt_memOk (s : State) (f : Flight) (r : RedWork) (fr : Frame) (hok : s.mem.ok)  : (redAt s f r fr).1.mem.ok := by
  unfold redAt; dsimp only; (repeat' split) <;> simp (maxDischargeDepth := 60) [hok]

@[simp] theorem holdRx_memOk (s : State) (l : Nat) (f : Frame) (hok : s.mem.ok)  : (holdRx s l f).mem.ok := by
  exact memOk_of_frame rfl (holdRx_frame notMem _ _ _ rfl) hok

@[simp] theorem runHops_memOk (s : State) (y0 : Nat) (y1 : List Hop) (hok : s.mem.ok)  : (runHops s y0 y1).mem.ok := by
  induction y0 generalizing s y1 with
  | zero => exact hok
  | succ n ih =>
    cases y1 with
    | nil => exact hok
    | cons x xs =>
      unfold runHops; dsimp only
      split
      · exact ih _ _ hok
      · split
        · exact ih _ _ (holdRx_memOk _ _ _ hok)
        · apply ih; apply redAt_memOk; split
          · exact hok
          · simp (maxDischargeDepth := 60) [hok]

@[simp] theorem flagFrames_memOk (s : State) (f : Flight) (r : RedWork) (xs : List StartFrame) (hok : s.mem.ok)  : (flagFrames s f r xs).1.mem.ok := by
  exact memOk_of_frame rfl (flagFrames_frame notMem _ _ _ _ rfl) hok

@[simp] theorem dropHeld_memOk (s : State) (cl core tag : Nat) (hok : s.mem.ok)  : (dropHeld s cl core tag).mem.ok := by
  exact memOk_of_frame rfl (dropHeld_frame notMem _ _ _ _ rfl) hok

@[simp] theorem checkReach_memOk (s : State) (f : Flight) (frs : List Frame) (r : RedWork) (hok : s.mem.ok)  : (checkReach s f frs r).mem.ok := by
  exact memOk_of_frame rfl (checkReach_frame notMem _ _ _ _ rfl rfl) hok

@[simp] theorem startReduce_memOk (s : State) (cl p i e : Nat) (l : List Byte) (hok : s.mem.ok)  : (startReduce s cl p i e l).mem.ok := by
  unfold startReduce
  extract_lets ms P own me prev total fs r id core c lines s1 s2
  have h1 : s1.mem.ok := joinBucket_memOk _ _ _ (nsNote_memOk _ _ _ hok)
  have h2 : s2.mem.ok := issueFlight_memOk _ _ _ _ _ _ _ _ h1
  clear_value s2
  split
  · exact h2
  · split
    · split
      · apply setWork_memOk; refine foldl_memOk _ ?_ _ _ h2; intro s a hs; exact setSyncFlag_memOk _ _ _ _ hs
      · exact writeShard_memOk _ _ _ _ h2
    · apply runHops_memOk; apply dropHeld_memOk; apply sendAll_memOk; apply setWork_memOk; apply checkReach_memOk; exact flagFrames_memOk _ _ _ _ h2

@[simp] theorem withReduce_memOk (s : State) (cl p : Nat) (mine : Nat → Bool) (hok : s.mem.ok)  : (withReduce s cl p mine).mem.ok := by
  unfold withReduce
  refine withEntry_memOk _ _ _ _ _ hok ?_
  intro i e
  dsimp only
  (repeat' split) <;> simp (maxDischargeDepth := 60) [hok]

@[simp] theorem endReduce_memOk (s : State) (f : Flight) (r : RedWork) (hok : s.mem.ok)  : (endReduce s f r).mem.ok := by
  simp (maxDischargeDepth := 60) [endReduce, hok]

@[simp] theorem takeReduce_memOk (s : State) (l : Nat) (f : Frame) (hok : s.mem.ok)  : (takeReduce s l f).mem.ok := by
  unfold takeReduce; (repeat' split) <;> simp (maxDischargeDepth := 60) [hok]

@[simp] theorem stompAdder_memOk (s : State) (l : Nat) (f : Frame) (a : Arrival) (hok : s.mem.ok)  : (stompAdder s l f a).mem.ok := by
  exact memOk_of_frame rfl (stompAdder_frame notMem _ _ _ _ rfl rfl) hok

@[simp] theorem setSource_memOk (s : State) (id : Nat) (g : GatherWork) (src : GatherSource) (hok : s.mem.ok)  : (setSource s id g src).mem.ok := by
  exact memOk_of_frame rfl (setSource_frame notMem _ _ _ _ rfl) hok

@[simp] theorem noteStale_memOk (s : State) (id core pkg found : Nat) (hok : s.mem.ok)  : (noteStale s id core pkg found).mem.ok := by
  exact memOk_of_frame rfl (noteStale_frame notMem _ _ _ _ _ rfl rfl rfl) hok

@[simp] theorem imageCame_memOk (s : State) (id : Nat) (src : GatherSource) (data : List Byte) (stale : Option Nat) (hok : s.mem.ok)  : (imageCame s id src data stale).mem.ok := by
  unfold imageCame; (repeat' split) <;> simp (maxDischargeDepth := 60) [hok]

@[simp] theorem imageRefused_memOk (s : State) (id : Nat) (src : GatherSource) (hok : s.mem.ok)  : (imageRefused s id src).mem.ok := by
  exact memOk_of_frame rfl (imageRefused_frame notMem _ _ _ rfl rfl rfl) hok

@[simp] theorem gatherLocal_memOk (s : State) (id : Nat) (src : GatherSource) (hok : s.mem.ok)  : (gatherLocal s id src).mem.ok := by
  unfold gatherLocal; dsimp only; (repeat' split) <;> simp (maxDischargeDepth := 60) [hok]

@[simp] theorem gatherRemote_memOk (s : State) (id turn : Nat) (src : GatherSource) (hok : s.mem.ok)  : (gatherRemote s id turn src).mem.ok := by
  exact memOk_of_frame rfl (gatherRemote_frame notMem _ _ _ _ rfl rfl rfl) hok

@[simp] theorem sendBack_memOk (s : State) (f : Frame) (fs : List Frame) (hok : s.mem.ok)  : (sendBack s f fs).mem.ok := by
  exact memOk_of_frame rfl (sendBack_frame notMem _ _ _ rfl rfl rfl) hok

@[simp] theorem answerGather_memOk (s : State) (c : Ctx) (f : Frame) (n : Nat) (hok : s.mem.ok)  : (answerGather s c f n).mem.ok := by
  unfold answerGather; (repeat' split) <;> simp (maxDischargeDepth := 60) [hok]

@[simp] theorem askImage_memOk (s : State) (f : Frame) (hok : s.mem.ok)  : (askImage s f).mem.ok := by
  simp (maxDischargeDepth := 60) [askImage, hok]

@[simp] theorem takeGatherReq_memOk (s : State) (l : Nat) (f : Frame) (hok : s.mem.ok)  : (takeGatherReq s l f).mem.ok := by
  simp (maxDischargeDepth := 60) [takeGatherReq, hok]

@[simp] theorem takeGatherResp_memOk (s : State) (l : Nat) (f : Frame) (hok : s.mem.ok)  : (takeGatherResp s l f).mem.ok := by
  unfold takeGatherResp; dsimp only; (repeat' split) <;> simp (maxDischargeDepth := 60) [hok]

@[simp] theorem gatherNote_memOk (s : State) (cl p i e k n : Nat) (hok : s.mem.ok)  : (gatherNote s cl p i e k n).mem.ok := by
  exact memOk_of_frame rfl (gatherNote_frame notMem _ _ _ _ _ _ _ rfl rfl) hok

@[simp] theorem startGather_memOk (s : State) (cl p i e : Nat) (hok : s.mem.ok)  : (startGather s cl p i e).mem.ok := by
  unfold startGather; (repeat' split) <;> simp_all (maxDischargeDepth := 60)

@[simp] theorem withControl_memOk (s : State) (cl p t : Nat) (k : Nat → Nat → State) (hok : s.mem.ok) (h_k : ∀ (x0 : Nat) (x1 : Nat), (k x0 x1).mem.ok) : (withControl s cl p t k).mem.ok := by
  simp (maxDischargeDepth := 60) [withControl, hok, h_k]

@[simp] theorem holdProg_memOk (s : State) (cl p code cause : Nat) (w : Wait) (hok : s.mem.ok)  : (holdProg s cl p code cause w).mem.ok := by
  exact memOk_of_frame rfl (holdProg_frame notMem _ _ _ _ _ _ rfl rfl) hok

@[simp] theorem setBase_memOk (s : State) (cl p t : Nat) (hok : s.mem.ok)  : (setBase s cl p t).mem.ok := by
  exact memOk_of_frame rfl (setBase_frame notMem _ _ _ _ rfl) hok

@[simp] theorem timeoutProg_memOk (s : State) (cl p : Nat) (hok : s.mem.ok)  : (timeoutProg s cl p).mem.ok := by
  exact memOk_of_frame rfl (timeoutProg_frame notMem _ _ _ rfl rfl rfl) hok

@[simp] theorem writeLossScale_memOk (s : State) (cl : Nat) (sigma : Int) (hok : s.mem.ok)  : (writeLossScale s cl sigma).mem.ok := by
  simp (maxDischargeDepth := 60) [writeLossScale, hok]

@[simp] theorem updateLossScale_memOk (s : State) (c : Ctx) (cl : Nat) (hok : s.mem.ok)  : (updateLossScale s c cl).mem.ok := by
  simp (maxDischargeDepth := 60) [updateLossScale, hok]

@[simp] theorem refuseMove_memOk (s : State) (cl p i : Nat) (r : (Nat × Option Nat) × Nat) (hok : s.mem.ok)  : (refuseMove s cl p i r).mem.ok := by
  exact memOk_of_frame rfl (refuseMove_frame notMem _ _ _ _ _ rfl rfl rfl) hok

@[simp] theorem noteSource_memOk (s : State) (cl p i e : Nat) (hok : s.mem.ok)  : (noteSource s cl p i e).mem.ok := by
  simp (maxDischargeDepth := 60) [noteSource, hok]

@[simp] theorem withMove_memOk (s : State) (cl p : Nat) (mine : Nat → Bool) (k : Nat → Nat → State) (hok : s.mem.ok) (h_k : ∀ (x0 : Nat) (x1 : Nat), (k x0 x1).mem.ok) : (withMove s cl p mine k).mem.ok := by
  simp (maxDischargeDepth := 60) [withMove, hok, h_k]

@[simp] theorem tokenOnly_memOk (s : State) (cl p i e : Nat) (hok : s.mem.ok)  : (tokenOnly s cl p i e).mem.ok := by
  exact memOk_of_frame rfl (tokenOnly_frame notMem _ _ _ _ _ rfl rfl rfl) hok

@[simp] theorem deliverMove_memOk (s : State) (f : Flight) (bs : List Byte) (hok : s.mem.ok)  : (deliverMove s f bs).1.mem.ok := by
  unfold deliverMove; dsimp only; (repeat' split) <;> simp (maxDischargeDepth := 60) [hok]

@[simp] theorem endPiece_memOk (s : State) (cl ctr : Nat) (post' ok : Bool) (dst src : Nat) (slot : Option Nat) (hok : s.mem.ok)  : (endPiece s cl ctr post' ok dst src slot).mem.ok := by
  exact memOk_of_frame rfl (endPiece_frame notMem _ _ _ _ _ _ _ _ rfl rfl rfl) hok

@[simp] theorem localPiece_memOk (s : State) (w : Nat) (d : SwitchDesc) (slot : Option Nat) (bs : List Byte) (hok : s.mem.ok)  : (localPiece s w d slot bs).mem.ok := by
  simp (maxDischargeDepth := 60) [localPiece, hok]

@[simp] theorem sendPiece_memOk (s : State) (w : Nat) (d : SwitchDesc) (slot : Option Nat) (bs : List Byte) (hok : s.mem.ok)  : (sendPiece s w d slot bs).mem.ok := by
  simp (maxDischargeDepth := 60) [sendPiece, hok]

@[simp] theorem takePiece_memOk (s : State) (l : Nat) (f : Frame) (hok : s.mem.ok)  : (takePiece s l f).mem.ok := by
  simp (maxDischargeDepth := 60) [takePiece, hok]

@[simp] theorem endPlan_memOk (s : State) (w st : Nat) (hok : s.mem.ok)  : (endPlan s w st).mem.ok := by
  exact memOk_of_frame rfl (endPlan_frame notMem _ _ _ rfl) hok

@[simp] theorem refuseSwitch_memOk (s : State) (w i : Nat) (d : SwitchDesc) (r : SwitchRefusal) (hok : s.mem.ok)  : (refuseSwitch s w i d r).mem.ok := by
  unfold refuseSwitch; (repeat' split) <;> simp (maxDischargeDepth := 60) [hok]

@[simp] theorem runSwitch_memOk (s : State) (w : Nat) (d : SwitchDesc) (hok : s.mem.ok)  : (runSwitch s w d).mem.ok := by
  simp (maxDischargeDepth := 60) [runSwitch, hok]

@[simp] theorem takeSwitch_memOk (s : State) (w i : Nat) (hok : s.mem.ok)  : (takeSwitch s w i).mem.ok := by
  unfold takeSwitch; dsimp only; (repeat' split) <;> simp (maxDischargeDepth := 60) [hok]

@[simp] theorem checkOverrun_memOk (s : State) (w t : Nat) (hok : s.mem.ok)  : (checkOverrun s w t).mem.ok := by
  exact memOk_of_frame rfl (checkOverrun_frame notMem _ _ _ rfl rfl) hok

@[simp] theorem setAtt_memOk (s : State) (b : Nat) (v : Bool) (hok : s.mem.ok)  : (setAtt s b v).mem.ok := by
  exact memOk_of_frame rfl (setAtt_frame notMem _ _ _ rfl) hok

@[simp] theorem setMr_memOk (s : State) (r : Nat) (bs : List Byte) (hok : s.mem.ok)  : (setMr s r bs).mem.ok := by
  exact memOk_of_frame rfl (setMr_frame notMem _ _ _ rfl) hok

@[simp] theorem extendMr_memOk (s : State) (r : Nat) (d : List Byte) (hok : s.mem.ok)  : (extendMr s r d).mem.ok := by
  exact memOk_of_frame rfl (extendMr_frame notMem _ _ _ rfl) hok

@[simp] theorem extendConfig_memOk (s : State) (kind slot parts conf turn : Nat) (hok : s.mem.ok)  : (extendConfig s kind slot parts conf turn).mem.ok := by
  exact memOk_of_frame rfl (extendConfig_frame notMem _ _ _ _ _ _ rfl) hok

@[simp] theorem setKeys_memOk (s : State) (k : Nat) (v : SlotKeys) (hok : s.mem.ok)  : (setKeys s k v).mem.ok := by
  exact memOk_of_frame rfl (setKeys_frame notMem _ _ _ rfl) hok

@[simp] theorem refreshConf_memOk (s : State) (hok : s.mem.ok)  : (refreshConf s).mem.ok := by
  exact memOk_of_frame rfl (refreshConf_frame notMem _ rfl) hok

@[simp] theorem slotField_memOk (s : State) (k hi lo v : Nat) (hok : s.mem.ok)  : (slotField s k hi lo v).mem.ok := by
  exact memOk_of_frame rfl (slotField_frame notMem _ _ _ _ _ rfl) hok

@[simp] theorem loadSlot_memOk (s : State) (k t : Nat) (hok : s.mem.ok)  : (loadSlot s k t).mem.ok := by
  exact memOk_of_frame rfl (loadSlot_frame notMem _ _ _ rfl rfl rfl) hok

@[simp] theorem haltGroup_memOk (s : State) (parts : Nat) (hok : s.mem.ok)  : (haltGroup s parts).mem.ok := by
  exact memOk_of_frame rfl (haltGroup_frame notMem _ _ rfl rfl) hok

@[simp] theorem stopPlans_memOk (s : State) (parts : Nat) (hok : s.mem.ok)  : (stopPlans s parts).mem.ok := by
  exact memOk_of_frame rfl (stopPlans_frame notMem _ _ rfl) hok

@[simp] theorem disableModels_memOk (s : State) (k parts : Nat) (hok : s.mem.ok)  : (disableModels s k parts).mem.ok := by
  exact memOk_of_frame rfl (disableModels_frame notMem _ _ _ rfl) hok

@[simp] theorem moveJobPin_memOk (s : State) (w0 w1 : Nat) (up : Bool) (hok : s.mem.ok)  : (moveJobPin s w0 w1 up).mem.ok := by
  exact memOk_of_frame rfl (moveJobPin_frame notMem _ _ _ _ rfl) hok

@[simp] theorem moveFpin_memOk (s : State) (w : Nat) (up : Bool) (hok : s.mem.ok)  : (moveFpin s w up).mem.ok := by
  exact memOk_of_frame rfl (moveFpin_frame notMem _ _ _ rfl) hok

@[simp] theorem clearJobPins_memOk (s : State) (p : Nat) (hok : s.mem.ok)  : (clearJobPins s p).mem.ok := by
  exact memOk_of_frame rfl (clearJobPins_frame notMem _ _ rfl) hok

@[simp] theorem dropFlights_memOk (s : State) (mine : Flight → Bool) (hok : s.mem.ok)  : (dropFlights s mine).mem.ok := by
  exact memOk_of_frame rfl (dropFlights_frame notMem _ _ rfl rfl rfl rfl) hok

@[simp] theorem dropCopies_memOk (s : State) (parts : Nat) (hok : s.mem.ok)  : (dropCopies s parts).mem.ok := by
  exact memOk_of_frame rfl (dropCopies_frame notMem _ _ rfl rfl) hok

@[simp] theorem dropGroup_memOk (s : State) (parts : Nat) (hok : s.mem.ok)  : (dropGroup s parts).mem.ok := by
  simp (maxDischargeDepth := 60) [dropGroup, hok]

@[simp] theorem dropRecords_memOk (s : State) (parts : Nat) (hok : s.mem.ok)  : (dropRecords s parts).mem.ok := by
  exact memOk_of_frame rfl (dropRecords_frame notMem _ _ rfl) hok

@[simp] theorem dropHeldReduces_memOk (s : State) (parts : Nat) (hok : s.mem.ok)  : (dropHeldReduces s parts).mem.ok := by
  exact memOk_of_frame rfl (dropHeldReduces_frame notMem _ _ rfl) hok

@[simp] theorem dropStorage_memOk (s : State) (k parts : Nat) (hok : s.mem.ok)  : (dropStorage s k parts).mem.ok := by
  exact memOk_of_frame rfl (dropStorage_frame notMem _ _ _ rfl rfl) hok

@[simp] theorem dropPool_memOk (s : State) (k : Nat) (hok : s.mem.ok)  : (dropPool s k).mem.ok := by
  unfold dropPool; (repeat' split) <;> simp_all (maxDischargeDepth := 60)

@[simp] theorem dropServing_memOk (s : State) (k parts : Nat) (hok : s.mem.ok)  : (dropServing s k parts).mem.ok := by
  unfold dropServing; (repeat' split) <;> simp_all (maxDischargeDepth := 60)

@[simp] theorem beginPart_memOk (s : State) (k t : Nat) (hok : s.mem.ok)  : (beginPart s k t).mem.ok := by
  unfold beginPart; (repeat' split) <;> simp_all (maxDischargeDepth := 60)

@[simp] theorem queueRegions_memOk (s : State) (k w : Nat) (hok : s.mem.ok)  : (queueRegions s k w).mem.ok := by
  exact memOk_of_frame rfl (queueRegions_frame notMem _ _ _ rfl rfl) hok

@[simp] theorem zeroRing_memOk (s : State) (n : Nat) (hok : s.mem.ok)  : (zeroRing s n).mem.ok := by
  exact memOk_of_frame rfl (zeroRing_frame notMem _ _ rfl rfl) hok

@[simp] theorem zeroise_memOk (s : State) (k : Nat) (hok : s.mem.ok)  : (zeroise s k).mem.ok := by
  unfold zeroise; (repeat' split) <;> simp_all (maxDischargeDepth := 60)

@[simp] theorem disableRegions_memOk (s : State) (k : Nat) (hok : s.mem.ok)  : (disableRegions s k).mem.ok := by
  exact memOk_of_frame rfl (disableRegions_frame notMem _ _ rfl) hok

@[simp] theorem makeQuote_memOk (s : State) (report : List Byte) (hok : s.mem.ok)  : (makeQuote s report).1.mem.ok := by
  exact memOk_of_frame rfl (makeQuote_frame notMem _ _ rfl rfl) hok

@[simp] theorem commitKey_memOk (ty : Nat) (s : State) (k : Nat) (hok : s.mem.ok)  : (commitKey ty s k).mem.ok := by
  exact memOk_of_frame rfl (commitKey_frame notMem _ _ _ rfl) hok

@[simp] theorem clearShots_memOk (ty : Nat) (s : State) (k : Nat) (hok : s.mem.ok)  : (clearShots ty s k).mem.ok := by
  exact memOk_of_frame rfl (clearShots_frame notMem _ _ _ rfl) hok

@[simp] theorem showDelay_memOk (s : State) (hok : s.mem.ok)  : (showDelay s).mem.ok := by
  exact memOk_of_frame rfl (showDelay_frame notMem _ rfl) hok

@[simp] theorem roleChanged_memOk (s0 s : State) (hok : s.mem.ok)  : (roleChanged s0 s).mem.ok := by
  exact memOk_of_frame rfl (roleChanged_frame notMem _ _ rfl rfl) hok

@[simp] theorem alarmChanged_memOk (s : State) (t : Nat) (hok : s.mem.ok)  : (alarmChanged s t).mem.ok := by
  exact memOk_of_frame rfl (alarmChanged_frame notMem _ _ rfl rfl) hok

@[simp] theorem applyTime_memOk (s0 s : State) (t : Nat) (hok : s.mem.ok)  : (applyTime s0 s t).mem.ok := by
  exact memOk_of_frame rfl (applyTime_frame notMem _ _ _ rfl rfl) hok

@[simp] theorem noteShares_memOk (s : State) (hok : s.mem.ok)  : (noteShares s).mem.ok := by
  exact memOk_of_frame rfl (noteShares_frame notMem _ rfl rfl) hok

@[simp] theorem applyOwn_memOk (s0 s : State) (t : Nat) (hok : s.mem.ok)  : (applyOwn s0 s t).mem.ok := by
  exact memOk_of_frame rfl (applyOwn_frame notMem _ _ _ rfl rfl) hok

@[simp] theorem applySlots_memOk (s : State) (ks : List Nat) (t : Nat) (hok : s.mem.ok)  : (applySlots s ks t).mem.ok := by
  unfold applySlots; (repeat' split) <;> simp_all (maxDischargeDepth := 60)

@[simp] theorem applyPower_memOk (s0 s : State) (hok : s.mem.ok)  : (applyPower s0 s).mem.ok := by
  exact memOk_of_frame rfl (applyPower_frame notMem _ _ rfl) hok

@[simp] theorem applyState_memOk (s : State) (hok : s.mem.ok)  : (applyState s).mem.ok := by
  exact memOk_of_frame rfl (applyState_frame notMem _ rfl) hok

@[simp] theorem applyPairing_memOk (s0 s : State) (hok : s.mem.ok)  : (applyPairing s0 s).mem.ok := by
  exact memOk_of_frame rfl (applyPairing_frame notMem _ _ rfl rfl) hok

@[simp] theorem startCopy_memOk (s : State) (c : TableCopy) (hok : s.mem.ok)  : (startCopy s c).mem.ok := by
  exact memOk_of_frame rfl (startCopy_frame notMem _ _ rfl rfl rfl) hok

@[simp] theorem applySeq_memOk (s0 s : State) (cl t : Nat) (hok : s.mem.ok)  : (applySeq s0 s cl t).mem.ok := by
  exact memOk_of_frame rfl (applySeq_frame notMem _ _ _ _ rfl rfl rfl) hok

@[simp] theorem applyLoss_memOk (s : State) (cl : Nat) (hok : s.mem.ok)  : (applyLoss s cl).mem.ok := by
  simp (maxDischargeDepth := 60) [applyLoss, hok]

@[simp] theorem applySnap_memOk (s : State) (cl t : Nat) (hok : s.mem.ok)  : (applySnap s cl t).mem.ok := by
  exact memOk_of_frame rfl (applySnap_frame notMem _ _ _ rfl) hok

@[simp] theorem applyCatch_memOk (s0 s : State) (w : Nat) (hok : s.mem.ok)  : (applyCatch s0 s w).mem.ok := by
  exact memOk_of_frame rfl (applyCatch_frame notMem _ _ _ rfl rfl) hok

@[simp] theorem applySand_memOk (s : State) (w : Nat) (hok : s.mem.ok)  : (applySand s w).mem.ok := by
  exact memOk_of_frame rfl (applySand_frame notMem _ _ rfl rfl) hok

@[simp] theorem applyMem_memOk (s0 s : State) (w t : Nat) (hok : s.mem.ok)  : (applyMem s0 s w t).mem.ok := by
  exact memOk_of_frame rfl (applyMem_frame notMem _ _ _ _ rfl rfl) hok

@[simp] theorem applySwitch_memOk (s0 s : State) (w : Nat) (hok : s.mem.ok)  : (applySwitch s0 s w).mem.ok := by
  exact memOk_of_frame rfl (applySwitch_frame notMem _ _ _ rfl) hok

@[simp] theorem newMode_memOk (s : State) (l : Nat) (hok : s.mem.ok)  : (newMode s l).mem.ok := by
  exact memOk_of_frame rfl (newMode_frame notMem _ _ rfl rfl rfl) hok

@[simp] theorem retrain_memOk (s : State) (l : Nat) (hok : s.mem.ok)  : (retrain s l).mem.ok := by
  exact memOk_of_frame rfl (retrain_frame notMem _ _ rfl rfl) hok

@[simp] theorem applyLink_memOk (s0 s : State) (l : Nat) (hok : s.mem.ok)  : (applyLink s0 s l).mem.ok := by
  exact memOk_of_frame rfl (applyLink_frame notMem _ _ _ rfl rfl rfl) hok

@[simp] theorem applyPins_memOk (s0 s : State) (hok : s.mem.ok)  : (applyPins s0 s).mem.ok := by
  exact memOk_of_frame rfl (applyPins_frame notMem _ _ rfl) hok

@[simp] theorem applyRings_memOk (s0 s : State) (keys : List Nat) (hok : s.mem.ok)  : (applyRings s0 s keys).mem.ok := by
  exact memOk_of_frame rfl (applyRings_frame notMem _ _ _ rfl) hok

@[simp] theorem applyPools_memOk (s0 s : State) (hok : s.mem.ok)  : (applyPools s0 s).mem.ok := by
  exact memOk_of_frame rfl (applyPools_frame notMem _ _ rfl) hok

@[simp] theorem applyPage_memOk (s0 s : State) (page ty inst t : Nat) (hok : s.mem.ok)  : (applyPage s0 s page ty inst t).mem.ok := by
  unfold applyPage; (repeat' split) <;> simp (maxDischargeDepth := 60) [hok]

@[simp] theorem noteRefused_memOk (s : State) (page ty inst turn : Nat) (r : Refuse) (hok : s.mem.ok)  : (noteRefused s page ty inst turn r).mem.ok := by
  exact memOk_of_frame rfl (noteRefused_frame notMem _ _ _ _ _ _ rfl rfl) hok

@[simp] theorem refuseCommit_memOk (s : State) (page ty inst : Nat) (c : Commit) (r : Refuse) (hok : s.mem.ok)  : (refuseCommit s page ty inst c r).mem.ok := by
  exact memOk_of_frame rfl (refuseCommit_frame notMem _ _ _ _ _ _ rfl rfl rfl rfl) hok

@[simp] theorem noteLate_memOk (s : State) (page ty inst t : Nat) (c : Commit) (hok : s.mem.ok)  : (noteLate s page ty inst t c).mem.ok := by
  exact memOk_of_frame rfl (noteLate_frame notMem _ _ _ _ _ _ rfl rfl) hok

@[simp] theorem takeCommit_memOk (s : State) (page ty inst t : Nat) (c : Commit) (hok : s.mem.ok)  : (takeCommit s page ty inst t c).mem.ok := by
  unfold takeCommit; (repeat' split) <;> simp_all (maxDischargeDepth := 60)

@[simp] theorem doCommit_memOk (s : State) (t : Nat) (c : Commit) (r : Option Refuse) (hok : s.mem.ok)  : (doCommit s t c r).mem.ok := by
  unfold doCommit; (repeat' split) <;> simp (maxDischargeDepth := 60) [hok]

@[simp] theorem commitStep_memOk (s : State) (t : Nat) (reached : Nat → Bool) (hok : s.mem.ok)  : (commitStep s t reached).mem.ok := by
  unfold commitStep; (repeat' split) <;> simp_all (maxDischargeDepth := 60)

@[simp] theorem postModel_memOk (s : State) (m cause op1 : Nat) (hok : s.mem.ok)  : (postModel s m cause op1).mem.ok := by
  exact memOk_of_frame rfl (postModel_frame notMem _ _ _ _ rfl rfl) hok

@[simp] theorem refusePub_memOk (s : State) (m st hold why : Nat) (hok : s.mem.ok)  : (refusePub s m st hold why).mem.ok := by
  exact memOk_of_frame rfl (refusePub_frame notMem _ _ _ _ _ rfl rfl) hok

@[simp] theorem movePub_memOk (s : State) (cur prev pinsCur pinsPrev new : Nat) (hok : s.mem.ok)  : (movePub s cur prev pinsCur pinsPrev new).mem.ok := by
  exact memOk_of_frame rfl (movePub_frame notMem _ _ _ _ _ _ rfl) hok

@[simp] theorem publishBase_memOk (s : State) (m : Nat) (hok : s.mem.ok)  : (publishBase s m).mem.ok := by
  exact memOk_of_frame rfl (publishBase_frame notMem _ _ rfl rfl) hok

@[simp] theorem publishAdapter_memOk (s : State) (m a : Nat) (hok : s.mem.ok)  : (publishAdapter s m a).mem.ok := by
  exact memOk_of_frame rfl (publishAdapter_frame notMem _ _ _ rfl rfl) hok

@[simp] theorem publications_memOk (s : State) (hok : s.mem.ok)  : (publications s).mem.ok := by
  exact memOk_of_frame rfl (publications_frame notMem _ rfl rfl) hok

@[simp] theorem retireBlanks_memOk (s : State) (hok : s.mem.ok)  : (retireBlanks s).mem.ok := by
  exact memOk_of_frame rfl (retireBlanks_frame notMem _ rfl rfl) hok

@[simp] theorem beginEntry_memOk (s : State) (hok : s.mem.ok)  : (beginEntry s).mem.ok := by
  exact memOk_of_frame rfl (beginEntry_frame notMem _ rfl rfl) hok

@[simp] theorem setRcl_memOk (s : State) (v : Nat) (hok : s.mem.ok)  : (setRcl s v).mem.ok := by
  exact memOk_of_frame rfl (setRcl_frame notMem _ _ rfl) hok

@[simp] theorem postRcl_memOk (s : State) (cause op1 mask : Nat) (hok : s.mem.ok)  : (postRcl s cause op1 mask).mem.ok := by
  exact memOk_of_frame rfl (postRcl_frame notMem _ _ _ _ rfl rfl) hok

@[simp] theorem showStep_memOk (s : State) (hok : s.mem.ok)  : (showStep s).mem.ok := by
  exact memOk_of_frame rfl (showStep_frame notMem _ rfl) hok

@[simp] theorem startParting_memOk (s : State) (hok : s.mem.ok)  : (startParting s).mem.ok := by
  exact memOk_of_frame rfl (startParting_frame notMem _ rfl rfl) hok

@[simp] theorem stopDie_memOk (s : State) (d : Nat) (hok : s.mem.ok)  : (stopDie s d).mem.ok := by
  exact memOk_of_frame rfl (stopDie_frame notMem _ _ rfl) hok

@[simp] theorem stopReclaimed_memOk (s : State) (t : Nat) (reached : Nat → Bool) (hok : s.mem.ok)  : (stopReclaimed s t reached).mem.ok := by
  exact memOk_of_frame rfl (stopReclaimed_frame notMem _ _ _ rfl rfl) hok

@[simp] theorem partReclaimed_memOk (s : State) (t : Nat) (hok : s.mem.ok)  : (partReclaimed s t).mem.ok := by
  unfold partReclaimed; (repeat' split) <;> simp (maxDischargeDepth := 60) [hok]

@[simp] theorem reclaimDeadline_memOk (s : State) (t : Nat) (hok : s.mem.ok)  : (reclaimDeadline s t).mem.ok := by
  exact memOk_of_frame rfl (reclaimDeadline_frame notMem _ _ rfl rfl rfl) hok

@[simp] theorem passToServing_memOk (s : State) (mask : Nat) (hok : s.mem.ok)  : (passToServing s mask).mem.ok := by
  exact memOk_of_frame rfl (passToServing_frame notMem _ _ rfl) hok

@[simp] theorem passOver_memOk (s : State) (hok : s.mem.ok)  : (passOver s).mem.ok := by
  exact memOk_of_frame rfl (passOver_frame notMem _ rfl rfl rfl) hok

@[simp] theorem handOver_memOk (s0 s : State) (hok : s.mem.ok)  : (handOver s0 s).mem.ok := by
  exact memOk_of_frame rfl (handOver_frame notMem _ _ rfl rfl rfl) hok

@[simp] theorem failReclaim_memOk (s : State) (hok : s.mem.ok)  : (failReclaim s).mem.ok := by
  exact memOk_of_frame rfl (failReclaim_frame notMem _ rfl rfl) hok

@[simp] theorem abandonTransfers_memOk (s : State) (hok : s.mem.ok)  : (abandonTransfers s).mem.ok := by
  exact memOk_of_frame rfl (abandonTransfers_frame notMem _ rfl rfl rfl rfl rfl rfl) hok

@[simp] theorem withdrawCommits_memOk (s : State) (hok : s.mem.ok)  : (withdrawCommits s).mem.ok := by
  exact memOk_of_frame rfl (withdrawCommits_frame notMem _ rfl rfl) hok

@[simp] theorem beginDump_memOk (s : State) (cause die : Nat) (hok : s.mem.ok)  : (beginDump s cause die).mem.ok := by
  exact memOk_of_frame rfl (beginDump_frame notMem _ _ _ rfl rfl) hok

@[simp] theorem raiseCatch_memOk (s : State) (cause die : Nat) (hok : s.mem.ok)  : (raiseCatch s cause die).mem.ok := by
  exact memOk_of_frame rfl (raiseCatch_frame notMem _ _ _ rfl rfl rfl rfl rfl rfl rfl rfl) hok

@[simp] theorem putGddr_memOk (s : State) (a : Nat) (bs : List Byte) (hok : s.mem.ok)  : (putGddr s a bs).mem.ok := by
  unfold putGddr; exact ⟨hok.ns, canon_ssetAll _ hok.gddr _, hok.table⟩

@[simp] theorem writeSections_memOk (s : State) (p t0 dies : Nat) (hok : s.mem.ok)  : (writeSections s p t0 dies).mem.ok := by
  unfold writeSections; (repeat' split) <;> simp_all (maxDischargeDepth := 60)

@[simp] theorem writeExtension_memOk (s : State) (p : Nat) (hok : s.mem.ok)  : (writeExtension s p).mem.ok := by
  unfold writeExtension; (repeat' split) <;> simp_all (maxDischargeDepth := 60)

@[simp] theorem writeShare_memOk (s : State) (p cause t0 dies : Nat) (hok : s.mem.ok)  : (writeShare s p cause t0 dies).mem.ok := by
  simp (maxDischargeDepth := 60) [writeShare, hok]

@[simp] theorem writeReduced_memOk (s : State) (cause t0 dies : Nat) (hok : s.mem.ok)  : (writeReduced s cause t0 dies).mem.ok := by
  exact memOk_of_frame rfl (writeReduced_frame notMem _ _ _ _ rfl) hok

@[simp] theorem writeOwn_memOk (s : State) (d : Nat) (hok : s.mem.ok)  : (writeOwn s d).mem.ok := by
  unfold writeOwn; (repeat' split) <;> simp_all (maxDischargeDepth := 60)

@[simp] theorem setTries_memOk (s : State) (d n : Nat) (hok : s.mem.ok)  : (setTries s d n).mem.ok := by
  exact memOk_of_frame rfl (setTries_frame notMem _ _ _ rfl) hok

@[simp] theorem goDark_memOk (s : State) (hok : s.mem.ok)  : (goDark s).mem.ok := by
  exact memOk_of_frame rfl (goDark_frame notMem _ rfl rfl rfl rfl) hok

@[simp] theorem leaveRest_memOk (s : State) (hok : s.mem.ok)  : (leaveRest s).mem.ok := by
  unfold leaveRest
  have hf : ∀ s : State, s.mem.ok → ((List.range 24).foldl (fun s l =>
      if wantedMode s l = 0 ∨ fenced s l then s else setField s (linkReg l Reg.LINK_STATE) 2 0 1) s).mem.ok := by
    intro s hs
    refine foldl_memOk _ ?_ _ _ hs
    intro s a hs; split
    · exact hs
    · exact setField_memOk _ _ _ _ _ hs
  have h1 : ((enabledProgs s).foldl (fun s e => haltProg s e.1 e.2 5) s).mem.ok :=
    foldl_memOk _ (fun s a hs => haltProg_memOk _ _ _ _ hs) _ _ hok
  have h2 := (setFt_memOk _ 0 false h1).gddr
  refine setField_memOk _ _ _ _ _ (hf _ ⟨canon_nil _, ?_, canon_nil _⟩)
  exact h2

@[simp] theorem reachRun_memOk (s : State) (hok : s.mem.ok)  : (reachRun s).mem.ok := by
  simp (maxDischargeDepth := 60) [reachRun, hok]

@[simp] theorem setStep_memOk (s : State) (n : Nat) (hok : s.mem.ok)  : (setStep s n).mem.ok := by
  exact memOk_of_frame rfl (setStep_frame notMem _ _ rfl) hok

@[simp] theorem bootFail_memOk (s : State) (code die : Nat) (hok : s.mem.ok)  : (bootFail s code die).mem.ok := by
  exact memOk_of_frame rfl (bootFail_frame notMem _ _ _ rfl) hok

@[simp] theorem startUp_memOk (s : State) (hok : s.mem.ok)  : (startUp s).mem.ok := by
  exact memOk_of_frame rfl (startUp_frame notMem _ rfl rfl) hok

@[simp] theorem coldState_memOk (s : State) (good : Bool) (hok : s.mem.ok)  : (coldState s good).mem.ok := by
  unfold coldState; dsimp only; split
  · exact ⟨canon_nil _, canon_nil _, canon_nil _⟩
  · exact ⟨canon_nil _, canon_nil _, canon_nil _⟩

@[simp] theorem warmState_memOk (s : State) (hok : s.mem.ok)  : (warmState s).mem.ok := by
  have hc : ∀ (x : State), x.mem.gddr = s.mem.gddr → x.mem.ns = [] → x.mem.table = [] → x.mem.ok := by
    intro x h1 h2 h3
    exact ⟨by rw [h2]; exact canon_nil _, by rw [h1]; exact hok.gddr, by rw [h3]; exact canon_nil _⟩
  unfold warmState; dsimp only; split
  · exact setField_memOk _ _ _ _ _ (hc _ rfl rfl rfl)
  · exact hc _ rfl rfl rfl

@[simp] theorem runImage_memOk (s : State) (hok : s.mem.ok)  : (runImage s).mem.ok := by
  exact memOk_of_frame rfl (runImage_frame notMem _ rfl) hok

@[simp] theorem serveRecovery_memOk (s : State) (hok : s.mem.ok)  : (serveRecovery s).mem.ok := by
  exact memOk_of_frame rfl (serveRecovery_frame notMem _ rfl rfl) hok

@[simp] theorem enterRecovery_memOk (s : State) (hok : s.mem.ok)  : (enterRecovery s).mem.ok := by
  exact memOk_of_frame rfl (enterRecovery_frame notMem _ rfl rfl) hok

@[simp] theorem endStep3_memOk (s : State) (hok : s.mem.ok)  : (endStep3 s).mem.ok := by
  exact memOk_of_frame rfl (endStep3_frame notMem _ rfl rfl) hok

@[simp] theorem deriveKey_memOk (s : State) (hok : s.mem.ok)  : (deriveKey s).mem.ok := by
  exact memOk_of_frame rfl (deriveKey_frame notMem _ rfl) hok

@[simp] theorem loadOffsets_memOk (s : State) (hok : s.mem.ok)  : (loadOffsets s).mem.ok := by
  exact memOk_of_frame rfl (loadOffsets_frame notMem _ rfl rfl) hok

@[simp] theorem trimRails_memOk (s : State) (hok : s.mem.ok)  : (trimRails s).mem.ok := by
  exact memOk_of_frame rfl (trimRails_frame notMem _ rfl) hok

@[simp] theorem endStep4_memOk (s : State) (hok : s.mem.ok)  : (endStep4 s).mem.ok := by
  exact memOk_of_frame rfl (endStep4_frame notMem _ rfl rfl rfl rfl rfl) hok

@[simp] theorem withholdPart_memOk (s : State) (p : Nat) (hok : s.mem.ok)  : (withholdPart s p).mem.ok := by
  exact memOk_of_frame rfl (withholdPart_frame notMem _ _ rfl) hok

@[simp] theorem showFailedDie_memOk (s : State) (d : Nat) (hok : s.mem.ok)  : (showFailedDie s d).mem.ok := by
  exact memOk_of_frame rfl (showFailedDie_frame notMem _ _ rfl) hok

@[simp] theorem loseMDie_memOk (s : State) (p : Nat) (hok : s.mem.ok)  : (loseMDie s p).mem.ok := by
  exact memOk_of_frame rfl (loseMDie_frame notMem _ _ rfl) hok

@[simp] theorem darkODie_memOk (s : State) (d : Nat) (hok : s.mem.ok)  : (darkODie s d).mem.ok := by
  exact memOk_of_frame rfl (darkODie_frame notMem _ _ rfl rfl) hok

@[simp] theorem postFailed_memOk (s : State) (d : Nat) (hok : s.mem.ok)  : (postFailed s d).mem.ok := by
  exact memOk_of_frame rfl (postFailed_frame notMem _ _ rfl rfl rfl) hok

@[simp] theorem failDie_memOk (s : State) (code d : Nat) (hok : s.mem.ok)  : (failDie s code d).mem.ok := by
  exact memOk_of_frame rfl (failDie_frame notMem _ _ _ rfl rfl rfl rfl) hok

@[simp] theorem endStep5_memOk (s : State) (x : StepEnd) (hok : s.mem.ok)  : (endStep5 s x).mem.ok := by
  exact memOk_of_frame rfl (endStep5_frame notMem _ _ rfl rfl rfl rfl) hok

@[simp] theorem failEdge_memOk (s : State) (d : Nat) (hok : s.mem.ok)  : (failEdge s d).mem.ok := by
  exact memOk_of_frame rfl (failEdge_frame notMem _ _ rfl rfl rfl) hok

@[simp] theorem disablePrograms_memOk (s : State) (hok : s.mem.ok)  : (disablePrograms s).mem.ok := by
  exact memOk_of_frame rfl (disablePrograms_frame notMem _ rfl rfl) hok

@[simp] theorem endStep6_memOk (s : State) (x : StepEnd) (hok : s.mem.ok)  : (endStep6 s x).mem.ok := by
  unfold endStep6
  extract_lets ds s1 s2 m3 s3 s4
  have h1 : s1.mem.ok := foldl_memOk _ (fun s a hs => failDie_memOk _ _ _ hs) _ _ hok
  have h2 : s2.mem.ok := foldl_memOk _ (fun s a hs => failEdge_memOk _ _ hs) _ _ h1
  have h3 : s3.mem.ok := ⟨canon_nil _, h2.gddr, canon_nil _⟩
  have h4 : s4.mem.ok := disablePrograms_memOk _ h3
  split
  · exact h4
  · exact setStep_memOk _ _ h4

@[simp] theorem openWindow_memOk (s : State) (w live : Nat) (clamshell : Bool) (hok : s.mem.ok)  : (openWindow s w live clamshell).mem.ok := by
  exact memOk_of_frame rfl (openWindow_frame notMem _ _ _ _ rfl rfl rfl) hok

@[simp] theorem endStep7_memOk (s : State) (x : StepEnd) (hok : s.mem.ok)  : (endStep7 s x).mem.ok := by
  exact memOk_of_frame rfl (endStep7_frame notMem _ _ rfl rfl rfl) hok

@[simp] theorem endStep8_memOk (s : State) (x : StepEnd) (hok : s.mem.ok)  : (endStep8 s x).mem.ok := by
  exact memOk_of_frame rfl (endStep8_frame notMem _ _ rfl rfl rfl rfl rfl) hok

@[simp] theorem putDefault_memOk (s : State) (item key hi lo : Nat) (hok : s.mem.ok)  : (putDefault s item key hi lo).mem.ok := by
  exact memOk_of_frame rfl (putDefault_frame notMem _ _ _ _ _ rfl) hok

@[simp] theorem commitDefaults_memOk (s : State) (hok : s.mem.ok)  : (commitDefaults s).mem.ok := by
  exact memOk_of_frame rfl (commitDefaults_frame notMem _ rfl) hok

@[simp] theorem answerRecovery_memOk (s : State) (tag status : Nat) (hok : s.mem.ok)  : (answerRecovery s tag status).mem.ok := by
  exact memOk_of_frame rfl (answerRecovery_frame notMem _ _ _ rfl) hok

@[simp] theorem withRecovery_memOk (s : State) (h : PortHead) (k : State → Nat → Nat → State) (hok : s.mem.ok) (h_k : ∀ (x0 : State) (x1 : Nat) (x2 : Nat), x0.mem.ok → (k x0 x1 x2).mem.ok) : (withRecovery s h k).mem.ok := by
  unfold withRecovery
  refine withPort_memOk _ _ _ _ hok ?_
  intro s hs
  split
  · simp (maxDischargeDepth := 60) [hs]
  · exact h_k _ _ _ hs

@[simp] theorem sbRead_memOk (s : State) (i : Nat) (hok : s.mem.ok)  : (sbRead s i).1.mem.ok := by
  exact memOk_of_frame rfl (sbRead_frame notMem _ _ rfl) hok

@[simp] theorem loadTap_memOk (s : State) (i : TapInstr) (data : Nat) (hok : s.mem.ok)  : (loadTap s i data).mem.ok := by
  exact memOk_of_frame rfl (loadTap_frame notMem _ _ _ rfl) hok

@[simp] theorem readWords_memOk (s : State) (addr n : Nat) (hok : s.mem.ok)  : (readWords s addr n).1.mem.ok := by
  exact memOk_of_frame rfl (readWords_frame notMem _ _ _ rfl) hok

@[simp] theorem writeWords_memOk (s : State) (addr : Nat) (ws : List Nat) (hok : s.mem.ok)  : (writeWords s addr ws).1.mem.ok := by
  exact memOk_of_frame rfl (writeWords_frame notMem _ _ _ rfl rfl rfl rfl rfl rfl rfl rfl rfl rfl) hok

@[simp] theorem armPage_memOk (s : State) (page : Nat) (t : Option Nat) (hok : s.mem.ok)  : (armPage s page t).mem.ok := by
  exact memOk_of_frame rfl (armPage_frame notMem _ _ _ rfl rfl) hok

@[simp] theorem commitFor_memOk (s : State) (tag op page turn : Nat) (write : State → State) (hok : s.mem.ok) (h_write : ∀ (x0 : State), x0.mem.ok → (write x0).mem.ok) : (commitFor s tag op page turn write).mem.ok := by
  simp (maxDischargeDepth := 60) [commitFor, hok, h_write]

@[simp] theorem setPairBit_memOk (s : State) (b : Nat) (v : Bool) (hok : s.mem.ok)  : (setPairBit s b v).mem.ok := by
  exact memOk_of_frame rfl (setPairBit_frame notMem _ _ _ rfl) hok

@[simp] theorem addIdle_memOk (s : State) (cl c n : Nat) (hok : s.mem.ok)  : (addIdle s cl c n).mem.ok := by
  exact memOk_of_frame rfl (addIdle_frame notMem _ _ _ _ rfl) hok

@[simp] theorem chargeCluster_memOk (s : State) (c : Charge) (hok : s.mem.ok)  : (chargeCluster s c).mem.ok := by
  exact memOk_of_frame rfl (chargeCluster_frame notMem _ _ rfl) hok

@[simp] theorem chargeIdle_memOk (s : State) (cs : List Charge) (hok : s.mem.ok)  : (chargeIdle s cs).mem.ok := by
  exact memOk_of_frame rfl (chargeIdle_frame notMem _ _ rfl) hok

@[simp] theorem takeSnaps_memOk (s : State) (t : Nat) (reached : Nat → Bool) (hok : s.mem.ok)  : (takeSnaps s t reached).mem.ok := by
  exact memOk_of_frame rfl (takeSnaps_frame notMem _ _ _ rfl rfl) hok

@[simp] theorem reach_memOk (s : State) (d t : Nat) (hok : s.mem.ok)  : (reach s d t).mem.ok := by
  exact memOk_of_frame rfl (reach_frame notMem _ _ _ rfl rfl) hok

@[simp] theorem strobe_memOk (s : State) (t : Nat) (reached : Nat → Bool) (hok : s.mem.ok)  : (strobe s t reached).mem.ok := by
  exact memOk_of_frame rfl (strobe_frame notMem _ _ _ rfl rfl rfl) hok

@[simp] theorem releaseTurns_memOk (s : State) (t : Nat) (reached : Nat → Bool) (hok : s.mem.ok)  : (releaseTurns s t reached).mem.ok := by
  exact memOk_of_frame rfl (releaseTurns_frame notMem _ _ _ rfl rfl) hok

@[simp] theorem timeoutTokens_memOk (s : State) (reached : Nat → Bool) (hok : s.mem.ok)  : (timeoutTokens s reached).mem.ok := by
  exact memOk_of_frame rfl (timeoutTokens_frame notMem _ _ rfl rfl rfl) hok

@[simp] theorem expireParked_memOk (s : State) (t : Nat) (hok : s.mem.ok)  : (expireParked s t).mem.ok := by
  unfold expireParked; (repeat' split) <;> simp_all (maxDischargeDepth := 60)

@[simp] theorem updateVarm_memOk (s : State) (t : Nat) (hok : s.mem.ok)  : (updateVarm s t).mem.ok := by
  exact memOk_of_frame rfl (updateVarm_frame notMem _ _ rfl) hok

@[simp] theorem headBoundary_memOk (s : State) (t : Nat) (hok : s.mem.ok)  : (headBoundary s t).mem.ok := by
  exact memOk_of_frame rfl (headBoundary_frame notMem _ _ rfl rfl rfl rfl) hok

@[simp] theorem planDeadlines_memOk (s : State) (t : Nat) (reached : Nat → Bool) (hok : s.mem.ok)  : (planDeadlines s t reached).mem.ok := by
  exact memOk_of_frame rfl (planDeadlines_frame notMem _ _ _ rfl rfl) hok

@[simp] theorem boundary_memOk (s : State) (t : Nat) (reached : Nat → Bool) (hok : s.mem.ok)  : (boundary s t reached).mem.ok := by
  unfold boundary; (repeat' split) <;> simp_all (maxDischargeDepth := 60)

@[simp] theorem commitRow_memOk (s : State) (page : Nat) (mine : Bool) (hok : s.mem.ok)  : (commitRow s page mine).mem.ok := by
  unfold commitRow; (repeat' split) <;> simp (maxDischargeDepth := 60) [hok]

@[simp] theorem takeWake_memOk (s : State) (l : Nat) (f : Frame) (hok : s.mem.ok)  : (takeWake s l f).mem.ok := by
  exact memOk_of_frame rfl (takeWake_frame notMem _ _ _ rfl rfl rfl rfl rfl) hok

@[simp] theorem deliverFrame_memOk (s : State) (l : Nat) (f : Frame) (tagOk : Bool) (hok : s.mem.ok)  : (deliverFrame s l f tagOk).mem.ok := by
  unfold deliverFrame; (repeat' split) <;> simp (maxDischargeDepth := 60) [hok]

@[simp] theorem dropRx_memOk (s : State) (l : Nat) (f : Frame) (hok : s.mem.ok)  : (dropRx s l f).mem.ok := by
  exact memOk_of_frame rfl (dropRx_frame notMem _ _ _ rfl) hok

@[simp] theorem written_memOk (s : State) (m : Master) (a v : Nat) (hok : s.mem.ok)  : (written s m a v).mem.ok := by
  exact memOk_of_frame rfl (written_frame notMem _ _ _ _ rfl rfl rfl rfl rfl rfl rfl rfl rfl rfl) hok

@[simp] theorem serveImages_memOk (s : State) (hok : s.mem.ok)  : (serveImages s).mem.ok := by
  unfold serveImages; dsimp only
  refine foldl_memOk _ (fun s a hs => askImage_memOk _ _ hs) _ _ ?_
  have h1 : (s.seq.flights.foldl (fun s f =>
      match f.work with
      | .gather g => (g.srcs.filter fun x => x.pkg == selfId s && !x.done).foldl (fun s x => gatherLocal s f.id x) s
      | _ => s) s).mem.ok := by
    refine foldl_memOk _ ?_ _ _ hok
    intro s a hs; split
    · exact foldl_memOk _ (fun s a hs => gatherLocal_memOk _ _ _ hs) _ _ hs
    · exact hs
  exact h1

@[simp] theorem serveFetches_memOk (s : State) (hok : s.mem.ok)  : (serveFetches s).mem.ok := by
  unfold serveFetches; (repeat' split) <;> simp_all (maxDischargeDepth := 60)

@[simp] theorem serveLoads_memOk (s : State) (hok : s.mem.ok)  : (serveLoads s).mem.ok := by
  unfold serveLoads; (repeat' split) <;> simp_all (maxDischargeDepth := 60)

@[simp] theorem serveHeld_memOk (s : State) (hok : s.mem.ok)  : (serveHeld s).mem.ok := by
  simp (maxDischargeDepth := 60) [serveHeld, hok]

end Sys2Proof.Machine
end

