-- ==== Sys2Proof/Laws/Registers.lean ====
section
/-! SUPPORT. Every operation over the register file keeps its canonical form (keys strictly rising, no entry equal to
its reset value), and so does every operation that runs one. -/

namespace Sys2Proof.Machine

/-- The values in effect and the shadows in canonical form. -/
structure RegState.ok (r : RegState) : Prop where
  live : Canon resetOf r.live
  shadow : Canon resetOf r.shadow

/-- The parts without the registers. -/
def notRegs : Parts :=
  ⟨true, true, false, true, true, true, true, true, true, true, true, true, true, true, true, true, true, true, true, true,
    true, true, true, true, true, true, true⟩

/-- What leaves the registers as they were keeps their form. -/
theorem regsOk_of_frame {ps : Parts} {s t : State} (hp : ps = notRegs) (hf : t.outside ps = s.outside ps) (h : s.regs.ok) :
    t.regs.ok := by
  subst hp
  have hm : (t.outside notRegs).regs = (s.outside notRegs).regs := by rw [hf]
  simp only [State.outside, notRegs, cond_false] at hm
  rw [hm]; exact h

@[simp] theorem regsOk_live {r : RegState} (h : r.ok) {x : List (Nat × Nat)} (hx : Canon resetOf x) : RegState.ok { r with live := x } := ⟨hx, h.shadow⟩
@[simp] theorem regsOk_shadow {r : RegState} (h : r.ok) {x : List (Nat × Nat)} (hx : Canon resetOf x) : RegState.ok { r with shadow := x } := ⟨h.live, hx⟩
@[simp] theorem regsOk_rest {r : RegState} (h : r.ok) {x : List (Nat × Nat)} {c : List Commit} : RegState.ok { r with latch := x, commits := c } := ⟨h.live, h.shadow⟩


@[simp] theorem regsOk_ite (c : Prop) [Decidable c] (a b : State) (ha : a.regs.ok) (hb : b.regs.ok) : (if c then a else b).regs.ok := by split <;> assumption

@[simp] theorem regsOk_fst_ite {α : Type} (c : Prop) [Decidable c] (a b : State × α) (ha : a.1.regs.ok) (hb : b.1.regs.ok) : (if c then a else b).1.regs.ok := by
  split <;> assumption

@[simp] theorem foldl_regsOk {α : Type} (f : State → α → State) (h : ∀ s a, s.regs.ok → (f s a).regs.ok) (l : List α) (s : State) (hs : s.regs.ok) :
    (l.foldl f s).regs.ok := by
  induction l generalizing s with
  | nil => exact hs
  | cons a l ih => exact ih _ (h _ _ hs)

@[simp] theorem foldl_attn_regsOk {α : Type} (f : AttnRun → α → AttnRun) (h : ∀ s a, s.state.regs.ok → (f s a).state.regs.ok)
    (l : List α) (s : AttnRun) (hs : s.state.regs.ok) : (l.foldl f s).state.regs.ok := by
  induction l generalizing s with
  | nil => exact hs
  | cons a l ih => exact ih _ (h _ _ hs)

@[simp] theorem foldl_fst_regsOk {α β : Type} (f : State × β → α → State × β) (h : ∀ s a, s.1.regs.ok → (f s a).1.regs.ok)
    (l : List α) (s : State × β) (hs : s.1.regs.ok) : (l.foldl f s).1.regs.ok := by
  induction l generalizing s with
  | nil => exact hs
  | cons a l ih => exact ih _ (h _ _ hs)

set_option linter.unusedSimpArgs false
set_option linter.unusedVariables false


@[simp] theorem setReg_regsOk (s : State) (k v : Nat) (hok : s.regs.ok)  : (setReg s k v).regs.ok := by
  exact ⟨canon_sset _ hok.live _ _, hok.shadow⟩

@[simp] theorem setShd_regsOk (s : State) (k v : Nat) (hok : s.regs.ok)  : (setShd s k v).regs.ok := by
  exact ⟨hok.live, canon_sset _ hok.shadow _ _⟩

@[simp] theorem setBoth_regsOk (s : State) (k v : Nat) (hok : s.regs.ok)  : (setBoth s k v).regs.ok := by
  simp (maxDischargeDepth := 60) [setBoth, hok]

@[simp] theorem setReg64_regsOk (s : State) (k v : Nat) (hok : s.regs.ok)  : (setReg64 s k v).regs.ok := by
  simp (maxDischargeDepth := 60) [setReg64, hok]

@[simp] theorem incReg_regsOk (s : State) (k n : Nat) (hok : s.regs.ok)  : (incReg s k n).regs.ok := by
  simp (maxDischargeDepth := 60) [incReg, hok]

@[simp] theorem incReg64_regsOk (s : State) (k w n : Nat) (hok : s.regs.ok)  : (incReg64 s k w n).regs.ok := by
  simp (maxDischargeDepth := 60) [incReg64, hok]

@[simp] theorem setField_regsOk (s : State) (k hi lo v : Nat) (hok : s.regs.ok)  : (setField s k hi lo v).regs.ok := by
  simp (maxDischargeDepth := 60) [setField, hok]

@[simp] theorem setFieldBoth_regsOk (s : State) (k hi lo v : Nat) (hok : s.regs.ok)  : (setFieldBoth s k hi lo v).regs.ok := by
  simp (maxDischargeDepth := 60) [setFieldBoth, hok]

@[simp] theorem setAlert_regsOk (s : State) (d : Nat) (b : Bool) (hok : s.regs.ok)  : (setAlert s d b).regs.ok := by
  simp (maxDischargeDepth := 60) [setAlert, hok]

@[simp] theorem setEvent_regsOk (s : State) (page b : Nat) (hok : s.regs.ok)  : (setEvent s page b).regs.ok := by
  simp (maxDischargeDepth := 60) [setEvent, hok]

@[simp] theorem updateAlert_regsOk (s : State) (page : Nat) (hok : s.regs.ok)  : (updateAlert s page).regs.ok := by
  simp (maxDischargeDepth := 60) [updateAlert, hok]

@[simp] theorem noteError_regsOk (s : State) (page : Nat) (hok : s.regs.ok)  : (noteError s page).regs.ok := by
  simp (maxDischargeDepth := 60) [noteError, hok]

@[simp] theorem fresh_regsOk (s : State) (hok : s.regs.ok)  : (fresh s).1.regs.ok := by
  exact regsOk_of_frame rfl (fresh_frame notRegs _ rfl) hok

@[simp] theorem post_regsOk (s : State) (page : Nat) (e : Event) (hok : s.regs.ok)  : (post s page e).regs.ok := by
  simp (maxDischargeDepth := 60) [post, hok]

@[simp] theorem postOf_regsOk (s : State) (page cause op1 : Nat) (hok : s.regs.ok)  : (postOf s page cause op1).regs.ok := by
  simp (maxDischargeDepth := 60) [postOf, hok]

@[simp] theorem postCtx_regsOk (s : State) (c : Ctx) (cause op1 : Nat) (hok : s.regs.ok)  : (postCtx s c cause op1).regs.ok := by
  simp (maxDischargeDepth := 60) [postCtx, hok]

@[simp] theorem nsNote_regsOk (s : State) (c : Ctx) (lines : List Nat) (hok : s.regs.ok)  : (nsNote s c lines).regs.ok := by
  unfold nsNote; dsimp only; (repeat' split) <;> simp (maxDischargeDepth := 60) [hok]

@[simp] theorem nsClaim_regsOk (s : State) (slot : Option Nat) (a : Nat) (hok : s.regs.ok)  : (nsClaim s slot a).regs.ok := by
  exact regsOk_of_frame rfl (nsClaim_frame notRegs _ _ _ rfl) hok

@[simp] theorem nsWrite_regsOk (s : State) (c : Ctx) (ws : List (Nat × Byte)) (hok : s.regs.ok)  : (nsWrite s c ws).regs.ok := by
  unfold nsWrite
  split
  · exact hok
  · rename_i w0 tl
    have h1 : (((((w0 :: tl).map fun (w : Nat × Byte) => w.1).map fun a => a / 256 * 256).eraseDups).foldl (fun s a => nsClaim s c.slot a) s).regs.ok :=
      foldl_regsOk _ (fun s a hs => nsClaim_regsOk s _ _ hs) _ _ hok
    dsimp only
    generalize List.foldl _ _ _ = s1 at *
    have h2 : ∀ k n, (incReg s1 k n).regs.ok := fun k n => incReg_regsOk _ _ _ h1
    split
    · exact h2 _ _
    · refine post_regsOk _ _ _ (setReg_regsOk _ _ _ (setReg_regsOk _ _ _ (incReg_regsOk _ _ _ ?_)))
      exact h2 _ _

@[simp] theorem nsWriteRun_regsOk (s : State) (c : Ctx) (a : Nat) (bs : List Byte) (hok : s.regs.ok)  : (nsWriteRun s c a bs).regs.ok := by
  simp (maxDischargeDepth := 60) [nsWriteRun, hok]

@[simp] theorem nsWriteImage_regsOk (s : State) (c : Ctx) (cl k l : Nat) (ws : List ByteWrite) (hok : s.regs.ok)  : (nsWriteImage s c cl k l ws).regs.ok := by
  simp (maxDischargeDepth := 60) [nsWriteImage, hok]

@[simp] theorem gNote_regsOk (s : State) (c : Ctx) (a n : Nat) (hok : s.regs.ok)  : (gNote s c a n).regs.ok := by
  unfold gNote; dsimp only; (repeat' split) <;> simp (maxDischargeDepth := 60) [hok]

@[simp] theorem countRefused_regsOk (s : State) (k : Nat) (hok : s.regs.ok)  : (countRefused s k).regs.ok := by
  simp (maxDischargeDepth := 60) [countRefused, hok]

@[simp] theorem postRefusal_regsOk (s : State) (c : Ctx) (a : Nat) (r : Nat × Option Nat) (hok : s.regs.ok)  : (postRefusal s c a r).regs.ok := by
  unfold postRefusal; (repeat' split) <;> simp (maxDischargeDepth := 60) [hok]

@[simp] theorem gStore_regsOk (s : State) (c : Ctx) (a : Nat) (bs : List Byte) (hok : s.regs.ok)  : (gStore s c a bs).regs.ok := by
  unfold gStore
  dsimp only
  split
  · refine incReg_regsOk _ _ _ (incReg_regsOk _ _ _ ?_)
    exact hok
  · refine post_regsOk _ _ _ (incReg_regsOk _ _ _ (incReg_regsOk _ _ _ ?_))
    exact hok

@[simp] theorem gWrite_regsOk (s : State) (c : Ctx) (a : Nat) (bs : List Byte) (hok : s.regs.ok)  : (gWrite s c a bs).regs.ok := by
  simp (maxDischargeDepth := 60) [gWrite, hok]

@[simp] theorem commitWrite_regsOk (s : State) (a : Nat) (bs : List Byte) (hok : s.regs.ok)  : (commitWrite s a bs).regs.ok := by
  simp (maxDischargeDepth := 60) [commitWrite, hok]

@[simp] theorem gLand_regsOk (s : State) (c : Ctx) (a : Nat) (bs : List Byte) (hok : s.regs.ok)  : (gLand s c a bs).regs.ok := by
  simp (maxDischargeDepth := 60) [gLand, hok]

@[simp] theorem gAccept_regsOk (s : State) (c : Ctx) (a : Nat) (bs : List Byte) (hok : s.regs.ok)  : (gAccept s c a bs).regs.ok := by
  simp (maxDischargeDepth := 60) [gAccept, hok]

@[simp] theorem landHeld_regsOk (s : State) (x : HeldWrite) (hok : s.regs.ok)  : (landHeld s x).regs.ok := by
  unfold landHeld; (repeat' split) <;> simp (maxDischargeDepth := 60) [hok]

@[simp] theorem landWrites_regsOk (s : State) (hok : s.regs.ok)  : (landWrites s).regs.ok := by
  unfold landWrites; (repeat' split) <;> simp_all (maxDischargeDepth := 60)

@[simp] theorem tblWrite_regsOk (s : State) (cl b : Nat) (bs : List Byte) (hok : s.regs.ok)  : (tblWrite s cl b bs).regs.ok := by
  exact regsOk_of_frame rfl (tblWrite_frame notRegs _ _ _ _ rfl) hok

@[simp] theorem setProg_regsOk (s : State) (cl p : Nat) (v : Prog) (hok : s.regs.ok)  : (setProg s cl p v).regs.ok := by
  exact regsOk_of_frame rfl (setProg_frame notRegs _ _ _ _ rfl) hok

@[simp] theorem setProgState_regsOk (s : State) (cl p v : Nat) (hok : s.regs.ok)  : (setProgState s cl p v).regs.ok := by
  simp (maxDischargeDepth := 60) [setProgState, hok]

@[simp] theorem setPC_regsOk (s : State) (cl p v : Nat) (hok : s.regs.ok)  : (setPC s cl p v).regs.ok := by
  simp (maxDischargeDepth := 60) [setPC, hok]

@[simp] theorem stopProg_regsOk (s : State) (cl p code : Nat) (hok : s.regs.ok)  : (stopProg s cl p code).regs.ok := by
  simp (maxDischargeDepth := 60) [stopProg, hok]

@[simp] theorem haltProg_regsOk (s : State) (cl p code : Nat) (hok : s.regs.ok)  : (haltProg s cl p code).regs.ok := by
  simp (maxDischargeDepth := 60) [haltProg, hok]

@[simp] theorem haltMask_regsOk (s : State) (cl m code : Nat) (hok : s.regs.ok)  : (haltMask s cl m code).regs.ok := by
  unfold haltMask; (repeat' split) <;> simp_all (maxDischargeDepth := 60)

@[simp] theorem startProg_regsOk (s : State) (cl p turn : Nat) (hok : s.regs.ok)  : (startProg s cl p turn).regs.ok := by
  simp (maxDischargeDepth := 60) [startProg, hok]

@[simp] theorem removeFlight_regsOk (s : State) (id : Nat) (hok : s.regs.ok)  : (removeFlight s id).regs.ok := by
  exact regsOk_of_frame rfl (removeFlight_frame notRegs _ _ rfl) hok

@[simp] theorem setWork_regsOk (s : State) (id : Nat) (w : Work) (hok : s.regs.ok)  : (setWork s id w).regs.ok := by
  exact regsOk_of_frame rfl (setWork_frame notRegs _ _ _ rfl) hok

@[simp] theorem rejectEntry_regsOk (s : State) (cl p i cause core : Nat) (hok : s.regs.ok)  : (rejectEntry s cl p i cause core).regs.ok := by
  simp (maxDischargeDepth := 60) [rejectEntry, hok]

@[simp] theorem refuseEntry_regsOk (s : State) (cl p i cause op1 : Nat) (hok : s.regs.ok)  : (refuseEntry s cl p i cause op1).regs.ok := by
  simp (maxDischargeDepth := 60) [refuseEntry, hok]

@[simp] theorem noteIssue_regsOk (s : State) (cl p i : Nat) (next : Option Nat) (hok : s.regs.ok)  : (noteIssue s cl p i next).regs.ok := by
  unfold noteIssue; (repeat' split) <;> simp (maxDischargeDepth := 60) [hok]

@[simp] theorem issueFlight_regsOk (s : State) (cl p i e : Nat) (units : List UnitId) (cores : Nat) (w : Work) (hok : s.regs.ok)  : (issueFlight s cl p i e units cores w).regs.ok := by
  simp (maxDischargeDepth := 60) [issueFlight, hok]

@[simp] theorem issueNothing_regsOk (s : State) (cl p i : Nat) (hok : s.regs.ok)  : (issueNothing s cl p i).regs.ok := by
  simp (maxDischargeDepth := 60) [issueNothing, hok]

@[simp] theorem withEntry_regsOk (s : State) (cl p : Nat) (mine : Nat → Bool) (k : Nat → Nat → State) (hok : s.regs.ok) (h_k : ∀ (x0 : Nat) (x1 : Nat), (k x0 x1).regs.ok) : (withEntry s cl p mine k).regs.ok := by
  simp (maxDischargeDepth := 60) [withEntry, hok, h_k]

@[simp] theorem blockProg_regsOk (s : State) (cl p : Nat) (hok : s.regs.ok)  : (blockProg s cl p).regs.ok := by
  simp (maxDischargeDepth := 60) [blockProg, hok]

@[simp] theorem setToken_regsOk (s : State) (cl c v : Nat) (hok : s.regs.ok)  : (setToken s cl c v).regs.ok := by
  simp (maxDischargeDepth := 60) [setToken, hok]

@[simp] theorem endWait_regsOk (s : State) (cl p : Nat) (hok : s.regs.ok)  : (endWait s cl p).regs.ok := by
  simp (maxDischargeDepth := 60) [endWait, hok]

@[simp] theorem takeTokens_regsOk (s : State) (cl c target : Nat) (hok : s.regs.ok)  : (takeTokens s cl c target).regs.ok := by
  simp (maxDischargeDepth := 60) [takeTokens, hok]

@[simp] theorem serveWaits_regsOk (s : State) (cl c : Nat) (hok : s.regs.ok)  : (serveWaits s cl c).regs.ok := by
  unfold serveWaits; apply foldl_regsOk _ _ _ _ hok; intro s a hok; (try dsimp only); (repeat' split) <;> simp (maxDischargeDepth := 60) [hok]

@[simp] theorem postToken_regsOk (s : State) (cl c : Nat) (hok : s.regs.ok)  : (postToken s cl c).regs.ok := by
  simp (maxDischargeDepth := 60) [postToken, hok]

@[simp] theorem setLiveFlag_regsOk (s : State) (cl f : Nat) (b : Bool) (hok : s.regs.ok)  : (setLiveFlag s cl f b).regs.ok := by
  simp (maxDischargeDepth := 60) [setLiveFlag, hok]

@[simp] theorem setSyncFlag_regsOk (s : State) (cl f : Nat) (b : Bool) (hok : s.regs.ok)  : (setSyncFlag s cl f b).regs.ok := by
  simp (maxDischargeDepth := 60) [setSyncFlag, hok]

@[simp] theorem noteSticky_regsOk (s : State) (cl core sticky : Nat) (hok : s.regs.ok)  : (noteSticky s cl core sticky).regs.ok := by
  simp (maxDischargeDepth := 60) [noteSticky, hok]

@[simp] theorem noteCounts_regsOk (s : State) (cl core : Nat) (grad : Bool) (c : Counts) (hok : s.regs.ok)  : (noteCounts s cl core grad c).regs.ok := by
  simp (maxDischargeDepth := 60) [noteCounts, hok]

@[simp] theorem addRecord_regsOk (s : State) (c : Ctx) (cl n : Nat) (k : Counts) (hok : s.regs.ok)  : (addRecord s c cl n k).regs.ok := by
  simp (maxDischargeDepth := 60) [addRecord, hok]

@[simp] theorem setRail_regsOk (s : State) (p c : Nat) (hok : s.regs.ok)  : (setRail s p c).regs.ok := by
  exact regsOk_of_frame rfl (setRail_frame notRegs _ _ _ rfl) hok

@[simp] theorem showCodes_regsOk (s : State) (hok : s.regs.ok)  : (showCodes s).regs.ok := by
  unfold showCodes; (repeat' split) <;> simp_all (maxDischargeDepth := 60)

@[simp] theorem driveRail_regsOk (s : State) (p c : Nat) (hok : s.regs.ok)  : (driveRail s p c).regs.ok := by
  exact regsOk_of_frame rfl (driveRail_frame notRegs _ _ _ rfl) hok

@[simp] theorem raiseRails_regsOk (s : State) (k : Nat) (hok : s.regs.ok)  : (raiseRails s k).regs.ok := by
  exact regsOk_of_frame rfl (raiseRails_frame notRegs _ _ rfl) hok

@[simp] theorem settleRails_regsOk (s : State) (hok : s.regs.ok)  : (settleRails s).regs.ok := by
  unfold settleRails; (repeat' split) <;> simp_all (maxDischargeDepth := 60)

@[simp] theorem stepRails_regsOk (s : State) (hok : s.regs.ok)  : (stepRails s).regs.ok := by
  exact regsOk_of_frame rfl (stepRails_frame notRegs _ rfl) hok

@[simp] theorem armedRaise_regsOk (s : State) (a : Nat) (hok : s.regs.ok)  : (armedRaise s a).regs.ok := by
  exact regsOk_of_frame rfl (armedRaise_frame notRegs _ _ rfl) hok

@[simp] theorem setPoint_regsOk (s : State) (k : Nat) (hok : s.regs.ok)  : (setPoint s k).regs.ok := by
  simp (maxDischargeDepth := 60) [setPoint, hok]

@[simp] theorem endRaise_regsOk (s : State) (t : Nat) (hok : s.regs.ok)  : (endRaise s t).regs.ok := by
  exact regsOk_of_frame rfl (endRaise_frame notRegs _ _ rfl) hok

@[simp] theorem updatePoint_regsOk (s : State) (t : Nat) (hok : s.regs.ok)  : (updatePoint s t).regs.ok := by
  unfold updatePoint; (repeat' split) <;> simp (maxDischargeDepth := 60) [hok]

@[simp] theorem publishCeiling_regsOk (s : State) (hok : s.regs.ok)  : (publishCeiling s).regs.ok := by
  unfold publishCeiling; (repeat' split) <;> simp_all (maxDischargeDepth := 60)

@[simp] theorem eraseReduced_regsOk (s : State) (hok : s.regs.ok)  : (eraseReduced s).regs.ok := by
  exact regsOk_of_frame rfl (eraseReduced_frame notRegs _ rfl) hok

@[simp] theorem sbEvent_regsOk (s : State) (b : Nat) (hok : s.regs.ok)  : (sbEvent s b).regs.ok := by
  exact regsOk_of_frame rfl (sbEvent_frame notRegs _ _ rfl) hok

@[simp] theorem dropCommit_regsOk (s : State) (page : Nat) (hok : s.regs.ok)  : (dropCommit s page).regs.ok := by
  simp (maxDischargeDepth := 60) [dropCommit, hok]

@[simp] theorem addCommit_regsOk (s : State) (page : Nat) (t : Option Nat) (hok : s.regs.ok)  : (addCommit s page t).regs.ok := by
  simp (maxDischargeDepth := 60) [addCommit, hok]

@[simp] theorem askCommit_regsOk (s : State) (page : Nat) (t : Option Nat) (hok : s.regs.ok)  : (askCommit s page t).regs.ok := by
  unfold askCommit; (repeat' split) <;> simp (maxDischargeDepth := 60) [hok]

@[simp] theorem writeCommit_regsOk (s : State) (page v : Nat) (hok : s.regs.ok)  : (writeCommit s page v).regs.ok := by
  simp (maxDischargeDepth := 60) [writeCommit, hok]

@[simp] theorem pageRead_regsOk (s : State) (m : Master) (ty page off : Nat) (hok : s.regs.ok)  : (pageRead s m ty page off).1.regs.ok := by
  unfold pageRead; dsimp only; (repeat' split) <;> simp (maxDischargeDepth := 60) [hok]

@[simp] theorem setRing_regsOk (s : State) (n : Nat) (r : Ring) (hok : s.regs.ok)  : (setRing s n r).regs.ok := by
  exact regsOk_of_frame rfl (setRing_frame notRegs _ _ _ rfl) hok

@[simp] theorem hubRead_regsOk (s : State) (m : Master) (a : Nat) (hok : s.regs.ok)  : (hubRead s m a).1.regs.ok := by
  unfold hubRead; (repeat' split) <;> simp (maxDischargeDepth := 60) [hok]

@[simp] theorem clearRegs_regsOk (s : State) (page : Nat) (offs : List Nat) (hok : s.regs.ok)  : (clearRegs s page offs).regs.ok := by
  unfold clearRegs; (repeat' split) <;> simp_all (maxDischargeDepth := 60)

@[simp] theorem startDraw_regsOk (s : State) (cl page : Nat) (hok : s.regs.ok)  : (startDraw s cl page).regs.ok := by
  simp (maxDischargeDepth := 60) [startDraw, hok]

@[simp] theorem refreshSand_regsOk (s : State) (w level : Nat) (hok : s.regs.ok)  : (refreshSand s w level).regs.ok := by
  simp (maxDischargeDepth := 60) [refreshSand, hok]

@[simp] theorem sandMark_regsOk (s : State) (w : Nat) (hok : s.regs.ok)  : (sandMark s w).regs.ok := by
  exact regsOk_of_frame rfl (sandMark_frame notRegs _ _ rfl) hok

@[simp] theorem queueSand_regsOk (s : State) (w base size : Nat) (urgent : Bool) (hok : s.regs.ok)  : (queueSand s w base size urgent).regs.ok := by
  simp (maxDischargeDepth := 60) [queueSand, hok]

@[simp] theorem releaseCatch_regsOk (s : State) (hok : s.regs.ok)  : (releaseCatch s).regs.ok := by
  unfold releaseCatch; (repeat' split) <;> simp_all (maxDischargeDepth := 60)

@[simp] theorem setLink_regsOk (s : State) (n : Nat) (l : LinkState) (hok : s.regs.ok)  : (setLink s n l).regs.ok := by
  exact regsOk_of_frame rfl (setLink_frame notRegs _ _ _ rfl) hok

@[simp] theorem sendPattern_regsOk (s : State) (m : Nat) (hok : s.regs.ok)  : (sendPattern s m).regs.ok := by
  exact regsOk_of_frame rfl (sendPattern_frame notRegs _ _ rfl) hok

@[simp] theorem unholdModel_regsOk (s : State) (m : Nat) (hok : s.regs.ok)  : (unholdModel s m).regs.ok := by
  simp (maxDischargeDepth := 60) [unholdModel, hok]

@[simp] theorem unholdAdapter_regsOk (s : State) (m a : Nat) (hok : s.regs.ok)  : (unholdAdapter s m a).regs.ok := by
  simp (maxDischargeDepth := 60) [unholdAdapter, hok]

@[simp] theorem askAbort_regsOk (s : State) (w : Nat) (hok : s.regs.ok)  : (askAbort s w).regs.ok := by
  simp (maxDischargeDepth := 60) [askAbort, hok]

theorem actWrite_regsOk (s : State) (ty inst page off v : Nat) (hok : s.regs.ok)  : ∀ t, (actWrite s ty inst page off v) = some t → t.regs.ok := by
  have done : ∀ a t : State, a.regs.ok → some a = some t → t.regs.ok := by
    intro a t ha hs; injection hs with hs; rw [← hs]; exact ha
  intro t ht; unfold actWrite at ht
  dsimp only at ht
  by_cases h1 : off = Reg.F_CTRL
  · rw [if_pos h1] at ht; refine done _ _ ?_ ht; simp (maxDischargeDepth := 60) [hok]
  rw [if_neg h1] at ht
  by_cases h1 : off = Reg.F_EVENT
  · rw [if_pos h1] at ht; refine done _ _ ?_ ht; simp (maxDischargeDepth := 60) [hok]
  rw [if_neg h1] at ht
  by_cases h1 : off = Reg.F_EVENT_EN
  · rw [if_pos h1] at ht; refine done _ _ ?_ ht; simp (maxDischargeDepth := 60) [hok]
  rw [if_neg h1] at ht
  by_cases h1 : off = Reg.F_COMMIT
  · rw [if_pos h1] at ht; refine done _ _ ?_ ht; simp (maxDischargeDepth := 60) [hok]
  rw [if_neg h1] at ht
  split at ht
  · split at ht
    · refine done _ _ ?_ ht; simp (maxDischargeDepth := 60) [hok]
    · cases ht
  · (repeat' split at ht) <;> first | (cases ht; done) | (refine done _ _ ?_ ht; simp (maxDischargeDepth := 60) [hok])

@[simp] theorem pageWrite_regsOk (s : State) (ty inst page off v : Nat) (hok : s.regs.ok)  : (pageWrite s ty inst page off v).regs.ok := by
  unfold pageWrite
  split
  · exact hok
  · dsimp only
    split
    · rename_i hw; exact actWrite_regsOk _ _ _ _ _ _ hok _ hw
    · split <;> simp (maxDischargeDepth := 60) [hok]

@[simp] theorem hubWrite_regsOk (s : State) (m : Master) (a v : Nat) (hok : s.regs.ok)  : (hubWrite s m a v).1.regs.ok := by
  unfold hubWrite; (repeat' split) <;> simp (maxDischargeDepth := 60) [hok]

@[simp] theorem postLink_regsOk (s : State) (l cause op1 count tag pkg : Nat) (hok : s.regs.ok)  : (postLink s l cause op1 count tag pkg).regs.ok := by
  simp (maxDischargeDepth := 60) [postLink, hok]

@[simp] theorem resendTx_regsOk (s : State) (l : Nat) (y0 : Nat) (hok : s.regs.ok)  : (resendTx s l y0).regs.ok := by
  induction y0 generalizing s with
  | zero => exact hok
  | succ n ih =>
    unfold resendTx
    dsimp only
    split
    · exact hok
    · split
      · exact hok
      · exact ih _ (by simp (maxDischargeDepth := 60) [hok])

@[simp] theorem noteIv_regsOk (s : State) (l : Nat) (f : Frame) (hok : s.regs.ok)  : (noteIv s l f).regs.ok := by
  exact regsOk_of_frame rfl (noteIv_frame notRegs _ _ _ rfl) hok

@[simp] theorem transmit_regsOk (s : State) (l : Nat) (x : Sent) (hok : s.regs.ok)  : (transmit s l x).regs.ok := by
  simp (maxDischargeDepth := 60) [transmit, hok]

@[simp] theorem sendOn_regsOk (s : State) (l : Nat) (x : Sent) (hok : s.regs.ok)  : (sendOn s l x).regs.ok := by
  simp (maxDischargeDepth := 60) [sendOn, hok]

@[simp] theorem drainTx_regsOk (s : State) (l : Nat) (y0 : Nat) (hok : s.regs.ok)  : (drainTx s l y0).regs.ok := by
  induction y0 generalizing s with
  | zero => exact hok
  | succ n ih => unfold drainTx; dsimp only; (repeat' split) <;> first | exact hok | (apply ih; simp (maxDischargeDepth := 60) [hok])

@[simp] theorem drainLink_regsOk (s : State) (l : Nat) (hok : s.regs.ok)  : (drainLink s l).regs.ok := by
  simp (maxDischargeDepth := 60) [drainLink, hok]

@[simp] theorem sendTurns_regsOk (s : State) (links : List Nat) (owner : Option Nat) (turn : Nat) (fs : List Frame) (hok : s.regs.ok)  : (sendTurns s links owner turn fs).regs.ok := by
  unfold sendTurns; (repeat' split) <;> simp_all (maxDischargeDepth := 60)

@[simp] theorem sendFrames_regsOk (s : State) (links : List Nat) (owner : Option Nat) (fs : List Frame) (hok : s.regs.ok)  : (sendFrames s links owner fs).regs.ok := by
  unfold sendFrames; (repeat' split) <;> simp_all (maxDischargeDepth := 60)

@[simp] theorem freeFlits_regsOk (s : State) (l : Nat) (f : Frame) (hok : s.regs.ok)  : (freeFlits s l f).regs.ok := by
  exact regsOk_of_frame rfl (freeFlits_frame notRegs _ _ _ rfl) hok

@[simp] theorem noteCodewords_regsOk (s : State) (l corrected lost : Nat) (hok : s.regs.ok)  : (noteCodewords s l corrected lost).regs.ok := by
  simp (maxDischargeDepth := 60) [noteCodewords, hok]

@[simp] theorem noteArrival_regsOk (s : State) (l : Nat) (a : Arrival) (hok : s.regs.ok)  : (noteArrival s l a).regs.ok := by
  unfold noteArrival; (repeat' split) <;> simp (maxDischargeDepth := 60) [hok]

@[simp] theorem takeFrame_regsOk (s : State) (l : Nat) (f : Frame) (a : Arrival) (hok : s.regs.ok)  : (takeFrame s l f a).1.regs.ok := by
  unfold takeFrame; (repeat' split) <;> simp (maxDischargeDepth := 60) [hok]

@[simp] theorem hopOn_regsOk (s : State) (l out : Nat) (f : Frame) (hok : s.regs.ok)  : (hopOn s l out f).regs.ok := by
  simp (maxDischargeDepth := 60) [hopOn, hok]

@[simp] theorem dropNoRoute_regsOk (s : State) (l : Nat) (f : Frame) (hok : s.regs.ok)  : (dropNoRoute s l f).regs.ok := by
  simp (maxDischargeDepth := 60) [dropNoRoute, hok]

@[simp] theorem forward_regsOk (s : State) (l : Nat) (f : Frame) (hok : s.regs.ok)  : (forward s l f).regs.ok := by
  unfold forward; (repeat' split) <;> simp (maxDischargeDepth := 60) [hok]

@[simp] theorem stompTo_regsOk (s : State) (out : Nat) (f : Frame) (hok : s.regs.ok)  : (stompTo s out f).regs.ok := by
  simp (maxDischargeDepth := 60) [stompTo, hok]

@[simp] theorem stompOn_regsOk (s : State) (l : Nat) (f : Frame) (hok : s.regs.ok)  : (stompOn s l f).regs.ok := by
  unfold stompOn; (repeat' split) <;> simp (maxDischargeDepth := 60) [hok]

@[simp] theorem setPs_regsOk (s : State) (hi lo v : Nat) (hok : s.regs.ok)  : (setPs s hi lo v).regs.ok := by
  simp (maxDischargeDepth := 60) [setPs, hok]

@[simp] theorem noteCause_regsOk (s : State) (b link : Nat) (first : Bool) (hok : s.regs.ok)  : (noteCause s b link first).regs.ok := by
  simp (maxDischargeDepth := 60) [noteCause, hok]

@[simp] theorem beginWake_regsOk (s : State) (hok : s.regs.ok)  : (beginWake s).regs.ok := by
  simp (maxDischargeDepth := 60) [beginWake, hok]

@[simp] theorem wakeSource_regsOk (s : State) (b link : Nat) (hok : s.regs.ok)  : (wakeSource s b link).regs.ok := by
  simp (maxDischargeDepth := 60) [wakeSource, hok]

@[simp] theorem mailboxWake_regsOk (s : State) (hok : s.regs.ok)  : (mailboxWake s).regs.ok := by
  simp (maxDischargeDepth := 60) [mailboxWake, hok]

@[simp] theorem setFt_regsOk (s : State) (b : Nat) (v : Bool) (hok : s.regs.ok)  : (setFt s b v).regs.ok := by
  simp (maxDischargeDepth := 60) [setFt, hok]

@[simp] theorem enterHoldover_regsOk (s : State) (hok : s.regs.ok)  : (enterHoldover s).regs.ok := by
  simp (maxDischargeDepth := 60) [enterHoldover, hok]

@[simp] theorem leaveHoldover_regsOk (s : State) (hok : s.regs.ok)  : (leaveHoldover s).regs.ok := by
  simp (maxDischargeDepth := 60) [leaveHoldover, hok]

@[simp] theorem noteOffset_regsOk (s : State) (off rate : Int) (hok : s.regs.ok)  : (noteOffset s off rate).regs.ok := by
  simp (maxDischargeDepth := 60) [noteOffset, hok]

@[simp] theorem stepTime_regsOk (s : State) (off : Int) (hok : s.regs.ok)  : (stepTime s off).regs.ok := by
  exact regsOk_of_frame rfl (stepTime_frame notRegs _ _ rfl rfl rfl) hok

@[simp] theorem timeFrames_regsOk (s : State) (reached : Nat → Bool) (hok : s.regs.ok)  : (timeFrames s reached).regs.ok := by
  unfold timeFrames; (repeat' split) <;> simp_all (maxDischargeDepth := 60)

@[simp] theorem steer_regsOk (s : State) (f : TimeFrame) (phase : Nat) (step : Bool) (rate : Int) (hok : s.regs.ok)  : (steer s f phase step rate).regs.ok := by
  simp (maxDischargeDepth := 60) [steer, hok]

@[simp] theorem hearTime_regsOk (s : State) (l : Nat) (f : TimeFrame) (phase : Nat) (step : Bool) (rate : Int) (hok : s.regs.ok)  : (hearTime s l f phase step rate).regs.ok := by
  simp (maxDischargeDepth := 60) [hearTime, hok]

@[simp] theorem showLinkDelay_regsOk (s : State) (l delay : Nat) (hok : s.regs.ok)  : (showLinkDelay s l delay).regs.ok := by
  simp (maxDischargeDepth := 60) [showLinkDelay, hok]

@[simp] theorem fireAlarm_regsOk (s : State) (t : Nat) (hok : s.regs.ok)  : (fireAlarm s t).regs.ok := by
  unfold fireAlarm; (repeat' split) <;> simp (maxDischargeDepth := 60) [hok]

@[simp] theorem loseMirror_regsOk (s : State) (hok : s.regs.ok)  : (loseMirror s).regs.ok := by
  simp (maxDischargeDepth := 60) [loseMirror, hok]

@[simp] theorem checkPair_regsOk (s : State) (hok : s.regs.ok)  : (checkPair s).regs.ok := by
  simp (maxDischargeDepth := 60) [checkPair, hok]

@[simp] theorem showHealth_regsOk (s : State) (l : Nat) (hok : s.regs.ok)  : (showHealth s l).regs.ok := by
  simp (maxDischargeDepth := 60) [showHealth, hok]

@[simp] theorem fenceLink_regsOk (s : State) (l st cause : Nat) (hok : s.regs.ok)  : (fenceLink s l st cause).regs.ok := by
  simp (maxDischargeDepth := 60) [fenceLink, hok]

@[simp] theorem raiseLink_regsOk (s : State) (l st m : Nat) (t : Training) (hok : s.regs.ok)  : (raiseLink s l st m t).regs.ok := by
  unfold raiseLink; (repeat' split) <;> simp (maxDischargeDepth := 60) [hok]

@[simp] theorem peerStep_regsOk (s : State) (l want : Nat) (t : Training) (hok : s.regs.ok)  : (peerStep s l want t).regs.ok := by
  unfold peerStep; (repeat' split) <;> simp (maxDischargeDepth := 60) [hok]

@[simp] theorem endTraining_regsOk (s : State) (l want : Nat) (t : Training) (hok : s.regs.ok)  : (endTraining s l want t).regs.ok := by
  simp (maxDischargeDepth := 60) [endTraining, hok]

@[simp] theorem setPortLanes_regsOk (s : State) (dark : Nat) (hok : s.regs.ok)  : (setPortLanes s dark).regs.ok := by
  simp (maxDischargeDepth := 60) [setPortLanes, hok]

@[simp] theorem sendPort_regsOk (s : State) (f : PortFrame) (hok : s.regs.ok)  : (sendPort s f).regs.ok := by
  exact regsOk_of_frame rfl (sendPort_frame notRegs _ _ rfl) hok

@[simp] theorem dropPort_regsOk (s : State) (hok : s.regs.ok)  : (dropPort s).regs.ok := by
  simp (maxDischargeDepth := 60) [dropPort, hok]

@[simp] theorem takePort_regsOk (s : State) (type : Nat) (h : PortHead) (hok : s.regs.ok)  : (takePort s type h).1.regs.ok := by
  unfold takePort
  dsimp only
  (repeat' split) <;> first | exact hok | (simp (maxDischargeDepth := 60) [hok])

@[simp] theorem withPort_regsOk (s : State) (type : Nat) (h : PortHead) (k : State → State) (hok : s.regs.ok) (h_k : ∀ (x0 : State), x0.regs.ok → (k x0).regs.ok) : (withPort s type h k).regs.ok := by
  unfold withPort
  dsimp only
  split
  · exact h_k _ (takePort_regsOk _ _ _ hok)
  · exact takePort_regsOk _ _ _ hok

@[simp] theorem exchangeTime_regsOk (s : State) (tag t2 t3 : Nat) (rate : Int) (hok : s.regs.ok)  : (exchangeTime s tag t2 t3 rate).regs.ok := by
  unfold exchangeTime; (repeat' split) <;> simp (maxDischargeDepth := 60) [hok]

@[simp] theorem answer_regsOk (s : State) (tag op status result : Nat) (payload : List Byte) (hok : s.regs.ok)  : (answer s tag op status result payload).regs.ok := by
  exact regsOk_of_frame rfl (answer_frame notRegs _ _ _ _ _ _ rfl) hok

@[simp] theorem reply_regsOk (s : State) (tag op status : Nat) (hok : s.regs.ok)  : (reply s tag op status).regs.ok := by
  exact regsOk_of_frame rfl (reply_frame notRegs _ _ _ _ rfl) hok

@[simp] theorem withMail_regsOk (s : State) (h : PortHead) (tag op : Nat) (k : State → State) (hok : s.regs.ok) (h_k : ∀ (x0 : State), x0.regs.ok → (k x0).regs.ok) : (withMail s h tag op k).regs.ok := by
  unfold withMail
  refine withPort_regsOk _ _ _ _ hok ?_
  intro s hs
  (repeat' split) <;> first | exact h_k _ hs | simp (maxDischargeDepth := 60) [hs]

@[simp] theorem awaitCommit_regsOk (s : State) (tag op page : Nat) (hok : s.regs.ok)  : (awaitCommit s tag op page).regs.ok := by
  exact regsOk_of_frame rfl (awaitCommit_frame notRegs _ _ _ _ rfl) hok

@[simp] theorem answerWaiting_regsOk (s : State) (page status : Nat) (hok : s.regs.ok)  : (answerWaiting s page status).regs.ok := by
  exact regsOk_of_frame rfl (answerWaiting_frame notRegs _ _ _ rfl) hok

@[simp] theorem answerWithdrawn_regsOk (s t : State) (page : Nat) (hok : t.regs.ok)  : (answerWithdrawn s t page).regs.ok := by
  exact regsOk_of_frame rfl (answerWithdrawn_frame notRegs _ _ _ rfl) hok

@[simp] theorem ringWrite_regsOk (s : State) (a : Nat) (bs : List Byte) (hok : s.regs.ok)  : (ringWrite s a bs).regs.ok := by
  exact regsOk_of_frame rfl (ringWrite_frame notRegs _ _ _ rfl) hok

@[simp] theorem putRecord_regsOk (s : State) (n : Nat) (rec : List Byte) (hok : s.regs.ok)  : (putRecord s n rec).regs.ok := by
  exact regsOk_of_frame rfl (putRecord_frame notRegs _ _ _ rfl) hok

@[simp] theorem drainRingN_regsOk (s : State) (n : Nat) (y0 : Nat) (hok : s.regs.ok)  : (drainRingN s n y0).regs.ok := by
  exact regsOk_of_frame rfl (drainRingN_frame notRegs _ _ _ rfl) hok

@[simp] theorem drainRing_regsOk (s : State) (n : Nat) (hok : s.regs.ok)  : (drainRing s n).regs.ok := by
  exact regsOk_of_frame rfl (drainRing_frame notRegs _ _ rfl) hok

@[simp] theorem postRing_regsOk (s : State) (n : Nat) (rec : List Byte) (hok : s.regs.ok)  : (postRing s n rec).regs.ok := by
  exact regsOk_of_frame rfl (postRing_frame notRegs _ _ _ rfl) hok

@[simp] theorem deliverEvent_regsOk (s : State) (e : Event) (hok : s.regs.ok)  : (deliverEvent s e).regs.ok := by
  unfold deliverEvent; (repeat' split) <;> simp (maxDischargeDepth := 60) [hok]

@[simp] theorem drainStoreN_regsOk (s : State) (y0 : Nat) (hok : s.regs.ok)  : (drainStoreN s y0).regs.ok := by
  exact regsOk_of_frame rfl (drainStoreN_frame notRegs _ _ rfl rfl) hok

@[simp] theorem drainStore_regsOk (s : State) (hok : s.regs.ok)  : (drainStore s).regs.ok := by
  exact regsOk_of_frame rfl (drainStore_frame notRegs _ rfl rfl) hok

@[simp] theorem sendHostRead_regsOk (s : State) (why : ReadFor) (addr len : Nat) (hok : s.regs.ok)  : (sendHostRead s why addr len).regs.ok := by
  exact regsOk_of_frame rfl (sendHostRead_frame notRegs _ _ _ _ rfl) hok

@[simp] theorem peNote_regsOk (s : State) (c : Ctx) (k a n : Nat) (hok : s.regs.ok)  : (peNote s c k a n).regs.ok := by
  unfold peNote; (repeat' split) <;> simp (maxDischargeDepth := 60) [hok]

@[simp] theorem peWrite_regsOk (s : State) (k a : Nat) (bs : List Byte) (hok : s.regs.ok)  : (peWrite s k a bs).regs.ok := by
  unfold peWrite; (repeat' split) <;> simp (maxDischargeDepth := 60) [hok]

@[simp] theorem postPool_regsOk (s : State) (k cause op1 tag count : Nat) (hok : s.regs.ok)  : (postPool s k cause op1 tag count).regs.ok := by
  simp (maxDischargeDepth := 60) [postPool, hok]

@[simp] theorem setDesc_regsOk (s : State) (k i d : Nat) (hok : s.regs.ok)  : (setDesc s k i d).regs.ok := by
  simp (maxDischargeDepth := 60) [setDesc, hok]

@[simp] theorem countPool_regsOk (s : State) (k : Nat) (hok : s.regs.ok)  : (countPool s k).regs.ok := by
  simp (maxDischargeDepth := 60) [countPool, hok]

@[simp] theorem setList_regsOk (s : State) (k j : Nat) (h : ListHead) (hok : s.regs.ok)  : (setList s k j h).regs.ok := by
  simp (maxDischargeDepth := 60) [setList, hok]

@[simp] theorem noteHead_regsOk (s : State) (k j : Nat) (hok : s.regs.ok)  : (noteHead s k j).regs.ok := by
  simp (maxDischargeDepth := 60) [noteHead, hok]

@[simp] theorem walkList_regsOk (s : State) (k j : Nat) (hok : s.regs.ok)  : (walkList s k j).regs.ok := by
  unfold walkList; (repeat' split) <;> simp_all (maxDischargeDepth := 60)

@[simp] theorem setParked_regsOk (s : State) (e : Nat) (v : Option Parked) (hok : s.regs.ok)  : (setParked s e v).regs.ok := by
  exact regsOk_of_frame rfl (setParked_frame notRegs _ _ _ rfl) hok

@[simp] theorem evictSession_regsOk (s : State) (k e : Nat) (hok : s.regs.ok)  : (evictSession s k e).regs.ok := by
  unfold evictSession
  have h1 : ((heldFrames s k e).foldl (fun s i => setDesc s k i 0) s).regs.ok := foldl_regsOk _ (fun s a hs => by simp (maxDischargeDepth := 60) [hs]) _ _ hok
  dsimp only
  split
  · exact h1
  · simp (maxDischargeDepth := 60) [h1]

theorem takeFrameAux_regsOk (s : State) (k : Nat) (y0 : Nat) (hok : s.regs.ok)  : ∀ t, (takeFrameAux s k y0) = some t → t.1.regs.ok := by
  induction y0 generalizing s with
  | zero =>
    intro t ht; unfold takeFrameAux at ht
    cases hf : (freeFrames s k).head? <;> simp_all
    rw [← ht]; exact hok
  | succ n ih =>
    intro t ht; unfold takeFrameAux at ht
    split at ht
    · cases ht; exact hok
    · split at ht
      · cases ht
      · exact ih _ (evictSession_regsOk _ _ _ hok) t ht

theorem takeFreeFrame_regsOk (s : State) (k : Nat) (hok : s.regs.ok)  : ∀ t, (takeFreeFrame s k) = some t → t.1.regs.ok := by
  unfold takeFreeFrame; exact takeFrameAux_regsOk _ _ _ hok

theorem addPage_regsOk (s : State) (k j : Nat) (hok : s.regs.ok)  : ∀ t, (addPage s k j) = some t → t.regs.ok := by
  intro t ht; unfold addPage at ht
  cases hf : takeFreeFrame s k with
  | none => simp [hf] at ht
  | some r =>
    have h2 := takeFreeFrame_regsOk s k hok r hf
    simp [hf] at ht; rw [← ht]
    split <;> simp (maxDischargeDepth := 60) [h2]

theorem addPages_regsOk (s : State) (k j : Nat) (y0 : Nat) (hok : s.regs.ok)  : ∀ t, (addPages s k j y0) = some t → t.regs.ok := by
  induction y0 generalizing s with
  | zero => intro t ht; cases ht; exact hok
  | succ n ih =>
    intro t ht; unfold addPages at ht
    cases hf : addPage s k j with
    | none => simp [hf] at ht
    | some r => simp [hf] at ht; exact ih _ (addPage_regsOk s k j hok r hf) t ht

@[simp] theorem truncateList_regsOk (s : State) (k j n : Nat) (hok : s.regs.ok)  : (truncateList s k j n).regs.ok := by
  unfold truncateList
  have h1 : ∀ l : List Nat, (l.foldl (fun s i => setDesc s k i 0) s).regs.ok := fun l => foldl_regsOk _ (fun s a hs => by simp (maxDischargeDepth := 60) [hs]) _ _ hok
  dsimp only
  split
  · exact hok
  · split <;> simp (maxDischargeDepth := 60) [h1]

@[simp] theorem setPrefix_regsOk (s : State) (p : Nat) (v : Option Prefix) (hok : s.regs.ok)  : (setPrefix s p v).regs.ok := by
  exact regsOk_of_frame rfl (setPrefix_frame notRegs _ _ _ rfl) hok

@[simp] theorem refChain_regsOk (s : State) (k f : Nat) (up : Bool) (hok : s.regs.ok)  : (refChain s k f up).regs.ok := by
  unfold refChain; (repeat' split) <;> simp_all (maxDischargeDepth := 60)

@[simp] theorem retirePrefix_regsOk (s : State) (p : Nat) (hok : s.regs.ok)  : (retirePrefix s p).regs.ok := by
  unfold retirePrefix; (repeat' split) <;> simp_all (maxDischargeDepth := 60)

@[simp] theorem retirePrefixes_regsOk (s : State) (hok : s.regs.ok)  : (retirePrefixes s).regs.ok := by
  unfold retirePrefixes; (repeat' split) <;> simp_all (maxDischargeDepth := 60)

@[simp] theorem makeList_regsOk (s : State) (k j req d fmt blk : Nat) (pfx : Option ListHead) (hok : s.regs.ok)  : (makeList s k j req d fmt blk pfx).regs.ok := by
  unfold makeList; (repeat' split) <;> simp (maxDischargeDepth := 60) [hok]

@[simp] theorem dropList_regsOk (s : State) (k j : Nat) (hok : s.regs.ok)  : (dropList s k j).regs.ok := by
  unfold dropList; (repeat' split) <;> simp_all (maxDischargeDepth := 60)

@[simp] theorem gPut_regsOk (s : State) (k a : Nat) (ws : List (Nat × List Byte)) (hok : s.regs.ok)  : (gPut s k a ws).regs.ok := by
  unfold gPut; (repeat' split) <;> simp_all (maxDischargeDepth := 60)

theorem appendRow_regsOk (s : State) (k j rows r : Nat) (kv vv : ByteView) (hok : s.regs.ok)  : ∀ t, (appendRow s k j rows r kv vv) = some t → t.regs.ok := by
  intro t ht; unfold appendRow at ht
  dsimp only at ht
  split at ht
  · simp at ht; rw [← ht]; simp (maxDischargeDepth := 60) [hok]
  · cases hf : addPage s k j with
    | none => simp [hf] at ht
    | some r => simp [hf] at ht; rw [← ht]; simp (maxDischargeDepth := 60) [addPage_regsOk s k j hok r hf]

@[simp] theorem movePin_regsOk (s : State) (cur prev pinsCur pinsPrev v : Nat) (up : Bool) (hok : s.regs.ok)  : (movePin s cur prev pinsCur pinsPrev v up).regs.ok := by
  simp (maxDischargeDepth := 60) [movePin, hok]

@[simp] theorem pinBase_regsOk (s : State) (m v : Nat) (up : Bool) (hok : s.regs.ok)  : (pinBase s m v up).regs.ok := by
  simp (maxDischargeDepth := 60) [pinBase, hok]

@[simp] theorem pinAdapter_regsOk (s : State) (m : Nat) (a : Option Nat) (v : Nat) (up : Bool) (hok : s.regs.ok)  : (pinAdapter s m a v up).regs.ok := by
  unfold pinAdapter; (repeat' split) <;> simp (maxDischargeDepth := 60) [hok]

@[simp] theorem setReq_regsOk (s : State) (r : Request) (hok : s.regs.ok)  : (setReq s r).regs.ok := by
  exact regsOk_of_frame rfl (setReq_frame notRegs _ _ rfl) hok

@[simp] theorem dropReq_regsOk (s : State) (id : Nat) (hok : s.regs.ok)  : (dropReq s id).regs.ok := by
  exact regsOk_of_frame rfl (dropReq_frame notRegs _ _ rfl) hok

@[simp] theorem noteReq_regsOk (s : State) (r : Request) (kind pos w : Nat) (hok : s.regs.ok)  : (noteReq s r kind pos w).regs.ok := by
  exact regsOk_of_frame rfl (noteReq_frame notRegs _ _ _ _ _ rfl) hok

@[simp] theorem releasePins_regsOk (s : State) (r : Request) (hok : s.regs.ok)  : (releasePins s r).regs.ok := by
  simp (maxDischargeDepth := 60) [releasePins, hok]

@[simp] theorem complete_regsOk (s : State) (q tag req op status result : Nat) (hok : s.regs.ok)  : (complete s q tag req op status result).regs.ok := by
  simp (maxDischargeDepth := 60) [complete, hok]

@[simp] theorem setFam_regsOk (s : State) (i : Nat) (f : Option Family) (hok : s.regs.ok)  : (setFam s i f).regs.ok := by
  exact regsOk_of_frame rfl (setFam_frame notRegs _ _ _ rfl) hok

@[simp] theorem settleLists_regsOk (s : State) (hok : s.regs.ok)  : (settleLists s).regs.ok := by
  unfold settleLists; (repeat' split) <;> simp_all (maxDischargeDepth := 60)

@[simp] theorem freeLists_regsOk (s : State) (r : Request) (hok : s.regs.ok)  : (freeLists s r).regs.ok := by
  simp (maxDischargeDepth := 60) [freeLists, hok]

@[simp] theorem unbindRing_regsOk (s : State) (n : Nat) (hok : s.regs.ok)  : (unbindRing s n).regs.ok := by
  exact regsOk_of_frame rfl (unbindRing_frame notRegs _ _ rfl) hok

@[simp] theorem retireReq_regsOk (s : State) (r : Request) (completed : Bool) (hok : s.regs.ok)  : (retireReq s r completed).regs.ok := by
  exact regsOk_of_frame rfl (retireReq_frame notRegs _ _ _ rfl) hok

@[simp] theorem completeWaiting_regsOk (s : State) (r : Request) (w : Option (Nat × Nat)) (op status result : Nat) (hok : s.regs.ok)  : (completeWaiting s r w op status result).regs.ok := by
  unfold completeWaiting; (repeat' split) <;> simp (maxDischargeDepth := 60) [hok]

@[simp] theorem endReq_regsOk (s : State) (r : Request) (kind pos : Nat) (pins lists : Bool) (hok : s.regs.ok)  : (endReq s r kind pos pins lists).regs.ok := by
  simp (maxDischargeDepth := 60) [endReq, hok]

@[simp] theorem completeReq_regsOk (s : State) (r : Request) (pos : Nat) (hok : s.regs.ok)  : (completeReq s r pos).regs.ok := by
  simp (maxDischargeDepth := 60) [completeReq, hok]

@[simp] theorem cancelReq_regsOk (s : State) (r : Request) (hok : s.regs.ok)  : (cancelReq s r).regs.ok := by
  simp (maxDischargeDepth := 60) [cancelReq, hok]

theorem takeSerial_regsOk (s : State) (k : Nat) (hok : s.regs.ok)  : ∀ t, (takeSerial s k) = some t → t.1.regs.ok := by
  simp (maxDischargeDepth := 60) [takeSerial, hok]

@[simp] theorem parkReq_regsOk (s : State) (r : Request) (preempted : Bool) (hok : s.regs.ok)  : (parkReq s r preempted).1.regs.ok := by
  unfold parkReq; dsimp only; split
  · exact hok
  · split
    · simp (maxDischargeDepth := 60) [hok]
    · rename_i s2 ser hs
      have h2 := takeSerial_regsOk s _ hok _ hs
      refine setReq_regsOk _ _ (setParked_regsOk _ _ _ (releasePins_regsOk _ _ (foldl_regsOk _ ?_ _ _ h2)))
      intro s a hs; exact walkList_regsOk _ _ _ hs

@[simp] theorem pauseReq_regsOk (s : State) (r : Request) (hok : s.regs.ok)  : (pauseReq s r).regs.ok := by
  unfold pauseReq
  split
  · simp (maxDischargeDepth := 60) [hok]
  have hp := parkReq_regsOk s r false hok
  split
  · rename_i hq; rw [hq] at hp
    first
    | exact hp
    | simp (maxDischargeDepth := 60) [hp]
  · rename_i hq; rw [hq] at hp
    first
    | (dsimp only
       split
       · simp (maxDischargeDepth := 60) [hp]
       · simp (maxDischargeDepth := 60) [hp])
    | exact completeWaiting_regsOk _ _ _ _ _ _ (setReq_regsOk _ _ hp)

@[simp] theorem preemptReq_regsOk (s : State) (r : Request) (hok : s.regs.ok)  : (preemptReq s r).regs.ok := by
  unfold preemptReq
  split
  · simp (maxDischargeDepth := 60) [hok]
  have hp := parkReq_regsOk s r true hok
  split
  · rename_i hq; rw [hq] at hp
    first
    | exact hp
    | simp (maxDischargeDepth := 60) [hp]
  · rename_i hq; rw [hq] at hp
    first
    | (dsimp only
       split
       · simp (maxDischargeDepth := 60) [hp]
       · simp (maxDischargeDepth := 60) [hp])
    | exact completeWaiting_regsOk _ _ _ _ _ _ (setReq_regsOk _ _ hp)

@[simp] theorem freeParked_regsOk (s : State) (e : Nat) (hok : s.regs.ok)  : (freeParked s e).regs.ok := by
  unfold freeParked
  split
  · exact hok
  · rename_i p hp
    have h1 : (setParked (if p.evict = true then evictSession s p.pool e else s) e none).regs.ok := by
      apply setParked_regsOk; split
      · exact evictSession_regsOk _ _ _ hok
      · exact hok
    dsimp only
    split
    · exact h1
    · apply retirePrefixes_regsOk; refine foldl_regsOk _ ?_ _ _ h1; intro s a hs; exact refChain_regsOk _ _ _ _ hs

@[simp] theorem parkedNow_regsOk (s : State) (e : Nat) (p : Parked) (r : Request) (hok : s.regs.ok)  : (parkedNow s e p r).regs.ok := by
  unfold parkedNow; (repeat' split) <;> simp_all (maxDischargeDepth := 60)

@[simp] theorem restoreLists_regsOk (s : State) (p : Parked) (j : Nat) (hok : s.regs.ok)  : (restoreLists s p j).regs.ok := by
  unfold restoreLists; (repeat' split) <;> simp_all (maxDischargeDepth := 60)

@[simp] theorem claimFrames_regsOk (s : State) (k j np n : Nat) (fs : List Nat) (hok : s.regs.ok)  : (claimFrames s k j np n fs).regs.ok := by
  unfold claimFrames; (repeat' split) <;> simp_all (maxDischargeDepth := 60)

@[simp] theorem repin_regsOk (s : State) (r : Request) (p : Parked) (hok : s.regs.ok)  : (repin s r p).1.regs.ok := by
  simp (maxDischargeDepth := 60) [repin, hok]

@[simp] theorem restored_regsOk (s : State) (e : Nat) (p : Parked) (r : Request) (hok : s.regs.ok)  : (restored s e p r).regs.ok := by
  simp (maxDischargeDepth := 60) [restored, hok]

@[simp] theorem tryResume_regsOk (s : State) (e : Nat) (p : Parked) (r : Request) (hok : s.regs.ok)  : (tryResume s e p r).regs.ok := by
  unfold tryResume
  have hg : ∀ (s : State) k j n, s.regs.ok → ((addPages s k j n).getD s).regs.ok := by
    intro s k j n hs
    cases ha : addPages s k j n with
    | none => exact hs
    | some t => exact addPages_regsOk s k j n hs t ha
  dsimp only
  split
  · exact hok
  · split
    · apply restored_regsOk; apply setParked_regsOk
      refine foldl_regsOk _ ?_ _ _ (by simp (maxDischargeDepth := 60) [hok])
      intro s a hs; exact claimFrames_regsOk _ _ _ _ _ _ hs
    · split
      · apply setReq_regsOk; apply setParked_regsOk
        refine foldl_regsOk _ ?_ _ _ (by simp (maxDischargeDepth := 60) [hok])
        intro s a hs; exact claimFrames_regsOk _ _ _ _ _ _ (hg _ _ _ _ hs)
      · exact hok

@[simp] theorem fillMembers_regsOk (s : State) (i : Nat) (y0 : Nat) (hok : s.regs.ok)  : (fillMembers s i y0).regs.ok := by
  exact regsOk_of_frame rfl (fillMembers_frame notRegs _ _ _ rfl) hok

@[simp] theorem reserveMember_regsOk (s : State) (i m : Nat) (r : Request) (hok : s.regs.ok)  : (reserveMember s i m r).regs.ok := by
  unfold reserveMember
  have hg : ∀ (s : State) k j n, s.regs.ok → ((addPages s k j n).getD s).regs.ok := by
    intro s k j n hs
    cases ha : addPages s k j n with
    | none => exact hs
    | some t => exact addPages_regsOk s k j n hs t ha
  dsimp only
  have hs : ∀ s : State, s.regs.ok → (match famAt s i with
      | none => s
      | some f => setFam s i (some { f with starved := f.starved ++ [m] })).regs.ok := by
    intro s hs; split
    · exact hs
    · simp (maxDischargeDepth := 60) [hs]
  have hw := foldl_regsOk (fun (s : State) x => walkList s r.pool (r.list + x)) (fun s a hs => walkList_regsOk _ _ _ hs) (List.range r.h) _ hok
  split
  · first | exact hs _ hok | exact hs _ hw
  · split
    · apply setReq_regsOk; refine foldl_regsOk _ ?_ _ _ hw; intro s a hs; exact hg _ _ _ _ hs
    · apply hs; exact noteReq_regsOk _ _ _ _ _ (incReg_regsOk _ _ _ (setReq_regsOk _ _ hw))

@[simp] theorem openStep_regsOk (s : State) (i : Nat) (hok : s.regs.ok)  : (openStep s i).regs.ok := by
  unfold openStep
  split
  · exact hok
  · dsimp only
    refine foldl_regsOk _ ?_ _ _ (foldl_regsOk _ ?_ _ _ ?_)
    · intro s a hs; simp (maxDischargeDepth := 60) [hs]
    · intro s a hs; split
      · exact hs
      · simp (maxDischargeDepth := 60) [hs]
    · simp (maxDischargeDepth := 60) [hok]

@[simp] theorem closeStep_regsOk (s : State) (i : Nat) (hok : s.regs.ok)  : (closeStep s i).regs.ok := by
  unfold closeStep
  split
  · exact hok
  · refine foldl_regsOk _ ?_ _ _ (setFam_regsOk _ _ _ hok)
    intro s a hs; split
    · exact hs
    · exact regsOk_ite _ _ _ hs (regsOk_ite _ _ _ (cancelReq_regsOk _ _ hs) (regsOk_ite _ _ _ (pauseReq_regsOk _ _ hs) (regsOk_ite _ _ _ (preemptReq_regsOk _ _ hs) hs)))

@[simp] theorem checkReady_regsOk (s : State) (id : Nat) (hok : s.regs.ok)  : (checkReady s id).regs.ok := by
  exact regsOk_of_frame rfl (checkReady_frame notRegs _ _ rfl) hok

@[simp] theorem settleServing_regsOk (s : State) (hok : s.regs.ok)  : (settleServing s).regs.ok := by
  unfold settleServing
  dsimp only
  refine foldl_regsOk _ ?_ _ _ ?_
  · intro s a hs; (repeat' split) <;> first | exact hs | simp (maxDischargeDepth := 60) [hs]
  · simp (maxDischargeDepth := 60) [hok]

@[simp] theorem acceptToken_regsOk (s : State) (ring : Nat) (row : List Byte) (hok : s.regs.ok)  : (acceptToken s ring row).regs.ok := by
  unfold acceptToken; dsimp only; (repeat' split) <;> simp (maxDischargeDepth := 60) [hok]

@[simp] theorem ackDoorbell_regsOk (s : State) (tag n party idx status : Nat) (hok : s.regs.ok)  : (ackDoorbell s tag n party idx status).regs.ok := by
  exact regsOk_of_frame rfl (ackDoorbell_frame notRegs _ _ _ _ _ _ rfl) hok

@[simp] theorem refusedBell_regsOk (s : State) (n : Nat) (hok : s.regs.ok)  : (refusedBell s n).regs.ok := by
  simp (maxDischargeDepth := 60) [refusedBell, hok]

@[simp] theorem nextStoreRead_regsOk (s : State) (x : HostXfer) (hok : s.regs.ok)  : (nextStoreRead s x).regs.ok := by
  exact regsOk_of_frame rfl (nextStoreRead_frame notRegs _ _ rfl) hok

@[simp] theorem storeBytes_regsOk (s : State) (slot : Option Nat) (a : Nat) (bs : List Byte) (hok : s.regs.ok)  : (storeBytes s slot a bs).regs.ok := by
  simp (maxDischargeDepth := 60) [storeBytes, hok]

@[simp] theorem consume_regsOk (s : State) (q : Nat) (hok : s.regs.ok)  : (consume s q).regs.ok := by
  exact regsOk_of_frame rfl (consume_frame notRegs _ _ rfl) hok

@[simp] theorem finish_regsOk (s : State) (q : Nat) (c : List Byte) (status result : Nat) (hok : s.regs.ok)  : (finish s q c status result).regs.ok := by
  simp (maxDischargeDepth := 60) [finish, hok]

@[simp] theorem withCommand_regsOk (s : State) (q op : Nat) (k : List Byte → State) (hok : s.regs.ok) (h_k : ∀ (x0 : List Byte), (k x0).regs.ok) : (withCommand s q op k).regs.ok := by
  simp (maxDischargeDepth := 60) [withCommand, hok, h_k]

@[simp] theorem layImage_regsOk (s : State) (p : Parked) (r : Request) (bytes : List Byte) (hok : s.regs.ok)  : (layImage s p r bytes).regs.ok := by
  unfold layImage; (repeat' split) <;> simp_all (maxDischargeDepth := 60)

@[simp] theorem endParked_regsOk (s : State) (e : Nat) (p : Parked) (record : Bool) (hok : s.regs.ok)  : (endParked s e p record).regs.ok := by
  unfold endParked; dsimp only; (repeat' split) <;> simp (maxDischargeDepth := 60) [hok]

@[simp] theorem expireEntry_regsOk (s : State) (e t : Nat) (hok : s.regs.ok)  : (expireEntry s e t).regs.ok := by
  unfold expireEntry; (repeat' split) <;> simp (maxDischargeDepth := 60) [hok]

@[simp] theorem setArray_regsOk (s : State) (cl k : Nat) (a : ArrayState) (hok : s.regs.ok)  : (setArray s cl k a).regs.ok := by
  exact regsOk_of_frame rfl (setArray_frame notRegs _ _ _ _ rfl) hok

@[simp] theorem loadFirst_regsOk (s : State) (f : Flight) (k : Nat) (hok : s.regs.ok)  : (loadFirst s f k).regs.ok := by
  exact regsOk_of_frame rfl (loadFirst_frame notRegs _ _ _ rfl) hok

@[simp] theorem runPass_regsOk (s : State) (f : Flight) (hok : s.regs.ok)  : (runPass s f).regs.ok := by
  unfold runPass; (repeat' split) <;> simp_all (maxDischargeDepth := 60)

@[simp] theorem advanceFlight_regsOk (s : State) (id : Nat) (hok : s.regs.ok)  : (advanceFlight s id).regs.ok := by
  unfold advanceFlight; dsimp only; (repeat' split) <;> simp (maxDischargeDepth := 60) [hok]

@[simp] theorem settleUnits_regsOk (s : State) (hok : s.regs.ok)  : (settleUnits s).regs.ok := by
  unfold settleUnits; (repeat' split) <;> simp_all (maxDischargeDepth := 60)

@[simp] theorem leaveUnits_regsOk (s : State) (id : Nat) (hok : s.regs.ok)  : (leaveUnits s id).regs.ok := by
  simp (maxDischargeDepth := 60) [leaveUnits, hok]

@[simp] theorem startPass_regsOk (s : State) (cl p i e : Nat) (hok : s.regs.ok)  : (startPass s cl p i e).regs.ok := by
  unfold startPass; (repeat' split) <;> simp_all (maxDischargeDepth := 60)

@[simp] theorem finishPass_regsOk (s : State) (f : Flight) (outs : List CoreOut) (hok : s.regs.ok)  : (finishPass s f outs).regs.ok := by
  unfold finishPass; (repeat' split) <;> simp_all (maxDischargeDepth := 60)

@[simp] theorem endPass_regsOk (s : State) (f : Flight) (ops : List (Nat × List (Nat × List Byte))) (hok : s.regs.ok)  : (endPass s f ops).1.regs.ok := by
  exact regsOk_of_frame rfl (endPass_frame notRegs _ _ _ rfl rfl) hok

@[simp] theorem startMvec_regsOk (s : State) (cl p i e : Nat) (hok : s.regs.ok)  : (startMvec s cl p i e).regs.ok := by
  unfold startMvec; (repeat' split) <;> simp_all (maxDischargeDepth := 60)

@[simp] theorem finishMvec_regsOk (s : State) (f : Flight) (outs : List CoreOut) (hok : s.regs.ok)  : (finishMvec s f outs).regs.ok := by
  unfold finishMvec; (repeat' split) <;> simp_all (maxDischargeDepth := 60)

@[simp] theorem startVec_regsOk (s : State) (cl p i e : Nat) (hok : s.regs.ok)  : (startVec s cl p i e).regs.ok := by
  unfold startVec
  dsimp only
  refine advanceFlight_regsOk _ _ (issueFlight_regsOk _ _ _ _ _ _ _ _ (foldl_regsOk _ ?_ _ _ hok))
  intro s a hs
  have hp : ∀ (b : Bool) st, st.regs.ok → (if b = true then setLiveFlag st cl 0 true else st).regs.ok := by
    intro b st hst; split <;> simp (maxDischargeDepth := 60) [hst]
  have hq : ∀ st (c : Ctx) x y, st.regs.ok → (if x = true then postCtx st c Cause.optimizerStateOverflow y else st).regs.ok := by
    intro st c x y hst; split <;> simp (maxDischargeDepth := 60) [hst]
  exact hq _ _ _ _ (hp _ _ (noteCounts_regsOk _ _ _ _ _ (foldl_regsOk _ (fun s a hs => nsWriteImage_regsOk _ _ _ _ _ _ hs) _ _ (nsNote_regsOk _ _ _ hs))))

@[simp] theorem runVec_regsOk (s : State) (cl p : Nat) (mine : Nat → Bool) (hok : s.regs.ok)  : (runVec s cl p mine).regs.ok := by
  unfold runVec
  refine withEntry_regsOk _ _ _ _ _ hok ?_
  intro i e; (repeat' split) <;> simp (maxDischargeDepth := 60) [hok]

@[simp] theorem noteAllPages_regsOk (s : State) (c : Ctx) (page : Nat) (p : AttnPlan) (v : Bool) (seen : List (Nat × Nat)) (hok : s.regs.ok)  : (noteAllPages s c page p v seen).1.regs.ok := by
  unfold noteAllPages; (repeat' split) <;> simp_all (maxDischargeDepth := 60)

@[simp] theorem markList_regsOk (s : State) (k j : Nat) (dry : Bool) (hok : s.regs.ok)  : (markList s k j dry).regs.ok := by
  exact regsOk_of_frame rfl (markList_frame notRegs _ _ _ _ rfl) hok

@[simp] theorem stallEntry_regsOk (s : State) (e : Nat) (hok : s.regs.ok)  : (stallEntry s e).regs.ok := by
  unfold stallEntry
  split
  · exact hok
  · refine foldl_regsOk _ ?_ _ _ hok
    intro s id hs
    split
    · exact hs
    · split
      · simp (maxDischargeDepth := 60) [hs]
      · split <;> simp (maxDischargeDepth := 60) [hs]

@[simp] theorem appendCore_regsOk (s : State) (cl e c : Nat) (p : AttnPlan) (hok : s.regs.ok)  : (appendCore s cl e c p).1.regs.ok := by
  unfold appendCore
  have hg : ∀ (s : State) k j rows r kv vv, s.regs.ok → ((appendRow s k j rows r kv vv).getD s).regs.ok := by
    intro s k j rows r kv vv hs
    cases ha : appendRow s k j rows r kv vv with
    | none => exact hs
    | some t => exact appendRow_regsOk s k j rows r kv vv hs t ha
  dsimp only
  split
  · split
    · exact hok
    · split
      · simp (maxDischargeDepth := 60) [hok]
      · apply markList_regsOk
        refine foldl_regsOk _ ?_ _ _ (by simp (maxDischargeDepth := 60) [hok]); intro s a hs; exact hg _ _ _ _ _ _ _ hs
  · dsimp only
    refine foldl_regsOk _ ?_ _ _ hok
    intro s a hs
    split
    · exact hs
    · exact hg _ _ _ _ _ _ _ hs

@[simp] theorem refuseCore_regsOk (s : State) (cl pr i e c cause : Nat) (hok : s.regs.ok)  : (refuseCore s cl pr i e c cause).regs.ok := by
  simp (maxDischargeDepth := 60) [refuseCore, hok]

@[simp] theorem scoreCore_regsOk (a : AttnRun) (cl pr i e c : Nat) (hok : a.state.regs.ok)  : (scoreCore a cl pr i e c).state.regs.ok := by
  unfold scoreCore; dsimp only; split <;> simp (maxDischargeDepth := 60) [hok]

@[simp] theorem normaliseCore_regsOk (a : AttnRun) (cl pr i e c : Nat) (hok : a.state.regs.ok)  : (normaliseCore a cl pr i e c).state.regs.ok := by
  unfold normaliseCore; dsimp only; split <;> simp (maxDischargeDepth := 60) [hok]

@[simp] theorem valueCore_regsOk (a : AttnRun) (cl pr i e c : Nat) (hok : a.state.regs.ok)  : (valueCore a cl pr i e c).state.regs.ok := by
  unfold valueCore; dsimp only; split <;> simp (maxDischargeDepth := 60) [hok]

@[simp] theorem openSteps_regsOk (s : State) (cl e : Nat) (hok : s.regs.ok)  : (openSteps s cl e).regs.ok := by
  unfold openSteps; split
  · exact hok
  · refine foldl_regsOk _ ?_ _ _ hok
    intro s a hs; dsimp only; (repeat' split) <;> first | exact hs | simp (maxDischargeDepth := 60) [hs]

@[simp] theorem noteLists_regsOk (s : State) (e : Nat) (lists : List (Nat × Nat)) (hok : s.regs.ok)  : (noteLists s e lists).regs.ok := by
  unfold noteLists; (repeat' split) <;> simp_all (maxDischargeDepth := 60)

@[simp] theorem runAttn_regsOk (s : State) (cl p step : Nat) (core : AttnRun → Nat → Nat → Nat → AttnRun) (hok : s.regs.ok) (h_core : ∀ (x0 : AttnRun) (x1 : Nat) (x2 : Nat) (x3 : Nat), x0.state.regs.ok → (core x0 x1 x2 x3).state.regs.ok) : (runAttn s cl p step core).regs.ok := by
  unfold runAttn
  refine withEntry_regsOk _ _ _ _ _ hok ?_
  intro i e
  split
  · simp (maxDischargeDepth := 60) [hok]
  · dsimp only
    split
    · exact rejectEntry_regsOk _ _ _ _ _ _ hok
    · have h2 : ∀ (q : AttnRun), q.state.regs.ok → ((setBits (Ent.cores e) 16).foldl (fun a c => core a i e c) q).state.regs.ok := by
        intro q hq
        refine foldl_attn_regsOk _ ?_ _ _ hq
        intro s a hs; exact h_core _ _ _ _ hs
      apply issueFlight_regsOk
      by_cases hz : step = 0
      · simp only [hz, if_true]
        exact stallEntry_regsOk _ _ (h2 _ (noteLists_regsOk _ _ _ (openSteps_regsOk _ _ _ hok)))
      · simp only [hz, if_false]
        exact h2 _ (noteLists_regsOk _ _ _ hok)

@[simp] theorem actRowOf_regsOk (s : State) (cl p i e row : Nat) (hok : s.regs.ok)  : (actRowOf s cl p i e row).1.regs.ok := by
  unfold actRowOf; dsimp only; (repeat' split) <;> simp (maxDischargeDepth := 60) [hok]

@[simp] theorem doRow_regsOk (s : State) (cl p i e row : Nat) (hok : s.regs.ok)  : (doRow s cl p i e row).1.regs.ok := by
  unfold doRow
  split <;> simp (maxDischargeDepth := 60) [hok]

@[simp] theorem putRows_regsOk (s : State) (c : Ctx) (cl core byte : Nat) (bs : List Byte) (hok : s.regs.ok)  : (putRows s c cl core byte bs).regs.ok := by
  simp (maxDischargeDepth := 60) [putRows, hok]

@[simp] theorem postNoRoute_regsOk (s : State) (c : Ctx) (tag pkg : Nat) (hok : s.regs.ok)  : (postNoRoute s c tag pkg).regs.ok := by
  simp (maxDischargeDepth := 60) [postNoRoute, hok]

@[simp] theorem sendTo_regsOk (s : State) (cl e owner : Nat) (c : Ctx) (pkg ep turn : Nat) (blocks : List XBlock) (hok : s.regs.ok)  : (sendTo s cl e owner c pkg ep turn blocks).regs.ok := by
  unfold sendTo; (repeat' split) <;> simp_all (maxDischargeDepth := 60)

@[simp] theorem sendMirror_regsOk (s : State) (cl e owner : Nat) (c : Ctx) (r : RouteEntry) (data : List Byte) (hok : s.regs.ok)  : (sendMirror s cl e owner c r data).regs.ok := by
  simp (maxDischargeDepth := 60) [sendMirror, hok]

@[simp] theorem withXchg_regsOk (s : State) (cl p : Nat) (mine : Nat → Bool) (k : State → Nat → Nat → State × Work) (hok : s.regs.ok) (h_k : ∀ (x0 : State) (x1 : Nat) (x2 : Nat), x0.regs.ok → (k x0 x1 x2).1.regs.ok) : (withXchg s cl p mine k).regs.ok := by
  unfold withXchg
  refine withEntry_regsOk _ _ _ _ _ hok ?_
  intro i e
  split
  · simp (maxDischargeDepth := 60) [hok]
  · split
    · simp (maxDischargeDepth := 60) [hok]
    · split
      · simp (maxDischargeDepth := 60) [hok]
      · exact setWork_regsOk _ _ _ (h_k _ _ _ (issueFlight_regsOk _ _ _ _ _ _ _ _ hok))

@[simp] theorem xNote_regsOk (s : State) (cl p i e : Nat) (hok : s.regs.ok)  : (xNote s cl p i e).regs.ok := by
  simp (maxDischargeDepth := 60) [xNote, hok]

@[simp] theorem sendGroups_regsOk (s : State) (cl e owner : Nat) (c : Ctx) (bs : List XBlock) (hok : s.regs.ok)  : (sendGroups s cl e owner c bs).regs.ok := by
  unfold sendGroups; (repeat' split) <;> simp_all (maxDischargeDepth := 60)

@[simp] theorem skipBad_regsOk (s : State) (c : Ctx) (at' : Nat) (rs : List RouteEntry) (ok : RouteEntry → Bool) (hok : s.regs.ok)  : (skipBad s c at' rs ok).regs.ok := by
  unfold skipBad; (repeat' split) <;> simp_all (maxDischargeDepth := 60)

@[simp] theorem fixedRows_regsOk (s : State) (cl p i e owner : Nat) (hok : s.regs.ok)  : (fixedRows s cl p i e owner).regs.ok := by
  unfold fixedRows; (repeat' split) <;> simp_all (maxDischargeDepth := 60)

@[simp] theorem dispatchRows_regsOk (s : State) (cl p i e owner : Nat) (hok : s.regs.ok)  : (dispatchRows s cl p i e owner).regs.ok := by
  simp (maxDischargeDepth := 60) [dispatchRows, hok]

@[simp] theorem returnBlocks_regsOk (s : State) (cl p i e owner : Nat) (hok : s.regs.ok)  : (returnBlocks s cl p i e owner).regs.ok := by
  simp (maxDischargeDepth := 60) [returnBlocks, hok]

@[simp] theorem dropParting_regsOk (s : State) (f : Frame) (hok : s.regs.ok)  : (dropParting s f).regs.ok := by
  unfold dropParting; (repeat' split) <;> simp (maxDischargeDepth := 60) [hok]

@[simp] theorem admitFrame_regsOk (s : State) (l : Nat) (f : Frame) (near : Bool) (k : State → State) (hok : s.regs.ok) (h_k : ∀ (x0 : State), x0.regs.ok → (k x0).regs.ok) : (admitFrame s l f near k).regs.ok := by
  simp (maxDischargeDepth := 60) [admitFrame, hok, h_k]

@[simp] theorem receiveFrame_regsOk (s : State) (l : Nat) (f : Frame) (a : Arrival) (type : Nat) (near : Bool) (k : State → State) (hok : s.regs.ok) (h_k : ∀ (x0 : State), x0.regs.ok → (k x0).regs.ok) : (receiveFrame s l f a type near k).regs.ok := by
  unfold receiveFrame; (repeat' split) <;> simp_all (maxDischargeDepth := 60)

@[simp] theorem countXchg_regsOk (s : State) (f : Frame) (cl core : Nat) (hok : s.regs.ok)  : (countXchg s f cl core).regs.ok := by
  simp (maxDischargeDepth := 60) [countXchg, hok]

@[simp] theorem finishMirror_regsOk (s : State) (m : MirrorCount) (hok : s.regs.ok)  : (finishMirror s m).regs.ok := by
  unfold finishMirror; (repeat' split) <;> simp (maxDischargeDepth := 60) [hok]

@[simp] theorem finishMirrors_regsOk (s : State) (hok : s.regs.ok)  : (finishMirrors s).regs.ok := by
  unfold finishMirrors; (repeat' split) <;> simp_all (maxDischargeDepth := 60)

@[simp] theorem mirrorRows_regsOk (s : State) (a off : Nat) (bs : List Byte) (hok : s.regs.ok)  : (mirrorRows s a off bs).regs.ok := by
  simp (maxDischargeDepth := 60) [mirrorRows, hok]

@[simp] theorem takeMirror_regsOk (s : State) (l : Nat) (f : Frame) (hok : s.regs.ok)  : (takeMirror s l f).regs.ok := by
  simp (maxDischargeDepth := 60) [takeMirror, hok]

@[simp] theorem noteAck_regsOk (s : State) (f : Frame) (ep : Nat) (hok : s.regs.ok)  : (noteAck s f ep).regs.ok := by
  exact regsOk_of_frame rfl (noteAck_frame notRegs _ _ _ rfl) hok

@[simp] theorem takeXchg_regsOk (s : State) (l : Nat) (f : Frame) (tagOk : Bool) (hok : s.regs.ok)  : (takeXchg s l f tagOk).regs.ok := by
  simp (maxDischargeDepth := 60) [takeXchg, hok]

@[simp] theorem setChState_regsOk (s : State) (w k v : Nat) (hok : s.regs.ok)  : (setChState s w k v).regs.ok := by
  simp (maxDischargeDepth := 60) [setChState, hok]

@[simp] theorem upset_regsOk (s : State) (u : Upset) (hok : s.regs.ok)  : (upset s u).regs.ok := by
  unfold upset; (repeat' split) <;> simp (maxDischargeDepth := 60) [hok]

@[simp] theorem noteDevEcc_regsOk (s : State) (x : Nat × Nat) (hok : s.regs.ok)  : (noteDevEcc s x).regs.ok := by
  simp (maxDischargeDepth := 60) [noteDevEcc, hok]

@[simp] theorem zeroRange_regsOk (s : State) (w base size : Nat) (hok : s.regs.ok)  : (zeroRange s w base size).regs.ok := by
  exact regsOk_of_frame rfl (zeroRange_frame notRegs _ _ _ _ rfl) hok

@[simp] theorem setSandHead_regsOk (s : State) (w : Nat) (r : Option SandRange) (hok : s.regs.ok)  : (setSandHead s w r).regs.ok := by
  exact regsOk_of_frame rfl (setSandHead_frame notRegs _ _ _ rfl) hok

@[simp] theorem sandUnits_regsOk (s : State) (w units : Nat) (r : SandRange) (hok : s.regs.ok)  : (sandUnits s w units r).regs.ok := by
  simp (maxDischargeDepth := 60) [sandUnits, hok]

@[simp] theorem copyEpoch_regsOk (s : State) (d k e : Nat) (hok : s.regs.ok)  : (copyEpoch s d k e).regs.ok := by
  simp (maxDischargeDepth := 60) [copyEpoch, hok]

@[simp] theorem startSweep_regsOk (s : State) (k : Nat) (hok : s.regs.ok)  : (startSweep s k).regs.ok := by
  unfold startSweep; (repeat' split) <;> simp_all (maxDischargeDepth := 60)

@[simp] theorem advanceEpoch_regsOk (s : State) (k : Nat) (hok : s.regs.ok)  : (advanceEpoch s k).regs.ok := by
  simp (maxDischargeDepth := 60) [advanceEpoch, hok]

@[simp] theorem sweepTags_regsOk (s : State) (d k : Nat) (hok : s.regs.ok)  : (sweepTags s d k).regs.ok := by
  exact regsOk_of_frame rfl (sweepTags_frame notRegs _ _ _ rfl) hok

@[simp] theorem setPwrBit_regsOk (s : State) (b : Nat) (v : Bool) (hok : s.regs.ok)  : (setPwrBit s b v).regs.ok := by
  simp (maxDischargeDepth := 60) [setPwrBit, hok]

@[simp] theorem postPwr_regsOk (s : State) (cause op1 tag : Nat) (hok : s.regs.ok)  : (postPwr s cause op1 tag).regs.ok := by
  simp (maxDischargeDepth := 60) [postPwr, hok]

@[simp] theorem countSilent_regsOk (s : State) (i : Nat) (r : Option Nat) (hok : s.regs.ok)  : (countSilent s i r).regs.ok := by
  exact regsOk_of_frame rfl (countSilent_frame notRegs _ _ _ rfl) hok

@[simp] theorem showLost_regsOk (s : State) (hok : s.regs.ok)  : (showLost s).regs.ok := by
  simp (maxDischargeDepth := 60) [showLost, hok]

@[simp] theorem noteLostRail_regsOk (s : State) (i : Nat) (hok : s.regs.ok)  : (noteLostRail s i).regs.ok := by
  simp (maxDischargeDepth := 60) [noteLostRail, hok]

@[simp] theorem railPower_regsOk (s : State) (i est : Nat) (r : Option Nat) (hok : s.regs.ok)  : (railPower s i est r).1.regs.ok := by
  exact regsOk_of_frame rfl (railPower_frame notRegs _ _ _ _ rfl) hok

@[simp] theorem measure_regsOk (s : State) (r : LoopReadings) (hok : s.regs.ok)  : (measure s r).1.regs.ok := by
  unfold measure; (repeat' split) <;> simp_all (maxDischargeDepth := 60)

@[simp] theorem addEnergy_regsOk (s : State) (p : Nat) (hok : s.regs.ok)  : (addEnergy s p).regs.ok := by
  simp (maxDischargeDepth := 60) [addEnergy, hok]

@[simp] theorem notePower_regsOk (s : State) (p est : Nat) (hok : s.regs.ok)  : (notePower s p est).regs.ok := by
  simp (maxDischargeDepth := 60) [notePower, hok]

@[simp] theorem noteDisagree_regsOk (s : State) (p est : Nat) (hok : s.regs.ok)  : (noteDisagree s p est).regs.ok := by
  simp (maxDischargeDepth := 60) [noteDisagree, hok]

@[simp] theorem checkDisagree_regsOk (s : State) (hok : s.regs.ok)  : (checkDisagree s).regs.ok := by
  simp (maxDischargeDepth := 60) [checkDisagree, hok]

@[simp] theorem withhold_regsOk (s : State) (d k : Nat) (hok : s.regs.ok)  : (withhold s d k).regs.ok := by
  simp (maxDischargeDepth := 60) [withhold, hok]

@[simp] theorem setOffset_regsOk (s : State) (d k v : Nat) (hok : s.regs.ok)  : (setOffset s d k v).regs.ok := by
  exact regsOk_of_frame rfl (setOffset_frame notRegs _ _ _ _ rfl) hok

@[simp] theorem raiseOffset_regsOk (s : State) (d k v : Nat) (hok : s.regs.ok)  : (raiseOffset s d k v).regs.ok := by
  simp (maxDischargeDepth := 60) [raiseOffset, hok]

@[simp] theorem showOffsets_regsOk (s : State) (hok : s.regs.ok)  : (showOffsets s).regs.ok := by
  simp (maxDischargeDepth := 60) [showOffsets, hok]

@[simp] theorem marginAlarm_regsOk (s : State) (d : Nat) (hok : s.regs.ok)  : (marginAlarm s d).regs.ok := by
  simp (maxDischargeDepth := 60) [marginAlarm, hok]

@[simp] theorem noteMargins_regsOk (s : State) (r : LoopReadings) (hok : s.regs.ok)  : (noteMargins s r).regs.ok := by
  unfold noteMargins; (repeat' split) <;> simp_all (maxDischargeDepth := 60)

@[simp] theorem writeRecord_regsOk (s : State) (os : List (Nat × Nat)) (hok : s.regs.ok)  : (writeRecord s os).regs.ok := by
  exact regsOk_of_frame rfl (writeRecord_frame notRegs _ _ rfl) hok

@[simp] theorem makeReplan_regsOk (s : State) (turn : Nat) (hok : s.regs.ok)  : (makeReplan s turn).regs.ok := by
  exact regsOk_of_frame rfl (makeReplan_frame notRegs _ _ rfl) hok

@[simp] theorem applyReplan_regsOk (s : State) (t : Nat) (hok : s.regs.ok)  : (applyReplan s t).regs.ok := by
  unfold applyReplan; (repeat' split) <;> simp_all (maxDischargeDepth := 60)

@[simp] theorem noteHours_regsOk (s : State) (hok : s.regs.ok)  : (noteHours s).regs.ok := by
  simp (maxDischargeDepth := 60) [noteHours, hok]

@[simp] theorem noteTemps_regsOk (s : State) (r : LoopReadings) (hok : s.regs.ok)  : (noteTemps s r).regs.ok := by
  unfold noteTemps; (repeat' split) <;> simp_all (maxDischargeDepth := 60)

@[simp] theorem showPace_regsOk (s : State) (hok : s.regs.ok)  : (showPace s).regs.ok := by
  simp (maxDischargeDepth := 60) [showPace, hok]

@[simp] theorem throttle_regsOk (s : State) (tj mem : Nat) (hok : s.regs.ok)  : (throttle s tj mem).regs.ok := by
  simp (maxDischargeDepth := 60) [throttle, hok]

@[simp] theorem capRules_regsOk (s : State) (r : LoopReadings) (p' : Nat) (hok : s.regs.ok)  : (capRules s r p').regs.ok := by
  exact regsOk_of_frame rfl (capRules_frame notRegs _ _ _ rfl) hok

@[simp] theorem capUnmet_regsOk (s : State) (hok : s.regs.ok)  : (capUnmet s).regs.ok := by
  simp (maxDischargeDepth := 60) [capUnmet, hok]

@[simp] theorem noteSense_regsOk (s : State) (p : Nat) (x : Int × Bool) (hok : s.regs.ok)  : (noteSense s p x).regs.ok := by
  simp (maxDischargeDepth := 60) [noteSense, hok]

@[simp] theorem noteDiode_regsOk (s : State) (mv : Nat) (hok : s.regs.ok)  : (noteDiode s mv).regs.ok := by
  simp (maxDischargeDepth := 60) [noteDiode, hok]

@[simp] theorem findRail_regsOk (s : State) (p : Nat) (hok : s.regs.ok)  : (findRail s p).regs.ok := by
  exact regsOk_of_frame rfl (findRail_frame notRegs _ _ rfl) hok

@[simp] theorem findRails_regsOk (s : State) (r : LoopReadings) (hok : s.regs.ok)  : (findRails s r).regs.ok := by
  exact regsOk_of_frame rfl (findRails_frame notRegs _ _ rfl) hok

@[simp] theorem askTime_regsOk (s : State) (hok : s.regs.ok)  : (askTime s).regs.ok := by
  simp (maxDischargeDepth := 60) [askTime, hok]

@[simp] theorem showLive_regsOk (s : State) (hok : s.regs.ok)  : (showLive s).regs.ok := by
  simp (maxDischargeDepth := 60) [showLive, hok]

@[simp] theorem endInterval_regsOk (s : State) (hok : s.regs.ok)  : (endInterval s).regs.ok := by
  exact regsOk_of_frame rfl (endInterval_frame notRegs _ rfl) hok

@[simp] theorem loseMemories_regsOk (s : State) (hok : s.regs.ok)  : (loseMemories s).regs.ok := by
  simp (maxDischargeDepth := 60) [loseMemories, hok]

@[simp] theorem setTarget_regsOk (s : State) (n : Nat) (t : Option Target) (hok : s.regs.ok)  : (setTarget s n t).regs.ok := by
  exact regsOk_of_frame rfl (setTarget_frame notRegs _ _ _ rfl) hok

@[simp] theorem postStorage_regsOk (s : State) (slot : Option Nat) (a at' : Nat) (r : Nat × Option Nat) (hok : s.regs.ok)  : (postStorage s slot a at' r).regs.ok := by
  simp (maxDischargeDepth := 60) [postStorage, hok]

@[simp] theorem setLoad_regsOk (s : State) (l : Load) (hok : s.regs.ok)  : (setLoad s l).regs.ok := by
  exact regsOk_of_frame rfl (setLoad_frame notRegs _ _ rfl) hok

@[simp] theorem issueExtents_regsOk (s : State) (id : Nat) (y0 : Nat) (hok : s.regs.ok)  : (issueExtents s id y0).regs.ok := by
  exact regsOk_of_frame rfl (issueExtents_frame notRegs _ _ _ rfl) hok

@[simp] theorem issueLoad_regsOk (s : State) (id : Nat) (hok : s.regs.ok)  : (issueLoad s id).regs.ok := by
  exact regsOk_of_frame rfl (issueLoad_frame notRegs _ _ rfl) hok

@[simp] theorem endLoad_regsOk (s : State) (l : Load) (hok : s.regs.ok)  : (endLoad s l).regs.ok := by
  simp (maxDischargeDepth := 60) [endLoad, hok]

@[simp] theorem startDescs_regsOk (s : State) (id : Nat) (y0 : Nat) (hok : s.regs.ok)  : (startDescs s id y0).regs.ok := by
  induction y0 generalizing s with
  | zero => unfold startDescs; split <;> first | exact hok | simp (maxDischargeDepth := 60) [hok]
  | succ n ih => unfold startDescs; dsimp only; (repeat' split) <;> first | exact hok | (apply ih; simp (maxDischargeDepth := 60) [hok]) | simp (maxDischargeDepth := 60) [hok]

@[simp] theorem settleLoad_regsOk (s : State) (id : Nat) (hok : s.regs.ok)  : (settleLoad s id).regs.ok := by
  unfold settleLoad; (repeat' split) <;> simp (maxDischargeDepth := 60) [hok]

@[simp] theorem putExtent_regsOk (s : State) (slot : Option Nat) (a : Nat) (bs : List Byte) (hok : s.regs.ok)  : (putExtent s slot a bs).1.regs.ok := by
  simp (maxDischargeDepth := 60) [putExtent, hok]

@[simp] theorem withFar_regsOk (s : State) (tag op target a raddr exts : Nat) (write : Bool) (k : State → Option Nat → State) (hok : s.regs.ok) (h_k : ∀ (x0 : State) (x1 : Option Nat), x0.regs.ok → (k x0 x1).regs.ok) : (withFar s tag op target a raddr exts write k).regs.ok := by
  unfold withFar; (repeat' split) <;> simp (maxDischargeDepth := 60) [hok, h_k]

@[simp] theorem addFar_regsOk (s : State) (put : Bool) (target a raddr rkey exts : Nat) (slot : Option Nat) (serial : Nat) (hok : s.regs.ok)  : (addFar s put target a raddr rkey exts slot serial).regs.ok := by
  exact regsOk_of_frame rfl (addFar_frame notRegs _ _ _ _ _ _ _ _ _ rfl) hok

@[simp] theorem postSlot_regsOk (s : State) (slot : Option Nat) (cause op1 count : Nat) (hok : s.regs.ok)  : (postSlot s slot cause op1 count).regs.ok := by
  simp (maxDischargeDepth := 60) [postSlot, hok]

@[simp] theorem farExtent_regsOk (s : State) (x : FarXfer) (i : Nat) (e : ExtentEnd) (hok : s.regs.ok)  : (farExtent s x i e).1.regs.ok := by
  unfold farExtent; (repeat' split) <;> simp (maxDischargeDepth := 60) [hok]

@[simp] theorem withHost_regsOk (s : State) (tag op a n slot : Nat) (store : Bool) (k : State → Option Nat → State) (hok : s.regs.ok) (h_k : ∀ (x0 : State) (x1 : Option Nat), x0.regs.ok → (k x0 x1).regs.ok) : (withHost s tag op a n slot store k).regs.ok := by
  unfold withHost; dsimp only; (repeat' split) <;> simp (maxDischargeDepth := 60) [hok, h_k]

@[simp] theorem addHost_regsOk (s : State) (x : HostXfer) (hok : s.regs.ok)  : (addHost s x).regs.ok := by
  exact regsOk_of_frame rfl (addHost_frame notRegs _ _ rfl) hok

@[simp] theorem fetchBytes_regsOk (s : State) (x : HostXfer) (hok : s.regs.ok)  : (fetchBytes s x).regs.ok := by
  unfold fetchBytes; (repeat' split) <;> simp_all (maxDischargeDepth := 60)

@[simp] theorem startFetch_regsOk (s : State) (x : HostXfer) (hok : s.regs.ok)  : (startFetch s x).regs.ok := by
  simp (maxDischargeDepth := 60) [startFetch, hok]

@[simp] theorem endHost_regsOk (s : State) (n : Nat) (store : Bool) (cause : Nat) (hok : s.regs.ok)  : (endHost s n store cause).regs.ok := by
  unfold endHost; (repeat' split) <;> simp (maxDischargeDepth := 60) [hok]

@[simp] theorem joinBucket_regsOk (s : State) (tag : Nat) (l : List Byte) (hok : s.regs.ok)  : (joinBucket s tag l).regs.ok := by
  exact regsOk_of_frame rfl (joinBucket_frame notRegs _ _ _ rfl) hok

@[simp] theorem leaveBucket_regsOk (s : State) (tag own : Nat) (hok : s.regs.ok)  : (leaveBucket s tag own).regs.ok := by
  exact regsOk_of_frame rfl (leaveBucket_frame notRegs _ _ _ rfl) hok

@[simp] theorem writeShard_regsOk (s : State) (f : Flight) (r : RedWork) (vs : List Num) (hok : s.regs.ok)  : (writeShard s f r vs).regs.ok := by
  simp (maxDischargeDepth := 60) [writeShard, hok]

@[simp] theorem writeNaNShard_regsOk (s : State) (f : Flight) (r : RedWork) (hok : s.regs.ok)  : (writeNaNShard s f r).regs.ok := by
  simp (maxDischargeDepth := 60) [writeNaNShard, hok]

@[simp] theorem orderedShard_regsOk (s : State) (f : Flight) (r : RedWork) (hok : s.regs.ok)  : (orderedShard s f r).regs.ok := by
  simp (maxDischargeDepth := 60) [orderedShard, hok]

@[simp] theorem takeTurn_regsOk (s : State) (id d : Nat) (hok : s.regs.ok)  : (takeTurn s id d).regs.ok := by
  exact regsOk_of_frame rfl (takeTurn_frame notRegs _ _ _ rfl) hok

@[simp] theorem sendRed_regsOk (s : State) (f : Flight) (fr : Frame) (hok : s.regs.ok)  : (sendRed s f fr).1.regs.ok := by
  simp (maxDischargeDepth := 60) [sendRed, hok]

@[simp] theorem sendAll_regsOk (s : State) (f : Flight) (frs : List Frame) (hok : s.regs.ok)  : (sendAll s f frs).1.regs.ok := by
  unfold sendAll; (repeat' split) <;> simp_all (maxDischargeDepth := 60)

@[simp] theorem postRed_regsOk (s : State) (f : Flight) (cause tag pkg : Nat) (hok : s.regs.ok)  : (postRed s f cause tag pkg).regs.ok := by
  simp (maxDischargeDepth := 60) [postRed, hok]

@[simp] theorem noteHop_regsOk (s : State) (f : Flight) (c : Counts) (hok : s.regs.ok)  : (noteHop s f c).regs.ok := by
  simp (maxDischargeDepth := 60) [noteHop, hok]

@[simp] theorem fsyncAt_regsOk (s : State) (f : Flight) (r : RedWork) (h : RedHead) (hok : s.regs.ok)  : (fsyncAt s f r h).1.regs.ok := by
  unfold fsyncAt; (repeat' split) <;> simp_all (maxDischargeDepth := 60)

@[simp] theorem orderedAt_regsOk (s : State) (f : Flight) (r : RedWork) (fr : Frame) (h : RedHead) (n : Nat) (hok : s.regs.ok)  : (orderedAt s f r fr h n).regs.ok := by
  unfold orderedAt; dsimp only; (repeat' split) <;> simp (maxDischargeDepth := 60) [hok]

@[simp] theorem ringAt_regsOk (s : State) (f : Flight) (r : RedWork) (fr : Frame) (h : RedHead) (o n : Nat) (hok : s.regs.ok)  : (ringAt s f r fr h o n).1.regs.ok := by
  simp (maxDischargeDepth := 60) [ringAt, hok]

@[simp] theorem mismatchAt_regsOk (s : State) (f : Flight) (r : RedWork) (fr : Frame) (h : RedHead) (o n : Nat) (hok : s.regs.ok)  : (mismatchAt s f r fr h o n).1.regs.ok := by
  simp (maxDischargeDepth := 60) [mismatchAt, hok]

@[simp] theorem redAt_regsOk (s : State) (f : Flight) (r : RedWork) (fr : Frame) (hok : s.regs.ok)  : (redAt s f r fr).1.regs.ok := by
  unfold redAt; dsimp only; (repeat' split) <;> simp (maxDischargeDepth := 60) [hok]

@[simp] theorem holdRx_regsOk (s : State) (l : Nat) (f : Frame) (hok : s.regs.ok)  : (holdRx s l f).regs.ok := by
  exact regsOk_of_frame rfl (holdRx_frame notRegs _ _ _ rfl) hok

@[simp] theorem runHops_regsOk (s : State) (y0 : Nat) (y1 : List Hop) (hok : s.regs.ok)  : (runHops s y0 y1).regs.ok := by
  induction y0 generalizing s y1 with
  | zero => exact hok
  | succ n ih =>
    cases y1 with
    | nil => exact hok
    | cons x xs =>
      unfold runHops; dsimp only
      split
      · exact ih _ _ hok
      · split
        · exact ih _ _ (holdRx_regsOk _ _ _ hok)
        · apply ih; apply redAt_regsOk; split
          · exact hok
          · simp (maxDischargeDepth := 60) [hok]

@[simp] theorem flagFrames_regsOk (s : State) (f : Flight) (r : RedWork) (xs : List StartFrame) (hok : s.regs.ok)  : (flagFrames s f r xs).1.regs.ok := by
  unfold flagFrames; (repeat' split) <;> simp_all (maxDischargeDepth := 60)

@[simp] theorem dropHeld_regsOk (s : State) (cl core tag : Nat) (hok : s.regs.ok)  : (dropHeld s cl core tag).regs.ok := by
  exact regsOk_of_frame rfl (dropHeld_frame notRegs _ _ _ _ rfl) hok

@[simp] theorem checkReach_regsOk (s : State) (f : Flight) (frs : List Frame) (r : RedWork) (hok : s.regs.ok)  : (checkReach s f frs r).regs.ok := by
  unfold checkReach; (repeat' split) <;> simp_all (maxDischargeDepth := 60)

@[simp] theorem startReduce_regsOk (s : State) (cl p i e : Nat) (l : List Byte) (hok : s.regs.ok)  : (startReduce s cl p i e l).regs.ok := by
  unfold startReduce
  extract_lets ms P own me prev total fs r id core c lines s1 s2
  have h1 : s1.regs.ok := joinBucket_regsOk _ _ _ (nsNote_regsOk _ _ _ hok)
  have h2 : s2.regs.ok := issueFlight_regsOk _ _ _ _ _ _ _ _ h1
  clear_value s2
  split
  · exact h2
  · split
    · split
      · apply setWork_regsOk; refine foldl_regsOk _ ?_ _ _ h2; intro s a hs; exact setSyncFlag_regsOk _ _ _ _ hs
      · exact writeShard_regsOk _ _ _ _ h2
    · apply runHops_regsOk; apply dropHeld_regsOk; apply sendAll_regsOk; apply setWork_regsOk; apply checkReach_regsOk; exact flagFrames_regsOk _ _ _ _ h2

@[simp] theorem withReduce_regsOk (s : State) (cl p : Nat) (mine : Nat → Bool) (hok : s.regs.ok)  : (withReduce s cl p mine).regs.ok := by
  unfold withReduce
  refine withEntry_regsOk _ _ _ _ _ hok ?_
  intro i e
  dsimp only
  (repeat' split) <;> simp (maxDischargeDepth := 60) [hok]

@[simp] theorem endReduce_regsOk (s : State) (f : Flight) (r : RedWork) (hok : s.regs.ok)  : (endReduce s f r).regs.ok := by
  simp (maxDischargeDepth := 60) [endReduce, hok]

@[simp] theorem takeReduce_regsOk (s : State) (l : Nat) (f : Frame) (hok : s.regs.ok)  : (takeReduce s l f).regs.ok := by
  unfold takeReduce; (repeat' split) <;> simp (maxDischargeDepth := 60) [hok]

@[simp] theorem stompAdder_regsOk (s : State) (l : Nat) (f : Frame) (a : Arrival) (hok : s.regs.ok)  : (stompAdder s l f a).regs.ok := by
  unfold stompAdder; (repeat' split) <;> simp (maxDischargeDepth := 60) [hok]

@[simp] theorem setSource_regsOk (s : State) (id : Nat) (g : GatherWork) (src : GatherSource) (hok : s.regs.ok)  : (setSource s id g src).regs.ok := by
  exact regsOk_of_frame rfl (setSource_frame notRegs _ _ _ _ rfl) hok

@[simp] theorem noteStale_regsOk (s : State) (id core pkg found : Nat) (hok : s.regs.ok)  : (noteStale s id core pkg found).regs.ok := by
  unfold noteStale; (repeat' split) <;> simp (maxDischargeDepth := 60) [hok]

@[simp] theorem imageCame_regsOk (s : State) (id : Nat) (src : GatherSource) (data : List Byte) (stale : Option Nat) (hok : s.regs.ok)  : (imageCame s id src data stale).regs.ok := by
  unfold imageCame; (repeat' split) <;> simp (maxDischargeDepth := 60) [hok]

@[simp] theorem imageRefused_regsOk (s : State) (id : Nat) (src : GatherSource) (hok : s.regs.ok)  : (imageRefused s id src).regs.ok := by
  unfold imageRefused; (repeat' split) <;> simp (maxDischargeDepth := 60) [hok]

@[simp] theorem gatherLocal_regsOk (s : State) (id : Nat) (src : GatherSource) (hok : s.regs.ok)  : (gatherLocal s id src).regs.ok := by
  unfold gatherLocal; dsimp only; (repeat' split) <;> simp (maxDischargeDepth := 60) [hok]

@[simp] theorem gatherRemote_regsOk (s : State) (id turn : Nat) (src : GatherSource) (hok : s.regs.ok)  : (gatherRemote s id turn src).regs.ok := by
  unfold gatherRemote; (repeat' split) <;> simp (maxDischargeDepth := 60) [hok]

@[simp] theorem sendBack_regsOk (s : State) (f : Frame) (fs : List Frame) (hok : s.regs.ok)  : (sendBack s f fs).regs.ok := by
  simp (maxDischargeDepth := 60) [sendBack, hok]

@[simp] theorem answerGather_regsOk (s : State) (c : Ctx) (f : Frame) (n : Nat) (hok : s.regs.ok)  : (answerGather s c f n).regs.ok := by
  unfold answerGather; (repeat' split) <;> simp (maxDischargeDepth := 60) [hok]

@[simp] theorem askImage_regsOk (s : State) (f : Frame) (hok : s.regs.ok)  : (askImage s f).regs.ok := by
  simp (maxDischargeDepth := 60) [askImage, hok]

@[simp] theorem takeGatherReq_regsOk (s : State) (l : Nat) (f : Frame) (hok : s.regs.ok)  : (takeGatherReq s l f).regs.ok := by
  simp (maxDischargeDepth := 60) [takeGatherReq, hok]

@[simp] theorem takeGatherResp_regsOk (s : State) (l : Nat) (f : Frame) (hok : s.regs.ok)  : (takeGatherResp s l f).regs.ok := by
  unfold takeGatherResp; dsimp only; (repeat' split) <;> simp (maxDischargeDepth := 60) [hok]

@[simp] theorem gatherNote_regsOk (s : State) (cl p i e k n : Nat) (hok : s.regs.ok)  : (gatherNote s cl p i e k n).regs.ok := by
  simp (maxDischargeDepth := 60) [gatherNote, hok]

@[simp] theorem startGather_regsOk (s : State) (cl p i e : Nat) (hok : s.regs.ok)  : (startGather s cl p i e).regs.ok := by
  unfold startGather; (repeat' split) <;> simp_all (maxDischargeDepth := 60)

@[simp] theorem withControl_regsOk (s : State) (cl p t : Nat) (k : Nat → Nat → State) (hok : s.regs.ok) (h_k : ∀ (x0 : Nat) (x1 : Nat), (k x0 x1).regs.ok) : (withControl s cl p t k).regs.ok := by
  simp (maxDischargeDepth := 60) [withControl, hok, h_k]

@[simp] theorem holdProg_regsOk (s : State) (cl p code cause : Nat) (w : Wait) (hok : s.regs.ok)  : (holdProg s cl p code cause w).regs.ok := by
  simp (maxDischargeDepth := 60) [holdProg, hok]

@[simp] theorem setBase_regsOk (s : State) (cl p t : Nat) (hok : s.regs.ok)  : (setBase s cl p t).regs.ok := by
  exact regsOk_of_frame rfl (setBase_frame notRegs _ _ _ _ rfl) hok

@[simp] theorem timeoutProg_regsOk (s : State) (cl p : Nat) (hok : s.regs.ok)  : (timeoutProg s cl p).regs.ok := by
  unfold timeoutProg; (repeat' split) <;> simp (maxDischargeDepth := 60) [hok]

@[simp] theorem writeLossScale_regsOk (s : State) (cl : Nat) (sigma : Int) (hok : s.regs.ok)  : (writeLossScale s cl sigma).regs.ok := by
  simp (maxDischargeDepth := 60) [writeLossScale, hok]

@[simp] theorem updateLossScale_regsOk (s : State) (c : Ctx) (cl : Nat) (hok : s.regs.ok)  : (updateLossScale s c cl).regs.ok := by
  simp (maxDischargeDepth := 60) [updateLossScale, hok]

@[simp] theorem refuseMove_regsOk (s : State) (cl p i : Nat) (r : (Nat × Option Nat) × Nat) (hok : s.regs.ok)  : (refuseMove s cl p i r).regs.ok := by
  simp (maxDischargeDepth := 60) [refuseMove, hok]

@[simp] theorem noteSource_regsOk (s : State) (cl p i e : Nat) (hok : s.regs.ok)  : (noteSource s cl p i e).regs.ok := by
  simp (maxDischargeDepth := 60) [noteSource, hok]

@[simp] theorem withMove_regsOk (s : State) (cl p : Nat) (mine : Nat → Bool) (k : Nat → Nat → State) (hok : s.regs.ok) (h_k : ∀ (x0 : Nat) (x1 : Nat), (k x0 x1).regs.ok) : (withMove s cl p mine k).regs.ok := by
  simp (maxDischargeDepth := 60) [withMove, hok, h_k]

@[simp] theorem tokenOnly_regsOk (s : State) (cl p i e : Nat) (hok : s.regs.ok)  : (tokenOnly s cl p i e).regs.ok := by
  simp (maxDischargeDepth := 60) [tokenOnly, hok]

@[simp] theorem deliverMove_regsOk (s : State) (f : Flight) (bs : List Byte) (hok : s.regs.ok)  : (deliverMove s f bs).1.regs.ok := by
  unfold deliverMove; dsimp only; (repeat' split) <;> simp (maxDischargeDepth := 60) [hok]

@[simp] theorem endPiece_regsOk (s : State) (cl ctr : Nat) (post' ok : Bool) (dst src : Nat) (slot : Option Nat) (hok : s.regs.ok)  : (endPiece s cl ctr post' ok dst src slot).regs.ok := by
  simp (maxDischargeDepth := 60) [endPiece, hok]

@[simp] theorem localPiece_regsOk (s : State) (w : Nat) (d : SwitchDesc) (slot : Option Nat) (bs : List Byte) (hok : s.regs.ok)  : (localPiece s w d slot bs).regs.ok := by
  simp (maxDischargeDepth := 60) [localPiece, hok]

@[simp] theorem sendPiece_regsOk (s : State) (w : Nat) (d : SwitchDesc) (slot : Option Nat) (bs : List Byte) (hok : s.regs.ok)  : (sendPiece s w d slot bs).regs.ok := by
  simp (maxDischargeDepth := 60) [sendPiece, hok]

@[simp] theorem takePiece_regsOk (s : State) (l : Nat) (f : Frame) (hok : s.regs.ok)  : (takePiece s l f).regs.ok := by
  simp (maxDischargeDepth := 60) [takePiece, hok]

@[simp] theorem endPlan_regsOk (s : State) (w st : Nat) (hok : s.regs.ok)  : (endPlan s w st).regs.ok := by
  simp (maxDischargeDepth := 60) [endPlan, hok]

@[simp] theorem refuseSwitch_regsOk (s : State) (w i : Nat) (d : SwitchDesc) (r : SwitchRefusal) (hok : s.regs.ok)  : (refuseSwitch s w i d r).regs.ok := by
  unfold refuseSwitch; (repeat' split) <;> simp (maxDischargeDepth := 60) [hok]

@[simp] theorem runSwitch_regsOk (s : State) (w : Nat) (d : SwitchDesc) (hok : s.regs.ok)  : (runSwitch s w d).regs.ok := by
  simp (maxDischargeDepth := 60) [runSwitch, hok]

@[simp] theorem takeSwitch_regsOk (s : State) (w i : Nat) (hok : s.regs.ok)  : (takeSwitch s w i).regs.ok := by
  unfold takeSwitch; dsimp only; (repeat' split) <;> simp (maxDischargeDepth := 60) [hok]

@[simp] theorem checkOverrun_regsOk (s : State) (w t : Nat) (hok : s.regs.ok)  : (checkOverrun s w t).regs.ok := by
  simp (maxDischargeDepth := 60) [checkOverrun, hok]

@[simp] theorem setAtt_regsOk (s : State) (b : Nat) (v : Bool) (hok : s.regs.ok)  : (setAtt s b v).regs.ok := by
  simp (maxDischargeDepth := 60) [setAtt, hok]

@[simp] theorem setMr_regsOk (s : State) (r : Nat) (bs : List Byte) (hok : s.regs.ok)  : (setMr s r bs).regs.ok := by
  unfold setMr; (repeat' split) <;> simp_all (maxDischargeDepth := 60)

@[simp] theorem extendMr_regsOk (s : State) (r : Nat) (d : List Byte) (hok : s.regs.ok)  : (extendMr s r d).regs.ok := by
  simp (maxDischargeDepth := 60) [extendMr, hok]

@[simp] theorem extendConfig_regsOk (s : State) (kind slot parts conf turn : Nat) (hok : s.regs.ok)  : (extendConfig s kind slot parts conf turn).regs.ok := by
  simp (maxDischargeDepth := 60) [extendConfig, hok]

@[simp] theorem setKeys_regsOk (s : State) (k : Nat) (v : SlotKeys) (hok : s.regs.ok)  : (setKeys s k v).regs.ok := by
  exact regsOk_of_frame rfl (setKeys_frame notRegs _ _ _ rfl) hok

@[simp] theorem refreshConf_regsOk (s : State) (hok : s.regs.ok)  : (refreshConf s).regs.ok := by
  simp (maxDischargeDepth := 60) [refreshConf, hok]

@[simp] theorem slotField_regsOk (s : State) (k hi lo v : Nat) (hok : s.regs.ok)  : (slotField s k hi lo v).regs.ok := by
  simp (maxDischargeDepth := 60) [slotField, hok]

@[simp] theorem loadSlot_regsOk (s : State) (k t : Nat) (hok : s.regs.ok)  : (loadSlot s k t).regs.ok := by
  simp (maxDischargeDepth := 60) [loadSlot, hok]

@[simp] theorem haltGroup_regsOk (s : State) (parts : Nat) (hok : s.regs.ok)  : (haltGroup s parts).regs.ok := by
  unfold haltGroup; (repeat' split) <;> simp_all (maxDischargeDepth := 60)

@[simp] theorem stopPlans_regsOk (s : State) (parts : Nat) (hok : s.regs.ok)  : (stopPlans s parts).regs.ok := by
  unfold stopPlans; (repeat' split) <;> simp_all (maxDischargeDepth := 60)

@[simp] theorem disableModels_regsOk (s : State) (k parts : Nat) (hok : s.regs.ok)  : (disableModels s k parts).regs.ok := by
  unfold disableModels; (repeat' split) <;> simp_all (maxDischargeDepth := 60)

@[simp] theorem moveJobPin_regsOk (s : State) (w0 w1 : Nat) (up : Bool) (hok : s.regs.ok)  : (moveJobPin s w0 w1 up).regs.ok := by
  simp (maxDischargeDepth := 60) [moveJobPin, hok]

@[simp] theorem moveFpin_regsOk (s : State) (w : Nat) (up : Bool) (hok : s.regs.ok)  : (moveFpin s w up).regs.ok := by
  simp (maxDischargeDepth := 60) [moveFpin, hok]

@[simp] theorem clearJobPins_regsOk (s : State) (p : Nat) (hok : s.regs.ok)  : (clearJobPins s p).regs.ok := by
  simp (maxDischargeDepth := 60) [clearJobPins, hok]

@[simp] theorem dropFlights_regsOk (s : State) (mine : Flight → Bool) (hok : s.regs.ok)  : (dropFlights s mine).regs.ok := by
  simp (maxDischargeDepth := 60) [dropFlights, hok]

@[simp] theorem dropCopies_regsOk (s : State) (parts : Nat) (hok : s.regs.ok)  : (dropCopies s parts).regs.ok := by
  unfold dropCopies; (repeat' split) <;> simp_all (maxDischargeDepth := 60)

@[simp] theorem dropGroup_regsOk (s : State) (parts : Nat) (hok : s.regs.ok)  : (dropGroup s parts).regs.ok := by
  simp (maxDischargeDepth := 60) [dropGroup, hok]

@[simp] theorem dropRecords_regsOk (s : State) (parts : Nat) (hok : s.regs.ok)  : (dropRecords s parts).regs.ok := by
  exact regsOk_of_frame rfl (dropRecords_frame notRegs _ _ rfl) hok

@[simp] theorem dropHeldReduces_regsOk (s : State) (parts : Nat) (hok : s.regs.ok)  : (dropHeldReduces s parts).regs.ok := by
  exact regsOk_of_frame rfl (dropHeldReduces_frame notRegs _ _ rfl) hok

@[simp] theorem dropStorage_regsOk (s : State) (k parts : Nat) (hok : s.regs.ok)  : (dropStorage s k parts).regs.ok := by
  exact regsOk_of_frame rfl (dropStorage_frame notRegs _ _ _ rfl rfl) hok

@[simp] theorem dropPool_regsOk (s : State) (k : Nat) (hok : s.regs.ok)  : (dropPool s k).regs.ok := by
  unfold dropPool; (repeat' split) <;> simp_all (maxDischargeDepth := 60)

@[simp] theorem dropServing_regsOk (s : State) (k parts : Nat) (hok : s.regs.ok)  : (dropServing s k parts).regs.ok := by
  unfold dropServing; (repeat' split) <;> simp_all (maxDischargeDepth := 60)

@[simp] theorem beginPart_regsOk (s : State) (k t : Nat) (hok : s.regs.ok)  : (beginPart s k t).regs.ok := by
  unfold beginPart; (repeat' split) <;> simp_all (maxDischargeDepth := 60)

@[simp] theorem queueRegions_regsOk (s : State) (k w : Nat) (hok : s.regs.ok)  : (queueRegions s k w).regs.ok := by
  simp (maxDischargeDepth := 60) [queueRegions, hok]

@[simp] theorem zeroRing_regsOk (s : State) (n : Nat) (hok : s.regs.ok)  : (zeroRing s n).regs.ok := by
  simp (maxDischargeDepth := 60) [zeroRing, hok]

@[simp] theorem zeroise_regsOk (s : State) (k : Nat) (hok : s.regs.ok)  : (zeroise s k).regs.ok := by
  unfold zeroise; (repeat' split) <;> simp_all (maxDischargeDepth := 60)

@[simp] theorem disableRegions_regsOk (s : State) (k : Nat) (hok : s.regs.ok)  : (disableRegions s k).regs.ok := by
  unfold disableRegions; (repeat' split) <;> simp_all (maxDischargeDepth := 60)

@[simp] theorem makeQuote_regsOk (s : State) (report : List Byte) (hok : s.regs.ok)  : (makeQuote s report).1.regs.ok := by
  simp (maxDischargeDepth := 60) [makeQuote, hok]

@[simp] theorem commitKey_regsOk (ty : Nat) (s : State) (k : Nat) (hok : s.regs.ok)  : (commitKey ty s k).regs.ok := by
  simp (maxDischargeDepth := 60) [commitKey, hok]

@[simp] theorem clearShots_regsOk (ty : Nat) (s : State) (k : Nat) (hok : s.regs.ok)  : (clearShots ty s k).regs.ok := by
  simp (maxDischargeDepth := 60) [clearShots, hok]

@[simp] theorem showDelay_regsOk (s : State) (hok : s.regs.ok)  : (showDelay s).regs.ok := by
  simp (maxDischargeDepth := 60) [showDelay, hok]

@[simp] theorem roleChanged_regsOk (s0 s : State) (hok : s.regs.ok)  : (roleChanged s0 s).regs.ok := by
  simp (maxDischargeDepth := 60) [roleChanged, hok]

@[simp] theorem alarmChanged_regsOk (s : State) (t : Nat) (hok : s.regs.ok)  : (alarmChanged s t).regs.ok := by
  simp (maxDischargeDepth := 60) [alarmChanged, hok]

@[simp] theorem applyTime_regsOk (s0 s : State) (t : Nat) (hok : s.regs.ok)  : (applyTime s0 s t).regs.ok := by
  simp (maxDischargeDepth := 60) [applyTime, hok]

@[simp] theorem noteShares_regsOk (s : State) (hok : s.regs.ok)  : (noteShares s).regs.ok := by
  simp (maxDischargeDepth := 60) [noteShares, hok]

@[simp] theorem applyOwn_regsOk (s0 s : State) (t : Nat) (hok : s.regs.ok)  : (applyOwn s0 s t).regs.ok := by
  simp (maxDischargeDepth := 60) [applyOwn, hok]

@[simp] theorem applySlots_regsOk (s : State) (ks : List Nat) (t : Nat) (hok : s.regs.ok)  : (applySlots s ks t).regs.ok := by
  unfold applySlots; (repeat' split) <;> simp_all (maxDischargeDepth := 60)

@[simp] theorem applyPower_regsOk (s0 s : State) (hok : s.regs.ok)  : (applyPower s0 s).regs.ok := by
  exact regsOk_of_frame rfl (applyPower_frame notRegs _ _ rfl) hok

@[simp] theorem applyState_regsOk (s : State) (hok : s.regs.ok)  : (applyState s).regs.ok := by
  simp (maxDischargeDepth := 60) [applyState, hok]

@[simp] theorem applyPairing_regsOk (s0 s : State) (hok : s.regs.ok)  : (applyPairing s0 s).regs.ok := by
  simp (maxDischargeDepth := 60) [applyPairing, hok]

@[simp] theorem startCopy_regsOk (s : State) (c : TableCopy) (hok : s.regs.ok)  : (startCopy s c).regs.ok := by
  unfold startCopy; dsimp only; (repeat' split) <;> simp (maxDischargeDepth := 60) [hok]

@[simp] theorem applySeq_regsOk (s0 s : State) (cl t : Nat) (hok : s.regs.ok)  : (applySeq s0 s cl t).regs.ok := by
  unfold applySeq; (repeat' split) <;> simp_all (maxDischargeDepth := 60)

@[simp] theorem applyLoss_regsOk (s : State) (cl : Nat) (hok : s.regs.ok)  : (applyLoss s cl).regs.ok := by
  simp (maxDischargeDepth := 60) [applyLoss, hok]

@[simp] theorem applySnap_regsOk (s : State) (cl t : Nat) (hok : s.regs.ok)  : (applySnap s cl t).regs.ok := by
  exact regsOk_of_frame rfl (applySnap_frame notRegs _ _ _ rfl) hok

@[simp] theorem applyCatch_regsOk (s0 s : State) (w : Nat) (hok : s.regs.ok)  : (applyCatch s0 s w).regs.ok := by
  simp (maxDischargeDepth := 60) [applyCatch, hok]

@[simp] theorem applySand_regsOk (s : State) (w : Nat) (hok : s.regs.ok)  : (applySand s w).regs.ok := by
  simp (maxDischargeDepth := 60) [applySand, hok]

@[simp] theorem applyMem_regsOk (s0 s : State) (w t : Nat) (hok : s.regs.ok)  : (applyMem s0 s w t).regs.ok := by
  unfold applyMem; (repeat' split) <;> simp_all (maxDischargeDepth := 60)

@[simp] theorem applySwitch_regsOk (s0 s : State) (w : Nat) (hok : s.regs.ok)  : (applySwitch s0 s w).regs.ok := by
  simp (maxDischargeDepth := 60) [applySwitch, hok]

@[simp] theorem newMode_regsOk (s : State) (l : Nat) (hok : s.regs.ok)  : (newMode s l).regs.ok := by
  simp (maxDischargeDepth := 60) [newMode, hok]

@[simp] theorem retrain_regsOk (s : State) (l : Nat) (hok : s.regs.ok)  : (retrain s l).regs.ok := by
  simp (maxDischargeDepth := 60) [retrain, hok]

@[simp] theorem applyLink_regsOk (s0 s : State) (l : Nat) (hok : s.regs.ok)  : (applyLink s0 s l).regs.ok := by
  simp (maxDischargeDepth := 60) [applyLink, hok]

@[simp] theorem applyPins_regsOk (s0 s : State) (hok : s.regs.ok)  : (applyPins s0 s).regs.ok := by
  unfold applyPins; (repeat' split) <;> simp_all (maxDischargeDepth := 60)

@[simp] theorem applyRings_regsOk (s0 s : State) (keys : List Nat) (hok : s.regs.ok)  : (applyRings s0 s keys).regs.ok := by
  exact regsOk_of_frame rfl (applyRings_frame notRegs _ _ _ rfl) hok

@[simp] theorem applyPools_regsOk (s0 s : State) (hok : s.regs.ok)  : (applyPools s0 s).regs.ok := by
  unfold applyPools; (repeat' split) <;> simp_all (maxDischargeDepth := 60)

@[simp] theorem applyPage_regsOk (s0 s : State) (page ty inst t : Nat) (hok : s.regs.ok)  : (applyPage s0 s page ty inst t).regs.ok := by
  unfold applyPage; (repeat' split) <;> simp (maxDischargeDepth := 60) [hok]

@[simp] theorem noteRefused_regsOk (s : State) (page ty inst turn : Nat) (r : Refuse) (hok : s.regs.ok)  : (noteRefused s page ty inst turn r).regs.ok := by
  simp (maxDischargeDepth := 60) [noteRefused, hok]

@[simp] theorem refuseCommit_regsOk (s : State) (page ty inst : Nat) (c : Commit) (r : Refuse) (hok : s.regs.ok)  : (refuseCommit s page ty inst c r).regs.ok := by
  unfold refuseCommit; (repeat' split) <;> simp_all (maxDischargeDepth := 60)

@[simp] theorem noteLate_regsOk (s : State) (page ty inst t : Nat) (c : Commit) (hok : s.regs.ok)  : (noteLate s page ty inst t c).regs.ok := by
  unfold noteLate; (repeat' split) <;> simp (maxDischargeDepth := 60) [hok]

@[simp] theorem takeCommit_regsOk (s : State) (page ty inst t : Nat) (c : Commit) (hok : s.regs.ok)  : (takeCommit s page ty inst t c).regs.ok := by
  unfold takeCommit; (repeat' split) <;> simp_all (maxDischargeDepth := 60)

@[simp] theorem doCommit_regsOk (s : State) (t : Nat) (c : Commit) (r : Option Refuse) (hok : s.regs.ok)  : (doCommit s t c r).regs.ok := by
  unfold doCommit; (repeat' split) <;> simp (maxDischargeDepth := 60) [hok]

@[simp] theorem commitStep_regsOk (s : State) (t : Nat) (reached : Nat → Bool) (hok : s.regs.ok)  : (commitStep s t reached).regs.ok := by
  unfold commitStep; (repeat' split) <;> simp_all (maxDischargeDepth := 60)

@[simp] theorem postModel_regsOk (s : State) (m cause op1 : Nat) (hok : s.regs.ok)  : (postModel s m cause op1).regs.ok := by
  simp (maxDischargeDepth := 60) [postModel, hok]

@[simp] theorem refusePub_regsOk (s : State) (m st hold why : Nat) (hok : s.regs.ok)  : (refusePub s m st hold why).regs.ok := by
  simp (maxDischargeDepth := 60) [refusePub, hok]

@[simp] theorem movePub_regsOk (s : State) (cur prev pinsCur pinsPrev new : Nat) (hok : s.regs.ok)  : (movePub s cur prev pinsCur pinsPrev new).regs.ok := by
  simp (maxDischargeDepth := 60) [movePub, hok]

@[simp] theorem publishBase_regsOk (s : State) (m : Nat) (hok : s.regs.ok)  : (publishBase s m).regs.ok := by
  unfold publishBase; dsimp only; (repeat' split) <;> simp (maxDischargeDepth := 60) [hok]

@[simp] theorem publishAdapter_regsOk (s : State) (m a : Nat) (hok : s.regs.ok)  : (publishAdapter s m a).regs.ok := by
  unfold publishAdapter; dsimp only; (repeat' split) <;> simp (maxDischargeDepth := 60) [hok]

@[simp] theorem publications_regsOk (s : State) (hok : s.regs.ok)  : (publications s).regs.ok := by
  unfold publications; (repeat' split) <;> simp_all (maxDischargeDepth := 60)

@[simp] theorem retireBlanks_regsOk (s : State) (hok : s.regs.ok)  : (retireBlanks s).regs.ok := by
  unfold retireBlanks; (repeat' split) <;> simp_all (maxDischargeDepth := 60)

@[simp] theorem beginEntry_regsOk (s : State) (hok : s.regs.ok)  : (beginEntry s).regs.ok := by
  simp (maxDischargeDepth := 60) [beginEntry, hok]

@[simp] theorem setRcl_regsOk (s : State) (v : Nat) (hok : s.regs.ok)  : (setRcl s v).regs.ok := by
  simp (maxDischargeDepth := 60) [setRcl, hok]

@[simp] theorem postRcl_regsOk (s : State) (cause op1 mask : Nat) (hok : s.regs.ok)  : (postRcl s cause op1 mask).regs.ok := by
  simp (maxDischargeDepth := 60) [postRcl, hok]

@[simp] theorem showStep_regsOk (s : State) (hok : s.regs.ok)  : (showStep s).regs.ok := by
  simp (maxDischargeDepth := 60) [showStep, hok]

@[simp] theorem startParting_regsOk (s : State) (hok : s.regs.ok)  : (startParting s).regs.ok := by
  unfold startParting; (repeat' split) <;> simp (maxDischargeDepth := 60) [hok]

@[simp] theorem stopDie_regsOk (s : State) (d : Nat) (hok : s.regs.ok)  : (stopDie s d).regs.ok := by
  unfold stopDie; (repeat' split) <;> simp_all (maxDischargeDepth := 60)

@[simp] theorem stopReclaimed_regsOk (s : State) (t : Nat) (reached : Nat → Bool) (hok : s.regs.ok)  : (stopReclaimed s t reached).regs.ok := by
  unfold stopReclaimed; (repeat' split) <;> simp_all (maxDischargeDepth := 60)

@[simp] theorem partReclaimed_regsOk (s : State) (t : Nat) (hok : s.regs.ok)  : (partReclaimed s t).regs.ok := by
  unfold partReclaimed; (repeat' split) <;> simp (maxDischargeDepth := 60) [hok]

@[simp] theorem reclaimDeadline_regsOk (s : State) (t : Nat) (hok : s.regs.ok)  : (reclaimDeadline s t).regs.ok := by
  simp (maxDischargeDepth := 60) [reclaimDeadline, hok]

@[simp] theorem passToServing_regsOk (s : State) (mask : Nat) (hok : s.regs.ok)  : (passToServing s mask).regs.ok := by
  unfold passToServing; (repeat' split) <;> simp_all (maxDischargeDepth := 60)

@[simp] theorem passOver_regsOk (s : State) (hok : s.regs.ok)  : (passOver s).regs.ok := by
  simp (maxDischargeDepth := 60) [passOver, hok]

@[simp] theorem handOver_regsOk (s0 s : State) (hok : s.regs.ok)  : (handOver s0 s).regs.ok := by
  simp (maxDischargeDepth := 60) [handOver, hok]

@[simp] theorem failReclaim_regsOk (s : State) (hok : s.regs.ok)  : (failReclaim s).regs.ok := by
  simp (maxDischargeDepth := 60) [failReclaim, hok]

@[simp] theorem abandonTransfers_regsOk (s : State) (hok : s.regs.ok)  : (abandonTransfers s).regs.ok := by
  unfold abandonTransfers; (repeat' split) <;> simp_all (maxDischargeDepth := 60)

@[simp] theorem withdrawCommits_regsOk (s : State) (hok : s.regs.ok)  : (withdrawCommits s).regs.ok := by
  unfold withdrawCommits; (repeat' split) <;> simp_all (maxDischargeDepth := 60)

@[simp] theorem beginDump_regsOk (s : State) (cause die : Nat) (hok : s.regs.ok)  : (beginDump s cause die).regs.ok := by
  simp (maxDischargeDepth := 60) [beginDump, hok]

@[simp] theorem raiseCatch_regsOk (s : State) (cause die : Nat) (hok : s.regs.ok)  : (raiseCatch s cause die).regs.ok := by
  unfold raiseCatch; (repeat' split) <;> simp_all (maxDischargeDepth := 60)

@[simp] theorem putGddr_regsOk (s : State) (a : Nat) (bs : List Byte) (hok : s.regs.ok)  : (putGddr s a bs).regs.ok := by
  exact regsOk_of_frame rfl (putGddr_frame notRegs _ _ _ rfl) hok

@[simp] theorem writeSections_regsOk (s : State) (p t0 dies : Nat) (hok : s.regs.ok)  : (writeSections s p t0 dies).regs.ok := by
  exact regsOk_of_frame rfl (writeSections_frame notRegs _ _ _ _ rfl) hok

@[simp] theorem writeExtension_regsOk (s : State) (p : Nat) (hok : s.regs.ok)  : (writeExtension s p).regs.ok := by
  exact regsOk_of_frame rfl (writeExtension_frame notRegs _ _ rfl) hok

@[simp] theorem writeShare_regsOk (s : State) (p cause t0 dies : Nat) (hok : s.regs.ok)  : (writeShare s p cause t0 dies).regs.ok := by
  exact regsOk_of_frame rfl (writeShare_frame notRegs _ _ _ _ _ rfl) hok

@[simp] theorem writeReduced_regsOk (s : State) (cause t0 dies : Nat) (hok : s.regs.ok)  : (writeReduced s cause t0 dies).regs.ok := by
  exact regsOk_of_frame rfl (writeReduced_frame notRegs _ _ _ _ rfl) hok

@[simp] theorem writeOwn_regsOk (s : State) (d : Nat) (hok : s.regs.ok)  : (writeOwn s d).regs.ok := by
  exact regsOk_of_frame rfl (writeOwn_frame notRegs _ _ rfl rfl) hok

@[simp] theorem setTries_regsOk (s : State) (d n : Nat) (hok : s.regs.ok)  : (setTries s d n).regs.ok := by
  exact regsOk_of_frame rfl (setTries_frame notRegs _ _ _ rfl) hok

@[simp] theorem goDark_regsOk (s : State) (hok : s.regs.ok)  : (goDark s).regs.ok := by
  unfold goDark; (repeat' split) <;> simp_all (maxDischargeDepth := 60)

@[simp] theorem leaveRest_regsOk (s : State) (hok : s.regs.ok)  : (leaveRest s).regs.ok := by
  unfold leaveRest; (repeat' split) <;> simp_all (maxDischargeDepth := 60)

@[simp] theorem reachRun_regsOk (s : State) (hok : s.regs.ok)  : (reachRun s).regs.ok := by
  simp (maxDischargeDepth := 60) [reachRun, hok]

@[simp] theorem setStep_regsOk (s : State) (n : Nat) (hok : s.regs.ok)  : (setStep s n).regs.ok := by
  simp (maxDischargeDepth := 60) [setStep, hok]

@[simp] theorem bootFail_regsOk (s : State) (code die : Nat) (hok : s.regs.ok)  : (bootFail s code die).regs.ok := by
  simp (maxDischargeDepth := 60) [bootFail, hok]

@[simp] theorem startUp_regsOk (s : State) (hok : s.regs.ok)  : (startUp s).regs.ok := by
  simp (maxDischargeDepth := 60) [startUp, hok]

@[simp] theorem coldState_regsOk (s : State) (good : Bool) (hok : s.regs.ok)  : (coldState s good).regs.ok := by
  unfold coldState; dsimp only
  have h1 : RegState.ok { live := s.regs.live.filter fun e => s.catching.flashHeld && catchField e.1 } := ⟨canon_filter _ hok.live _, canon_nil _⟩
  split
  · exact setReg_regsOk _ _ _ h1
  · exact h1

@[simp] theorem warmState_regsOk (s : State) (hok : s.regs.ok)  : (warmState s).regs.ok := by
  have hc : ∀ (x : State), x.regs = { live := s.regs.live.filter fun e => keptKeys s e.1 } → x.regs.ok := by
    intro x h1
    rw [h1]; exact ⟨canon_filter _ hok.live _, canon_nil _⟩
  unfold warmState; dsimp only; split
  · exact setField_regsOk _ _ _ _ _ (hc _ rfl)
  · exact hc _ rfl

@[simp] theorem runImage_regsOk (s : State) (hok : s.regs.ok)  : (runImage s).regs.ok := by
  simp (maxDischargeDepth := 60) [runImage, hok]

@[simp] theorem serveRecovery_regsOk (s : State) (hok : s.regs.ok)  : (serveRecovery s).regs.ok := by
  simp (maxDischargeDepth := 60) [serveRecovery, hok]

@[simp] theorem enterRecovery_regsOk (s : State) (hok : s.regs.ok)  : (enterRecovery s).regs.ok := by
  simp (maxDischargeDepth := 60) [enterRecovery, hok]

@[simp] theorem endStep3_regsOk (s : State) (hok : s.regs.ok)  : (endStep3 s).regs.ok := by
  simp (maxDischargeDepth := 60) [endStep3, hok]

@[simp] theorem deriveKey_regsOk (s : State) (hok : s.regs.ok)  : (deriveKey s).regs.ok := by
  exact regsOk_of_frame rfl (deriveKey_frame notRegs _ rfl) hok

@[simp] theorem loadOffsets_regsOk (s : State) (hok : s.regs.ok)  : (loadOffsets s).regs.ok := by
  unfold loadOffsets; (repeat' split) <;> simp (maxDischargeDepth := 60) [hok]

@[simp] theorem trimRails_regsOk (s : State) (hok : s.regs.ok)  : (trimRails s).regs.ok := by
  exact regsOk_of_frame rfl (trimRails_frame notRegs _ rfl) hok

@[simp] theorem endStep4_regsOk (s : State) (hok : s.regs.ok)  : (endStep4 s).regs.ok := by
  simp (maxDischargeDepth := 60) [endStep4, hok]

@[simp] theorem withholdPart_regsOk (s : State) (p : Nat) (hok : s.regs.ok)  : (withholdPart s p).regs.ok := by
  simp (maxDischargeDepth := 60) [withholdPart, hok]

@[simp] theorem showFailedDie_regsOk (s : State) (d : Nat) (hok : s.regs.ok)  : (showFailedDie s d).regs.ok := by
  simp (maxDischargeDepth := 60) [showFailedDie, hok]

@[simp] theorem loseMDie_regsOk (s : State) (p : Nat) (hok : s.regs.ok)  : (loseMDie s p).regs.ok := by
  simp (maxDischargeDepth := 60) [loseMDie, hok]

@[simp] theorem darkODie_regsOk (s : State) (d : Nat) (hok : s.regs.ok)  : (darkODie s d).regs.ok := by
  unfold darkODie; (repeat' split) <;> simp_all (maxDischargeDepth := 60)

@[simp] theorem postFailed_regsOk (s : State) (d : Nat) (hok : s.regs.ok)  : (postFailed s d).regs.ok := by
  simp (maxDischargeDepth := 60) [postFailed, hok]

@[simp] theorem failDie_regsOk (s : State) (code d : Nat) (hok : s.regs.ok)  : (failDie s code d).regs.ok := by
  simp (maxDischargeDepth := 60) [failDie, hok]

@[simp] theorem endStep5_regsOk (s : State) (x : StepEnd) (hok : s.regs.ok)  : (endStep5 s x).regs.ok := by
  unfold endStep5; (repeat' split) <;> simp_all (maxDischargeDepth := 60)

@[simp] theorem failEdge_regsOk (s : State) (d : Nat) (hok : s.regs.ok)  : (failEdge s d).regs.ok := by
  unfold failEdge; (repeat' split) <;> simp_all (maxDischargeDepth := 60)

@[simp] theorem disablePrograms_regsOk (s : State) (hok : s.regs.ok)  : (disablePrograms s).regs.ok := by
  unfold disablePrograms; (repeat' split) <;> simp_all (maxDischargeDepth := 60)

@[simp] theorem endStep6_regsOk (s : State) (x : StepEnd) (hok : s.regs.ok)  : (endStep6 s x).regs.ok := by
  unfold endStep6; (repeat' split) <;> simp_all (maxDischargeDepth := 60)

@[simp] theorem openWindow_regsOk (s : State) (w live : Nat) (clamshell : Bool) (hok : s.regs.ok)  : (openWindow s w live clamshell).regs.ok := by
  unfold openWindow; (repeat' split) <;> simp_all (maxDischargeDepth := 60)

@[simp] theorem endStep7_regsOk (s : State) (x : StepEnd) (hok : s.regs.ok)  : (endStep7 s x).regs.ok := by
  unfold endStep7; (repeat' split) <;> simp_all (maxDischargeDepth := 60)

@[simp] theorem endStep8_regsOk (s : State) (x : StepEnd) (hok : s.regs.ok)  : (endStep8 s x).regs.ok := by
  unfold endStep8; (repeat' split) <;> simp_all (maxDischargeDepth := 60)

@[simp] theorem putDefault_regsOk (s : State) (item key hi lo : Nat) (hok : s.regs.ok)  : (putDefault s item key hi lo).regs.ok := by
  unfold putDefault; (repeat' split) <;> simp (maxDischargeDepth := 60) [hok]

@[simp] theorem commitDefaults_regsOk (s : State) (hok : s.regs.ok)  : (commitDefaults s).regs.ok := by
  unfold commitDefaults; (repeat' split) <;> simp_all (maxDischargeDepth := 60)

@[simp] theorem answerRecovery_regsOk (s : State) (tag status : Nat) (hok : s.regs.ok)  : (answerRecovery s tag status).regs.ok := by
  exact regsOk_of_frame rfl (answerRecovery_frame notRegs _ _ _ rfl) hok

@[simp] theorem withRecovery_regsOk (s : State) (h : PortHead) (k : State → Nat → Nat → State) (hok : s.regs.ok) (h_k : ∀ (x0 : State) (x1 : Nat) (x2 : Nat), x0.regs.ok → (k x0 x1 x2).regs.ok) : (withRecovery s h k).regs.ok := by
  unfold withRecovery
  refine withPort_regsOk _ _ _ _ hok ?_
  intro s hs
  split
  · simp (maxDischargeDepth := 60) [hs]
  · exact h_k _ _ _ hs

@[simp] theorem sbRead_regsOk (s : State) (i : Nat) (hok : s.regs.ok)  : (sbRead s i).1.regs.ok := by
  exact regsOk_of_frame rfl (sbRead_frame notRegs _ _ rfl) hok

@[simp] theorem loadTap_regsOk (s : State) (i : TapInstr) (data : Nat) (hok : s.regs.ok)  : (loadTap s i data).regs.ok := by
  exact regsOk_of_frame rfl (loadTap_frame notRegs _ _ _ rfl) hok

@[simp] theorem readWords_regsOk (s : State) (addr n : Nat) (hok : s.regs.ok)  : (readWords s addr n).1.regs.ok := by
  unfold readWords; (repeat' split) <;> simp_all (maxDischargeDepth := 60)

@[simp] theorem writeWords_regsOk (s : State) (addr : Nat) (ws : List Nat) (hok : s.regs.ok)  : (writeWords s addr ws).1.regs.ok := by
  unfold writeWords; (repeat' split) <;> simp_all (maxDischargeDepth := 60)

@[simp] theorem armPage_regsOk (s : State) (page : Nat) (t : Option Nat) (hok : s.regs.ok)  : (armPage s page t).regs.ok := by
  unfold armPage; (repeat' split) <;> simp (maxDischargeDepth := 60) [hok]

@[simp] theorem commitFor_regsOk (s : State) (tag op page turn : Nat) (write : State → State) (hok : s.regs.ok) (h_write : ∀ (x0 : State), x0.regs.ok → (write x0).regs.ok) : (commitFor s tag op page turn write).regs.ok := by
  simp (maxDischargeDepth := 60) [commitFor, hok, h_write]

@[simp] theorem setPairBit_regsOk (s : State) (b : Nat) (v : Bool) (hok : s.regs.ok)  : (setPairBit s b v).regs.ok := by
  simp (maxDischargeDepth := 60) [setPairBit, hok]

@[simp] theorem addIdle_regsOk (s : State) (cl c n : Nat) (hok : s.regs.ok)  : (addIdle s cl c n).regs.ok := by
  simp (maxDischargeDepth := 60) [addIdle, hok]

@[simp] theorem chargeCluster_regsOk (s : State) (c : Charge) (hok : s.regs.ok)  : (chargeCluster s c).regs.ok := by
  unfold chargeCluster; dsimp only; (repeat' split) <;> simp (maxDischargeDepth := 60) [hok]

@[simp] theorem chargeIdle_regsOk (s : State) (cs : List Charge) (hok : s.regs.ok)  : (chargeIdle s cs).regs.ok := by
  unfold chargeIdle; (repeat' split) <;> simp_all (maxDischargeDepth := 60)

@[simp] theorem takeSnaps_regsOk (s : State) (t : Nat) (reached : Nat → Bool) (hok : s.regs.ok)  : (takeSnaps s t reached).regs.ok := by
  unfold takeSnaps; (repeat' split) <;> simp_all (maxDischargeDepth := 60)

@[simp] theorem reach_regsOk (s : State) (d t : Nat) (hok : s.regs.ok)  : (reach s d t).regs.ok := by
  exact regsOk_of_frame rfl (reach_frame notRegs _ _ _ rfl rfl) hok

@[simp] theorem strobe_regsOk (s : State) (t : Nat) (reached : Nat → Bool) (hok : s.regs.ok)  : (strobe s t reached).regs.ok := by
  exact regsOk_of_frame rfl (strobe_frame notRegs _ _ _ rfl rfl rfl) hok

@[simp] theorem releaseTurns_regsOk (s : State) (t : Nat) (reached : Nat → Bool) (hok : s.regs.ok)  : (releaseTurns s t reached).regs.ok := by
  unfold releaseTurns; apply foldl_regsOk _ _ _ _ hok; intro s a hok; (try dsimp only); (repeat' split) <;> simp (maxDischargeDepth := 60) [hok]

@[simp] theorem timeoutTokens_regsOk (s : State) (reached : Nat → Bool) (hok : s.regs.ok)  : (timeoutTokens s reached).regs.ok := by
  unfold timeoutTokens; (repeat' split) <;> simp_all (maxDischargeDepth := 60)

@[simp] theorem expireParked_regsOk (s : State) (t : Nat) (hok : s.regs.ok)  : (expireParked s t).regs.ok := by
  unfold expireParked; (repeat' split) <;> simp_all (maxDischargeDepth := 60)

@[simp] theorem updateVarm_regsOk (s : State) (t : Nat) (hok : s.regs.ok)  : (updateVarm s t).regs.ok := by
  exact regsOk_of_frame rfl (updateVarm_frame notRegs _ _ rfl) hok

@[simp] theorem headBoundary_regsOk (s : State) (t : Nat) (hok : s.regs.ok)  : (headBoundary s t).regs.ok := by
  simp (maxDischargeDepth := 60) [headBoundary, hok]

@[simp] theorem planDeadlines_regsOk (s : State) (t : Nat) (reached : Nat → Bool) (hok : s.regs.ok)  : (planDeadlines s t reached).regs.ok := by
  unfold planDeadlines; (repeat' split) <;> simp_all (maxDischargeDepth := 60)

@[simp] theorem boundary_regsOk (s : State) (t : Nat) (reached : Nat → Bool) (hok : s.regs.ok)  : (boundary s t reached).regs.ok := by
  unfold boundary; (repeat' split) <;> simp_all (maxDischargeDepth := 60)

@[simp] theorem commitRow_regsOk (s : State) (page : Nat) (mine : Bool) (hok : s.regs.ok)  : (commitRow s page mine).regs.ok := by
  unfold commitRow; (repeat' split) <;> simp (maxDischargeDepth := 60) [hok]

@[simp] theorem takeWake_regsOk (s : State) (l : Nat) (f : Frame) (hok : s.regs.ok)  : (takeWake s l f).regs.ok := by
  simp (maxDischargeDepth := 60) [takeWake, hok]

@[simp] theorem deliverFrame_regsOk (s : State) (l : Nat) (f : Frame) (tagOk : Bool) (hok : s.regs.ok)  : (deliverFrame s l f tagOk).regs.ok := by
  unfold deliverFrame; (repeat' split) <;> simp (maxDischargeDepth := 60) [hok]

@[simp] theorem dropRx_regsOk (s : State) (l : Nat) (f : Frame) (hok : s.regs.ok)  : (dropRx s l f).regs.ok := by
  exact regsOk_of_frame rfl (dropRx_frame notRegs _ _ _ rfl) hok

@[simp] theorem written_regsOk (s : State) (m : Master) (a v : Nat) (hok : s.regs.ok)  : (written s m a v).regs.ok := by
  simp (maxDischargeDepth := 60) [written, hok]

@[simp] theorem serveImages_regsOk (s : State) (hok : s.regs.ok)  : (serveImages s).regs.ok := by
  unfold serveImages; dsimp only
  refine foldl_regsOk _ (fun s a hs => askImage_regsOk _ _ hs) _ _ ?_
  have h1 : (s.seq.flights.foldl (fun s f =>
      match f.work with
      | .gather g => (g.srcs.filter fun x => x.pkg == selfId s && !x.done).foldl (fun s x => gatherLocal s f.id x) s
      | _ => s) s).regs.ok := by
    refine foldl_regsOk _ ?_ _ _ hok
    intro s a hs; split
    · exact foldl_regsOk _ (fun s a hs => gatherLocal_regsOk _ _ _ hs) _ _ hs
    · exact hs
  exact h1

@[simp] theorem serveFetches_regsOk (s : State) (hok : s.regs.ok)  : (serveFetches s).regs.ok := by
  unfold serveFetches; (repeat' split) <;> simp_all (maxDischargeDepth := 60)

@[simp] theorem serveLoads_regsOk (s : State) (hok : s.regs.ok)  : (serveLoads s).regs.ok := by
  unfold serveLoads; (repeat' split) <;> simp_all (maxDischargeDepth := 60)

@[simp] theorem serveHeld_regsOk (s : State) (hok : s.regs.ok)  : (serveHeld s).regs.ok := by
  simp (maxDischargeDepth := 60) [serveHeld, hok]

end Sys2Proof.Machine
end

