-- ==== Sys2Proof/Laws/State.lean ====
section
/-! SUPPORT. What the accessors of the state change, field by field, and what they read after. -/

namespace Sys2Proof.Machine

@[simp] theorem setReg_pending (s : State) (k v : Nat) : (setReg s k v).pending = s.pending := rfl
@[simp] theorem setReg_freeCount (s : State) (k v : Nat) : (setReg s k v).freeCount = s.freeCount := rfl
@[simp] theorem setReg_time (s : State) (k v : Nat) : (setReg s k v).time = s.time := rfl
@[simp] theorem setReg_seq (s : State) (k v : Nat) : (setReg s k v).seq = s.seq := rfl
@[simp] theorem setReg_mem (s : State) (k v : Nat) : (setReg s k v).mem = s.mem := rfl
@[simp] theorem setReg_belt (s : State) (k v : Nat) : (setReg s k v).belt = s.belt := rfl
@[simp] theorem setReg_tenant (s : State) (k v : Nat) : (setReg s k v).tenant = s.tenant := rfl
@[simp] theorem setReg_net (s : State) (k v : Nat) : (setReg s k v).net = s.net := rfl
@[simp] theorem setReg_storage (s : State) (k v : Nat) : (setReg s k v).storage = s.storage := rfl
@[simp] theorem setReg_port (s : State) (k v : Nat) : (setReg s k v).port = s.port := rfl
@[simp] theorem setReg_serving (s : State) (k v : Nat) : (setReg s k v).serving = s.serving := rfl
@[simp] theorem setReg_power (s : State) (k v : Nat) : (setReg s k v).power = s.power := rfl
@[simp] theorem setReg_wake (s : State) (k v : Nat) : (setReg s k v).wake = s.wake := rfl
@[simp] theorem setReg_boot (s : State) (k v : Nat) : (setReg s k v).boot = s.boot := rfl
@[simp] theorem setReg_catching (s : State) (k v : Nat) : (setReg s k v).catching = s.catching := rfl
@[simp] theorem setReg_reclaim (s : State) (k v : Nat) : (setReg s k v).reclaim = s.reclaim := rfl
@[simp] theorem setReg_sideband (s : State) (k v : Nat) : (setReg s k v).sideband = s.sideband := rfl
@[simp] theorem setReg_board (s : State) (k v : Nat) : (setReg s k v).board = s.board := rfl
@[simp] theorem setReg_regs_shadow (s : State) (k v : Nat) : (setReg s k v).regs.shadow = s.regs.shadow := rfl
@[simp] theorem setReg_regs_latch (s : State) (k v : Nat) : (setReg s k v).regs.latch = s.regs.latch := rfl
@[simp] theorem setReg_regs_commits (s : State) (k v : Nat) : (setReg s k v).regs.commits = s.regs.commits := rfl

@[simp] theorem setShd_pending (s : State) (k v : Nat) : (setShd s k v).pending = s.pending := rfl
@[simp] theorem setShd_freeCount (s : State) (k v : Nat) : (setShd s k v).freeCount = s.freeCount := rfl
@[simp] theorem setShd_time (s : State) (k v : Nat) : (setShd s k v).time = s.time := rfl
@[simp] theorem setShd_seq (s : State) (k v : Nat) : (setShd s k v).seq = s.seq := rfl
@[simp] theorem setShd_mem (s : State) (k v : Nat) : (setShd s k v).mem = s.mem := rfl
@[simp] theorem setShd_belt (s : State) (k v : Nat) : (setShd s k v).belt = s.belt := rfl
@[simp] theorem setShd_tenant (s : State) (k v : Nat) : (setShd s k v).tenant = s.tenant := rfl
@[simp] theorem setShd_net (s : State) (k v : Nat) : (setShd s k v).net = s.net := rfl
@[simp] theorem setShd_storage (s : State) (k v : Nat) : (setShd s k v).storage = s.storage := rfl
@[simp] theorem setShd_port (s : State) (k v : Nat) : (setShd s k v).port = s.port := rfl
@[simp] theorem setShd_serving (s : State) (k v : Nat) : (setShd s k v).serving = s.serving := rfl
@[simp] theorem setShd_power (s : State) (k v : Nat) : (setShd s k v).power = s.power := rfl
@[simp] theorem setShd_wake (s : State) (k v : Nat) : (setShd s k v).wake = s.wake := rfl
@[simp] theorem setShd_boot (s : State) (k v : Nat) : (setShd s k v).boot = s.boot := rfl
@[simp] theorem setShd_catching (s : State) (k v : Nat) : (setShd s k v).catching = s.catching := rfl
@[simp] theorem setShd_reclaim (s : State) (k v : Nat) : (setShd s k v).reclaim = s.reclaim := rfl
@[simp] theorem setShd_sideband (s : State) (k v : Nat) : (setShd s k v).sideband = s.sideband := rfl
@[simp] theorem setShd_board (s : State) (k v : Nat) : (setShd s k v).board = s.board := rfl
@[simp] theorem setShd_regs_live (s : State) (k v : Nat) : (setShd s k v).regs.live = s.regs.live := rfl
@[simp] theorem setShd_regs_latch (s : State) (k v : Nat) : (setShd s k v).regs.latch = s.regs.latch := rfl
@[simp] theorem setShd_regs_commits (s : State) (k v : Nat) : (setShd s k v).regs.commits = s.regs.commits := rfl

@[simp] theorem setProg_pending (s : State) (cl p : Nat) (v : Prog) : (setProg s cl p v).pending = s.pending := rfl
@[simp] theorem setProg_freeCount (s : State) (cl p : Nat) (v : Prog) : (setProg s cl p v).freeCount = s.freeCount := rfl
@[simp] theorem setProg_regs (s : State) (cl p : Nat) (v : Prog) : (setProg s cl p v).regs = s.regs := rfl
@[simp] theorem setProg_time (s : State) (cl p : Nat) (v : Prog) : (setProg s cl p v).time = s.time := rfl
@[simp] theorem setProg_mem (s : State) (cl p : Nat) (v : Prog) : (setProg s cl p v).mem = s.mem := rfl
@[simp] theorem setProg_belt (s : State) (cl p : Nat) (v : Prog) : (setProg s cl p v).belt = s.belt := rfl
@[simp] theorem setProg_tenant (s : State) (cl p : Nat) (v : Prog) : (setProg s cl p v).tenant = s.tenant := rfl
@[simp] theorem setProg_net (s : State) (cl p : Nat) (v : Prog) : (setProg s cl p v).net = s.net := rfl
@[simp] theorem setProg_storage (s : State) (cl p : Nat) (v : Prog) : (setProg s cl p v).storage = s.storage := rfl
@[simp] theorem setProg_port (s : State) (cl p : Nat) (v : Prog) : (setProg s cl p v).port = s.port := rfl
@[simp] theorem setProg_serving (s : State) (cl p : Nat) (v : Prog) : (setProg s cl p v).serving = s.serving := rfl
@[simp] theorem setProg_power (s : State) (cl p : Nat) (v : Prog) : (setProg s cl p v).power = s.power := rfl
@[simp] theorem setProg_wake (s : State) (cl p : Nat) (v : Prog) : (setProg s cl p v).wake = s.wake := rfl
@[simp] theorem setProg_boot (s : State) (cl p : Nat) (v : Prog) : (setProg s cl p v).boot = s.boot := rfl
@[simp] theorem setProg_catching (s : State) (cl p : Nat) (v : Prog) : (setProg s cl p v).catching = s.catching := rfl
@[simp] theorem setProg_reclaim (s : State) (cl p : Nat) (v : Prog) : (setProg s cl p v).reclaim = s.reclaim := rfl
@[simp] theorem setProg_sideband (s : State) (cl p : Nat) (v : Prog) : (setProg s cl p v).sideband = s.sideband := rfl
@[simp] theorem setProg_board (s : State) (cl p : Nat) (v : Prog) : (setProg s cl p v).board = s.board := rfl
@[simp] theorem setProg_seq_flights (s : State) (cl p : Nat) (v : Prog) : (setProg s cl p v).seq.flights = s.seq.flights := rfl
@[simp] theorem setProg_seq_nextId (s : State) (cl p : Nat) (v : Prog) : (setProg s cl p v).seq.nextId = s.seq.nextId := rfl
@[simp] theorem setProg_seq_nextAsk (s : State) (cl p : Nat) (v : Prog) : (setProg s cl p v).seq.nextAsk = s.seq.nextAsk := rfl
@[simp] theorem setProg_seq_copies (s : State) (cl p : Nat) (v : Prog) : (setProg s cl p v).seq.copies = s.seq.copies := rfl
@[simp] theorem setProg_seq_tokenOver (s : State) (cl p : Nat) (v : Prog) : (setProg s cl p v).seq.tokenOver = s.seq.tokenOver := rfl
@[simp] theorem setProg_seq_arrays (s : State) (cl p : Nat) (v : Prog) : (setProg s cl p v).seq.arrays = s.seq.arrays := rfl
@[simp] theorem setProg_seq_draws (s : State) (cl p : Nat) (v : Prog) : (setProg s cl p v).seq.draws = s.seq.draws := rfl
@[simp] theorem setProg_seq_snaps (s : State) (cl p : Nat) (v : Prog) : (setProg s cl p v).seq.snaps = s.seq.snaps := rfl

@[simp] theorem removeFlight_pending (s : State) (id : Nat) : (removeFlight s id).pending = s.pending := rfl
@[simp] theorem removeFlight_freeCount (s : State) (id : Nat) : (removeFlight s id).freeCount = s.freeCount := rfl
@[simp] theorem removeFlight_regs (s : State) (id : Nat) : (removeFlight s id).regs = s.regs := rfl
@[simp] theorem removeFlight_time (s : State) (id : Nat) : (removeFlight s id).time = s.time := rfl
@[simp] theorem removeFlight_mem (s : State) (id : Nat) : (removeFlight s id).mem = s.mem := rfl
@[simp] theorem removeFlight_belt (s : State) (id : Nat) : (removeFlight s id).belt = s.belt := rfl
@[simp] theorem removeFlight_tenant (s : State) (id : Nat) : (removeFlight s id).tenant = s.tenant := rfl
@[simp] theorem removeFlight_net (s : State) (id : Nat) : (removeFlight s id).net = s.net := rfl
@[simp] theorem removeFlight_storage (s : State) (id : Nat) : (removeFlight s id).storage = s.storage := rfl
@[simp] theorem removeFlight_port (s : State) (id : Nat) : (removeFlight s id).port = s.port := rfl
@[simp] theorem removeFlight_serving (s : State) (id : Nat) : (removeFlight s id).serving = s.serving := rfl
@[simp] theorem removeFlight_power (s : State) (id : Nat) : (removeFlight s id).power = s.power := rfl
@[simp] theorem removeFlight_wake (s : State) (id : Nat) : (removeFlight s id).wake = s.wake := rfl
@[simp] theorem removeFlight_boot (s : State) (id : Nat) : (removeFlight s id).boot = s.boot := rfl
@[simp] theorem removeFlight_catching (s : State) (id : Nat) : (removeFlight s id).catching = s.catching := rfl
@[simp] theorem removeFlight_reclaim (s : State) (id : Nat) : (removeFlight s id).reclaim = s.reclaim := rfl
@[simp] theorem removeFlight_sideband (s : State) (id : Nat) : (removeFlight s id).sideband = s.sideband := rfl
@[simp] theorem removeFlight_board (s : State) (id : Nat) : (removeFlight s id).board = s.board := rfl
@[simp] theorem removeFlight_seq_progs (s : State) (id : Nat) : (removeFlight s id).seq.progs = s.seq.progs := rfl
@[simp] theorem removeFlight_seq_nextId (s : State) (id : Nat) : (removeFlight s id).seq.nextId = s.seq.nextId := rfl
@[simp] theorem removeFlight_seq_nextAsk (s : State) (id : Nat) : (removeFlight s id).seq.nextAsk = s.seq.nextAsk := rfl
@[simp] theorem removeFlight_seq_copies (s : State) (id : Nat) : (removeFlight s id).seq.copies = s.seq.copies := rfl
@[simp] theorem removeFlight_seq_tokenOver (s : State) (id : Nat) : (removeFlight s id).seq.tokenOver = s.seq.tokenOver := rfl
@[simp] theorem removeFlight_seq_arrays (s : State) (id : Nat) : (removeFlight s id).seq.arrays = s.seq.arrays := rfl
@[simp] theorem removeFlight_seq_draws (s : State) (id : Nat) : (removeFlight s id).seq.draws = s.seq.draws := rfl
@[simp] theorem removeFlight_seq_snaps (s : State) (id : Nat) : (removeFlight s id).seq.snaps = s.seq.snaps := rfl

@[simp] theorem setWork_pending (s : State) (id : Nat) (w : Work) : (setWork s id w).pending = s.pending := rfl
@[simp] theorem setWork_freeCount (s : State) (id : Nat) (w : Work) : (setWork s id w).freeCount = s.freeCount := rfl
@[simp] theorem setWork_regs (s : State) (id : Nat) (w : Work) : (setWork s id w).regs = s.regs := rfl
@[simp] theorem setWork_time (s : State) (id : Nat) (w : Work) : (setWork s id w).time = s.time := rfl
@[simp] theorem setWork_mem (s : State) (id : Nat) (w : Work) : (setWork s id w).mem = s.mem := rfl
@[simp] theorem setWork_belt (s : State) (id : Nat) (w : Work) : (setWork s id w).belt = s.belt := rfl
@[simp] theorem setWork_tenant (s : State) (id : Nat) (w : Work) : (setWork s id w).tenant = s.tenant := rfl
@[simp] theorem setWork_net (s : State) (id : Nat) (w : Work) : (setWork s id w).net = s.net := rfl
@[simp] theorem setWork_storage (s : State) (id : Nat) (w : Work) : (setWork s id w).storage = s.storage := rfl
@[simp] theorem setWork_port (s : State) (id : Nat) (w : Work) : (setWork s id w).port = s.port := rfl
@[simp] theorem setWork_serving (s : State) (id : Nat) (w : Work) : (setWork s id w).serving = s.serving := rfl
@[simp] theorem setWork_power (s : State) (id : Nat) (w : Work) : (setWork s id w).power = s.power := rfl
@[simp] theorem setWork_wake (s : State) (id : Nat) (w : Work) : (setWork s id w).wake = s.wake := rfl
@[simp] theorem setWork_boot (s : State) (id : Nat) (w : Work) : (setWork s id w).boot = s.boot := rfl
@[simp] theorem setWork_catching (s : State) (id : Nat) (w : Work) : (setWork s id w).catching = s.catching := rfl
@[simp] theorem setWork_reclaim (s : State) (id : Nat) (w : Work) : (setWork s id w).reclaim = s.reclaim := rfl
@[simp] theorem setWork_sideband (s : State) (id : Nat) (w : Work) : (setWork s id w).sideband = s.sideband := rfl
@[simp] theorem setWork_board (s : State) (id : Nat) (w : Work) : (setWork s id w).board = s.board := rfl
@[simp] theorem setWork_seq_progs (s : State) (id : Nat) (w : Work) : (setWork s id w).seq.progs = s.seq.progs := rfl
@[simp] theorem setWork_seq_nextId (s : State) (id : Nat) (w : Work) : (setWork s id w).seq.nextId = s.seq.nextId := rfl
@[simp] theorem setWork_seq_nextAsk (s : State) (id : Nat) (w : Work) : (setWork s id w).seq.nextAsk = s.seq.nextAsk := rfl
@[simp] theorem setWork_seq_copies (s : State) (id : Nat) (w : Work) : (setWork s id w).seq.copies = s.seq.copies := rfl
@[simp] theorem setWork_seq_tokenOver (s : State) (id : Nat) (w : Work) : (setWork s id w).seq.tokenOver = s.seq.tokenOver := rfl
@[simp] theorem setWork_seq_arrays (s : State) (id : Nat) (w : Work) : (setWork s id w).seq.arrays = s.seq.arrays := rfl
@[simp] theorem setWork_seq_draws (s : State) (id : Nat) (w : Work) : (setWork s id w).seq.draws = s.seq.draws := rfl
@[simp] theorem setWork_seq_snaps (s : State) (id : Nat) (w : Work) : (setWork s id w).seq.snaps = s.seq.snaps := rfl

@[simp] theorem setRing_pending (s : State) (n : Nat) (r : Ring) : (setRing s n r).pending = s.pending := rfl
@[simp] theorem setRing_freeCount (s : State) (n : Nat) (r : Ring) : (setRing s n r).freeCount = s.freeCount := rfl
@[simp] theorem setRing_regs (s : State) (n : Nat) (r : Ring) : (setRing s n r).regs = s.regs := rfl
@[simp] theorem setRing_time (s : State) (n : Nat) (r : Ring) : (setRing s n r).time = s.time := rfl
@[simp] theorem setRing_seq (s : State) (n : Nat) (r : Ring) : (setRing s n r).seq = s.seq := rfl
@[simp] theorem setRing_mem (s : State) (n : Nat) (r : Ring) : (setRing s n r).mem = s.mem := rfl
@[simp] theorem setRing_belt (s : State) (n : Nat) (r : Ring) : (setRing s n r).belt = s.belt := rfl
@[simp] theorem setRing_tenant (s : State) (n : Nat) (r : Ring) : (setRing s n r).tenant = s.tenant := rfl
@[simp] theorem setRing_net (s : State) (n : Nat) (r : Ring) : (setRing s n r).net = s.net := rfl
@[simp] theorem setRing_storage (s : State) (n : Nat) (r : Ring) : (setRing s n r).storage = s.storage := rfl
@[simp] theorem setRing_port (s : State) (n : Nat) (r : Ring) : (setRing s n r).port = s.port := rfl
@[simp] theorem setRing_power (s : State) (n : Nat) (r : Ring) : (setRing s n r).power = s.power := rfl
@[simp] theorem setRing_wake (s : State) (n : Nat) (r : Ring) : (setRing s n r).wake = s.wake := rfl
@[simp] theorem setRing_boot (s : State) (n : Nat) (r : Ring) : (setRing s n r).boot = s.boot := rfl
@[simp] theorem setRing_catching (s : State) (n : Nat) (r : Ring) : (setRing s n r).catching = s.catching := rfl
@[simp] theorem setRing_reclaim (s : State) (n : Nat) (r : Ring) : (setRing s n r).reclaim = s.reclaim := rfl
@[simp] theorem setRing_sideband (s : State) (n : Nat) (r : Ring) : (setRing s n r).sideband = s.sideband := rfl
@[simp] theorem setRing_board (s : State) (n : Nat) (r : Ring) : (setRing s n r).board = s.board := rfl
@[simp] theorem setRing_serving_ringMem (s : State) (n : Nat) (r : Ring) : (setRing s n r).serving.ringMem = s.serving.ringMem := rfl
@[simp] theorem setRing_serving_reqs (s : State) (n : Nat) (r : Ring) : (setRing s n r).serving.reqs = s.serving.reqs := rfl
@[simp] theorem setRing_serving_fams (s : State) (n : Nat) (r : Ring) : (setRing s n r).serving.fams = s.serving.fams := rfl
@[simp] theorem setRing_serving_pfxs (s : State) (n : Nat) (r : Ring) : (setRing s n r).serving.pfxs = s.serving.pfxs := rfl
@[simp] theorem setRing_serving_parked (s : State) (n : Nat) (r : Ring) : (setRing s n r).serving.parked = s.serving.parked := rfl
@[simp] theorem setRing_serving_order (s : State) (n : Nat) (r : Ring) : (setRing s n r).serving.order = s.serving.order := rfl
@[simp] theorem setRing_serving_freeing (s : State) (n : Nat) (r : Ring) : (setRing s n r).serving.freeing = s.serving.freeing := rfl
@[simp] theorem setRing_serving_done (s : State) (n : Nat) (r : Ring) : (setRing s n r).serving.done = s.serving.done := rfl

@[simp] theorem setLink_pending (s : State) (n : Nat) (l : LinkState) : (setLink s n l).pending = s.pending := rfl
@[simp] theorem setLink_freeCount (s : State) (n : Nat) (l : LinkState) : (setLink s n l).freeCount = s.freeCount := rfl
@[simp] theorem setLink_regs (s : State) (n : Nat) (l : LinkState) : (setLink s n l).regs = s.regs := rfl
@[simp] theorem setLink_time (s : State) (n : Nat) (l : LinkState) : (setLink s n l).time = s.time := rfl
@[simp] theorem setLink_seq (s : State) (n : Nat) (l : LinkState) : (setLink s n l).seq = s.seq := rfl
@[simp] theorem setLink_mem (s : State) (n : Nat) (l : LinkState) : (setLink s n l).mem = s.mem := rfl
@[simp] theorem setLink_belt (s : State) (n : Nat) (l : LinkState) : (setLink s n l).belt = s.belt := rfl
@[simp] theorem setLink_tenant (s : State) (n : Nat) (l : LinkState) : (setLink s n l).tenant = s.tenant := rfl
@[simp] theorem setLink_storage (s : State) (n : Nat) (l : LinkState) : (setLink s n l).storage = s.storage := rfl
@[simp] theorem setLink_port (s : State) (n : Nat) (l : LinkState) : (setLink s n l).port = s.port := rfl
@[simp] theorem setLink_serving (s : State) (n : Nat) (l : LinkState) : (setLink s n l).serving = s.serving := rfl
@[simp] theorem setLink_power (s : State) (n : Nat) (l : LinkState) : (setLink s n l).power = s.power := rfl
@[simp] theorem setLink_wake (s : State) (n : Nat) (l : LinkState) : (setLink s n l).wake = s.wake := rfl
@[simp] theorem setLink_boot (s : State) (n : Nat) (l : LinkState) : (setLink s n l).boot = s.boot := rfl
@[simp] theorem setLink_catching (s : State) (n : Nat) (l : LinkState) : (setLink s n l).catching = s.catching := rfl
@[simp] theorem setLink_reclaim (s : State) (n : Nat) (l : LinkState) : (setLink s n l).reclaim = s.reclaim := rfl
@[simp] theorem setLink_sideband (s : State) (n : Nat) (l : LinkState) : (setLink s n l).sideband = s.sideband := rfl
@[simp] theorem setLink_board (s : State) (n : Nat) (l : LinkState) : (setLink s n l).board = s.board := rfl
@[simp] theorem setLink_net_held (s : State) (n : Nat) (l : LinkState) : (setLink s n l).net.held = s.net.held := rfl
@[simp] theorem setLink_net_buckets (s : State) (n : Nat) (l : LinkState) : (setLink s n l).net.buckets = s.net.buckets := rfl
@[simp] theorem setLink_net_xchg (s : State) (n : Nat) (l : LinkState) : (setLink s n l).net.xchg = s.net.xchg := rfl
@[simp] theorem setLink_net_pieces (s : State) (n : Nat) (l : LinkState) : (setLink s n l).net.pieces = s.net.pieces := rfl
@[simp] theorem setLink_net_noRoute (s : State) (n : Nat) (l : LinkState) : (setLink s n l).net.noRoute = s.net.noRoute := rfl
@[simp] theorem setLink_net_mirror (s : State) (n : Nat) (l : LinkState) : (setLink s n l).net.mirror = s.net.mirror := rfl
@[simp] theorem setLink_net_unacked (s : State) (n : Nat) (l : LinkState) : (setLink s n l).net.unacked = s.net.unacked := rfl
@[simp] theorem setLink_net_dropped (s : State) (n : Nat) (l : LinkState) : (setLink s n l).net.dropped = s.net.dropped := rfl

@[simp] theorem tblWrite_pending (s : State) (cl b : Nat) (bs : List Byte) : (tblWrite s cl b bs).pending = s.pending := rfl
@[simp] theorem tblWrite_freeCount (s : State) (cl b : Nat) (bs : List Byte) : (tblWrite s cl b bs).freeCount = s.freeCount := rfl
@[simp] theorem tblWrite_regs (s : State) (cl b : Nat) (bs : List Byte) : (tblWrite s cl b bs).regs = s.regs := rfl
@[simp] theorem tblWrite_time (s : State) (cl b : Nat) (bs : List Byte) : (tblWrite s cl b bs).time = s.time := rfl
@[simp] theorem tblWrite_seq (s : State) (cl b : Nat) (bs : List Byte) : (tblWrite s cl b bs).seq = s.seq := rfl
@[simp] theorem tblWrite_belt (s : State) (cl b : Nat) (bs : List Byte) : (tblWrite s cl b bs).belt = s.belt := rfl
@[simp] theorem tblWrite_tenant (s : State) (cl b : Nat) (bs : List Byte) : (tblWrite s cl b bs).tenant = s.tenant := rfl
@[simp] theorem tblWrite_net (s : State) (cl b : Nat) (bs : List Byte) : (tblWrite s cl b bs).net = s.net := rfl
@[simp] theorem tblWrite_storage (s : State) (cl b : Nat) (bs : List Byte) : (tblWrite s cl b bs).storage = s.storage := rfl
@[simp] theorem tblWrite_port (s : State) (cl b : Nat) (bs : List Byte) : (tblWrite s cl b bs).port = s.port := rfl
@[simp] theorem tblWrite_serving (s : State) (cl b : Nat) (bs : List Byte) : (tblWrite s cl b bs).serving = s.serving := rfl
@[simp] theorem tblWrite_power (s : State) (cl b : Nat) (bs : List Byte) : (tblWrite s cl b bs).power = s.power := rfl
@[simp] theorem tblWrite_wake (s : State) (cl b : Nat) (bs : List Byte) : (tblWrite s cl b bs).wake = s.wake := rfl
@[simp] theorem tblWrite_boot (s : State) (cl b : Nat) (bs : List Byte) : (tblWrite s cl b bs).boot = s.boot := rfl
@[simp] theorem tblWrite_catching (s : State) (cl b : Nat) (bs : List Byte) : (tblWrite s cl b bs).catching = s.catching := rfl
@[simp] theorem tblWrite_reclaim (s : State) (cl b : Nat) (bs : List Byte) : (tblWrite s cl b bs).reclaim = s.reclaim := rfl
@[simp] theorem tblWrite_sideband (s : State) (cl b : Nat) (bs : List Byte) : (tblWrite s cl b bs).sideband = s.sideband := rfl
@[simp] theorem tblWrite_board (s : State) (cl b : Nat) (bs : List Byte) : (tblWrite s cl b bs).board = s.board := rfl
@[simp] theorem tblWrite_mem_ns (s : State) (cl b : Nat) (bs : List Byte) : (tblWrite s cl b bs).mem.ns = s.mem.ns := rfl
@[simp] theorem tblWrite_mem_tags (s : State) (cl b : Nat) (bs : List Byte) : (tblWrite s cl b bs).mem.tags = s.mem.tags := rfl
@[simp] theorem tblWrite_mem_nsErr (s : State) (cl b : Nat) (bs : List Byte) : (tblWrite s cl b bs).mem.nsErr = s.mem.nsErr := rfl
@[simp] theorem tblWrite_mem_gddr (s : State) (cl b : Nat) (bs : List Byte) : (tblWrite s cl b bs).mem.gddr = s.mem.gddr := rfl
@[simp] theorem tblWrite_mem_gKey (s : State) (cl b : Nat) (bs : List Byte) : (tblWrite s cl b bs).mem.gKey = s.mem.gKey := rfl
@[simp] theorem tblWrite_mem_gErr (s : State) (cl b : Nat) (bs : List Byte) : (tblWrite s cl b bs).mem.gErr = s.mem.gErr := rfl
@[simp] theorem tblWrite_mem_crc (s : State) (cl b : Nat) (bs : List Byte) : (tblWrite s cl b bs).mem.crc = s.mem.crc := rfl
@[simp] theorem tblWrite_mem_sand (s : State) (cl b : Nat) (bs : List Byte) : (tblWrite s cl b bs).mem.sand = s.mem.sand := rfl
@[simp] theorem tblWrite_mem_partList (s : State) (cl b : Nat) (bs : List Byte) : (tblWrite s cl b bs).mem.partList = s.mem.partList := rfl
@[simp] theorem tblWrite_mem_sandAged (s : State) (cl b : Nat) (bs : List Byte) : (tblWrite s cl b bs).mem.sandAged = s.mem.sandAged := rfl

/-! ### Registers -/

@[simp] theorem setReg_reg_ne (s : State) (k j v : Nat) (h : j ≠ k) : (setReg s k v).reg j = s.reg j :=
  sget_sset_ne _ _ _ _ _ h

/-- A register reads as it was written, in a register file in canonical form. -/
@[simp] theorem setReg_reg_self (s : State) (k v : Nat) (h : swf resetOf s.regs.live) : (setReg s k v).reg k = v % 2 ^ 32 :=
  sget_sset_self _ h _ _

theorem setReg_reg (s : State) (k j v : Nat) (h : swf resetOf s.regs.live) :
    (setReg s k v).reg j = if j = k then v % 2 ^ 32 else s.reg j :=
  sget_sset _ h _ _ _

@[simp] theorem setReg_shd (s : State) (k j v : Nat) : (setReg s k v).shd j = s.shd j := rfl
@[simp] theorem setShd_reg (s : State) (k j v : Nat) : (setShd s k v).reg j = s.reg j := rfl
@[simp] theorem setShd_shd_ne (s : State) (k j v : Nat) (h : j ≠ k) : (setShd s k v).shd j = s.shd j :=
  sget_sset_ne _ _ _ _ _ h
@[simp] theorem setShd_shd_self (s : State) (k v : Nat) (h : swf resetOf s.regs.shadow) : (setShd s k v).shd k = v % 2 ^ 32 :=
  sget_sset_self _ h _ _

/-- A write of a register keeps the registers in canonical form. -/
theorem setReg_live_wf (s : State) (k v : Nat) (h : swf resetOf s.regs.live) : swf resetOf (setReg s k v).regs.live :=
  sset_wf _ h _ _
theorem setShd_shadow_wf (s : State) (k v : Nat) (h : swf resetOf s.regs.shadow) : swf resetOf (setShd s k v).regs.shadow :=
  sset_wf _ h _ _

/-! ### Programs, rings and links -/

theorem setProg_prog_ne (s : State) (cl p : Nat) (v : Prog) (c q : Nat) (h : progKey c q ≠ progKey cl p) :
    (setProg s cl p v).prog c q = s.prog c q := sget_sset_ne _ _ _ _ _ h
theorem setProg_prog_self (s : State) (cl p : Nat) (v : Prog) (h : swf progDefault s.seq.progs) :
    (setProg s cl p v).prog cl p = v := sget_sset_self _ h _ _
/-- A program slot that holds anything but the default reads as it was written. -/
theorem setProg_prog_listed (s : State) (cl p : Nat) (v : Prog) (h : v ≠ {}) : (setProg s cl p v).prog cl p = v :=
  sget_sset_listed _ _ _ _ h
theorem setRing_ring_ne (s : State) (n m : Nat) (r : Ring) (h : m ≠ n) : (setRing s n r).ring m = s.ring m :=
  sget_sset_ne _ _ _ _ _ h
theorem setRing_ring_self (s : State) (n : Nat) (r : Ring) (h : swf ringDefault s.serving.rings) : (setRing s n r).ring n = r :=
  sget_sset_self _ h _ _
theorem setRing_ring_listed (s : State) (n : Nat) (r : Ring) (h : r ≠ {}) : (setRing s n r).ring n = r :=
  sget_sset_listed _ _ _ _ h
theorem setLink_link_ne (s : State) (n m : Nat) (l : LinkState) (h : m ≠ n) : (setLink s n l).link m = s.link m :=
  sget_sset_ne _ _ _ _ _ h
theorem setLink_link_self (s : State) (n : Nat) (l : LinkState) (h : swf linkDefault s.net.links) : (setLink s n l).link n = l :=
  sget_sset_self _ h _ _
theorem setLink_link_listed (s : State) (n : Nat) (l : LinkState) (h : l ≠ {}) : (setLink s n l).link n = l :=
  sget_sset_listed _ _ _ _ h

end Sys2Proof.Machine
end

