-- ==== Sys2Proof/Tests/Slice0.lean ====
section
/-! SUPPORT. Small tests of the model, each on values that the manual or a hand calculation gives; an ill-formed command for
each check of WellFormed; and for each obligation that has hypotheses one theorem which shows states and operands that meet
them, clause by clause. -/

namespace Sys2Proof.Tests

open Sys2Proof Sys2Proof.Machine
set_option Elab.async false
set_option synthInstance.maxSize 4096

/-! ### Building small states -/

/-- An entry or a command word from its fields: the lowest bit of each and its value. -/
def ent (l : List (Nat × Nat)) : Nat := l.foldl (fun a x => a + x.2 * 2 ^ x.1) 0
/-- Registers in effect, and in the shadow, written one after another. -/
def put (s : State) (l : List (Nat × Nat)) : State := l.foldl (fun s e => setReg s e.1 e.2) s
def shade (s : State) (l : List (Nat × Nat)) : State := l.foldl (fun s e => setShd s e.1 e.2) s
/-- Program 0 of cluster 0 runs at index i and meets the entry e there. -/
def runs (s : State) (i e : Nat) : State :=
  tblWrite (put s [(progReg 0 0, 2 ^ 31 + i), (seqReg 0 Reg.PC, i), (seqReg 0 Reg.PROG_STATE, 1)]) 0 (32 * i) (leBytes 32 e)
def meets (l : List (Nat × Nat)) : State := runs State.reset 0 (ent l)
/-- Bytes in cluster 0, core 0's near SRAM, stored by its own program. -/
def nsPut (s : State) (off : Nat) (bs : List Byte) : State := nsWriteRun s (entryCtx s 0 0 0 0) (nsAddr 0 0 off) bs
/-- Window 0 has 16 units of 2 MiB, none of them caught. -/
def gddr16 (s : State) : State := put s [(memPage 0 + Reg.MEM_DATA_SIZE, 16), (memPage 0 + Reg.MEM_CATCH_BASE, 16)]
/-- The entry e of program 0 of cluster 0 is in flight under number 7. -/
def flying (e : Nat) (w : Work) : State :=
  { State.reset with
    seq.flights := [{ id := 7, cl := 0, prog := 0, seq := 0, idx := 3, entry := e, seed := 0, units := [.transfer], cores := 0, work := w }],
    seq.nextId := 8 }
def theFlight (e : Nat) (w : Work) : Flight :=
  { id := 7, cl := 0, prog := 0, seq := 0, idx := 3, entry := e, seed := 0, units := [.transfer], cores := 0, work := w }
/-- Program 0 of cluster 0 is in a wait. -/
def waits (s : State) (w : Wait) : State := { s with seq.progs := [(0, { wait := w })] }
/-- The port is up, in its unkeyed state: the next frame in order is good. -/
def hd : PortHead := { seq := 0, enc := false }
def hdEnc : PortHead := { seq := 0, enc := true }
/-- The row of the field map at an offset of a page type. -/
def row (ty off : Nat) : RegRow := (regRow ty off).getD ⟨0, 0, .ro, 0, 0, 0⟩
/-- A command ring q with one command fetched, and a token ring 1, of partition 0. -/
def queued (s : State) (q : Nat) (c : List Byte) : State :=
  { put s [(ringReg Reg.RING_CFG q, 0x10002)] with
    serving.rings := [(q, { prod := 1, fetched := 1 })],
    serving.ringMem := ((c.zipIdx.map fun x => (x.2, x.1)).filter fun x => x.2 != 0) }
def aFamily : Family :=
  { model := 5, pool := 0, h := 2, set0 := 0, members := [none, none], table := 0, d := 64, fmt := 7, blk := 0 }
/-- Pool 0, model 5 and family 3 serve partition 0, with token ring 1. -/
def serving : State :=
  { put State.reset [(ringReg Reg.RING_CFG 1, 0x10001), (kvpReg Reg.KVP_CFG 0, 0x10001), (kvpReg Reg.KVP_LISTS 0, 4), (blkKey Reg.BLK_CFG 5, 0x10001)] with
    serving.fams := [(3, some aFamily)] }
def aRequest : Request :=
  { id := 9, ring := 1, model := 5, adapter := none, pfx := none, fam := 3, prompt := 4, max := 8, stream := 0, ttl := 60, stops := [],
    st := .ready, base := 1, adp := 0, pool := 0, list := 0, h := 2 }
def aParked : Parked :=
  { st := 2, req := 9, ring := 1, pool := 0, model := 5, pfx := none, base := 1, adapter := none, adp := 0, first := 0, exts := 1,
    expiry := 0, preempted := false, evict := false, serial := 0, counts := [0, 0] }
def aTarget : Target := { record := leBytes 64 23 }
/-- The package is ready, and a GO of the page is outstanding as turn 1 begins, with words of its shadow. -/
def go (s : State) (page : Nat) (l : List (Nat × Nat)) : State := { shade (put s [(bootReg Reg.BOOT_STEP, 10)]) l with regs.commits := [{ page := page, turn := none }], time.now := 1024 }
/-- The package sleeps in a power state, its wake sources enabled. -/
def asleep (s : State) (st : Nat) : State := put s [(psReg Reg.PS_STATE, st), (psReg Reg.PS_WAKE_EN, 0x1F)]
/-- Bring-up stands at a step. -/
def booting (step : Nat) : State := put State.reset [(bootReg Reg.BOOT_STEP, step)]
def anEvent : Event := { cause := Cause.ready, die := 62, time := 0 }
def withEvent : State := { State.reset with belt.queues := [(62, [anEvent])] }
/-- The time page is firmware's alone. -/
def timeLocked : State := put State.reset [(hPage 3 + Reg.F_CTRL, 1)]
/-- A group list of two members, 32 elements each, seen by member own: package 1 and package 9. -/
def groupOf (own : Nat) : List Byte :=
  let member := fun (pkg first call : Nat) => leBytes 4 pkg ++ leBytes 4 first ++ leBytes 4 32 ++ leBytes 4 call ++ leBytes 4 1 ++ leBytes 12 0
  leBytes 2 2 ++ leBytes 2 own ++ leBytes 4 2 ++ leBytes 24 0 ++ member 1 0 0 ++ member 9 32 1
def aStorageFrame : StorageFrame := { len := 64, mac := 5, ip := 1, qpn := 1 }
/-- A header and a directory entry of a context image, each field at an end of its range. -/
def anImage : ImageHeader :=
  { owner := 1023, slot := 63, step := 2 ^ 64 - 1, seed := 5, scale := -128, scaleStep := 127, clean := 65535, entries := 2, layout := 3,
    length := 4, base := 2 ^ 20 - 1, adapter := 7, adapterIndex := 4095 }
def anImageEntry : ImageEntry := { tensor := 2 ^ 32 - 1, kind := 6, fmt := 15, stream := 7, first := 8, held := 2 ^ 40 - 1, data := 9 }
/-- The state after a command, where it answers one. -/
def nextOf (o : Host.Outcome State Fault Refusal) (s : State) : State :=
  match o with
  | .next t => t
  | .fault _ => s
  | .refused _ => s
def goesOn (o : Host.Outcome State Fault Refusal) : Bool :=
  match o with
  | .next _ => true
  | .fault _ => false
  | .refused _ => false
def after (c : Instr) (s : State) : State := nextOf (exec c s) s
theorem exec_after (c : Instr) (s : State) (h : goesOn (exec c s) = true) : exec c s = .next (after c s) := by
  unfold after
  cases hc : exec c s with
  | next t => rfl
  | fault r => rw [hc] at h; cases h
  | refused r => rw [hc] at h; cases h
/-- The package right after reset, with one command before it. -/
def withCommand (c : Instr) : State := { State.reset with pending := [c] }
/-- What a decidable match on an answer shows of it. -/
theorem ok_of {α : Type} [DecidableEq α] {p : Except Nat α} {x : α} (h : (match p with | .ok y => decide (y = x) | .error _ => false) = true) :
    p = .ok x := by
  cases p with
  | ok y => simp at h; rw [h]
  | error _ => cases h
theorem error_of {α : Type} {p : Except Nat α} {c : Nat} (h : (match p with | .ok _ => false | .error d => decide (d = c)) = true) :
    p = .error c := by
  cases p with
  | ok y => cases h
  | error d => simp at h; rw [h]

/-- Window 2 has eight channels. -/
def allChannels : State :=
  put State.reset [(memPage 2 + Reg.MEM_MODE, 0xFF00)]

/-- Window 2 has lost channel 3. -/
def sevenChannels : State :=
  put State.reset [(memPage 2 + Reg.MEM_MODE, 0xF700)]

/-- A state for the witnesses. -/
def noRowHere : State :=
  meets [(0, 0x10)]

/-- A state for the witnesses. -/
def atEnd : State :=
  meets [(0, 0x0F)]

/-- An END with FENCE behind a MOVE in flight. -/
def fencedEnd : State :=
  { meets [(0, 0x0F), (5, 1)] with seq.flights := [theFlight 3 (.data [1, 2])], seq.nextId := 8 }

/-- A state for the witnesses. -/
def atPass : State :=
  meets [(16, 1), (32, 6), (37, 6), (42, 6), (80, 600), (96, 900), (128, 1), (144, 1), (152, 1)]

/-- A state for the witnesses. -/
def atMvec : State :=
  meets [(0, 1), (16, 1), (32, 6), (37, 6), (42, 6), (80, 600), (96, 900), (128, 1), (144, 1)]

/-- MULIMM of one line of BF16 by 2. -/
def atVec : State :=
  meets [(0, 2), (16, 1), (32, 6), (37, 6), (42, 6), (64, 4), (114, 8), (128, 1), (160, 0x40000000)]

/-- A state for the witnesses. -/
def atAttn : State :=
  meets [(0, 7), (16, 1), (32, 6), (42, 9), (80, 16), (96, 64), (184, 1), (224, 1)]

/-- List 0 of pool 0 exists, of 64 elements in E4M3, and is empty. -/
def listed : State :=
  { put (gddr16 serving) [(slotKey Reg.SLOT_STATE 0, 1), (slotKey Reg.SLOT_CFG 0, 0x0100)] with mem.gddr := [(0, 0xFF), (1, 0xFF), (2, 0x7F), (20, 64), (22, 3), (23, 1)] }

/-- Every channel of window 0 retrains. -/
def retrains : State :=
  put (gddr16 State.reset) [(memPage 0 + Reg.MEM_MODE, 0xFF00), (memPage 0 + Reg.MEM_CH_STATE, 0xFFFF)]

/-- A state for the witnesses. -/
def atAttnHeld : State :=
  runs (put (gddr16 serving) [(memPage 0 + Reg.MEM_MODE, 0xFF00), (memPage 0 + Reg.MEM_CH_STATE, 0xFFFF)]) 0 (ent [(0, 7), (16, 1), (32, 6), (42, 9), (80, 16), (96, 64), (184, 1), (224, 1)])

/-- A state for the witnesses. -/
def atNormalise : State :=
  runs (listed) 0 (ent [(0, 7), (16, 1), (32, 9), (42, 9), (80, 16), (96, 64), (184, 1), (224, 1), (64, 1)])

/-- A state for the witnesses. -/
def atValues : State :=
  runs (listed) 0 (ent [(0, 7), (16, 1), (32, 9), (42, 6), (80, 16), (96, 64), (184, 1), (224, 1), (64, 2)])

/-- A state for the witnesses. -/
def atSample : State :=
  meets [(0, 8), (16, 1), (80, 512), (94, 1), (128, 1000)]

/-- A state for the witnesses. -/
def atMove0 : State :=
  meets [(0, 3)]

/-- A state for the witnesses. -/
def atMoveHeld : State :=
  runs (retrains) 0 (ent [(0, 3), (64, 1), (160, 32), (120, 1024)])

/-- A state for the witnesses. -/
def atMove : State :=
  meets [(0, 3), (120, 1024), (160, 32)]

/-- An activation spill of one row of 32 elements. -/
def atSpill : State :=
  runs (nsPut (gddr16 State.reset) 1024 [1, 0, 1, 0]) 0 (ent [(0, 3), (68, 1), (66, 1), (69, 1), (160, 64), (192, 4), (120, 0x1000)])

/-- The expansion of an image of one row. -/
def atExpand : State :=
  runs ({ gddr16 State.reset with mem.gddr := [(0x2000, 1), (0x2002, 1), (0x2004, 1), (0x2006, 1)] }) 0 (ent [(0, 3), (68, 1), (64, 1), (69, 1), (160, 512), (80, 0x2000)])

/-- A state for the witnesses. -/
def atXchg : State :=
  meets [(0, 4), (16, 1), (126, 6), (64, 64), (96, 128), (144, 1), (112, 1)]

/-- A bucket of one member. -/
def atReduce : State :=
  runs (nsPut State.reset 16384 ([1] ++ List.replicate 39 0 ++ [32])) 0 (ent [(0, 5), (16, 1), (32, 6), (42, 6), (64, 5), (80, 32), (112, 16), (128, 32), (173, 64)])

/-- A state for the witnesses. -/
def atGather : State :=
  meets [(0, 6), (16, 1), (64, 16), (78, 3), (83, 3), (160, 64)]

/-- A state for the witnesses. -/
def atTurn0 : State :=
  meets [(0, 9)]

/-- A state for the witnesses. -/
def atTurn9 : State :=
  meets [(0, 9), (128, 9)]

/-- A state for the witnesses. -/
def atToken : State :=
  runs (put State.reset [(tokenKey 0 31, 2 * 2 ^ 16)]) 0 (ent [(0, 10), (64, 31), (80, 2)])

/-- A state for the witnesses. -/
def atTokenShort : State :=
  meets [(0, 10), (64, 31), (80, 1)]

/-- A GATE behind a REDUCE in flight. -/
def atGateEarly : State :=
  { meets [(0, 11), (64, 3), (80, 1)] with seq.flights := [theFlight 5 .none], seq.nextId := 8 }

/-- A state for the witnesses. -/
def atGate : State :=
  meets [(0, 11), (64, 3), (80, 1)]

/-- A GATE on synchronised overflow flag with the loss scale in automatic mode. -/
def atScaleGate : State :=
  runs (put State.reset [(lsReg 0 Reg.LS_CTRL, 1), (lsReg 0 Reg.LS_LIMITS, 0x01007F80)]) 0 (ent [(0, 11), (66, 1), (67, 1), (80, 1)])

/-- A state for the witnesses. -/
def atHint : State :=
  meets [(0, 12), (72, 2), (80, 5), (128, 60)]

/-- A state for the witnesses. -/
def atHint2047 : State :=
  runs State.reset 2047 0x0C

/-- A state for the witnesses. -/
def atMark : State :=
  meets [(0, 13), (64, 0xABCD), (96, 128)]

/-- A state for the witnesses. -/
def atMarkOut : State :=
  meets [(0, 13), (64, 0xABCD), (96, 6 * 2 ^ 30)]

/-- A state for the witnesses. -/
def atJump : State :=
  meets [(0, 14), (64, 5)]

/-- Link 23 is up in fabric mode; the package is number 1. -/
def fabric : State :=
  put State.reset [(linkReg 23 Reg.LINK_STATE, 0xFF0A), (linkReg 23 Reg.LINK_CTRL, 0xFF01), (rtReg Reg.RT_SELF, 1)]

/-- Link 23 is up in storage mode. -/
def storageLink : State :=
  put State.reset [(linkReg 23 Reg.LINK_STATE, 0xFF12), (linkReg 23 Reg.LINK_CTRL, 0xFF02)]

/-- The port is up, unkeyed. -/
def portOpen : State :=
  put State.reset [(portReg Reg.PORT_STATE, 2)]

/-- The port is up, keyed. -/
def portKey : State :=
  put State.reset [(portReg Reg.PORT_STATE, 6)]

/-- A commit of the time page is armed for turn 9, which F_COMMIT_TURN names. -/
def armed : State :=
  { put State.reset [(hPage 3 + Reg.F_COMMIT_TURN_LO, 9)] with regs.commits := [{ page := hPage 3, turn := some 9 }] }

/-- A state for the witnesses. -/
def armedGo : State :=
  { put State.reset [(hPage 3 + Reg.F_COMMIT_TURN_LO, 9)] with regs.commits := [{ page := hPage 3, turn := none }] }

/-- A switch plan runs on M-die 7. -/
def planRuns : State :=
  put State.reset [(swReg 7 Reg.SW_STATE, 1)]

/-- Link 23 trains for fabric mode. -/
def training : State :=
  put State.reset [(linkReg 23 Reg.LINK_STATE, 1), (linkReg 23 Reg.LINK_CTRL, 0xFF01)]

/-- Links 22 and 23 are up in fabric mode; package 9 lies beyond link 22. -/
def routed : State :=
  put fabric [(linkReg 22 Reg.LINK_STATE, 0xFF0A), (linkReg 22 Reg.LINK_CTRL, 0xFF01), (keyOf (rtReg Reg.RT_MASK) 9, 2 ^ 22)]

/-- Slot 63 holds a loading and owns partition 0. -/
def tenant63 : State :=
  { put fabric [(slotKey Reg.SLOT_STATE 63, 1), (slotKey Reg.SLOT_CFG 63, 0x0100)] with tenant.keys := [(63, { load := 1, data := 2, tweak := 3, far := 4, link := 5 })] }

/-- A state for the witnesses. -/
def tenantAway : State :=
  { put fabric [(slotKey Reg.SLOT_STATE 63, 1), (slotKey Reg.SLOT_CFG 63, 0x0200)] with tenant.keys := [(63, { load := 1 })] }

/-- Package 9 is the partner; its mirror copies stand at 7:0. -/
def mirror63 : State :=
  { put fabric [(slotKey Reg.SLOT_STATE 63, 1), (slotKey Reg.SLOT_CFG 63, 0x0100), (pairReg Reg.PAIR_STATE, 1), (pairReg Reg.PAIR_PARTNER, 9), (pairReg Reg.PAIR_LINKS, 23 * 257), (pairReg Reg.PAIR_MBASE_HI, 112), (memPage 7 + Reg.MEM_MODE, 0xFF00), (memPage 7 + Reg.MEM_DATA_SIZE, 16), (memPage 7 + Reg.MEM_CATCH_BASE, 16)] with tenant.keys := [(63, { load := 1, data := 2, tweak := 3, far := 4, link := 5 })] }

/-- Window 7 has memory, and package 9 lies beyond link 23. -/
def imageHome : State :=
  put fabric [(memPage 7 + Reg.MEM_DATA_SIZE, 16), (memPage 7 + Reg.MEM_CATCH_BASE, 16), (keyOf (rtReg Reg.RT_MASK) 9, 2 ^ 23)]

/-- A state for the witnesses. -/
def lateReduce : State :=
  { flying (ent [(0, 5), (16, 1), (32, 6), (42, 6), (64, 5), (80, 32), (112, 16), (128, 32), (173, 64)]) (.reduce { tag := 5, own := 0, list := [1], need := 1, rest := 1, turn := 0 }) with time.now := 1024 * 4096 }

/-- A state for the witnesses. -/
def lateGather : State :=
  { flying (ent [(0, 6), (16, 1), (64, 16), (78, 3), (83, 3), (160, 64)]) (.gather { srcs := [{ core := 0, idx := 0, pkg := 1, count := 4, addr := 64, line := 16 }], turn := 0 }) with time.now := 1024 * 4096 }

/-- A plan of one descriptor: 32 masters at 7:10000 become an E2M1 image at 7:20000. -/
def planned : State :=
  { put State.reset [(memPage 7 + Reg.MEM_DATA_SIZE, 16), (memPage 7 + Reg.MEM_CATCH_BASE, 16), (hPage 4 + Reg.PART_OWN + 28, 1), (swReg 7 Reg.SW_PLAN_HI, 112), (swReg 7 Reg.SW_STATE, 1)] with mem.gddr := [(2, 1), (4, 0x70), (8, 1), (12, 32), (0x10, 0x80), (0x14, 1), (0x22, 2), (0x24, 0x70)].map fun x => (7 * 2 ^ 36 + x.1, x.2) }

/-- Command ring 4095 has one command to fetch. -/
def ringC : State :=
  { put portKey [(ringReg Reg.RING_CFG 4095, 0x10002)] with serving.rings := [(4095, { prod := 1 })] }

/-- A state for the witnesses. -/
def ringT : State :=
  { put portKey [(ringReg Reg.RING_CFG 4095, 0x10001)] with serving.rings := [(4095, { prod := 1 })] }

/-- The event queue of command queue 0 is ring 9. -/
def eventful : State :=
  queued (put serving [(ringReg Reg.RING_CFG 9, 0x10003), (ringReg Reg.RING_BASE 0, 9 * 2 ^ 16)]) 0 (leBytes 64 (ent [(0, 1), (16, 4), (32, 9), (64, 1), (80, 5), (88, 255), (96, 65535), (112, 3), (128, 4), (160, 8), (224, 60)]))

/-- Window 7 has memory, its partition an owner and a storage link with a target. -/
def gates : State :=
  { put storageLink [(portReg Reg.PORT_STATE, 6), (memPage 7 + Reg.MEM_DATA_SIZE, 16), (memPage 7 + Reg.MEM_CATCH_BASE, 16), (hPage 4 + Reg.PART_OWN + 28, 1)] with storage.targets := [(255, some aTarget)] }

/-- The first unit of window 7 is a region of slot 63. -/
def gatesTenant : State :=
  put gates [(memPage 7 + Reg.REGION, 0x3F8000), (hPage 7 + Reg.ATT_STATE, 4), (slotKey Reg.SLOT_STATE 63, 1), (slotKey Reg.SLOT_SERIAL_LO 63, 5)]

/-- Program 7 of cluster 431 is to be enabled at the next boundary. -/
def enabling : State :=
  go State.reset (clPage 0x12 431) [(progReg 431 7, 2 ^ 31)]

/-- A reserved time role waits for its boundary. -/
def refusedRole : State :=
  go State.reset (hPage 3) [(ftReg Reg.FT_ROLE, 3)]

/-- The port is up for recovery. -/
def portRec : State :=
  put State.reset [(portReg Reg.PORT_STATE, 10), (bootReg Reg.BOOT_STEP, 3)]

/-! ### Well-formed and ill-formed commands -/

def fr : Frame := { type := 1 }
def tr : Training := { lanes := 255, laneMap := 0x76543210, crossed := false, peer := some (1023, 31, 3), delay := 0 }
def lr : LoopReadings :=
  { rails := [], railEst := [], partEst := List.replicate 8 0, partDyn := List.replicate 8 0, tj := List.replicate 64 (0, 0), mem := List.replicate 8 (0, 0),
    margin := List.replicate 48 (0, 0), osc := List.replicate 48 (0, 0), sense := List.replicate 8 (0, true), diode := 0 }
def tfr : TimeFrame := { stamp := 5, depth := 3 }
def sfr : StorageFrame := { len := 64, mac := 5, ip := 1, qpn := 1 }
def hdBad : PortHead := { seq := 4096, enc := false }
def long : List Byte := List.replicate 4097 0
/-- A well-formed term of every command that WellFormed checks. -/
theorem test_wf_accepts_0 :
    ([.pass 0 0, .mvec 0 0, .convert 0 0, .skewConversion 0 0, .add 0 0, .multiply 0 0, .multiplyAdd 0 0,
      .multiplyImmediate 0 0, .rowMaximum 0 0, .rowSum 0 0, .exp 0 0, .ln 0 0, .reciprocalSquareRoot 0 0,
      .softmax 0 0, .rmsNormalisation 0 0, .layerNormalisation 0 0, .logProbability 0 0, .silu 0 0, .gelu 0 0,
      .moment 0 0, .master 0 0, .cacheRule 0 0, .dropout 0 0, .normalFillTable 0 0, .normalFillTransform 0 0,
      .uniformFill 0 0, .attnScores 0 0, .attnNormalise 0 0, .attnValues 0 0, .sample 0 0, .move 0 0,
      .activationSpill 0 0, .spillExpand 0 0, .exchangeFixed 0 0, .dispatch 0 0, .returnRows 0 0, .combine 0 0,
      .reduceThroughput 0 0, .reduceOrdered 0 0, .flagSync 0 0] : List Instr).all (fun c => c.wf) = true := by decide +kernel
theorem test_wf_accepts_1 :
    ([.gather 0 0, .waitTurn 0 0, .waitToken 0 0, .tokenTimeout 0 0, .gate 0 0, .hint 0 0, .mark 0 0, .jump 0 0,
      .endEntry 0 0, .priorityAgeing 0 { slot := 0, cycles := 0 }, .halt .firmware 0 0, .turnBoundary 0 [],
      .parkedSessionExpiry 0, .commitGo .firmware 0, .commitArm .firmware 0, .commitDisarm .firmware 0,
      .registerWrite .firmware 0 0, .lowWordRead .firmware 0, .errClr .firmware 0, .eventClear .firmware 0 0,
      .programEnable 0, .programDisable 0, .tableCopy 0, .tableLoaded 0, .lossScaleLoad 0, .checkDraw .firmware 0,
      .checkDrawDone 0, .cntClear .firmware 0, .nsClear .firmware 0, .memClear .firmware 0, .linkClear .firmware 0,
      .idleClear .firmware 0, .dieClear .firmware 0, .linkKeyWrite .firmware 0 0, .timeFrame 0 tfr (.crc 0) 0 true 0,
      .delayRemeasure 0 { frame := tfr, phase := 0 }, .timeExchange hd 0 { t2 := 0, t3 := 0 } 0,
      .beltCrcRetry { die := 0, attempt := 1 }, .beltLaneDown 0, .eventOverflow 0] : List Instr).all (fun c => c.wf) = true := by decide +kernel
theorem test_wf_accepts_2 :
    ([.controlLoop lr, .measurementLost 0, .droop 0, .droopRecovery 0 0, .vstepAck 0, .regulatorStepTimeout 0,
      .thermalTrip 0, .wakePattern 0, .armedCommitWake 0, .bringUpStepEnd {}, .recoveryChunk hd 0 0 0 [],
      .recoveryCommit hd 0 0 0, .recoveryStatus hd 0, .gddr7CrcRetry 0 0 1 true, .retrainingComplete 0 0 true,
      .correctionWriteBack 0, .sandQueue 0, .sandAgeing 0, .sanded { window := 0, units := 0 }, .catchShareChange 0,
      .tagSweepComplete 0 0, .producerDoorbell hd 0 0 0, .consumerDoorbell hd 0 0 0, .hostReadRequest 0,
      .hostReadResponse hd 0 [], .hostReadTimeout 0, .hostWrite 0, .pendingRecordPost 0, .admitReq 0, .cancel 0,
      .pause 0, .resume 0, .dropParked 0, .prefixDef 0, .prefixDrop 0, .familyDef 0, .familyDrop 0, .sessionParked 0,
      .resumeRetry 0, .restoreComplete 0 none []] : List Instr).all (fun c => c.wf) = true := by decide +kernel
theorem test_wf_accepts_3 :
    ([.load hd 0 0 0, .loadExtent 0 0 .bad, .switchPlanStart 0, .switchDescriptor 0, .swAbort .firmware 0,
      .switchOverrun 0, .switchPiece 0 fr (.crc 0), .reduceFrame 0 fr (.crc 0), .xchgFrame 0 fr (.crc 0) true,
      .gatherRequest 0 fr (.crc 0), .gatherResponse 0 fr (.crc 0), .controlFrame 0 0 none {},
      .linkWakeFrame 0 fr (.crc 0), .heldFrameDeparture 0 0 true, .replayLimit 0, .linkTrainingComplete 0 tr,
      .modeMismatchRetry 0 tr, .lightLoss 0 0, .linkModeChange 0, .linkRetrain 0, .bucketOrphaned 0,
      .gatherSourceLost 0 0, .storageFrame 0 sfr 0 0, .congestionNotification 0, .congestionRecovery 0,
      .priorityPause 0 0, .portTraining 0, .portLinkControl 0 none, .portWakeFrame hd, .attestationRequest hd 0 [],
      .keyEstablishment hd 0 [], .regRead hd 0 0 0, .regWrite hd 0 0 [], .arm hd 0 0 [], .targetSet hd 0 0 [],
      .targetClear hd 0 0, .farPut hd 0 0 0 0 0 0, .farGet hd 0 0 0 0 0 0 0, .farTransferComplete 0 [],
      .store hd 0 0 0 0 0] : List Instr).all (fun c => c.wf) = true := by decide +kernel
theorem test_wf_accepts_4 :
    ([.storeComplete 0, .fetch hd 0 0 0 0 0, .fetchComplete 0, .quote hd 0 [], .identityReq hd 0,
      .slotLoad hd 0 0 0 0 [], .slotPart hd 0 0 0, .extend hd 0 0 [], .rekey hd 0, .debugAuth hd 0 [],
      .trustedDomainAdmit hd 0, .keyZeroise 0, .forcedZeroise 0, .partingComplete 0, .reclaim hd 0 0 true 0,
      .reclaimGo hd 0, .pairSet hd 0 0 0 0 0 0 0, .pairClear hd 0, .pairSolo hd 0 true, .catchInfo hd 0,
      .catchRelease hd 0, .capSet hd 0 0 0 0, .shareSet hd 0 [] 0, .opSet hd 0 0 0 0, .stateSet hd 0 0 0,
      .powerRead hd 0, .replan hd 0 0, .wakeLinks hd 0 0, .psWakeLinks .firmware 0, .caught 0 0, .strobeLossDump 0,
      .catchDumpComplete 0, .sbEventsClear 0, .eventFrame 0, .commandAddressParityError 0,
      .dynamicAddressAssignment 0, .wakePatternEnd 0, .priorityPauseExpiry 0] : List Instr).all (fun c => c.wf) = true := by decide +kernel

/-- For every check of WellFormed a term that breaks it alone. -/
theorem test_wf_refuses_0 :
    ([.pass 432 0, .pass 0 8, .mvec 432 0, .mvec 0 8, .convert 432 0, .convert 0 8, .skewConversion 432 0,
      .skewConversion 0 8, .add 432 0, .add 0 8, .multiply 432 0, .multiply 0 8, .multiplyAdd 432 0,
      .multiplyAdd 0 8, .multiplyImmediate 432 0, .multiplyImmediate 0 8, .rowMaximum 432 0, .rowMaximum 0 8,
      .rowSum 432 0, .rowSum 0 8, .exp 432 0, .exp 0 8, .ln 432 0, .ln 0 8, .reciprocalSquareRoot 432 0,
      .reciprocalSquareRoot 0 8, .softmax 432 0, .softmax 0 8, .rmsNormalisation 432 0, .rmsNormalisation 0 8,
      .layerNormalisation 432 0, .layerNormalisation 0 8, .logProbability 432 0, .logProbability 0 8, .silu 432 0,
      .silu 0 8, .gelu 432 0, .gelu 0 8, .moment 432 0, .moment 0 8] : List Instr).all (fun c => !c.wf) = true := by decide +kernel
theorem test_wf_refuses_1 :
    ([.master 432 0, .master 0 8, .cacheRule 432 0, .cacheRule 0 8, .dropout 432 0, .dropout 0 8,
      .normalFillTable 432 0, .normalFillTable 0 8, .normalFillTransform 432 0, .normalFillTransform 0 8,
      .uniformFill 432 0, .uniformFill 0 8, .attnScores 432 0, .attnScores 0 8, .attnNormalise 432 0,
      .attnNormalise 0 8, .attnValues 432 0, .attnValues 0 8, .sample 432 0, .sample 0 8, .move 432 0, .move 0 8,
      .activationSpill 432 0, .activationSpill 0 8, .spillExpand 432 0, .spillExpand 0 8, .exchangeFixed 432 0,
      .exchangeFixed 0 8, .dispatch 432 0, .dispatch 0 8, .returnRows 432 0, .returnRows 0 8, .combine 432 0,
      .combine 0 8, .reduceThroughput 432 0, .reduceThroughput 0 8, .reduceOrdered 432 0, .reduceOrdered 0 8,
      .flagSync 432 0, .flagSync 0 8] : List Instr).all (fun c => !c.wf) = true := by decide +kernel
theorem test_wf_refuses_2 :
    ([.gather 432 0, .gather 0 8, .waitTurn 432 0, .waitTurn 0 8, .waitToken 432 0, .waitToken 0 8,
      .tokenTimeout 432 0, .tokenTimeout 0 8, .gate 432 0, .gate 0 8, .hint 432 0, .hint 0 8, .mark 432 0, .mark 0 8,
      .jump 432 0, .jump 0 8, .endEntry 432 0, .endEntry 0 8, .priorityAgeing 432 { slot := 0, cycles := 0 },
      .priorityAgeing 0 { slot := 8, cycles := 0 }, .priorityAgeing 0 { slot := 0, cycles := 2 ^ 32 },
      .halt .firmware 432 0, .halt .firmware 0 (2 ^ 32), .turnBoundary (2 ^ 64) [], .turnBoundary 0 [{ cl := 432 }],
      .parkedSessionExpiry (2 ^ 16), .commitGo .firmware (2 ^ 32), .commitArm .firmware (2 ^ 32),
      .commitDisarm .firmware (2 ^ 32), .registerWrite .firmware (2 ^ 32) 0, .registerWrite .firmware 0 (2 ^ 32),
      .lowWordRead .firmware (2 ^ 32), .errClr .firmware (2 ^ 32), .eventClear .firmware (2 ^ 32) 0,
      .eventClear .firmware 0 (2 ^ 32), .programEnable 432, .programDisable 432, .tableCopy 432, .tableLoaded 432,
      .lossScaleLoad 432] : List Instr).all (fun c => !c.wf) = true := by decide +kernel
theorem test_wf_refuses_3 :
    ([.checkDraw .firmware 432, .checkDrawDone 432, .cntClear .firmware 432, .nsClear .firmware 65,
      .memClear .firmware 8, .linkClear .firmware 25, .idleClear .firmware 432, .dieClear .firmware 65,
      .linkKeyWrite .firmware (2 ^ 3) 0, .linkKeyWrite .firmware 0 (2 ^ 32), .timeFrame 25 tfr (.crc 0) 0 true 0,
      .timeFrame 0 { tfr with depth := 32 } (.crc 0) 0 true 0, .timeFrame 0 tfr (.crc 0) (2 ^ 4) true 0,
      .delayRemeasure 25 { frame := tfr, phase := 0 },
      .delayRemeasure 0 { frame := { tfr with depth := 32 }, phase := 0 },
      .delayRemeasure 0 { frame := tfr, phase := 2 ^ 4 }, .timeExchange hdBad 0 { t2 := 0, t3 := 0 } 0,
      .timeExchange hd (2 ^ 16) { t2 := 0, t3 := 0 } 0, .timeExchange hd 0 { t2 := 2 ^ 64, t3 := 0 } 0,
      .timeExchange hd 0 { t2 := 0, t3 := 2 ^ 64 } 0, .beltCrcRetry { die := 65, attempt := 1 },
      .beltCrcRetry { die := 0, attempt := 0 }, .beltCrcRetry { die := 0, attempt := 6 }, .beltLaneDown 65,
      .eventOverflow 65, .controlLoop { lr with partEst := [] }, .measurementLost (2 ^ 8), .droop 65,
      .droopRecovery 65 0, .droopRecovery 0 (2 ^ 32), .vstepAck 8, .regulatorStepTimeout 8, .thermalTrip 65,
      .wakePattern 25, .armedCommitWake (2 ^ 32), .bringUpStepEnd { portDark := 4 }, .recoveryChunk hdBad 0 0 0 [],
      .recoveryChunk hd (2 ^ 16) 0 0 [], .recoveryChunk hd 0 (2 ^ 32) 0 [], .recoveryChunk hd 0 0 (2 ^ 32) []] : List Instr).all (fun c => !c.wf) = true := by decide +kernel
theorem test_wf_refuses_4 :
    ([.recoveryChunk hd 0 0 0 long, .recoveryCommit hdBad 0 0 0, .recoveryCommit hd (2 ^ 16) 0 0,
      .recoveryCommit hd 0 (2 ^ 32) 0, .recoveryCommit hd 0 0 (2 ^ 32), .recoveryStatus hdBad 0,
      .recoveryStatus hd (2 ^ 16), .gddr7CrcRetry (2 ^ 64) 0 1 true, .gddr7CrcRetry 0 (2 ^ 32) 1 true,
      .gddr7CrcRetry 0 0 0 true, .gddr7CrcRetry 0 0 6 true, .retrainingComplete 8 0 true,
      .retrainingComplete 0 (2 ^ 3) true, .correctionWriteBack (2 ^ 64), .sandQueue 8, .sandAgeing 8,
      .sanded { window := 8, units := 0 }, .sanded { window := 0, units := 2 ^ 16 }, .catchShareChange 8,
      .tagSweepComplete 65 0, .tagSweepComplete 0 (2 ^ 6), .producerDoorbell hdBad 0 0 0,
      .producerDoorbell hd (2 ^ 16) 0 0, .producerDoorbell hd 0 (2 ^ 32) 0, .producerDoorbell hd 0 0 (2 ^ 32),
      .consumerDoorbell hdBad 0 0 0, .consumerDoorbell hd (2 ^ 16) 0 0, .consumerDoorbell hd 0 (2 ^ 32) 0,
      .consumerDoorbell hd 0 0 (2 ^ 32), .hostReadRequest (2 ^ 32), .hostReadResponse hdBad 0 [],
      .hostReadResponse hd (2 ^ 16) [], .hostReadResponse hd 0 long, .hostReadTimeout (2 ^ 16), .hostWrite (2 ^ 32),
      .pendingRecordPost (2 ^ 32), .admitReq (2 ^ 12), .cancel (2 ^ 12), .pause (2 ^ 12), .resume (2 ^ 12)] : List Instr).all (fun c => !c.wf) = true := by decide +kernel
theorem test_wf_refuses_5 :
    ([.dropParked (2 ^ 12), .prefixDef (2 ^ 12), .prefixDrop (2 ^ 12), .familyDef (2 ^ 12), .familyDrop (2 ^ 12),
      .sessionParked (2 ^ 16), .resumeRetry (2 ^ 16), .restoreComplete (2 ^ 16) none [],
      .restoreComplete 0 (some (2 ^ 16)) [], .restoreComplete 0 none long, .load hdBad 0 0 0, .load hd (2 ^ 16) 0 0,
      .load hd 0 (2 ^ 64) 0, .load hd 0 0 (2 ^ 32), .loadExtent (2 ^ 32) 0 .bad, .loadExtent 0 (2 ^ 32) .bad,
      .switchPlanStart 8, .switchDescriptor 8, .swAbort .firmware 8, .switchOverrun 8, .switchPiece 25 fr (.crc 0),
      .switchPiece 0 { fr with vc := 4 } (.crc 0), .reduceFrame 25 fr (.crc 0),
      .reduceFrame 0 { fr with vc := 4 } (.crc 0), .xchgFrame 25 fr (.crc 0) true,
      .xchgFrame 0 { fr with vc := 4 } (.crc 0) true, .gatherRequest 25 fr (.crc 0),
      .gatherRequest 0 { fr with vc := 4 } (.crc 0), .gatherResponse 25 fr (.crc 0),
      .gatherResponse 0 { fr with vc := 4 } (.crc 0), .controlFrame 25 0 none {}, .controlFrame 0 (2 ^ 12) none {},
      .controlFrame 0 0 (some 4096) {}, .controlFrame 0 0 none { freed := [0, 0, 0, 0, 0] },
      .controlFrame 0 0 none { stall := 2 ^ 32 }, .controlFrame 0 0 none { sent := 2 ^ 32 },
      .linkWakeFrame 25 fr (.crc 0), .linkWakeFrame 0 { fr with vc := 4 } (.crc 0), .heldFrameDeparture 25 0 true,
      .heldFrameDeparture 0 (2 ^ 2) true] : List Instr).all (fun c => !c.wf) = true := by decide +kernel
theorem test_wf_refuses_6 :
    ([.replayLimit 25, .linkTrainingComplete 25 tr, .linkTrainingComplete 0 { tr with lanes := 256 },
      .modeMismatchRetry 25 tr, .modeMismatchRetry 0 { tr with lanes := 256 }, .lightLoss 25 0, .lightLoss 0 (2 ^ 3),
      .linkModeChange 25, .linkRetrain 25, .bucketOrphaned (2 ^ 32), .gatherSourceLost 0 (2 ^ 32),
      .storageFrame 25 sfr 0 0, .storageFrame 0 { sfr with qpn := 2 ^ 24 } 0 0, .storageFrame 0 sfr 101 0,
      .storageFrame 0 sfr 0 (2 ^ 32), .congestionNotification (2 ^ 32), .congestionRecovery (2 ^ 32),
      .priorityPause 25 0, .priorityPause 0 (2 ^ 3), .portTraining (2 ^ 2), .portLinkControl (2 ^ 12) none,
      .portLinkControl 0 (some 4096), .portWakeFrame hdBad, .attestationRequest hdBad 0 [],
      .attestationRequest hd (2 ^ 16) [], .attestationRequest hd 0 long, .keyEstablishment hdBad 0 [],
      .keyEstablishment hd (2 ^ 16) [], .keyEstablishment hd 0 long, .regRead hdBad 0 0 0, .regRead hd (2 ^ 16) 0 0,
      .regRead hd 0 (2 ^ 32) 0, .regRead hd 0 0 (2 ^ 32), .regWrite hdBad 0 0 [], .regWrite hd (2 ^ 16) 0 [],
      .regWrite hd 0 (2 ^ 32) [], .regWrite hd 0 0 [2 ^ 32], .arm hdBad 0 0 [], .arm hd (2 ^ 16) 0 [],
      .arm hd 0 (2 ^ 64) []] : List Instr).all (fun c => !c.wf) = true := by decide +kernel
theorem test_wf_refuses_7 :
    ([.arm hd 0 0 [(2 ^ 32, 0)], .arm hd 0 0 [(0, 2 ^ 32)], .targetSet hdBad 0 0 [], .targetSet hd (2 ^ 16) 0 [],
      .targetSet hd 0 (2 ^ 32) [], .targetSet hd 0 0 long, .targetClear hdBad 0 0, .targetClear hd (2 ^ 16) 0,
      .targetClear hd 0 (2 ^ 32), .farPut hdBad 0 0 0 0 0 0, .farPut hd (2 ^ 16) 0 0 0 0 0,
      .farPut hd 0 (2 ^ 8) 0 0 0 0, .farPut hd 0 0 (2 ^ 64) 0 0 0, .farPut hd 0 0 0 (2 ^ 64) 0 0,
      .farPut hd 0 0 0 0 (2 ^ 32) 0, .farPut hd 0 0 0 0 0 (2 ^ 32), .farGet hdBad 0 0 0 0 0 0 0,
      .farGet hd (2 ^ 16) 0 0 0 0 0 0, .farGet hd 0 (2 ^ 8) 0 0 0 0 0, .farGet hd 0 0 (2 ^ 64) 0 0 0 0,
      .farGet hd 0 0 0 (2 ^ 64) 0 0 0, .farGet hd 0 0 0 0 (2 ^ 32) 0 0, .farGet hd 0 0 0 0 0 (2 ^ 32) 0,
      .farGet hd 0 0 0 0 0 0 (2 ^ 64), .farTransferComplete (2 ^ 32) [], .store hdBad 0 0 0 0 0,
      .store hd (2 ^ 16) 0 0 0 0, .store hd 0 (2 ^ 64) 0 0 0, .store hd 0 0 (2 ^ 64) 0 0, .store hd 0 0 0 (2 ^ 32) 0,
      .store hd 0 0 0 0 (2 ^ 8), .storeComplete (2 ^ 32), .fetch hdBad 0 0 0 0 0, .fetch hd (2 ^ 16) 0 0 0 0,
      .fetch hd 0 (2 ^ 64) 0 0 0, .fetch hd 0 0 (2 ^ 64) 0 0, .fetch hd 0 0 0 (2 ^ 32) 0, .fetch hd 0 0 0 0 (2 ^ 8),
      .fetchComplete (2 ^ 32), .quote hdBad 0 []] : List Instr).all (fun c => !c.wf) = true := by decide +kernel
theorem test_wf_refuses_8 :
    ([.quote hd (2 ^ 16) [], .quote hd 0 long, .identityReq hdBad 0, .identityReq hd (2 ^ 16),
      .slotLoad hdBad 0 0 0 0 [], .slotLoad hd (2 ^ 16) 0 0 0 [], .slotLoad hd 0 (2 ^ 8) 0 0 [],
      .slotLoad hd 0 0 (2 ^ 8) 0 [], .slotLoad hd 0 0 0 (2 ^ 8) [], .slotLoad hd 0 0 0 0 long, .slotPart hdBad 0 0 0,
      .slotPart hd (2 ^ 16) 0 0, .slotPart hd 0 (2 ^ 8) 0, .slotPart hd 0 0 (2 ^ 64), .extend hdBad 0 0 [],
      .extend hd (2 ^ 16) 0 [], .extend hd 0 (2 ^ 8) [], .extend hd 0 0 long, .rekey hdBad 0, .rekey hd (2 ^ 16),
      .debugAuth hdBad 0 [], .debugAuth hd (2 ^ 16) [], .debugAuth hd 0 long, .trustedDomainAdmit hdBad 0,
      .trustedDomainAdmit hd (2 ^ 16), .keyZeroise (2 ^ 6), .forcedZeroise (2 ^ 6), .partingComplete (2 ^ 6),
      .reclaim hdBad 0 0 true 0, .reclaim hd (2 ^ 16) 0 true 0, .reclaim hd 0 (2 ^ 8) true 0,
      .reclaim hd 0 0 true (2 ^ 64), .reclaimGo hdBad 0, .reclaimGo hd (2 ^ 16), .pairSet hdBad 0 0 0 0 0 0 0,
      .pairSet hd (2 ^ 16) 0 0 0 0 0 0, .pairSet hd 0 (2 ^ 16) 0 0 0 0 0, .pairSet hd 0 0 (2 ^ 8) 0 0 0 0,
      .pairSet hd 0 0 0 (2 ^ 8) 0 0 0, .pairSet hd 0 0 0 0 (2 ^ 64) 0 0] : List Instr).all (fun c => !c.wf) = true := by decide +kernel
theorem test_wf_refuses_9 :
    ([.pairSet hd 0 0 0 0 0 (2 ^ 32) 0, .pairSet hd 0 0 0 0 0 0 (2 ^ 8), .pairClear hdBad 0, .pairClear hd (2 ^ 16),
      .pairSolo hdBad 0 true, .pairSolo hd (2 ^ 16) true, .catchInfo hdBad 0, .catchInfo hd (2 ^ 16),
      .catchRelease hdBad 0, .catchRelease hd (2 ^ 16), .capSet hdBad 0 0 0 0, .capSet hd (2 ^ 16) 0 0 0,
      .capSet hd 0 (2 ^ 32) 0 0, .capSet hd 0 0 (2 ^ 8) 0, .capSet hd 0 0 0 (2 ^ 64), .shareSet hdBad 0 [] 0,
      .shareSet hd (2 ^ 16) [] 0, .shareSet hd 0 [2 ^ 16] 0, .shareSet hd 0 [] (2 ^ 64), .opSet hdBad 0 0 0 0,
      .opSet hd (2 ^ 16) 0 0 0, .opSet hd 0 (2 ^ 8) 0 0, .opSet hd 0 0 (2 ^ 8) 0, .opSet hd 0 0 0 (2 ^ 64),
      .stateSet hdBad 0 0 0, .stateSet hd (2 ^ 16) 0 0, .stateSet hd 0 (2 ^ 8) 0, .stateSet hd 0 0 (2 ^ 64),
      .powerRead hdBad 0, .powerRead hd (2 ^ 16), .replan hdBad 0 0, .replan hd (2 ^ 16) 0, .replan hd 0 (2 ^ 64),
      .wakeLinks hdBad 0 0, .wakeLinks hd (2 ^ 16) 0, .wakeLinks hd 0 (2 ^ 32), .psWakeLinks .firmware (2 ^ 32),
      .caught (2 ^ 16) 0, .caught 0 (2 ^ 6), .strobeLossDump 65] : List Instr).all (fun c => !c.wf) = true := by decide +kernel
theorem test_wf_refuses_10 :
    ([.catchDumpComplete (2 ^ 64), .sbEventsClear (2 ^ 32), .eventFrame 65, .commandAddressParityError 8,
      .dynamicAddressAssignment (2 ^ 64), .wakePatternEnd (2 ^ 24), .priorityPauseExpiry 25] : List Instr).all (fun c => !c.wf) = true := by decide +kernel


/-- Each field of a frame's header, of a time and of a storage frame, of what training found, of a control loop's readings and of a
step's end. -/
theorem test_wf_refuses_fields :
    ([{ fr with type := 16 }, { fr with vc := 4 }, { fr with src := 1024 }, { fr with dst := 1024 }, { fr with tslot := 64 }, { fr with seq := 4096 },
      { fr with daddr := 2 ^ 39 }, { fr with dsp := 2 }, { fr with tspec := 2 ^ 128 }, { fr with payload := long }].all fun f => !f.wf) = true ∧
    ([{ tr with lanes := 256 }, { tr with laneMap := 2 ^ 32 }, { tr with peer := some (1024, 0, 0) }, { tr with peer := some (0, 32, 0) },
      { tr with peer := some (0, 0, 4) }, { tr with delay := 2 ^ 32 }].all fun t => !t.wf) = true ∧
    ([{ lr with rails := [none] }, { lr with partEst := [] }, { lr with partDyn := [] }, { lr with tj := [] }, { lr with mem := [] }, { lr with margin := [] },
      { lr with osc := [] }, { lr with sense := [] }, { lr with devEcc := [(8, 0)] }, { lr with devEcc := [(0, 2 ^ 32)] },
      { lr with upsets := [{ kind := .nearSram, place := 2 ^ 31, hard := true }] }, { lr with upsets := [{ kind := .gddr7, place := 2 ^ 34, hard := true }] },
      { lr with upsets := [{ kind := .table, place := 432 * 2048, hard := true }] }].all fun r => !r.wf) = true ∧
    ([{ tfr with stamp := 2 ^ 64 }, { tfr with depth := 32 }, { tfr with turnaround := 2 ^ 16 }, { tfr with echo := 2 ^ 32 }].all fun f => !f.wf) = true ∧
    ([{ sfr with mac := 2 ^ 48 }, { sfr with vlan := some 4096 }, { sfr with udp := 2 ^ 16 }, { sfr with ip := 2 ^ 128 }, { sfr with qpn := 2 ^ 24 }].all fun f => !f.wf) = true := by
  refine ⟨?_, ?_, ?_, ?_, ?_⟩ <;> decide +kernel

theorem test_wf_refuses_step_ends :
    (([{ puf := 1 <<< 65536 }, { failed := [64] }, { edges := [48] }, { channels := [256] }, { links := List.replicate 25 tr }, { links := [{ tr with lanes := 256 }] },
      { portDark := 4 }] : List StepEnd).all fun x => !x.wf) = true := by decide +kernel

/-! ### Values with a source outside the model -/

/-- SHA3-256 of the empty message, as FIPS 202 publishes it. -/
theorem test_sha3_empty : sha3 [] = (leBytes 32 0xa7ffc6f8bf1ed76651c14756a061d662f580ff4de43b49fa82d80a4b80f8434a).reverse := by decide +kernel

/-- R83's worked example: a block whose largest value is 400 keeps its scale at E4M3, and the element rounds to 384. -/
theorem test_e4m3_400 : chooseScale 0x3 [f32Mul (fmtFP32.decode 0x43C80000) Num.one] = (0, false) ∧
    fmtFP32.roundBits (fmtE4M3.decode (fmtE4M3.roundBits (fmtFP32.decode 0x43C80000))) = 0x43C00000 := by decide +kernel

/-- The largest finite values of E4M3 (448) and E5M2 (57,344), and E4M3's one NaN, as the OCP formats have them. -/
theorem test_fp8 : fmtFP32.roundBits (fmtE4M3.decode 0x7E) = 0x43E00000 ∧ fmtFP32.roundBits (fmtE5M2.decode 0x7B) = 0x47600000 ∧
    fmtE4M3.decode 0x7F = .nan := by decide +kernel

/-- IEEE 754 binary32 quotients, roots and elementary values: 1/3, √2, e, ln 2, sin(π/2). -/
theorem test_elementary : fmtFP32.roundBits (f32Div Num.one (fmtFP32.decode 0x40400000)) = 0x3EAAAAAB ∧
    fmtFP32.roundBits (f32Sqrt (fmtFP32.decode 0x40000000)) = 0x3FB504F3 ∧ fmtFP32.roundBits (f32Exp Num.one) = 0x402DF854 ∧
    fmtFP32.roundBits (f32Ln (fmtFP32.decode 0x40000000)) = 0x3F317218 ∧ fmtFP32.roundBits (f32SinPi (fmtFP32.decode 0x3F000000)) = 0x3F800000 := by
  refine ⟨?_, ?_, ?_, ?_, ?_⟩ <;> decide +kernel

/-- R449's worked example: a mean of 8,349.6 W reads 8,300 W, and 41,226,831,452 mJ read 41,226,800,000 mJ. -/
theorem test_interval : (fun t => (t.power.intPower, t.power.intEnergy))
    (endInterval { put State.reset [(pwrReg Reg.PWR_ENERGY_LO, 41226831452 % 2 ^ 32), (pwrReg Reg.PWR_ENERGY_HI, 9)] with
      power.sumPower := 83496, power.sumLoops := 10 }) = (8300, 41226800000) := by decide +kernel

/-! ### One step of a small state -/

/-- 1.5 × 2 in BF16 is 3: MULIMM from line 0 to line 8 (R64, R77). -/
def mulImage : State :=
  vecMemory (nsPut atVec 0 [0xC0, 0x3F]) 0 0 0 (ent [(0, 2), (16, 1), (32, 6), (37, 6), (42, 6), (64, 4), (114, 8), (128, 1), (160, 0x40000000)])
theorem test_multiplyImmediate : (nsByte mulImage none (nsAddr 0 0 2048), nsByte mulImage none (nsAddr 0 0 2049)) = (0x40, 0x40) := by
  decide +kernel
/-- END leaves its program disabled, at state 6 "ended" (R63, R50). -/
theorem test_end : (fun t => (progEnabled t 0 0, progState t 0 0)) (after (.endEntry 0 0) atEnd) = (false, 6) := by decide +kernel
/-- JUMP goes to its target and addresses no unit (R63). -/
theorem test_jump : (fun t => (progPC t 0 0, t.seq.flights.length)) (after (.jump 0 0) atJump) = (5, 0) := by decide +kernel
/-- WAIT for turn 9 in turn 0 waits; for turn 0 it passes (R66). -/
theorem test_waitTurn : ((after (.waitTurn 0 0) atTurn9).prog 0 0).wait = .turn 9 ∧ progPC (after (.waitTurn 0 0) atTurn0) 0 0 = 1 := by
  decide +kernel
/-- Fabric time stands at 1,024 ticks when turn 1 begins (R37, R43). -/
theorem test_turnBoundary : (after (.turnBoundary 0 []) State.reset).time.now = 1024 := by decide +kernel
/-- IDCODE shifts out the code of R420. -/
theorem test_idcode : (after .idcode State.reset).board.tdo = 0x20640B3D := by decide +kernel
/-- Firmware's write of CTRL clears FW_ONLY on the time page, and the mailbox's does not (R535). -/
theorem test_fwOnly : bit ((after (.registerWrite .firmware (hPage 3 + Reg.F_CTRL) 0) timeLocked).reg (hPage 3 + Reg.F_CTRL)) 0 = 0 ∧
    after (.registerWrite .mailbox (hPage 3 + Reg.F_CTRL) 0) timeLocked = timeLocked := by decide +kernel
/-- SLOT_CFG with PART parts a loaded slot at the boundary (R442). -/
theorem test_slotPart : slotState (after .slotCfgPart (go (put State.reset [(slotKey Reg.SLOT_STATE 63, 1)]) (hPage 8) [(slotKey Reg.SLOT_CFG 63, 2)])) 63 = 2 := by
  decide +kernel
/-- The interface words name no command, for no row of the table has bits. -/
theorem test_decode : decodeTableWord 32 0xFFFFFFFF = none ∧ State.reset.withFetchWord 32 5 = State.reset := by decide +kernel


/-! ### Witnesses: the hypotheses of each obligation, met by a state and operands -/

theorem witness_StepFront : State.reset.pending = [] := by decide +kernel

theorem witness_QueueUntouched : (fun c s t => exec c s = .next t) (.turnBoundary 0 []) State.reset (after (.turnBoundary 0 []) State.reset) :=
  exec_after _ _ (by decide +kernel)

theorem witness_StopsOnlyOnDebug :
    ((fun (s : State) => (attBit s 3 = false ∨ confPresent s = true)) (State.reset)) := by dsimp only; decide +kernel

theorem witness_BoardInvariant : State.reset.boardOk ∧ step (withCommand .idcode) = .next (after .idcode State.reset) :=
  ⟨by decide +kernel, exec_after .idcode State.reset (by decide +kernel)⟩

theorem witness_FabricTimeNeverDecreases : step (withCommand (.turnBoundary 0 [])) = .next (after (.turnBoundary 0 []) State.reset) ∧
    State.reset.boot.pwrgood = true ∧ (after (.turnBoundary 0 []) State.reset).boot.pwrgood = true :=
  ⟨exec_after (.turnBoundary 0 []) State.reset (by decide +kernel), by decide +kernel, by decide +kernel⟩

theorem witness_CanonicalInvariant : State.reset.regsOk ∧ State.reset.memoryOk ∧
    step (withCommand (.turnBoundary 0 [])) = .next (after (.turnBoundary 0 []) State.reset) :=
  ⟨by decide +kernel, by decide +kernel, exec_after (.turnBoundary 0 []) State.reset (by decide +kernel)⟩

theorem witness_FlightsInvariant : State.reset.idsOk ∧ step (withCommand (.turnBoundary 0 [])) = .next (after (.turnBoundary 0 []) State.reset) :=
  ⟨by decide +kernel, exec_after (.turnBoundary 0 []) State.reset (by decide +kernel)⟩

theorem witness_KeysAndMemoriesChangeOnlyBy : (fun c s t => exec c s = .next t) .slotCfgLoad State.reset (after .slotCfgLoad State.reset) :=
  exec_after _ _ (by decide +kernel)

theorem witness_StatesAndBoardChangeOnlyBy : (fun c s t => exec c s = .next t) .powerStateEntry State.reset (after .powerStateEntry State.reset) :=
  exec_after _ _ (by decide +kernel)

theorem witness_FormatRoundTrip :
    ((fmtE4M3 : Fmt) ∈ [fmtE2M1, fmtE2M3, fmtE3M2, fmtE4M3, fmtE5M2, fmtBF16, fmtFP16, fmtFP32, fmtWA48]) ∧
    ((fun (f : Fmt) (v : Nat) => f.decode v ≠ .nan ∧ v < 2 ^ f.width) (fmtE4M3) (0x38)) := 
  ⟨by simp [], by dsimp only; decide +kernel⟩

theorem witness_FramesReadBack :
    ((fun (f : BeltFrame) => f.tag < 2 ^ 8 ∧ f.addr < 2 ^ 32 ∧ f.data < 2 ^ 64 ∧ f.status < 2 ^ 4) ({ op := .event, tag := 255, addr := 2 ^ 32 - 1, data := 2 ^ 64 - 1, status := 15 })) ∧
    ((fun (f : Frame) => f.wf = true ∧ 1 ≤ f.type ∧ f.type ≤ 8 ∧ f.payload.length % 32 = 0) ({ type := 8, dst := 1023, vc := 3, dsp := 1, seq := 4095, payload := List.replicate 32 5 })) ∧
    ((fun (src : Nat) (dst : Nat) (x : TimeFrame) => x.stamp < 2 ^ 64 ∧ x.depth < 2 ^ 5 ∧ x.turnaround < 2 ^ 16 ∧ x.echo < 2 ^ 32 ∧ src < 2 ^ 10 ∧ dst < 2 ^ 10) (1023) (1023) ({ stamp := 2 ^ 64 - 1, depth := 31, turnaround := 65535, echo := 2 ^ 32 - 1 })) ∧
    ((fun (f : PortFrame) => 1 ≤ f.type ∧ f.type ≤ 13 ∧ f.seq < 2 ^ 12 ∧ f.tag < 2 ^ 16 ∧ f.addr < 2 ^ 64 ∧ f.arg0 < 2 ^ 64 ∧ f.arg1 < 2 ^ 64 ∧ f.payload.length ≤ 4096 ∧ f.payload.length % 4 = 0) ({ type := 13, enc := true, seq := 4095, tag := 65535, addr := 2 ^ 64 - 1, arg0 := 1, arg1 := 2, payload := [1, 2, 3, 4] })) ∧
    ((fun (h : ImageHeader) => h.wf = true) (anImage)) ∧
    ((fun (e : ImageEntry) => e.wf = true) (anImageEntry)) := by
  refine ⟨?_, ?_, ?_, ?_, ?_, ?_⟩ <;> dsimp only <;> decide +kernel

theorem witness_MemoryMap :
    ((fun (s : State) (a : Nat) (b : Nat) => gWindow a = gWindow b ∧ liveChannels s (gWindow a) ≠ [] ∧ gChannel s a = gChannel s b ∧ gDevAddr s a = gDevAddr s b) (allChannels) (0x2001234560) (0x2001234560)) ∧
    ((fun (s : State) (a : Nat) (b : Nat) => gWindow a = gWindow b ∧ liveChannels s (gWindow a) ≠ [] ∧ gChannel s a = gChannel s b) (allChannels) (0x2001234560) (0x2001234561)) ∧
    ((fun (s : State) (a : Nat) => liveChannels s (gWindow a) ≠ []) (allChannels) (0x2001234560)) ∧
    ((fun (s : State) => bf (s.reg (memPage 2 + Reg.MEM_MODE)) 15 8 = 0xFF) (allChannels)) ∧
    ((fun (s : State) => bf (s.reg (memPage 2 + Reg.MEM_MODE)) 15 8 = 0xF7) (sevenChannels)) := by
  refine ⟨?_, ?_, ?_, ?_, ?_⟩ <;> dsimp only <;> decide +kernel

theorem witness_RejectedEntry :
    ((controlEntryRow .endEntry 0x0F : EntryRow) ∈ entryRows) ∧
    ((fun (s : State) (cl : Nat) (p : Nat) (i : Nat) (e : Nat) (r : EntryRow) => s.regsOk ∧ s.tablesOk ∧ runnable s cl p = true ∧ progPC s cl p = i ∧ entryBusy s cl i = false ∧ entryAt s cl i = e ∧ (entryErr s cl i = 2 ∨ (Ent.noRow e = true ∨ (r.mine s cl e = true ∧ Ent.layoutBad e = true)))) (noRowHere) (0) (0) (0) (0x10) (controlEntryRow .endEntry 0x0F)) := 
  ⟨by simp [entryRows, controlEntryRows], by dsimp only; decide +kernel⟩

theorem witness_EntryOfAnotherRow :
    ((controlEntryRow .jump 0x0E : EntryRow) ∈ entryRows) ∧
    ((fun (s : State) (cl : Nat) (p : Nat) (i : Nat) (e : Nat) (r : EntryRow) => s.meets cl p i e = true ∧ r.mine s cl e = false) (atEnd) (0) (0) (0) (0x0F) (controlEntryRow .jump 0x0E)) ∧
    ((controlEntryRow .endEntry 0x0F : EntryRow) ∈ entryRows) ∧
    ((fun (s : State) (cl : Nat) (p : Nat) (i : Nat) (e : Nat) (r : EntryRow) => s.meets cl p i e = true ∧ r.mine s cl e = true ∧ Ent.layoutBad e = false ∧ readyFor s cl p e (r.units e) (r.cores e) = false) (fencedEnd) (0) (0) (0) (0x2F) (controlEntryRow .endEntry 0x0F)) ∧
    ((controlEntryRow .endEntry 0x0F : EntryRow) ∈ entryRows) ∧
    ((fun (s : State) (cl : Nat) (p : Nat) => (runnable s cl p = false ∨ entryBusy s cl (progPC s cl p) = true)) (State.reset) (0) (0)) := 
  ⟨by simp [entryRows, controlEntryRows], by dsimp only; decide +kernel, by simp [entryRows, controlEntryRows], by dsimp only; decide +kernel, by simp [entryRows, controlEntryRows], by dsimp only; decide +kernel⟩

theorem witness_ArrayIssue :
    ((fun (s : State) (cl : Nat) (p : Nat) (i : Nat) (e : Nat) => s.regsOk ∧ s.tablesOk ∧ s.before cl p i e [.array] (Ent.cores e) = true ∧ s.idsOk ∧ Ent.type e = 0 ∧ passRejects s cl e = none ∧ recordOut s cl (Ent.nrec e) = false) (atPass) (0) (0) (0) (ent [(16, 1), (32, 6), (37, 6), (42, 6), (80, 600), (96, 900), (128, 1), (144, 1), (152, 1)])) ∧
    ((fun (s : State) (cl : Nat) (p : Nat) (i : Nat) (e : Nat) => s.regsOk ∧ s.tablesOk ∧ s.before cl p i e [.mvPath] (Ent.cores e) = true ∧ Ent.type e = 1 ∧ mvecReject s cl e = none) (atMvec) (0) (0) (0) (ent [(0, 1), (16, 1), (32, 6), (37, 6), (42, 6), (80, 600), (96, 900), (128, 1), (144, 1)])) := by
  refine ⟨?_, ?_⟩ <;> dsimp only <;> decide +kernel

theorem witness_VectorIssue :
    ((vecEntryRow .multiplyImmediate 0x04 : EntryRow) ∈ vecEntryRows) ∧
    ((fun (s : State) (cl : Nat) (p : Nat) (i : Nat) (e : Nat) (r : EntryRow) => s.regsOk ∧ s.tablesOk ∧ s.before cl p i e [.vector] (Ent.cores e) = true ∧ s.idsOk ∧ r.mine s cl e = true ∧ vecReject s cl e = none) (atVec) (0) (0) (0) (ent [(0, 2), (16, 1), (32, 6), (37, 6), (42, 6), (64, 4), (114, 8), (128, 1), (160, 0x40000000)]) (vecEntryRow .multiplyImmediate 0x04)) ∧
    ((fun (s : State) (cl : Nat) (e : Nat) (a : Nat) => (∀ k ∈ setBits (Ent.cores e) 16, ∀ im ∈ (vecCore e (s.reg64 (seqReg cl Reg.SEED_LO)) (sigmaStep s cl) (fun l => nsView s (actingSlot s cl) cl k l)).images, ∀ w ∈ im.2, a / 256 ≠ nsAddr cl k (256 * im.1 + w.1) / 256)) (atVec) (0) (ent [(0, 2), (16, 1), (32, 6), (37, 6), (42, 6), (64, 4), (114, 8), (128, 1), (160, 0x40000000)]) (0)) := 
  ⟨by simp [vecEntryRows], by dsimp only; decide +kernel, by dsimp only; decide +kernel⟩

theorem witness_AttentionIssue :
    ((attnEntryRow .attnScores 0 : EntryRow) ∈ ([attnEntryRow .attnScores 0, attnEntryRow .attnNormalise 1, attnEntryRow .attnValues 2] : List EntryRow)) ∧
    ((fun (s : State) (cl : Nat) (p : Nat) (i : Nat) (e : Nat) (r : EntryRow) => s.regsOk ∧ s.tablesOk ∧ s.before cl p i e [attnUnit e] (Ent.cores e) = true ∧ r.mine s cl e = true ∧ truncateWaits s cl e = false ∧ pagesHeld s e = false ∧ attnReject (attnOpened s cl e) cl e = none) (atAttn) (0) (0) (0) (ent [(0, 7), (16, 1), (32, 6), (42, 9), (80, 16), (96, 64), (184, 1), (224, 1)]) (attnEntryRow .attnScores 0)) ∧
    ((attnEntryRow .attnScores 0 : EntryRow) ∈ ([attnEntryRow .attnScores 0, attnEntryRow .attnNormalise 1, attnEntryRow .attnValues 2] : List EntryRow)) ∧
    ((fun (s : State) (cl : Nat) (p : Nat) (i : Nat) (e : Nat) (r : EntryRow) => s.meets cl p i e = true ∧ Ent.layoutBad e = false ∧ Ent.type e = 7 ∧ (truncateWaits s cl e = true ∨ pagesHeld s e = true) ∧ r.mine s cl e = true) (atAttnHeld) (0) (0) (0) (ent [(0, 7), (16, 1), (32, 6), (42, 9), (80, 16), (96, 64), (184, 1), (224, 1)]) (attnEntryRow .attnScores 0)) ∧
    ((fun (a : AttnRun) (cl : Nat) (e : Nat) (c : Nat) (cause : Nat) => (attnPlan a.state cl e c (Ent.atStep e != 0)) = .error cause) ({ state := atAttn }) (0) (ent [(0, 7), (16, 1), (32, 6), (42, 9), (80, 16), (96, 64), (184, 1), (224, 1)]) (0) (Cause.unknownPageList)) ∧
    ((fun (s : State) (a : AttnRun) (cl : Nat) (e : Nat) (c : Nat) (x : AttnPlan) => a.state = s ∧ cl < 432 ∧ Ent.atStep e = 1 ∧ attnPlan s cl e c true = .ok x) (atNormalise) ({ state := atNormalise }) (0) (ent [(0, 7), (16, 1), (32, 9), (42, 9), (80, 16), (96, 64), (184, 1), (224, 1), (64, 1)]) (0) ({ pool := 0, d := 64, fmt := 3, blk := 0, rows := [{ list := some 0, pos := 0, dead := false }], len := 1, fam := none })) ∧
    ((fun (s : State) (a : AttnRun) (cl : Nat) (e : Nat) (c : Nat) (x : AttnPlan) => a.state = s ∧ cl < 432 ∧ (Ent.atStep e = 2 ∨ Ent.atStep e = 3) ∧ attnPlan s cl e c true = .ok x) (atValues) ({ state := atValues }) (0) (ent [(0, 7), (16, 1), (32, 9), (42, 6), (80, 16), (96, 64), (184, 1), (224, 1), (64, 2)]) (0) ({ pool := 0, d := 64, fmt := 3, blk := 0, rows := [{ list := some 0, pos := 0, dead := false }], len := 1, fam := none })) := 
  ⟨by simp [], by dsimp only; decide +kernel, by simp [], by dsimp only; decide +kernel, by
    dsimp only
    exact error_of (by decide +kernel), by
    dsimp only
    exact ⟨by decide +kernel, by decide +kernel, by decide +kernel, ok_of (by decide +kernel)⟩, by
    dsimp only
    exact ⟨by decide +kernel, by decide +kernel, by decide +kernel, ok_of (by decide +kernel)⟩⟩

theorem witness_SampleAndMoveIssue :
    ((fun (s : State) (cl : Nat) (p : Nat) (i : Nat) (e : Nat) => s.regsOk ∧ s.tablesOk ∧ s.before cl p i e [.sampler] 1 = true ∧ s.idsOk ∧ Ent.type e = 8 ∧ sampleReject e = none) (atSample) (0) (0) (0) (ent [(0, 8), (16, 1), (80, 512), (94, 1), (128, 1000)])) ∧
    ((moveEntryRow .move (fun e => !isSpill e && !isExpand e) : EntryRow) ∈ ([moveEntryRow .move (fun e => !isSpill e && !isExpand e), moveEntryRow .activationSpill isSpill, moveEntryRow .spillExpand isExpand] : List EntryRow)) ∧
    ((fun (s : State) (cl : Nat) (p : Nat) (i : Nat) (e : Nat) (r : EntryRow) => s.regsOk ∧ s.tablesOk ∧ s.before cl p i e [.transfer] 0 = true ∧ r.mine s cl e = true ∧ sourceHeld s e = false ∧ moveReserved e = false ∧ Ent.mvLen e = 0 ∧ placeOutside s cl (Ent.mvDsp e) (Ent.mvDst e) = false) (atMove0) (0) (0) (0) (ent [(0, 3)]) (moveEntryRow .move (fun e => !isSpill e && !isExpand e))) ∧
    ((moveEntryRow .move (fun e => !isSpill e && !isExpand e) : EntryRow) ∈ ([moveEntryRow .move (fun e => !isSpill e && !isExpand e), moveEntryRow .activationSpill isSpill, moveEntryRow .spillExpand isExpand] : List EntryRow)) ∧
    ((fun (s : State) (cl : Nat) (p : Nat) (i : Nat) (e : Nat) (r : EntryRow) => s.meets cl p i e = true ∧ Ent.layoutBad e = false ∧ r.mine s cl e = true ∧ sourceHeld s e = true) (atMoveHeld) (0) (0) (0) (ent [(0, 3), (64, 1), (160, 32), (120, 1024)]) (moveEntryRow .move (fun e => !isSpill e && !isExpand e))) ∧
    ((fun (s : State) (cl : Nat) (p : Nat) (i : Nat) (e : Nat) => s.regsOk ∧ s.tablesOk ∧ s.before cl p i e [.transfer] 0 = true ∧ Ent.type e = 3 ∧ isSpill e = false ∧ isExpand e = false ∧ sourceHeld s e = false ∧ moveReserved e = false ∧ Ent.mvLen e ≠ 0 ∧ moveRefuse s cl e (Ent.mvLen e) (Ent.mvLen e) = none) (atMove) (0) (0) (0) (ent [(0, 3), (120, 1024), (160, 32)])) ∧
    ((fun (s : State) (cl : Nat) (p : Nat) (i : Nat) (e : Nat) => s.regsOk ∧ s.tablesOk ∧ s.before cl p i e [.transfer] 0 = true ∧ Ent.type e = 3 ∧ isSpill e = true ∧ moveReserved e = false ∧ Ent.mvLen e ≠ 0 ∧ spillOk s cl e = true) (atSpill) (0) (0) (0) (ent [(0, 3), (68, 1), (66, 1), (69, 1), (160, 64), (192, 4), (120, 0x1000)])) ∧
    ((fun (s : State) (cl : Nat) (p : Nat) (i : Nat) (e : Nat) => s.regsOk ∧ s.tablesOk ∧ s.before cl p i e [.transfer] 0 = true ∧ Ent.type e = 3 ∧ isExpand e = true ∧ sourceHeld s e = false ∧ moveReserved e = false ∧ Ent.mvLen e ≠ 0 ∧ expandOk s cl e = true) (atExpand) (0) (0) (0) (ent [(0, 3), (68, 1), (64, 1), (69, 1), (160, 512), (80, 0x2000)])) := 
  ⟨by dsimp only; decide +kernel, by simp [], by dsimp only; decide +kernel, by simp [], by dsimp only; decide +kernel, by dsimp only; decide +kernel, by dsimp only; decide +kernel, by dsimp only; decide +kernel⟩

theorem witness_ExchangeIssue :
    ((xchgEntryRow .exchangeFixed (fun m => m == 0 || decide (3 < m)) : EntryRow) ∈ ([xchgEntryRow .exchangeFixed (fun m => m == 0 || decide (3 < m)), xchgEntryRow .dispatch (· == 1), xchgEntryRow .returnRows (· == 2), xchgEntryRow .combine (· == 3)] : List EntryRow)) ∧
    ((fun (s : State) (cl : Nat) (p : Nat) (i : Nat) (e : Nat) (r : EntryRow) => s.regsOk ∧ s.tablesOk ∧ s.before cl p i e [.exchange] (Ent.cores e) = true ∧ s.memoryOk ∧ s.idsOk ∧ r.mine s cl e = true ∧ xchgReject s cl e = none ∧ (xMode s cl e ≠ 3 → xOutside s cl e = false)) (atXchg) (0) (0) (0) (ent [(0, 4), (16, 1), (126, 6), (64, 64), (96, 128), (144, 1), (112, 1)]) (xchgEntryRow .exchangeFixed (fun m => m == 0 || decide (3 < m)))) ∧
    ((reduceEntryRow .reduceThroughput (fun e => !Ent.rdFsync e && !Ent.canon e) : EntryRow) ∈ ([reduceEntryRow .reduceThroughput (fun e => !Ent.rdFsync e && !Ent.canon e), reduceEntryRow .reduceOrdered (fun e => !Ent.rdFsync e && Ent.canon e), reduceEntryRow .flagSync Ent.rdFsync] : List EntryRow)) ∧
    ((fun (s : State) (cl : Nat) (p : Nat) (i : Nat) (e : Nat) (r : EntryRow) => s.regsOk ∧ s.tablesOk ∧ s.before cl p i e [.reduction] (Ent.cores e) = true ∧ s.idsOk ∧ r.mine s cl e = true ∧ redReject s cl e (groupList s cl e) = none ∧ redOutside s cl e (groupList s cl e) = false ∧ canJoin s (Ent.rdBtag e) (groupList s cl e) = true) (atReduce) (0) (0) (0) (ent [(0, 5), (16, 1), (32, 6), (42, 6), (64, 5), (80, 32), (112, 16), (128, 32), (173, 64)]) (reduceEntryRow .reduceThroughput (fun e => !Ent.rdFsync e && !Ent.canon e))) ∧
    ((fun (s : State) (cl : Nat) (p : Nat) (i : Nat) (e : Nat) => s.regsOk ∧ s.tablesOk ∧ s.before cl p i e [.gather] (Ent.cores e) = true ∧ s.idsOk ∧ Ent.type e = 6 ∧ gatherReserved e = false ∧ gatherOut s cl e = none ∧ (∀ l ∈ setBits (Ent.gaLinks e) 24, sameGroup s (partOf cl) (l / 3) = true)) (atGather) (0) (0) (0) (ent [(0, 6), (16, 1), (64, 16), (78, 3), (83, 3), (160, 64)])) := 
  ⟨by simp [], by dsimp only; decide +kernel, by simp [], by dsimp only; decide +kernel, by dsimp only; decide +kernel⟩

theorem witness_EntryCompletes :
    ((fun (s : State) (f : Nat) (fl : Flight) (ops : List (Nat × List (Nat × List Byte))) => s.regsOk ∧ s.idsOk ∧ s.tablesOk ∧ flightOf s f (fun e => Ent.type e == 0) = some fl ∧ fl.work = .running ops) (flying (ent [(16, 1), (32, 6), (37, 6), (42, 6), (80, 600), (96, 900), (128, 1), (144, 1), (152, 1)]) (.running [])) (7) (theFlight (ent [(16, 1), (32, 6), (37, 6), (42, 6), (80, 600), (96, 900), (128, 1), (144, 1), (152, 1)]) (.running [])) ([])) ∧
    ((fun (s : State) (f : Nat) (fl : Flight) => flightOf s f (fun e => Ent.type e == 0) = some fl ∧ fl.work = .waiting) (flying (ent [(16, 1), (32, 6), (37, 6), (42, 6), (80, 600), (96, 900), (128, 1), (144, 1), (152, 1)]) (.waiting)) (7) (theFlight (ent [(16, 1), (32, 6), (37, 6), (42, 6), (80, 600), (96, 900), (128, 1), (144, 1), (152, 1)]) (.waiting))) ∧
    ((fun (s : State) (f : Nat) (fl : Flight) (outs : List CoreOut) => s.idsOk ∧ flightOf s f (fun e => Ent.type e == 1) = some fl ∧ fl.work = .outputs outs) (flying (ent [(0, 1), (16, 1), (32, 6), (37, 6), (42, 6), (80, 600), (96, 900), (128, 1), (144, 1)]) (.outputs [])) (7) (theFlight (ent [(0, 1), (16, 1), (32, 6), (37, 6), (42, 6), (80, 600), (96, 900), (128, 1), (144, 1)]) (.outputs [])) ([])) ∧
    ((fun (s : State) (f : Nat) (fl : Flight) (c : Counts) => flightOf s f (fun e => Ent.type e == 2) = some fl ∧ fl.work = .counts c) (flying (ent [(0, 2), (16, 1), (32, 6), (37, 6), (42, 6), (64, 4), (114, 8), (128, 1), (160, 0x40000000)]) (.counts {})) (7) (theFlight (ent [(0, 2), (16, 1), (32, 6), (37, 6), (42, 6), (64, 4), (114, 8), (128, 1), (160, 0x40000000)]) (.counts {})) (({} : Counts))) ∧
    ((fun (s : State) (f : Nat) (fl : Flight) (c : Counts) (ls : List (Nat × Nat)) => flightOf s f (fun e => Ent.type e == 7) = some fl ∧ fl.work = .attn c ls) (flying (ent [(0, 7), (16, 1), (32, 6), (42, 9), (80, 16), (96, 64), (184, 1), (224, 1)]) (.attn {} [])) (7) (theFlight (ent [(0, 7), (16, 1), (32, 6), (42, 9), (80, 16), (96, 64), (184, 1), (224, 1)]) (.attn {} [])) (({} : Counts)) ([])) ∧
    ((fun (s : State) (f : Nat) (fl : Flight) (rows : List (Nat × List Byte)) => flightOf s f (fun e => Ent.type e == 8) = some fl ∧ fl.work = .records rows ∧ (postRows s rows).2 = []) (flying (ent [(0, 8), (16, 1), (80, 512), (94, 1), (128, 1000)]) (.records [])) (7) (theFlight (ent [(0, 8), (16, 1), (80, 512), (94, 1), (128, 1000)]) (.records [])) ([])) ∧
    ((fun (s : State) (f : Nat) (fl : Flight) (rows : List (Nat × List Byte)) => flightOf s f (fun e => Ent.type e == 8) = some fl ∧ fl.work = .records rows ∧ (postRows s rows).2 ≠ []) ({ flying (ent [(0, 8), (16, 1), (80, 512), (94, 1), (128, 1000)]) (.records [(4095, [7])]) with serving.rings := [(4095, { pend := [[1]] })] }) (7) (theFlight (ent [(0, 8), (16, 1), (80, 512), (94, 1), (128, 1000)]) (.records [(4095, [7])])) ([(4095, [7])])) ∧
    ((fun (s : State) (f : Nat) (fl : Flight) => flightOf s f (fun e => Ent.type e == 4) = some fl ∧ framesAcked s f = true) (flying (ent [(0, 4), (16, 1), (126, 6), (64, 64), (96, 128), (144, 1), (112, 1)]) (.none)) (7) (theFlight (ent [(0, 4), (16, 1), (126, 6), (64, 64), (96, 128), (144, 1), (112, 1)]) (.none))) ∧
    ((fun (s : State) (f : Nat) (fl : Flight) (r : RedWork) => flightOf s f (fun e => Ent.type e == 5) = some fl ∧ fl.work = .reduce r ∧ redDone s fl r = true) (flying (ent [(0, 5), (16, 1), (32, 6), (42, 6), (64, 5), (80, 32), (112, 16), (128, 32), (173, 64)]) (.reduce { tag := 5, own := 0, list := [1], need := 0, rest := 0, written := true, turn := 0 })) (7) (theFlight (ent [(0, 5), (16, 1), (32, 6), (42, 6), (64, 5), (80, 32), (112, 16), (128, 32), (173, 64)]) (.reduce { tag := 5, own := 0, list := [1], need := 0, rest := 0, written := true, turn := 0 })) (({ tag := 5, own := 0, list := [1], need := 0, rest := 0, written := true, turn := 0 } : RedWork))) ∧
    ((fun (s : State) (f : Nat) (fl : Flight) (g : GatherWork) => flightOf s f (fun e => Ent.type e == 6) = some fl ∧ fl.work = .gather g ∧ (g.srcs.all fun x => x.done) = true) (flying (ent [(0, 6), (16, 1), (64, 16), (78, 3), (83, 3), (160, 64)]) (.gather { srcs := [{ core := 0, idx := 0, pkg := 1, count := 4, addr := 0, line := 16, done := true }], turn := 0 })) (7) (theFlight (ent [(0, 6), (16, 1), (64, 16), (78, 3), (83, 3), (160, 64)]) (.gather { srcs := [{ core := 0, idx := 0, pkg := 1, count := 4, addr := 0, line := 16, done := true }], turn := 0 })) (({ srcs := [{ core := 0, idx := 0, pkg := 1, count := 4, addr := 0, line := 16, done := true }], turn := 0 } : GatherWork))) := by
  refine ⟨?_, ?_, ?_, ?_, ?_, ?_, ?_, ?_, ?_, ?_⟩ <;> dsimp only <;> decide +kernel

theorem witness_MoveCompletes :
    ((fun (s : State) (f : Nat) (fl : Flight) (bs : List Byte) => flightOf s f (fun e => Ent.type e == 3) = some fl ∧ fl.work = .data bs ∧ moveHeld s fl.entry bs = false ∧ (Ent.mvDsp fl.entry = 1 → sanding s (Ent.mvDst fl.entry) bs.length = false)) (flying (ent [(0, 3), (120, 1024), (160, 32)]) (.data [1, 2])) (7) (theFlight (ent [(0, 3), (120, 1024), (160, 32)]) (.data [1, 2])) ([1, 2])) ∧
    ((fun (s : State) (f : Nat) (fl : Flight) (bs : List Byte) => flightOf s f (fun e => Ent.type e == 3) = some fl ∧ fl.work = .data bs ∧ moveHeld s fl.entry bs = false ∧ bs ≠ [] ∧ Ent.mvDsp fl.entry = 1 ∧ sanding s (Ent.mvDst fl.entry) bs.length = true) ({ flying (ent [(0, 3), (66, 1), (120, 0x1000), (160, 32)]) (.data [1, 2]) with mem.sand := [(0, [{ base := 0, size := 1, left := 1, urgent := false, parting := none }])] }) (7) (theFlight (ent [(0, 3), (66, 1), (120, 0x1000), (160, 32)]) (.data [1, 2])) ([1, 2])) ∧
    ((fun (s : State) (f : Nat) (fl : Flight) (bs : List Byte) => flightOf s f (fun e => Ent.type e == 3) = some fl ∧ fl.work = .data bs ∧ moveHeld s fl.entry bs = true) ({ flying (ent [(0, 3), (66, 1), (120, 0x1000), (160, 32)]) (.data [1, 2]) with regs := retrains.regs }) (7) (theFlight (ent [(0, 3), (66, 1), (120, 0x1000), (160, 32)]) (.data [1, 2])) ([1, 2])) := by
  refine ⟨?_, ?_, ?_⟩ <;> dsimp only <;> decide +kernel

theorem witness_ControlWaits :
    ((fun (s : State) (cl : Nat) (p : Nat) (i : Nat) (e : Nat) => s.regsOk ∧ s.tablesOk ∧ s.before cl p i e [] 0 = true ∧ i < 2047 ∧ Ent.type e = 0x09 ∧ namedTurn s cl p e ≤ s.dieTurn (cl / 9)) (atTurn0) (0) (0) (0) (ent [(0, 9)])) ∧
    ((fun (s : State) (cl : Nat) (p : Nat) (i : Nat) (e : Nat) => s.regsOk ∧ s.tablesOk ∧ s.before cl p i e [] 0 = true ∧ i < 2047 ∧ Ent.type e = 0x09 ∧ s.dieTurn (cl / 9) < namedTurn s cl p e) (atTurn9) (0) (0) (0) (ent [(0, 9), (128, 9)])) ∧
    ((fun (s : State) (cl : Nat) (p : Nat) (i : Nat) (e : Nat) => s.regsOk ∧ s.tablesOk ∧ s.before cl p i e [] 0 = true ∧ i < 2047 ∧ Ent.type e = 0x0A ∧ Ent.wtTarget e ≤ s.token cl (Ent.wtCtr e)) (atToken) (0) (0) (0) (ent [(0, 10), (64, 31), (80, 2)])) ∧
    ((fun (s : State) (cl : Nat) (p : Nat) (i : Nat) (e : Nat) => s.regsOk ∧ s.tablesOk ∧ s.before cl p i e [] 0 = true ∧ i < 2047 ∧ Ent.type e = 0x0A ∧ s.token cl (Ent.wtCtr e) < Ent.wtTarget e) (atTokenShort) (0) (0) (0) (ent [(0, 10), (64, 31), (80, 1)])) ∧
    ((fun (s : State) (cl : Nat) (p : Nat) (c : Nat) (n : Nat) (u : Nat) => s.regsOk ∧ s.tablesOk ∧ cl < 432 ∧ p < 8 ∧ c < 32 ∧ (s.prog cl p).wait = .token c n (some u) ∧ u ≤ s.dieTurn (cl / 9)) (waits State.reset (.token 31 1 (some 0))) (0) (0) (31) (1) (0)) := by
  refine ⟨?_, ?_, ?_, ?_, ?_⟩ <;> dsimp only <;> decide +kernel

theorem witness_TokenPosted :
    ((fun (s : State) (cl : Nat) (c : Nat) => s.regsOk ∧ s.tablesOk ∧ cl < 432 ∧ c < 32 ∧ s.token cl c < 65535 ∧ (∀ q < 8, onToken (s.prog cl q).wait c = false)) (State.reset) (0) (31)) ∧
    ((fun (s : State) (cl : Nat) (c : Nat) (d : Nat) => s.regsOk ∧ s.tablesOk ∧ cl < 432 ∧ c < 32 ∧ s.token cl c < 65535 ∧ (∀ q < 8, onToken (s.prog cl q).wait c = false) ∧ d ≠ c ∧ d < 32) (State.reset) (0) (31) (0)) ∧
    ((fun (s : State) (cl : Nat) (c : Nat) => s.regsOk ∧ s.tablesOk ∧ cl < 432 ∧ c < 32 ∧ s.token cl c = 65535 ∧ sget (fun _ => false) s.seq.tokenOver (32 * cl + c) = true) ({ put State.reset [(tokenKey 0 31, 65535 * 2 ^ 16)] with seq.tokenOver := [(31, true)] }) (0) (31)) ∧
    ((fun (s : State) (cl : Nat) (c : Nat) => s.regsOk ∧ s.tablesOk ∧ cl < 432 ∧ c < 32 ∧ s.token cl c = 65535 ∧ sget (fun _ => false) s.seq.tokenOver (32 * cl + c) = false) (put State.reset [(tokenKey 0 31, 65535 * 2 ^ 16)]) (0) (31)) ∧
    ((fun (s : State) (cl : Nat) (c : Nat) (p : Nat) (n : Nat) (u : Option Nat) => s.regsOk ∧ s.tablesOk ∧ cl < 432 ∧ c < 32 ∧ p < 8 ∧ (s.prog cl p).wait = .token c n u ∧ waitOpen s cl u = true ∧ n = s.token cl c + 1 ∧ s.token cl c < 65535 ∧ (∀ q < 8, q ≠ p → onToken (s.prog cl q).wait c = false)) (waits State.reset (.token 31 1 none)) (0) (31) (0) (1) (none)) := by
  refine ⟨?_, ?_, ?_, ?_, ?_⟩ <;> dsimp only <;> decide +kernel

theorem witness_GateRedirects :
    ((fun (s : State) (cl : Nat) (p : Nat) (i : Nat) (e : Nat) => s.regsOk ∧ s.tablesOk ∧ s.before cl p i e [] 0 = true ∧ Ent.type e = 0x0B ∧ gateReady s cl p = false) (atGateEarly) (0) (0) (0) (ent [(0, 11), (64, 3), (80, 1)])) ∧
    ((fun (s : State) (cl : Nat) (p : Nat) (i : Nat) (e : Nat) => s.regsOk ∧ s.tablesOk ∧ s.before cl p i e [] 0 = true ∧ Ent.type e = 0x0B ∧ gateReady s cl p = true ∧ (Ent.gtFlag e ≠ 0 ∨ Ent.gtSync e = false ∨ Ent.gtClr e = false ∨ bit (s.reg (lsReg cl Reg.LS_CTRL)) 0 = 0)) (atGate) (0) (0) (0) (ent [(0, 11), (64, 3), (80, 1)])) := by
  refine ⟨?_, ?_⟩ <;> dsimp only <;> decide +kernel

theorem witness_LossScale :
    ((fun (s : State) (cl : Nat) (p : Nat) (i : Nat) (e : Nat) => s.regsOk ∧ s.tablesOk ∧ s.before cl p i e [] 0 = true ∧ Ent.type e = 0x0B ∧ gateReady s cl p = true ∧ Ent.gtFlag e = 0 ∧ Ent.gtSync e = true ∧ Ent.gtClr e = true ∧ bit (s.reg (lsReg cl Reg.LS_CTRL)) 0 = 1) (atScaleGate) (0) (0) (0) (ent [(0, 11), (66, 1), (67, 1), (80, 1)])) := by dsimp only; decide +kernel

theorem witness_HintPrearms :
    ((fun (s : State) (cl : Nat) (p : Nat) (i : Nat) (e : Nat) => s.regsOk ∧ s.tablesOk ∧ s.before cl p i e [] 0 = true ∧ Ent.type e = 0x0C) (atHint) (0) (0) (0) (ent [(0, 12), (72, 2), (80, 5), (128, 60)])) := by dsimp only; decide +kernel

theorem witness_ControlFlow :
    ((fun (s : State) (cl : Nat) (p : Nat) (i : Nat) (e : Nat) => s.regsOk ∧ s.tablesOk ∧ s.before cl p i e [] 0 = true ∧ i < 2047 ∧ s.memoryOk ∧ Ent.type e = 0x0D ∧ sameGroup s (partOf cl) (partOf (nsCluster (Ent.markAddr e))) = true) (atMark) (0) (0) (0) (ent [(0, 13), (64, 0xABCD), (96, 128)])) ∧
    ((fun (s : State) (cl : Nat) (p : Nat) (i : Nat) (e : Nat) => s.regsOk ∧ s.tablesOk ∧ s.before cl p i e [] 0 = true ∧ i < 2047 ∧ Ent.type e = 0x0D ∧ sameGroup s (partOf cl) (partOf (nsCluster (Ent.markAddr e))) = false) (atMarkOut) (0) (0) (0) (ent [(0, 13), (64, 0xABCD), (96, 6 * 2 ^ 30)])) ∧
    ((fun (s : State) (cl : Nat) (p : Nat) (i : Nat) (e : Nat) => s.regsOk ∧ s.tablesOk ∧ s.before cl p i e [] 0 = true ∧ Ent.type e = 0x0E) (atJump) (0) (0) (0) (ent [(0, 14), (64, 5)])) ∧
    ((fun (s : State) (cl : Nat) (p : Nat) (i : Nat) (e : Nat) => s.regsOk ∧ s.tablesOk ∧ s.before cl p i e [] 0 = true ∧ Ent.type e = 0x0F) (atEnd) (0) (0) (0) (0x0F)) ∧
    ((fun (s : State) (cl : Nat) (p : Nat) => s.tablesOk ∧ runnable s cl p = true ∧ entryHeld s cl p = false) (atEnd) (0) (0)) ∧
    ((fun (s : State) (cl : Nat) (p : Nat) => (runnable s cl p = false ∨ entryHeld s cl p = true)) (State.reset) (0) (0)) ∧
    ((controlEntryRow .hint 0x0C : EntryRow) ∈ ([controlEntryRow .waitTurn 0x09, controlEntryRow .waitToken 0x0A, controlEntryRow .hint 0x0C, controlEntryRow .mark 0x0D] : List EntryRow)) ∧
    ((fun (s : State) (cl : Nat) (p : Nat) (e : Nat) (r : EntryRow) => s.regsOk ∧ s.tablesOk ∧ s.before cl p 2047 e [] 0 = true ∧ r.mine s cl e = true) (atHint2047) (0) (0) (0x0C) (controlEntryRow .hint 0x0C)) ∧
    ((fun (s : State) (cl : Nat) (p : Nat) => s.regsOk ∧ s.tablesOk ∧ cl < 432 ∧ p < 8) (State.reset) (0) (0)) := 
  ⟨by dsimp only; decide +kernel, by dsimp only; decide +kernel, by dsimp only; decide +kernel, by dsimp only; decide +kernel, by dsimp only; decide +kernel, by dsimp only; decide +kernel, by simp [], by dsimp only; decide +kernel, by dsimp only; decide +kernel⟩

theorem witness_RegisterWrite :
    ((fun (s : State) (m : Master) (a : Nat) => (writeStatus s m a ≠ 0 ∨ s.hubIgnored m a = true)) (State.reset) (.firmware) (0x4000000)) ∧
    ((fun (s : State) (m : Master) (a : Nat) (v : Nat) (ty : Nat) (inst : Nat) (r : RegRow) => s.regsOk ∧ writeStatus s m a = 0 ∧ s.hubIgnored m a = false ∧ pageType (addrDie a) (addrPageIdx a) = some (ty, inst) ∧ regRow ty (addrOff a) = some r ∧ actWrite s ty inst (addrPage a) (addrOff a) (v &&& r.mask (addrOff a)) = none) (State.reset) (.firmware) (hPage 3 + Reg.FT_ASYM) (5) (3) (0) ((row 3 Reg.FT_ASYM))) ∧
    ((fun (s : State) (m : Master) (a : Nat) => writeStatus s m a = 0 ∧ ((pageType (addrDie a) (addrPageIdx a)).all fun x => (regRow x.1 (addrOff a)).isNone) = true) (State.reset) (.firmware) (hPage 3 + 0x7FC)) := by
  refine ⟨?_, ?_, ?_⟩ <;> dsimp only <;> decide +kernel

theorem witness_FirmwareOnly :
    (fun (s : State) (a : Nat) => a < 0x4000000 ∧ pageType (addrDie a) (addrPageIdx a) ≠ none ∧ bit (s.reg (addrPage a + Reg.F_CTRL)) 0 = 1)
      timeLocked (ftReg Reg.FT_ASYM) ∧
    (fun (s t : State) (m : Master) (a v : Nat) => s.regsOk ∧ a < 0x4000000 ∧ pageType (addrDie a) (addrPageIdx a) ≠ none ∧
      addrOff a = Reg.F_CTRL ∧ exec (.registerWrite m a v) s = .next t ∧ bit (s.reg (addrPage a + Reg.F_CTRL)) 0 = 1 ∧
      bit (t.reg (addrPage a + Reg.F_CTRL)) 0 = 0)
      timeLocked (after (.registerWrite .firmware (hPage 3 + Reg.F_CTRL) 0) timeLocked) .firmware (hPage 3 + Reg.F_CTRL) 0 ∧
    (fun (page : Nat) (s t : State) (m : Master) (v : Nat) => page ∈ [hPage 7, hPage 8] ∧ s.regsOk ∧ bit (s.reg (page + Reg.F_CTRL)) 0 = 1 ∧
      exec (.registerWrite m (page + Reg.F_CTRL) v) s = .next t)
      (hPage 8) State.reset (after (.registerWrite .firmware (hPage 8 + Reg.F_CTRL) 0) State.reset) .firmware 0 :=
  ⟨by decide +kernel,
    ⟨by decide +kernel, by decide +kernel, by decide +kernel, by decide +kernel, exec_after _ _ (by decide +kernel), by decide +kernel,
      by decide +kernel⟩,
    ⟨by decide +kernel, by decide +kernel, by decide +kernel, exec_after _ _ (by decide +kernel)⟩⟩

theorem witness_CommitWrites :
    ((fun (s : State) (m : Master) (page : Nat) => s.hubOk m page Reg.F_COMMIT = true ∧ commitOf s page = none) (State.reset) (.firmware) (hPage 3)) ∧
    ((fun (s : State) (m : Master) (page : Nat) => s.hubOk m page Reg.F_COMMIT = true ∧ commitOf s page = none ∧ page ≠ hPage 9) (State.reset) (.firmware) (hPage 3)) ∧
    ((fun (s : State) (m : Master) => s.hubOk m (hPage 9) Reg.F_COMMIT = true ∧ commitOf s (hPage 9) = none) (State.reset) (.firmware)) ∧
    ((fun (s : State) (m : Master) (page : Nat) (c : Commit) => s.regsOk ∧ s.hubOk m page Reg.F_COMMIT = true ∧ commitOf s page = some c) (armed) (.firmware) (hPage 3) ({ page := hPage 3, turn := some 9 })) ∧
    ((fun (s : State) (m : Master) (page : Nat) (c : Commit) => s.regsOk ∧ s.hubOk m page Reg.F_COMMIT = true ∧ commitOf s page = some c ∧ c.turn ≠ some (commitTurn s page)) (armedGo) (.firmware) (hPage 3) ({ page := hPage 3, turn := none })) ∧
    ((fun (s : State) (m : Master) (page : Nat) (c : Commit) => s.regsOk ∧ s.hubOk m page Reg.F_COMMIT = true ∧ commitOf s page = some c ∧ c.turn = some (commitTurn s page)) (armed) (.firmware) (hPage 3) ({ page := hPage 3, turn := some 9 })) ∧
    ((fun (s : State) (m : Master) (page : Nat) => s.hubOk m page Reg.F_COMMIT = true) (State.reset) (.firmware) (hPage 3)) := by
  refine ⟨?_, ?_, ?_, ?_, ?_, ?_, ?_⟩ <;> dsimp only <;> decide +kernel

theorem witness_FaceplateWrites :
    ((fun (s : State) (m : Master) (page : Nat) (ty : Nat) (inst : Nat) => s.regsOk ∧ s.hubOk m page Reg.F_CTRL = true ∧ pageType (addrDie page) (addrPageIdx page) = some (ty, inst) ∧ ty ≠ 7 ∧ ty ≠ 8) (State.reset) (.firmware) (hPage 3) (3) (0)) ∧
    ((fun (s : State) (m : Master) (page : Nat) => s.regsOk ∧ s.hubOk m page Reg.F_EVENT = true ∧ addrDie page < 64) (State.reset) (.firmware) (hPage 3)) := by
  refine ⟨?_, ?_⟩ <;> dsimp only <;> decide +kernel

theorem witness_CounterClears :
    ((fun (s : State) (m : Master) (cl : Nat) => s.regsOk ∧ cl < 432 ∧ s.hubOk m (clPage 0x14 cl) Reg.CNT_CLEAR = true) (State.reset) (.firmware) (431)) ∧
    ((fun (s : State) (m : Master) (d : Nat) => s.regsOk ∧ d < 48 ∧ s.hubOk m (cPage 0x10 d) Reg.NS_CLEAR = true) (State.reset) (.firmware) (47)) ∧
    ((fun (s : State) (m : Master) (w : Nat) => s.regsOk ∧ w < 8 ∧ s.hubOk m (memPage w) Reg.MEM_CLEAR = true) (State.reset) (.firmware) (7)) ∧
    ((fun (s : State) (m : Master) => s.regsOk ∧ s.hubOk m (ringPage) Reg.QM_CLEAR = true) (State.reset) (.firmware)) ∧
    ((fun (s : State) (m : Master) => s.regsOk ∧ s.hubOk m (pPage 0x1D) Reg.PE_CLEAR = true) (State.reset) (.firmware)) ∧
    ((fun (s : State) (m : Master) (l : Nat) => s.regsOk ∧ l < 24 ∧ s.hubOk m (linkPage l) Reg.LINK_CLEAR = true) (State.reset) (.firmware) (23)) ∧
    ((fun (s : State) (m : Master) (cl : Nat) => s.regsOk ∧ cl < 432 ∧ s.hubOk m (clPage 0x17 cl) Reg.IDLE_CLEAR = true) (State.reset) (.firmware) (431)) ∧
    ((fun (s : State) (m : Master) => s.regsOk ∧ s.hubOk m (hPage 9) Reg.PWR_CLEAR = true) (State.reset) (.firmware)) ∧
    ((fun (s : State) (m : Master) (d : Nat) => s.regsOk ∧ d < 48 ∧ s.hubOk m (cPage 0x11 d) Reg.DIE_CLEAR = true) (State.reset) (.firmware) (47)) ∧
    ((fun (s : State) (m : Master) => s.regsOk ∧ s.hubOk m (pPage 0x1E) Reg.PORT_CLEAR = true) (State.reset) (.firmware)) := by
  refine ⟨?_, ?_, ?_, ?_, ?_, ?_, ?_, ?_, ?_, ?_⟩ <;> dsimp only <;> decide +kernel

theorem witness_HubActions :
    ((fun (s : State) (m : Master) (cl : Nat) => s.regsOk ∧ s.tablesOk ∧ cl < 432 ∧ s.hubOk m (clPage 0x12 cl) Reg.HALT = true) (State.reset) (.firmware) (431)) ∧
    ((fun (s : State) (m : Master) (cl : Nat) => s.regsOk ∧ s.tablesOk ∧ cl < 432 ∧ s.hubOk m (clPage 0x16 cl) Reg.RS_GO = true) (State.reset) (.firmware) (431)) ∧
    ((fun (s : State) (cl : Nat) (seed : Nat) (stream : Nat) (g : Nat) => s.regsOk ∧ s.tablesOk ∧ sget noneAt s.seq.draws cl = some (seed, stream, g)) ({ State.reset with seq.draws := [(431, some (1, 2, 3))] }) (431) (1) (2) (3)) ∧
    ((fun (s : State) (m : Master) (j : Nat) => s.tablesOk ∧ j < 8 ∧ s.hubOk m (hPage 8) (Reg.LINK_KEY + 4 * j) = true) (State.reset) (.firmware) (7)) ∧
    ((fun (s : State) (m : Master) => s.regsOk ∧ s.hubOk m blkPage Reg.BLK_UNHOLD = true) (State.reset) (.firmware)) ∧
    ((fun (s : State) (m : Master) (w : Nat) => s.regsOk ∧ w < 8 ∧ s.hubOk m (mPage 0x19 w) Reg.SW_ABORT = true ∧ bf (s.reg (mPage 0x19 w + Reg.SW_STATE)) 1 0 = 1) (planRuns) (.firmware) (7)) ∧
    ((fun (s : State) (m : Master) => s.tablesOk ∧ s.hubOk m (hPage 0x0A) Reg.PS_WAKE_LINKS = true) (State.reset) (.firmware)) ∧
    ((fun (s : State) (a : Nat) (ty : Nat) (inst : Nat) (r : RegRow) => a < 0x4000000 ∧ addrOff a < 0x800 ∧ pageType (addrDie a) (addrPageIdx a) = some (ty, inst) ∧ ty ≠ 7 ∧ ty ≠ 8 ∧ ty ≠ 9 ∧ regRow ty (addrOff a) = some r ∧ isLatching ty (addrOff a) = true ∧ isLatched ty (addrOff a) = false ∧ withheld s ty (addrOff a) = false ∧ rising s.regs.latch) (State.reset) (hPage 3 + Reg.FT_NOW_LO) (3) (0) ((row 3 Reg.FT_NOW_LO))) := by
  refine ⟨?_, ?_, ?_, ?_, ?_, ?_, ?_, ?_⟩ <;> dsimp only <;> decide +kernel

theorem witness_BoundaryTime :
    ((fun (s : State) => s.tablesOk ∧ s.boot.pwrgood = true ∧ s.boot.inReset = false) (State.reset)) ∧
    ((fun (s : State) (c : Charge) => c.cl < 432 ∧ clockGated s (c.cl / 9) = true) (State.reset) ({ cl := 431 })) ∧
    ((fun (s : State) (c : Charge) (k : Nat) => s.regsOk ∧ c.cl < 432 ∧ clockGated s (c.cl / 9) = false ∧ k ≤ 12) (atEnd) ({ cl := 0, busy := 9, rest := 7 }) (12)) ∧
    ((fun (s : State) (reached : Nat → Bool) (l : Nat) => s.regsOk ∧ s.tablesOk ∧ fabricUp s l = true ∧ reached (56 + l / 4) = true) (fabric) (fun _ => true) (23)) ∧
    ((fun (s : State) => s.boot.pwrgood = true ∧ s.boot.inReset = true) ({ State.reset with boot.inReset := true })) ∧
    ((fun (s : State) => s.regsOk ∧ s.stopped = false ∧ s.reg64 (hPage 6 + Reg.PKG_IDLE_TURN_LO) / 976563 < s.turn / 976563) ({ State.reset with time.now := 1024 * 976563 })) := by
  refine ⟨?_, ?_, ?_, ?_, ?_, ?_⟩ <;> dsimp only <;> decide +kernel

theorem witness_FabricTimeFollows :
    ((fun (s : State) (l : Nat) => s.regsOk ∧ s.tablesOk ∧ fabricUp s l = true) (fabric) (23)) ∧
    ((fun (s : State) (l : Nat) (a : Arrival) => s.regsOk ∧ s.tablesOk ∧ fabricUp s l = true ∧ goodArrival a = false) (fabric) (23) (.fec 2 1)) ∧
    ((fun (s : State) (l : Nat) => s.regsOk ∧ s.tablesOk ∧ fabricUp s l = true ∧ ftRole s = 0 ∧ ftParent s = l ∧ s.time.refclk = true) (put fabric [(ftReg Reg.FT_ROLE, 23 * 256)]) (23)) ∧
    ((fun (s : State) (l : Nat) => s.regsOk ∧ s.tablesOk ∧ fabricUp s l = true ∧ (s.link l).measured + 1024 ≤ s.turn) ({ fabric with time.now := 1024 * 1024 }) (23)) ∧
    ((fun (s : State) (l : Nat) => (fabricUp s l = false ∨ s.turn < (s.link l).measured + 1024)) (fabric) (23)) ∧
    ((fun (s : State) => s.regsOk ∧ 16 ≤ s.time.near) ({ State.reset with time.near := 16 })) ∧
    ((fun (s : State) => s.regsOk ∧ ((ftRole s = 0 ∧ fabricUp s (ftParent s) = false) ∨ (ftRole s ≠ 0 ∧ 16 ≤ s.time.loopsSilent) ∨ s.time.refclk = false)) ({ State.reset with time.refclk := false })) ∧
    ((fun (s : State) (h : PortHead) (tag : Nat) (t1 : Nat) => s.regsOk ∧ s.portTakes 8 h = true ∧ s.time.asked = some (tag, t1) ∧ ftRole s ≠ 0 ∧ s.time.now - t1 ≤ 100000 ∧ s.time.refclk = true) ({ put portKey [(ftReg Reg.FT_ROLE, 1)] with time.asked := some (5, 0) }) (hdEnc) (5) (0)) ∧
    ((fun (s : State) => s.regsOk ∧ s.tablesOk ∧ bf (s.reg (hPage 0x0B + Reg.BOOT_STEP)) 3 0 = 9 ∧ 1000 ≤ s.time.loopsSilent) ({ put State.reset [(hPage 0x0B + Reg.BOOT_STEP, 9)] with time.loopsSilent := 1000 })) ∧
    ((fun (s : State) => s.regsOk ∧ s.tablesOk ∧ s.time.refclk = true) (State.reset)) ∧
    ((fun (s : State) => s.regsOk ∧ s.tablesOk ∧ s.time.refclk = false) ({ State.reset with time.refclk := false })) ∧
    ((fun (s : State) (due : Nat) => s.regsOk ∧ s.tablesOk ∧ s.time.alarm = some due ∧ due ≤ s.turn) ({ State.reset with time.alarm := some 0 }) (0)) := by
  refine ⟨?_, ?_, ?_, ?_, ?_, ?_, ?_, ?_, ?_, ?_, ?_, ?_⟩ <;> dsimp only <;> decide +kernel

theorem witness_LinkLayer :
    ((fun (s : State) (l : Nat) (tr : Training) (p : Nat) (q : Nat) => s.regsOk ∧ s.tablesOk ∧ l < 24 ∧ (linkStateOf s l = 1 ∨ linkStateOf s l = 7) ∧ bf (s.reg (hPage 0x0B + Reg.BOOT_STEP)) 3 0 ≠ 8 ∧ bf (s.reg (linkReg l Reg.LINK_CTRL)) 1 0 = 1 ∧ tr.crossed = false ∧ (setBits tr.lanes 8).length = 8 ∧ tr.peer = some (p, q, 1) ∧ tr.delay ≤ 160000) (training) (23) ({ lanes := 0xFF, laneMap := 0x76543210, crossed := false, peer := some (2, 3, 1), delay := 160000 }) (2) (3)) ∧
    ((fun (s : State) (l : Nat) => s.regsOk ∧ s.tablesOk ∧ l < 24 ∧ (linkStateOf s l = 1 ∨ linkStateOf s l = 7)) (training) (23)) ∧
    ((fun (s : State) (l : Nat) (tr : Training) (p : Nat) (q : Nat) => s.regsOk ∧ s.tablesOk ∧ l < 24 ∧ linkStateOf s l = 1 ∧ (s.link l).mismatch = true ∧ bf (s.reg (linkReg l Reg.LINK_CTRL)) 1 0 = 1 ∧ (setBits tr.lanes 8).length = 8 ∧ tr.peer = some (p, q, 1) ∧ tr.delay ≤ 160000) ({ training with net.links := [(23, { mismatch := true })] }) (23) ({ lanes := 0xFF, laneMap := 0x76543210, crossed := false, peer := some (2, 3, 1), delay := 160000 }) (2) (3)) ∧
    ((fun (s : State) (l : Nat) (lane : Nat) => s.regsOk ∧ s.tablesOk ∧ l < 24 ∧ linkUp s l = true ∧ lane < 8) (fabric) (23) (7)) ∧
    ((fun (s : State) (lane : Nat) => s.regsOk ∧ portUp s = true ∧ lane < 2) (portOpen) (1)) ∧
    ((fun (s : State) (l : Nat) => s.regsOk ∧ s.tablesOk ∧ fabricUp s l = true) (fabric) (23)) ∧
    ((fun (s : State) (l : Nat) => s.regsOk ∧ s.tablesOk ∧ fabricUp s l = true ∧ (s.link l).tx = [] ∧ (s.link l).waking = false) ({ fabric with net.links := [(23, { replay := [{ frame := { type := 2, seq := 5 } }, { frame := { type := 2, seq := 6 } }], nextSeq := 7 })] }) (23)) ∧
    ((fun (s : State) (l : Nat) => s.regsOk ∧ s.tablesOk ∧ l < 24 ∧ linkUp s l = true ∧ 8 ≤ (s.link l).tries) ({ fabric with net.links := [(23, { tries := 8 })] }) (23)) ∧
    ((fun (s : State) => s.regsOk ∧ portUp s = true ∧ 8 ≤ s.port.tries) ({ portOpen with port.tries := 8 })) := by
  refine ⟨?_, ?_, ?_, ?_, ?_, ?_, ?_, ?_, ?_⟩ <;> dsimp only <;> decide +kernel

theorem witness_FramesTaken :
    ((fun (s : State) (l : Nat) (f : Frame) => s.tablesOk ∧ fabricUp s l = true ∧ f.seq = (s.link l).expect) (fabric) (23) ({ type := 0, dst := 1, dsp := 0 })) ∧
    ((fun (s : State) (l : Nat) (f : Frame) => s.tablesOk ∧ s.frameHere l f 2 (f.dsp == 0) = true) (fabric) (23) ({ type := 2, dst := 1, dsp := 0 })) ∧
    ((fun (s : State) (l : Nat) (f : Frame) (n : Nat) => let t := s.taken l f n; s.tablesOk ∧ s.frameHere l f 1 true = true ∧ passLink t f = none) (fabric) (23) ({ type := 1, dst := 1, dsp := 0 }) (0)) ∧
    ((fun (s : State) (l : Nat) (f : Frame) (n : Nat) (out : Nat) => let t := s.taken l f n; s.tablesOk ∧ s.frameHere l f 1 true = true ∧ passLink t f = some out ∧ cutsAdder t l out f = true) ({ routed with seq := (flying (ent [(0, 5), (16, 1), (32, 6), (42, 6), (64, 5), (80, 64), (112, 16), (128, 32), (173, 64), (149, 2 ^ 22)]) (.reduce { tag := 5, own := 0, list := groupOf 0, need := 32, rest := 32, passes := 0, turn := 0 })).seq }) (23) ({ type := 1, src := 9, dst := 1, vc := 1, tspec := ent [(0, 5), (38, 64), (60, 6), (16, 32)], payload := List.replicate 64 1 }) (0) (22)) ∧
    ((fun (s : State) (l : Nat) (f : Frame) (n : Nat) (out : Nat) => let t := s.taken l f n; s.tablesOk ∧ s.frameHere l f 1 true = true ∧ passLink t f = some out ∧ cutsAdder t l out f = false) (put ({ routed with seq := (flying (ent [(0, 5), (16, 1), (32, 6), (42, 6), (64, 5), (80, 64), (112, 16), (128, 32), (173, 64), (149, 2 ^ 22)]) (.reduce { tag := 5, own := 0, list := groupOf 0, need := 32, rest := 32, passes := 0, turn := 0 })).seq }) [(linkReg 23 Reg.LINK_STATE, 0x0F0B)]) (23) ({ type := 1, src := 9, dst := 1, vc := 1, tspec := ent [(0, 5), (38, 64), (60, 6), (16, 32)], payload := List.replicate 64 1 }) (0) (22)) ∧
    ((fun (s : State) (l : Nat) (f : Frame) => s.tablesOk ∧ s.frameHere l f 3 false = true) (fabric) (23) ({ type := 3, dst := 1, dsp := 0 })) ∧
    ((fun (s : State) (l : Nat) (f : Frame) => s.tablesOk ∧ s.frameHere l f 4 true = true) (fabric) (23) ({ type := 4, dst := 1, dsp := 0 })) ∧
    ((fun (s : State) (l : Nat) (f : Frame) => s.tablesOk ∧ s.frameHere l f 5 true = true) (fabric) (23) ({ type := 5, dst := 1, dsp := 0 })) ∧
    ((fun (s : State) (l : Nat) (f : Frame) => s.regsOk ∧ s.tablesOk ∧ s.frameHere l f 8 false = true) (fabric) (23) ({ type := 8, dst := 1, dsp := 0 })) ∧
    (((⟨.reduceFrame, 1, fun _ => true⟩ : FrameRow) : FrameRow) ∈ frameRows) ∧
    ((fun (s : State) (l : Nat) (f : Frame) (r : FrameRow) => s.tablesOk ∧ fabricUp s l = true ∧ f.seq = (s.link l).expect ∧ f.dst ≠ selfId s ∧ f.type = r.type) (fabric) (23) ({ type := 1, dst := 9, vc := 1 }) ((⟨.reduceFrame, 1, fun _ => true⟩ : FrameRow))) ∧
    ((fun (s : State) (l : Nat) (f : Frame) => s.regsOk ∧ s.tablesOk ∧ l < 24 ∧ transitLink s f = none) (fabric) (23) ({ type := 1, dst := 9, vc := 1 })) ∧
    ((fun (s : State) (l : Nat) (f : Frame) (out : Nat) => s.regsOk ∧ s.tablesOk ∧ l < 24 ∧ transitLink s f = some out ∧ out ≠ l ∧ cutPath s l out f = true) (routed) (23) ({ type := 1, dst := 9, vc := 1 }) (22)) ∧
    ((fun (s : State) (l : Nat) (f : Frame) (out : Nat) => s.regsOk ∧ s.tablesOk ∧ l < 24 ∧ transitLink s f = some out ∧ cutPath s l out f = false) (routed) (23) ({ type := 3, dst := 9, vc := 1 }) (22)) ∧
    (((⟨.reduceFrame, 1, fun _ => true⟩ : FrameRow) : FrameRow) ∈ frameRows) ∧
    ((fun (s : State) (l : Nat) (f : Frame) (r : FrameRow) => s.regsOk ∧ s.tablesOk ∧ fabricUp s l = true ∧ f.seq = (s.link l).expect ∧ f.dst = selfId s ∧ f.type = r.type) (fabric) (23) ({ type := 1, dst := 1, dsp := 0 }) ((⟨.reduceFrame, 1, fun _ => true⟩ : FrameRow))) ∧
    (((⟨.reduceFrame, 1, fun _ => true⟩ : FrameRow) : FrameRow) ∈ frameRows) ∧
    ((fun (s : State) (l : Nat) (f : Frame) (r : FrameRow) => s.regsOk ∧ s.tablesOk ∧ fabricUp s l = true ∧ f.seq = (s.link l).expect ∧ f.dst = selfId s ∧ f.type = r.type ∧ s.catching.caught = true) ({ fabric with catching.caught := true }) (23) ({ type := 1, dst := 1, dsp := 0 }) ((⟨.reduceFrame, 1, fun _ => true⟩ : FrameRow))) ∧
    (((⟨.reduceFrame, 1, fun _ => true⟩ : FrameRow) : FrameRow) ∈ frameRows) ∧
    ((fun (s : State) (l : Nat) (f : Frame) (r : FrameRow) => s.regsOk ∧ s.tablesOk ∧ fabricUp s l = true ∧ f.seq = (s.link l).expect ∧ f.dst = selfId s ∧ f.type = r.type ∧ s.catching.caught = false ∧ frameParting s f = some 0) (put fabric [(slotKey Reg.SLOT_STATE 0, 2)]) (23) ({ type := 1, dst := 1, dsp := 0 }) ((⟨.reduceFrame, 1, fun _ => true⟩ : FrameRow))) ∧
    (((⟨.reduceFrame, 1, fun _ => true⟩ : FrameRow) : FrameRow) ∈ frameRows) ∧
    ((fun (s : State) (l : Nat) (f : Frame) (r : FrameRow) => s.regsOk ∧ s.tablesOk ∧ fabricUp s l = true ∧ f.seq = (s.link l).expect ∧ f.dst = selfId s ∧ f.type = r.type ∧ s.catching.caught = false ∧ frameParting s f = none ∧ r.near f = true ∧ sleeping s = true) (put fabric [(psReg Reg.PS_STATE, 1)]) (23) ({ type := 1, dst := 1, dsp := 0 }) ((⟨.reduceFrame, 1, fun _ => true⟩ : FrameRow))) ∧
    (((⟨.gatherRequest, 3, fun _ => false⟩ : FrameRow) : FrameRow) ∈ frameRows) ∧
    ((fun (s : State) (l : Nat) (f : Frame) (r : FrameRow) => s.regsOk ∧ s.tablesOk ∧ fabricUp s l = true ∧ f.seq = (s.link l).expect ∧ f.dst = selfId s ∧ f.type = r.type ∧ s.catching.caught = false ∧ frameParting s f = none ∧ r.near f = false ∧ ((s.link l).rx.any fun g => g.vc == f.vc && g.dst == selfId s) = true) ({ fabric with net.links := [(23, { rx := [{ type := 3, dst := 1, dsp := 0 }] })] }) (23) ({ type := 3, dst := 1, dsp := 0 }) ((⟨.gatherRequest, 3, fun _ => false⟩ : FrameRow))) ∧
    ((fun (s : State) (l : Nat) (f : Frame) => s.tablesOk ∧ fabricUp s l = true ∧ f.type = 2) (fabric) (23) ({ type := 2, dst := 1, dsp := 0 })) := 
  ⟨by dsimp only; decide +kernel, by dsimp only; decide +kernel, by dsimp only; decide +kernel, by dsimp only; decide +kernel, by dsimp only; decide +kernel, by dsimp only; decide +kernel, by dsimp only; decide +kernel, by dsimp only; decide +kernel, by dsimp only; decide +kernel, by simp [frameRows], by dsimp only; decide +kernel, by dsimp only; decide +kernel, by dsimp only; decide +kernel, by dsimp only; decide +kernel, by simp [frameRows], by dsimp only; decide +kernel, by simp [frameRows], by dsimp only; decide +kernel, by simp [frameRows], by dsimp only; decide +kernel, by simp [frameRows], by dsimp only; decide +kernel, by simp [frameRows], by dsimp only; decide +kernel, by dsimp only; decide +kernel⟩

theorem witness_ReduceAndGatherDelivered :
    ((fun (s : State) (l : Nat) (f : Frame) => s.tablesOk ∧ s.frameHere l f 1 true = true ∧ redFlight s (nsCluster f.daddr) (nsCore f.daddr) (redHead f.tspec).tag = none) (fabric) (23) ({ type := 1, dst := 1, dsp := 0 })) ∧
    ((fun (s : State) (l : Nat) (f : Frame) (n : Nat) (fl : Flight) (r : RedWork) => s.tablesOk ∧ s.frameHere l f 1 true = true ∧ redFlight s (nsCluster f.daddr) (nsCore f.daddr) (redHead f.tspec).tag = some (fl, r) ∧ (passLink (s.taken l f n) f = none ∨ ∃ out, passLink (s.taken l f n) f = some out ∧ cutsAdder (s.taken l f n) l out f = true) ∧ (redAt (freeFlits (s.taken l f n) l f) fl r f).2 = []) ({ fabric with seq := (flying (ent [(0, 5), (16, 1), (32, 6), (42, 6), (64, 5), (80, 64), (112, 16), (128, 32), (173, 64)]) (.reduce { tag := 5, own := 0, list := groupOf 0, need := 32, rest := 32, passes := 0, turn := 0 })).seq }) (23) ({ type := 1, src := 9, dst := 1, tspec := ent [(0, 5), (38, 64), (60, 6)], payload := List.replicate 64 1 }) (0) (theFlight (ent [(0, 5), (16, 1), (32, 6), (42, 6), (64, 5), (80, 64), (112, 16), (128, 32), (173, 64)]) (.reduce { tag := 5, own := 0, list := groupOf 0, need := 32, rest := 32, passes := 0, turn := 0 })) (({ tag := 5, own := 0, list := groupOf 0, need := 32, rest := 32, passes := 0, turn := 0 } : RedWork))) ∧
    ((fun (s : State) (fl : Flight) (r : RedWork) (f : Frame) (b : Nat) => let h := redHead f.tspec; s.regsOk ∧ s.idsOk ∧ fl ∈ s.seq.flights ∧ fl.work = .reduce r ∧ bit h.flags b = 1 ∧ b < 2) (flying (ent [(0, 5), (16, 1), (32, 6), (42, 6), (64, 5), (80, 64), (112, 16), (128, 32), (173, 64)]) (.reduce { tag := 5, own := 0, list := groupOf 0, need := 32, rest := 32, passes := 0, turn := 0 })) (theFlight (ent [(0, 5), (16, 1), (32, 6), (42, 6), (64, 5), (80, 64), (112, 16), (128, 32), (173, 64)]) (.reduce { tag := 5, own := 0, list := groupOf 0, need := 32, rest := 32, passes := 0, turn := 0 })) (({ tag := 5, own := 0, list := groupOf 0, need := 32, rest := 32, passes := 0, turn := 0 } : RedWork)) ({ type := 1, src := 9, dst := 1, tspec := ent [(0, 5), (38, 64), (60, 6), (68, 3)], payload := List.replicate 64 1 }) (1)) ∧
    ((fun (s : State) (fl : Flight) (r : RedWork) (f : Frame) => let h := redHead f.tspec; s.regsOk ∧ s.idsOk ∧ fl ∈ s.seq.flights ∧ fl.work = .reduce r ∧ h.fsync = true ∧ Ent.rdFsync fl.entry = true) (flying (ent [(0, 5), (16, 1), (32, 6), (42, 6), (64, 5), (80, 64), (112, 16), (128, 32), (173, 64), (142, 1)]) (.reduce { tag := 5, own := 1, list := groupOf 1, need := 32, rest := 32, passes := 0, turn := 0 })) (theFlight (ent [(0, 5), (16, 1), (32, 6), (42, 6), (64, 5), (80, 64), (112, 16), (128, 32), (173, 64), (142, 1)]) (.reduce { tag := 5, own := 1, list := groupOf 1, need := 32, rest := 32, passes := 0, turn := 0 })) (({ tag := 5, own := 1, list := groupOf 1, need := 32, rest := 32, passes := 0, turn := 0 } : RedWork)) ({ type := 1, src := 9, dst := 1, tspec := ent [(0, 5), (38, 64), (60, 6), (66, 1)], payload := List.replicate 64 1 })) ∧
    ((fun (s : State) (fl : Flight) (r : RedWork) (f : Frame) (b : Nat) => let h := redHead f.tspec; s.regsOk ∧ s.idsOk ∧ fl ∈ s.seq.flights ∧ fl.work = .reduce r ∧ h.fsync = true ∧ Ent.rdFsync fl.entry = true ∧ r.own ≠ 0 ∧ r.passes ≠ 0 ∧ b < 4) (flying (ent [(0, 5), (16, 1), (32, 6), (42, 6), (64, 5), (80, 64), (112, 16), (128, 32), (173, 64), (142, 1)]) (.reduce { tag := 5, own := 1, list := groupOf 1, need := 32, rest := 32, passes := 1, turn := 0 })) (theFlight (ent [(0, 5), (16, 1), (32, 6), (42, 6), (64, 5), (80, 64), (112, 16), (128, 32), (173, 64), (142, 1)]) (.reduce { tag := 5, own := 1, list := groupOf 1, need := 32, rest := 32, passes := 1, turn := 0 })) (({ tag := 5, own := 1, list := groupOf 1, need := 32, rest := 32, passes := 1, turn := 0 } : RedWork)) ({ type := 1, src := 9, dst := 1, tspec := ent [(0, 5), (38, 64), (60, 6), (66, 1)], payload := List.replicate 64 1 }) (0)) ∧
    ((fun (s : State) (fl : Flight) (r : RedWork) (f : Frame) (b : Nat) => let h := redHead f.tspec; s.regsOk ∧ s.idsOk ∧ fl ∈ s.seq.flights ∧ fl.work = .reduce r ∧ h.fsync = true ∧ Ent.rdFsync fl.entry = true ∧ r.own = 0 ∧ r.passes = 0 ∧ b < 4) (flying (ent [(0, 5), (16, 1), (32, 6), (42, 6), (64, 5), (80, 64), (112, 16), (128, 32), (173, 64), (142, 1)]) (.reduce { tag := 5, own := 0, list := groupOf 0, need := 32, rest := 32, passes := 0, turn := 0 })) (theFlight (ent [(0, 5), (16, 1), (32, 6), (42, 6), (64, 5), (80, 64), (112, 16), (128, 32), (173, 64), (142, 1)]) (.reduce { tag := 5, own := 0, list := groupOf 0, need := 32, rest := 32, passes := 0, turn := 0 })) (({ tag := 5, own := 0, list := groupOf 0, need := 32, rest := 32, passes := 0, turn := 0 } : RedWork)) ({ type := 1, src := 9, dst := 1, tspec := ent [(0, 5), (38, 64), (60, 6), (66, 1)], payload := List.replicate 64 1 }) (0)) ∧
    ((fun (s : State) (fl : Flight) (r : RedWork) (f : Frame) => let h := redHead f.tspec; s.regsOk ∧ s.idsOk ∧ fl ∈ s.seq.flights ∧ fl.work = .reduce r ∧ h.fsync = true ∧ Ent.rdFsync fl.entry = true ∧ r.own = 0 ∧ r.passes ≠ 0) (flying (ent [(0, 5), (16, 1), (32, 6), (42, 6), (64, 5), (80, 64), (112, 16), (128, 32), (173, 64), (142, 1)]) (.reduce { tag := 5, own := 0, list := groupOf 0, need := 32, rest := 32, passes := 1, turn := 0 })) (theFlight (ent [(0, 5), (16, 1), (32, 6), (42, 6), (64, 5), (80, 64), (112, 16), (128, 32), (173, 64), (142, 1)]) (.reduce { tag := 5, own := 0, list := groupOf 0, need := 32, rest := 32, passes := 1, turn := 0 })) (({ tag := 5, own := 0, list := groupOf 0, need := 32, rest := 32, passes := 1, turn := 0 } : RedWork)) ({ type := 1, src := 9, dst := 1, tspec := ent [(0, 5), (38, 64), (60, 6), (66, 1)], payload := List.replicate 64 1 })) ∧
    ((fun (s : State) (fl : Flight) (r : RedWork) (f : Frame) => let h := redHead f.tspec; s.regsOk ∧ s.idsOk ∧ fl ∈ s.seq.flights ∧ fl.work = .reduce r ∧ (h.fsync = false ∨ Ent.rdFsync fl.entry = false) ∧ shardOf r.list h.off = none) (flying (ent [(0, 5), (16, 1), (32, 6), (42, 6), (64, 5), (80, 64), (112, 16), (128, 32), (173, 64)]) (.reduce { tag := 5, own := 0, list := groupOf 0, need := 32, rest := 32, passes := 0, turn := 0 })) (theFlight (ent [(0, 5), (16, 1), (32, 6), (42, 6), (64, 5), (80, 64), (112, 16), (128, 32), (173, 64)]) (.reduce { tag := 5, own := 0, list := groupOf 0, need := 32, rest := 32, passes := 0, turn := 0 })) (({ tag := 5, own := 0, list := groupOf 0, need := 32, rest := 32, passes := 0, turn := 0 } : RedWork)) ({ type := 1, src := 9, dst := 1, tspec := ent [(0, 5), (38, 64), (60, 6), (16, 64)], payload := List.replicate 64 1 })) ∧
    ((fun (s : State) (fl : Flight) (r : RedWork) (f : Frame) (o : Nat) => s.regsOk ∧ s.idsOk ∧ fl ∈ s.seq.flights ∧ fl.work = .reduce r ∧ redAgrees fl r f o ∧ Ent.canon fl.entry = false ∧ o = r.own ∧ r.written = false) (flying (ent [(0, 5), (16, 1), (32, 6), (42, 6), (64, 5), (80, 64), (112, 16), (128, 32), (173, 64)]) (.reduce { tag := 5, own := 0, list := groupOf 0, need := 32, rest := 32, passes := 0, turn := 0 })) (theFlight (ent [(0, 5), (16, 1), (32, 6), (42, 6), (64, 5), (80, 64), (112, 16), (128, 32), (173, 64)]) (.reduce { tag := 5, own := 0, list := groupOf 0, need := 32, rest := 32, passes := 0, turn := 0 })) (({ tag := 5, own := 0, list := groupOf 0, need := 32, rest := 32, passes := 0, turn := 0 } : RedWork)) ({ type := 1, src := 9, dst := 1, tspec := ent [(0, 5), (38, 64), (60, 6)], payload := List.replicate 64 1 }) (0)) ∧
    ((fun (s : State) (fl : Flight) (r : RedWork) (f : Frame) (o : Nat) => let h := redHead f.tspec; let n := runOf h (glMember r.list o); s.regsOk ∧ s.idsOk ∧ fl ∈ s.seq.flights ∧ fl.work = .reduce r ∧ redAgrees fl r f o ∧ Ent.canon fl.entry = false ∧ o = r.own ∧ r.written = false ∧ n < r.need) (flying (ent [(0, 5), (16, 1), (32, 6), (42, 6), (64, 5), (80, 64), (112, 16), (128, 32), (173, 64)]) (.reduce { tag := 5, own := 0, list := groupOf 0, need := 64, rest := 32, passes := 0, turn := 0 })) (theFlight (ent [(0, 5), (16, 1), (32, 6), (42, 6), (64, 5), (80, 64), (112, 16), (128, 32), (173, 64)]) (.reduce { tag := 5, own := 0, list := groupOf 0, need := 64, rest := 32, passes := 0, turn := 0 })) (({ tag := 5, own := 0, list := groupOf 0, need := 64, rest := 32, passes := 0, turn := 0 } : RedWork)) ({ type := 1, src := 9, dst := 1, tspec := ent [(0, 5), (38, 64), (60, 6)], payload := List.replicate 64 1 }) (0)) ∧
    ((fun (s : State) (fl : Flight) (r : RedWork) (f : Frame) (o : Nat) => let h := redHead f.tspec; let n := runOf h (glMember r.list o); s.regsOk ∧ s.idsOk ∧ fl ∈ s.seq.flights ∧ fl.work = .reduce r ∧ redAgrees fl r f o ∧ Ent.canon fl.entry = false ∧ o = r.own ∧ r.written = false ∧ r.need ≤ n) (flying (ent [(0, 5), (16, 1), (32, 6), (42, 6), (64, 5), (80, 64), (112, 16), (128, 32), (173, 64)]) (.reduce { tag := 5, own := 0, list := groupOf 0, need := 32, rest := 32, passes := 0, turn := 0 })) (theFlight (ent [(0, 5), (16, 1), (32, 6), (42, 6), (64, 5), (80, 64), (112, 16), (128, 32), (173, 64)]) (.reduce { tag := 5, own := 0, list := groupOf 0, need := 32, rest := 32, passes := 0, turn := 0 })) (({ tag := 5, own := 0, list := groupOf 0, need := 32, rest := 32, passes := 0, turn := 0 } : RedWork)) ({ type := 1, src := 9, dst := 1, tspec := ent [(0, 5), (38, 64), (60, 6)], payload := List.replicate 64 1 }) (0)) ∧
    ((fun (s : State) (fl : Flight) (r : RedWork) (f : Frame) (o : Nat) => s.regsOk ∧ s.idsOk ∧ fl ∈ s.seq.flights ∧ fl.work = .reduce r ∧ redAgrees fl r f o ∧ Ent.canon fl.entry = false ∧ o ≠ r.own) (flying (ent [(0, 5), (16, 1), (32, 6), (42, 6), (64, 5), (80, 64), (112, 16), (128, 32), (173, 64)]) (.reduce { tag := 5, own := 0, list := groupOf 0, need := 32, rest := 32, passes := 0, turn := 0 })) (theFlight (ent [(0, 5), (16, 1), (32, 6), (42, 6), (64, 5), (80, 64), (112, 16), (128, 32), (173, 64)]) (.reduce { tag := 5, own := 0, list := groupOf 0, need := 32, rest := 32, passes := 0, turn := 0 })) (({ tag := 5, own := 0, list := groupOf 0, need := 32, rest := 32, passes := 0, turn := 0 } : RedWork)) ({ type := 1, src := 9, dst := 1, tspec := ent [(0, 5), (38, 64), (60, 6), (16, 32)], payload := List.replicate 64 1 }) (1)) ∧
    ((fun (s : State) (fl : Flight) (r : RedWork) (f : Frame) (o : Nat) (i : Nat) (m : Member) => let h := redHead f.tspec; s.regsOk ∧ s.idsOk ∧ fl ∈ s.seq.flights ∧ fl.work = .reduce r ∧ redAgrees fl r f o ∧ Ent.canon fl.entry = true ∧ r.written = false ∧ h.nc = glNc r.list ∧ ((glMembers r.list).zipIdx.find? fun (x : Member × Nat) => x.2 != r.own && x.1.pkg == f.src && x.1.cfirst == h.cfirst && x.1.ccount == h.ccount) = some (m, i) ∧ (r.parts.any fun p => p.member == i && p.off == h.off) = false) (flying (ent [(0, 5), (16, 1), (32, 6), (42, 6), (64, 5), (80, 64), (112, 16), (128, 32), (173, 64), (47, 1)]) (.reduce { tag := 5, own := 0, list := groupOf 0, need := 32, rest := 32, passes := 0, turn := 0 })) (theFlight (ent [(0, 5), (16, 1), (32, 6), (42, 6), (64, 5), (80, 64), (112, 16), (128, 32), (173, 64), (47, 1)]) (.reduce { tag := 5, own := 0, list := groupOf 0, need := 32, rest := 32, passes := 0, turn := 0 })) (({ tag := 5, own := 0, list := groupOf 0, need := 32, rest := 32, passes := 0, turn := 0 } : RedWork)) ({ type := 1, src := 9, dst := 1, tspec := ent [(0, 5), (38, 64), (60, 6), (65, 1), (72, 1), (90, 1), (108, 2)], payload := List.replicate 64 1 }) (0) (1) (glMember (groupOf 0) 1)) ∧
    ((fun (s : State) (fl : Flight) (r : RedWork) (f : Frame) (o : Nat) (i : Nat) (m : Member) => let h := redHead f.tspec; let n := runOf h (glMember r.list o); s.regsOk ∧ s.idsOk ∧ fl ∈ s.seq.flights ∧ fl.work = .reduce r ∧ redAgrees fl r f o ∧ Ent.canon fl.entry = true ∧ r.written = false ∧ h.nc = glNc r.list ∧ ((glMembers r.list).zipIdx.find? fun (x : Member × Nat) => x.2 != r.own && x.1.pkg == f.src && x.1.cfirst == h.cfirst && x.1.ccount == h.ccount) = some (m, i) ∧ (r.parts.any fun p => p.member == i && p.off == h.off) = false ∧ n < r.need) (flying (ent [(0, 5), (16, 1), (32, 6), (42, 6), (64, 5), (80, 64), (112, 16), (128, 32), (173, 64), (47, 1)]) (.reduce { tag := 5, own := 0, list := groupOf 0, need := 64, rest := 32, passes := 0, turn := 0 })) (theFlight (ent [(0, 5), (16, 1), (32, 6), (42, 6), (64, 5), (80, 64), (112, 16), (128, 32), (173, 64), (47, 1)]) (.reduce { tag := 5, own := 0, list := groupOf 0, need := 64, rest := 32, passes := 0, turn := 0 })) (({ tag := 5, own := 0, list := groupOf 0, need := 64, rest := 32, passes := 0, turn := 0 } : RedWork)) ({ type := 1, src := 9, dst := 1, tspec := ent [(0, 5), (38, 64), (60, 6), (65, 1), (72, 1), (90, 1), (108, 2)], payload := List.replicate 64 1 }) (0) (1) (glMember (groupOf 0) 1)) ∧
    ((fun (s : State) (fl : Flight) (r : RedWork) (f : Frame) (o : Nat) (i : Nat) (m : Member) => let h := redHead f.tspec; let n := runOf h (glMember r.list o); s.regsOk ∧ s.idsOk ∧ fl ∈ s.seq.flights ∧ fl.work = .reduce r ∧ redAgrees fl r f o ∧ Ent.canon fl.entry = true ∧ r.written = false ∧ h.nc = glNc r.list ∧ ((glMembers r.list).zipIdx.find? fun (x : Member × Nat) => x.2 != r.own && x.1.pkg == f.src && x.1.cfirst == h.cfirst && x.1.ccount == h.ccount) = some (m, i) ∧ (r.parts.any fun p => p.member == i && p.off == h.off) = false ∧ r.need ≤ n) (flying (ent [(0, 5), (16, 1), (32, 6), (42, 6), (64, 5), (80, 64), (112, 16), (128, 32), (173, 64), (47, 1)]) (.reduce { tag := 5, own := 0, list := groupOf 0, need := 32, rest := 32, passes := 0, turn := 0 })) (theFlight (ent [(0, 5), (16, 1), (32, 6), (42, 6), (64, 5), (80, 64), (112, 16), (128, 32), (173, 64), (47, 1)]) (.reduce { tag := 5, own := 0, list := groupOf 0, need := 32, rest := 32, passes := 0, turn := 0 })) (({ tag := 5, own := 0, list := groupOf 0, need := 32, rest := 32, passes := 0, turn := 0 } : RedWork)) ({ type := 1, src := 9, dst := 1, tspec := ent [(0, 5), (38, 64), (60, 6), (65, 1), (72, 1), (90, 1), (108, 2)], payload := List.replicate 64 1 }) (0) (1) (glMember (groupOf 0) 1)) ∧
    ((fun (s : State) (fl : Flight) (r : RedWork) (f : Frame) (o : Nat) => let h := redHead f.tspec; s.regsOk ∧ s.idsOk ∧ fl ∈ s.seq.flights ∧ fl.work = .reduce r ∧ shardOf r.list h.off = some o ∧ redDiffers fl h ∧ ¬ (h.fsync = true ∧ Ent.rdFsync fl.entry = true)) (flying (ent [(0, 5), (16, 1), (32, 6), (42, 6), (64, 5), (80, 64), (112, 16), (128, 32), (173, 64)]) (.reduce { tag := 5, own := 0, list := groupOf 0, need := 32, rest := 32, passes := 0, turn := 0 })) (theFlight (ent [(0, 5), (16, 1), (32, 6), (42, 6), (64, 5), (80, 64), (112, 16), (128, 32), (173, 64)]) (.reduce { tag := 5, own := 0, list := groupOf 0, need := 32, rest := 32, passes := 0, turn := 0 })) (({ tag := 5, own := 0, list := groupOf 0, need := 32, rest := 32, passes := 0, turn := 0 } : RedWork)) ({ type := 1, src := 9, dst := 1, tspec := ent [(0, 5), (38, 65), (60, 6)], payload := List.replicate 64 1 }) (0)) ∧
    ((fun (s : State) (fl : Flight) (r : RedWork) (f : Frame) (o : Nat) => let h := redHead f.tspec; s.regsOk ∧ s.idsOk ∧ fl ∈ s.seq.flights ∧ fl.work = .reduce r ∧ shardOf r.list h.off = some o ∧ redDiffers fl h ∧ ¬ (h.fsync = true ∧ Ent.rdFsync fl.entry = true) ∧ o = r.own ∧ r.written = false) (flying (ent [(0, 5), (16, 1), (32, 6), (42, 6), (64, 5), (80, 64), (112, 16), (128, 32), (173, 64)]) (.reduce { tag := 5, own := 0, list := groupOf 0, need := 32, rest := 32, passes := 0, turn := 0 })) (theFlight (ent [(0, 5), (16, 1), (32, 6), (42, 6), (64, 5), (80, 64), (112, 16), (128, 32), (173, 64)]) (.reduce { tag := 5, own := 0, list := groupOf 0, need := 32, rest := 32, passes := 0, turn := 0 })) (({ tag := 5, own := 0, list := groupOf 0, need := 32, rest := 32, passes := 0, turn := 0 } : RedWork)) ({ type := 1, src := 9, dst := 1, tspec := ent [(0, 5), (38, 65), (60, 6)], payload := List.replicate 64 1 }) (0)) ∧
    ((fun (s : State) (fl : Flight) (r : RedWork) (f : Frame) (o : Nat) => let h := redHead f.tspec; s.regsOk ∧ s.idsOk ∧ fl ∈ s.seq.flights ∧ fl.work = .reduce r ∧ shardOf r.list h.off = some o ∧ redDiffers fl h ∧ ¬ (h.fsync = true ∧ Ent.rdFsync fl.entry = true) ∧ o ≠ r.own) (flying (ent [(0, 5), (16, 1), (32, 6), (42, 6), (64, 5), (80, 64), (112, 16), (128, 32), (173, 64)]) (.reduce { tag := 5, own := 0, list := groupOf 0, need := 32, rest := 32, passes := 0, turn := 0 })) (theFlight (ent [(0, 5), (16, 1), (32, 6), (42, 6), (64, 5), (80, 64), (112, 16), (128, 32), (173, 64)]) (.reduce { tag := 5, own := 0, list := groupOf 0, need := 32, rest := 32, passes := 0, turn := 0 })) (({ tag := 5, own := 0, list := groupOf 0, need := 32, rest := 32, passes := 0, turn := 0 } : RedWork)) ({ type := 1, src := 9, dst := 1, tspec := ent [(0, 5), (38, 65), (60, 6), (16, 32)], payload := List.replicate 64 1 }) (1)) ∧
    ((fun (s : State) (f : Frame) (n : Nat) (g : Frame) => gHeld s f.daddr (256 + n) = false ∧ imageRefuse s none f.daddr (256 + n) = none ∧ n ≤ 2 ^ 32 ∧ g ∈ imageFrames s f (256 + n)) (imageHome) ({ type := 3, src := 9, dst := 1, daddr := 7 * 2 ^ 36 }) (32) ((imageFrames imageHome { type := 3, src := 9, dst := 1, daddr := 7 * 2 ^ 36 } 288).headD { type := 0 })) ∧
    ((fun (s : State) (f : Frame) (n : Nat) => gHeld s f.daddr (256 + n) = false ∧ imageRefuse s none f.daddr (256 + n) = none ∧ n ≤ 2 ^ 32) (imageHome) ({ type := 3, src := 9, dst := 1, daddr := 7 * 2 ^ 36 }) (32)) ∧
    ((fun (s : State) (f : Frame) (n : Nat) (out : Nat) => gHeld s f.daddr (256 + n) = false ∧ imageRefuse s none f.daddr (256 + n) = none ∧ n ≤ 2 ^ 32 ∧ sourceLinks s f.src 0xFFFFFF = [out]) (imageHome) ({ type := 3, src := 9, dst := 1, daddr := 7 * 2 ^ 36 }) (32) (23)) ∧
    ((fun (s : State) (f : Frame) (n : Nat) => gHeld s f.daddr n = true) (retrains) ({ type := 3 }) (32)) ∧
    ((fun (s : State) (f : Frame) => responseFor s f = none) (State.reset) ({ type := 4 })) ∧
    ((fun (s : State) (f : Frame) (fl : Flight) (src : GatherSource) (g : GatherWork) => s.regsOk ∧ s.idsOk ∧ responseFor s f = some (fl, src) ∧ fl.work = .gather g ∧ bit f.tspec 105 = 1) (flying (ent [(0, 6), (16, 1), (64, 16), (78, 3), (83, 3), (160, 64)]) (.gather { srcs := [{ core := 0, idx := 0, pkg := 9, count := 4, addr := 64, line := 16 }], turn := 0 })) ({ type := 4, src := 9, dst := 1, daddr := gatherPlace 0 0 16, tspec := 2 ^ 105, payload := [] }) (theFlight (ent [(0, 6), (16, 1), (64, 16), (78, 3), (83, 3), (160, 64)]) (.gather { srcs := [{ core := 0, idx := 0, pkg := 9, count := 4, addr := 64, line := 16 }], turn := 0 })) ({ core := 0, idx := 0, pkg := 9, count := 4, addr := 64, line := 16 }) (({ srcs := [{ core := 0, idx := 0, pkg := 9, count := 4, addr := 64, line := 16 }], turn := 0 } : GatherWork))) ∧
    ((fun (s : State) (f : Frame) (fl : Flight) (src : GatherSource) (g : GatherWork) => let got := src.got.filter (fun x => x.1 != bf f.tspec 103 80) ++ [(bf f.tspec 103 80, f.payload)]; s.regsOk ∧ s.idsOk ∧ responseFor s f = some (fl, src) ∧ fl.work = .gather g ∧ bit f.tspec 105 = 0 ∧ assembled (imageLen (Ent.gaTfmt fl.entry) (Ent.gaTblk fl.entry) src.count) got = none) (flying (ent [(0, 6), (16, 1), (64, 16), (78, 3), (83, 3), (160, 64)]) (.gather { srcs := [{ core := 0, idx := 0, pkg := 9, count := 4, addr := 64, line := 16 }], turn := 0 })) ({ type := 4, src := 9, dst := 1, daddr := gatherPlace 0 0 16, tspec := 0, payload := List.replicate 32 5 }) (theFlight (ent [(0, 6), (16, 1), (64, 16), (78, 3), (83, 3), (160, 64)]) (.gather { srcs := [{ core := 0, idx := 0, pkg := 9, count := 4, addr := 64, line := 16 }], turn := 0 })) ({ core := 0, idx := 0, pkg := 9, count := 4, addr := 64, line := 16 }) (({ srcs := [{ core := 0, idx := 0, pkg := 9, count := 4, addr := 64, line := 16 }], turn := 0 } : GatherWork))) ∧
    ((fun (s : State) (f : Frame) (fl : Flight) (src : GatherSource) (g : GatherWork) (data : List Byte) => let got := src.got.filter (fun x => x.1 != bf f.tspec 103 80) ++ [(bf f.tspec 103 80, f.payload)]; s.regsOk ∧ s.idsOk ∧ responseFor s f = some (fl, src) ∧ fl.work = .gather g ∧ bit f.tspec 105 = 0 ∧ assembled (imageLen (Ent.gaTfmt fl.entry) (Ent.gaTblk fl.entry) src.count) got = some data) (flying (ent [(0, 6), (16, 1), (64, 16), (78, 3), (83, 3), (160, 64)]) (.gather { srcs := [{ core := 0, idx := 0, pkg := 9, count := 4, addr := 64, line := 16 }], turn := 0 })) ({ type := 4, src := 9, dst := 1, daddr := gatherPlace 0 0 16, tspec := 0, payload := List.replicate 512 5 }) (theFlight (ent [(0, 6), (16, 1), (64, 16), (78, 3), (83, 3), (160, 64)]) (.gather { srcs := [{ core := 0, idx := 0, pkg := 9, count := 4, addr := 64, line := 16 }], turn := 0 })) ({ core := 0, idx := 0, pkg := 9, count := 4, addr := 64, line := 16 }) (({ srcs := [{ core := 0, idx := 0, pkg := 9, count := 4, addr := 64, line := 16 }], turn := 0 } : GatherWork)) (List.replicate 512 5)) ∧
    ((fun (s : State) (f : Frame) (fl : Flight) (src : GatherSource) (g : GatherWork) (data : List Byte) => let got := src.got.filter (fun x => x.1 != bf f.tspec 103 80) ++ [(bf f.tspec 103 80, f.payload)]; let found := src.found.orElse fun _ => staleStamp (Ent.gaStamp fl.entry) f; s.regsOk ∧ s.idsOk ∧ responseFor s f = some (fl, src) ∧ fl.work = .gather g ∧ bit f.tspec 105 = 0 ∧ assembled (imageLen (Ent.gaTfmt fl.entry) (Ent.gaTblk fl.entry) src.count) got = some data ∧ found ≠ none) (flying (ent [(0, 6), (16, 1), (64, 16), (78, 3), (83, 3), (160, 64)]) (.gather { srcs := [{ core := 0, idx := 0, pkg := 9, count := 4, addr := 64, line := 16 }], turn := 0 })) ({ type := 4, src := 9, dst := 1, daddr := gatherPlace 0 0 16, tspec := 1, payload := List.replicate 512 5 }) (theFlight (ent [(0, 6), (16, 1), (64, 16), (78, 3), (83, 3), (160, 64)]) (.gather { srcs := [{ core := 0, idx := 0, pkg := 9, count := 4, addr := 64, line := 16 }], turn := 0 })) ({ core := 0, idx := 0, pkg := 9, count := 4, addr := 64, line := 16 }) (({ srcs := [{ core := 0, idx := 0, pkg := 9, count := 4, addr := 64, line := 16 }], turn := 0 } : GatherWork)) (List.replicate 512 5)) ∧
    ((fun (s : State) (f : Frame) => let base := bf f.tspec 41 6; let cl := nsCluster base; let slot := if bit f.tspec 65 = 1 then some f.tslot else none; nsFieldOk base = true ∧ nsFieldOk f.daddr = true ∧ nsCluster f.daddr = cl ∧ pieceOk s cl slot = true ∧ f.daddr % 2 ^ 22 + f.payload.length ≤ 2 ^ 22) (State.reset) ({ type := 5, src := 9, dst := 1, tspec := ent [(42, 32)], payload := List.replicate 32 5 })) ∧
    ((fun (s : State) (f : Frame) => let base := bf f.tspec 41 6; let len := bf f.tspec 64 42; let cl := nsCluster base; let slot := if bit f.tspec 65 = 1 then some f.tslot else none; nsFieldOk base = true ∧ nsFieldOk f.daddr = true ∧ nsCluster f.daddr = cl ∧ pieceOk s cl slot = false ∧ len ≠ 0) (State.reset) ({ type := 5, src := 9, dst := 1, tspec := ent [(42, 32), (65, 1)], payload := List.replicate 32 5 })) ∧
    ((fun (s : State) (f : Frame) => let base := bf f.tspec 41 6; let len := bf f.tspec 64 42; let cl := nsCluster base; let got := ((s.net.pieces.find? fun x => x.src == f.src && x.base == base).map (·.got)).getD 0 + f.payload.length; nsFieldOk base = true ∧ nsFieldOk f.daddr = true ∧ nsCluster f.daddr = cl ∧ got < len) (State.reset) ({ type := 5, src := 9, dst := 1, tspec := ent [(42, 64)], payload := List.replicate 32 5 })) ∧
    ((fun (s : State) (f : Frame) => let base := bf f.tspec 41 6; let len := bf f.tspec 64 42; let cl := nsCluster base; let got := ((s.net.pieces.find? fun x => x.src == f.src && x.base == base).map (·.got)).getD 0 + f.payload.length; nsFieldOk base = true ∧ nsFieldOk f.daddr = true ∧ nsCluster f.daddr = cl ∧ len ≤ got) (State.reset) ({ type := 5, src := 9, dst := 1, tspec := ent [(42, 32)], payload := List.replicate 32 5 })) ∧
    ((fun (s : State) (f : Frame) => let base := bf f.tspec 41 6; let len := bf f.tspec 64 42; let cl := nsCluster base; let got := ((s.net.pieces.find? fun x => x.src == f.src && x.base == base).map (·.got)).getD 0 + f.payload.length; nsFieldOk base = true ∧ nsFieldOk f.daddr = true ∧ nsCluster f.daddr = cl ∧ len ≤ got ∧ s.regsOk ∧ s.tablesOk ∧ cl < 432 ∧ bit f.tspec 5 = 1 ∧ s.token cl (f.tspec % 32) < 65535 ∧ (∀ p < 8, (s.prog cl p).wait = .none)) (State.reset) ({ type := 5, src := 9, dst := 1, tspec := ent [(0, 31), (5, 1), (42, 32)], payload := List.replicate 32 5 })) := 
  ⟨by dsimp only; decide +kernel, by dsimp only; decide +kernel, by dsimp only; decide +kernel, by dsimp only; decide +kernel, by dsimp only; decide +kernel, by dsimp only; decide +kernel, by dsimp only; decide +kernel, by dsimp only; decide +kernel, by dsimp only [redAgrees, redDiffers]; decide +kernel, by dsimp only [redAgrees, redDiffers]; decide +kernel, by dsimp only [redAgrees, redDiffers]; decide +kernel, by dsimp only [redAgrees, redDiffers]; decide +kernel, by dsimp only [redAgrees, redDiffers]; decide +kernel, by dsimp only [redAgrees, redDiffers]; decide +kernel, by dsimp only [redAgrees, redDiffers]; decide +kernel, by dsimp only [redAgrees, redDiffers]; decide +kernel, by dsimp only [redAgrees, redDiffers]; decide +kernel, by dsimp only [redAgrees, redDiffers]; decide +kernel, by dsimp only; decide +kernel, by dsimp only; decide +kernel, by dsimp only; decide +kernel, by dsimp only; decide +kernel, by dsimp only; decide +kernel, by dsimp only; decide +kernel, by dsimp only; decide +kernel, by dsimp only; decide +kernel, by dsimp only; decide +kernel, by dsimp only; decide +kernel, by dsimp only; decide +kernel, by dsimp only; decide +kernel, by dsimp only; decide +kernel, by dsimp only; decide +kernel⟩

theorem witness_ExchangeDelivered :
    ((fun (s : State) (f : Frame) => s.tablesOk ∧ linkKeyOk s f.tslot = true ∧ f.dsp ≠ 1 ∧ nsCluster f.daddr ≤ 431 ∧ bf f.daddr 29 26 ≤ 8 ∧ actingSlot s (nsCluster f.daddr) = some f.tslot ∧ f.daddr % 2 ^ 22 + f.payload.length ≤ 2 ^ 22) (tenant63) ({ type := 2, dst := 1, tslot := 63, daddr := 2 ^ 22 - 32, payload := List.replicate 32 5 })) ∧
    ((fun (s : State) (l : Nat) (f : Frame) => s.regsOk ∧ l < 24 ∧ linkKeyOk s f.tslot = false) (fabric) (23) ({ type := 2, dst := 1, tslot := 63, daddr := 2 ^ 22 - 32, payload := List.replicate 32 5 })) ∧
    ((fun (s : State) (l : Nat) (f : Frame) => s.regsOk ∧ s.tablesOk ∧ l < 24 ∧ linkKeyOk s f.tslot = true) (tenant63) (23) ({ type := 2, dst := 1, tslot := 63, daddr := 2 ^ 22 - 32, payload := List.replicate 32 5 })) ∧
    ((fun (s : State) (f : Frame) => s.tablesOk ∧ linkKeyOk s f.tslot = true ∧ f.dsp ≠ 1 ∧ nsCluster f.daddr ≤ 431 ∧ bf f.daddr 29 26 ≤ 8 ∧ actingSlot s (nsCluster f.daddr) ≠ some f.tslot) (tenantAway) ({ type := 2, dst := 1, tslot := 63, daddr := 2 ^ 22 - 32, payload := List.replicate 32 5 })) ∧
    ((fun (s : State) (f : Frame) => s.regsOk ∧ s.tablesOk ∧ linkKeyOk s f.tslot = true ∧ f.dsp = 1 ∧ (f.src ≠ bf (s.reg (pairReg Reg.PAIR_PARTNER)) 9 0 ∨ pairState s = 0 ∨ mirrorSize s < f.daddr % 2 ^ 38 + f.payload.length ∨ 2 ^ 39 ≤ f.daddr)) (mirror63) ({ type := 2, src := 9, dst := 1, dsp := 1, tslot := 63, daddr := 2 ^ 39, payload := List.replicate 32 5, tspec := xTspec 0 true 1 true 0 })) ∧
    ((fun (s : State) (f : Frame) => let copy := f.daddr / 2 ^ 38; let sender := bf f.tspec 36 23; let old := s.net.mirror.find? fun m => m.copy == copy && m.sender == sender && m.last.tspec % 32 == f.tspec % 32; let got := (old.map (·.got)).getD 0 + 1; s.regsOk ∧ s.tablesOk ∧ linkKeyOk s f.tslot = true ∧ f.dsp = 1 ∧ pairState s ≠ 0 ∧ f.src = bf (s.reg (pairReg Reg.PAIR_PARTNER)) 9 0 ∧ f.daddr % 2 ^ 38 + f.payload.length ≤ mirrorSize s ∧ f.daddr < 2 ^ 39 ∧ mirrorBase s (f.daddr / 2 ^ 38) + mirrorSize s ≤ 2 ^ 39 ∧ (∀ w < 8, ∀ k < 8, chState s w k ≠ 3) ∧ got < bf f.tspec 21 6) (mirror63) ({ type := 2, src := 9, dst := 1, dsp := 1, tslot := 63, daddr := 2 ^ 38, payload := List.replicate 32 5, tspec := xTspec 0 true 2 true 0 })) ∧
    ((fun (s : State) (f : Frame) => let copy := f.daddr / 2 ^ 38; let sender := bf f.tspec 36 23; let old := s.net.mirror.find? fun m => m.copy == copy && m.sender == sender && m.last.tspec % 32 == f.tspec % 32; let got := (old.map (·.got)).getD 0 + 1; s.regsOk ∧ s.tablesOk ∧ linkKeyOk s f.tslot = true ∧ f.dsp = 1 ∧ pairState s ≠ 0 ∧ f.src = bf (s.reg (pairReg Reg.PAIR_PARTNER)) 9 0 ∧ f.daddr % 2 ^ 38 + f.payload.length ≤ mirrorSize s ∧ f.daddr < 2 ^ 39 ∧ mirrorBase s (f.daddr / 2 ^ 38) + mirrorSize s ≤ 2 ^ 39 ∧ (∀ w < 8, ∀ k < 8, chState s w k ≠ 3) ∧ bf f.tspec 21 6 ≤ got) (mirror63) ({ type := 2, src := 9, dst := 1, dsp := 1, tslot := 63, daddr := 2 ^ 38 + 32, payload := List.replicate 32 5, tspec := xTspec 0 true 1 true 0 })) ∧
    ((fun (s : State) (f : Frame) => let copy := f.daddr / 2 ^ 38; let off := f.daddr % 2 ^ 38; let sender := bf f.tspec 36 23; let old := s.net.mirror.find? fun m => m.copy == copy && m.sender == sender && m.last.tspec % 32 == f.tspec % 32; let got := (old.map (·.got)).getD 0 + 1; s.regsOk ∧ s.tablesOk ∧ linkKeyOk s f.tslot = true ∧ f.dsp = 1 ∧ pairState s ≠ 0 ∧ f.src = bf (s.reg (pairReg Reg.PAIR_PARTNER)) 9 0 ∧ f.daddr % 2 ^ 38 + f.payload.length ≤ mirrorSize s ∧ f.daddr < 2 ^ 39 ∧ mirrorBase s (f.daddr / 2 ^ 38) + mirrorSize s ≤ 2 ^ 39 ∧ (∀ w < 8, ∀ k < 8, chState s w k ≠ 3) ∧ bf f.tspec 21 6 ≤ got ∧ off = 0 ∧ 16 ≤ f.payload.length) (mirror63) ({ type := 2, src := 9, dst := 1, dsp := 1, tslot := 63, daddr := 0, payload := List.replicate 32 5, tspec := xTspec 0 true 1 true 0 })) ∧
    ((fun (s : State) (f : Frame) => let copy := f.daddr / 2 ^ 38; let off := f.daddr % 2 ^ 38; let sender := bf f.tspec 36 23; let old := s.net.mirror.find? fun m => m.copy == copy && m.sender == sender && m.last.tspec % 32 == f.tspec % 32; let got := (old.map (·.got)).getD 0 + 1; let step := if off = 0 ∧ 16 ≤ f.payload.length then some ((f.payload.drop 8).take 8) else old.bind (·.step); s.regsOk ∧ s.tablesOk ∧ linkKeyOk s f.tslot = true ∧ f.dsp = 1 ∧ pairState s ≠ 0 ∧ f.src = bf (s.reg (pairReg Reg.PAIR_PARTNER)) 9 0 ∧ f.daddr % 2 ^ 38 + f.payload.length ≤ mirrorSize s ∧ f.daddr < 2 ^ 39 ∧ mirrorBase s (f.daddr / 2 ^ 38) + mirrorSize s ≤ 2 ^ 39 ∧ (∀ w < 8, ∀ k < 8, chState s w k ≠ 3) ∧ bf f.tspec 21 6 ≤ got ∧ step = none) (mirror63) ({ type := 2, src := 9, dst := 1, dsp := 1, tslot := 63, daddr := 2 ^ 21 - 32, payload := List.replicate 32 5, tspec := xTspec 0 true 1 true 0 })) ∧
    ((fun (s : State) (f : Frame) => let copy := f.daddr / 2 ^ 38; let sender := bf f.tspec 36 23; let old := s.net.mirror.find? fun m => m.copy == copy && m.sender == sender && m.last.tspec % 32 == f.tspec % 32; let got := (old.map (·.got)).getD 0 + 1; s.regsOk ∧ s.tablesOk ∧ linkKeyOk s f.tslot = true ∧ f.dsp = 1 ∧ pairState s ≠ 0 ∧ f.src = bf (s.reg (pairReg Reg.PAIR_PARTNER)) 9 0 ∧ f.daddr % 2 ^ 38 + f.payload.length ≤ mirrorSize s ∧ f.daddr < 2 ^ 39 ∧ mirrorBase s (f.daddr / 2 ^ 38) + mirrorSize s ≤ 2 ^ 39 ∧ (∀ w < 8, ∀ k < 8, chState s w k ≠ 3) ∧ bf f.tspec 21 6 ≤ got ∧ pairUp s ≠ []) (mirror63) ({ type := 2, src := 9, dst := 1, dsp := 1, tslot := 63, daddr := 0, payload := List.replicate 32 5, tspec := xTspec 0 true 1 true 0 })) ∧
    ((fun (s : State) (f : Frame) => let copy := f.daddr / 2 ^ 38; let sender := bf f.tspec 36 23; let old := s.net.mirror.find? fun m => m.copy == copy && m.sender == sender && m.last.tspec % 32 == f.tspec % 32; let got := (old.map (·.got)).getD 0 + 1; s.regsOk ∧ s.tablesOk ∧ linkKeyOk s f.tslot = true ∧ f.dsp = 1 ∧ pairState s ≠ 0 ∧ f.src = bf (s.reg (pairReg Reg.PAIR_PARTNER)) 9 0 ∧ f.daddr % 2 ^ 38 + f.payload.length ≤ mirrorSize s ∧ f.daddr < 2 ^ 39 ∧ mirrorBase s (f.daddr / 2 ^ 38) + mirrorSize s ≤ 2 ^ 39 ∧ (∀ w < 8, ∀ k < 8, chState s w k ≠ 3) ∧ bf f.tspec 21 6 ≤ got ∧ pairUp s = []) (put mirror63 [(pairReg Reg.PAIR_LINKS, 22 * 257)]) ({ type := 2, src := 9, dst := 1, dsp := 1, tslot := 63, daddr := 0, payload := List.replicate 32 5, tspec := xTspec 0 true 1 true 0 })) := by
  refine ⟨?_, ?_, ?_, ?_, ?_, ?_, ?_, ?_, ?_, ?_, ?_⟩ <;> dsimp only <;> decide +kernel

theorem witness_FrameEffects :
    ((fun (s : State) (f : Nat) (fl : Flight) (r : RedWork) => s.regsOk ∧ s.tablesOk ∧ (s.seq.flights.find? fun x => x.id == f) = some fl ∧ fl.work = .reduce r ∧ r.turn + 4096 ≤ s.turn ∧ redDone s fl r = false ∧ fl.cl < 432) (lateReduce) (7) (theFlight (ent [(0, 5), (16, 1), (32, 6), (42, 6), (64, 5), (80, 32), (112, 16), (128, 32), (173, 64)]) (.reduce { tag := 5, own := 0, list := [1], need := 1, rest := 1, turn := 0 })) ({ tag := 5, own := 0, list := [1], need := 1, rest := 1, turn := 0 })) ∧
    ((fun (p : ConvParams) (vs : List Machine.Num) => p.code ≤ 5 ∧ Num.nan ∈ vs) ({ code := 5, blk := 0, sat := true, flush := false, src := 5 }) ([Num.nan])) ∧
    ((fun (s : State) (n : Nat) (h : HeldReduce) (l : Nat) => s.tablesOk ∧ s.net.held[n]? = some h ∧ h.link = some l ∧ l < 24 ∧ h.turn + 4096 ≤ s.turn) ({ State.reset with time.now := 1024 * 4096, net.held := [{ frame := { type := 1 }, cl := 0, core := 0, link := some 23, turn := 0 }] }) (0) ({ frame := { type := 1 }, cl := 0, core := 0, link := some 23, turn := 0 }) (23)) ∧
    ((fun (s : State) (f : Nat) (n : Nat) (fl : Flight) (g : GatherWork) (src : GatherSource) => s.tablesOk ∧ gatherOf s f = some (fl, g) ∧ g.srcs[n]? = some src ∧ src.done = false ∧ g.turn + 4096 ≤ s.turn ∧ fl.cl < 432 ∧ s.regsOk) (lateGather) (7) (0) (theFlight (ent [(0, 6), (16, 1), (64, 16), (78, 3), (83, 3), (160, 64)]) (.gather { srcs := [{ core := 0, idx := 0, pkg := 1, count := 4, addr := 64, line := 16 }], turn := 0 })) ({ srcs := [{ core := 0, idx := 0, pkg := 1, count := 4, addr := 64, line := 16 }], turn := 0 }) ({ core := 0, idx := 0, pkg := 1, count := 4, addr := 64, line := 16 })) ∧
    ((fun (s : State) (w : Nat) => s.regsOk ∧ w < 8 ∧ swState s w = 1 ∧ s.reg (swReg w Reg.SW_ABORT) = 1) (put State.reset [(swReg 7 Reg.SW_STATE, 1), (swReg 7 Reg.SW_ABORT, 1)]) (7)) ∧
    ((fun (s : State) (w : Nat) => s.regsOk ∧ w < 8 ∧ swState s w = 1 ∧ s.reg (swReg w Reg.SW_ABORT) ≠ 1 ∧ swDone s w + 1 < 2 ^ 20 ∧ switchHeld s w (swDone s w) = true) (put retrains [(swReg 0 Reg.SW_STATE, 1)]) (0)) ∧
    ((fun (s : State) (w : Nat) => s.regsOk ∧ w < 8 ∧ swState s w = 1 ∧ s.reg (swReg w Reg.SW_ABORT) ≠ 1 ∧ swDone s w + 1 < 2 ^ 20 ∧ switchHeld s w (swDone s w) = false) (planRuns) (7)) ∧
    ((fun (s : State) (w : Nat) (i : Nat) => gRefuse s (slotOfPart s w) [w] (swPlan s w + 64 * i) 64 false = none ∧ switchRefuse (gNote s (swCtx s w) (swPlan s w + 64 * i) 64) w (switchDescAt s w i) = none ∧ (switchDescAt s w i).send = false ∧ (switchDescAt s w i).image = true) (planned) (7) (0)) ∧
    ((fun (s : State) (w : Nat) => s.regsOk ∧ s.tablesOk ∧ w < 8 ∧ swState s w = 1 ∧ s.reg64 (swReg w Reg.SW_DL_LO) % 2 ^ 54 ≠ 0 ∧ s.reg64 (swReg w Reg.SW_DL_LO) % 2 ^ 54 ≤ s.turn ∧ bit (s.reg (swReg w Reg.SW_STATE)) 4 = 0) ({ put State.reset [(swReg 7 Reg.SW_STATE, 1), (swReg 7 Reg.SW_DL_LO, 1)] with time.now := 1024 }) (7)) ∧
    ((fun (s : State) (l : Nat) (vc : Nat) (f : Frame) => s.regsOk ∧ s.tablesOk ∧ ((s.link l).rx.find? fun f => f.vc == vc) = some f ∧ f.dst ≠ selfId s ∧ transitLink s f = none) ({ fabric with net.links := [(23, { rx := [{ type := 2, dst := 9, vc := 1 }] })] }) (23) (1) ({ type := 2, dst := 9, vc := 1 })) ∧
    ((fun (s : State) (l : Nat) (vc : Nat) (f : Frame) => ((s.link l).rx.find? fun f => f.vc == vc) = some f ∧ f.dst = selfId s ∧ s.catching.caught = false ∧ (frameNear f = true ∨ f.type = 8 → sleeping s = false) ∧ f.type = 1 ∧ passHeld s f = true) ({ { routed with seq := (flying (ent [(0, 5), (16, 1), (32, 6), (42, 6), (64, 5), (80, 64), (112, 16), (128, 32), (173, 64), (149, 2 ^ 22)]) (.reduce { tag := 5, own := 0, list := groupOf 0, need := 32, rest := 32, passes := 0, turn := 0 })).seq } with net.links := [(23, { rx := [{ type := 1, src := 9, dst := 1, vc := 1, tspec := ent [(0, 5), (38, 64), (60, 6), (16, 32)], payload := List.replicate 64 1 }] }), (22, { tx := [{ frame := { type := 2, vc := 1 } }] })] }) (23) (1) ({ type := 1, src := 9, dst := 1, vc := 1, tspec := ent [(0, 5), (38, 64), (60, 6), (16, 32)], payload := List.replicate 64 1 })) ∧
    ((fun (s : State) (l : Nat) (vc : Nat) (f : Frame) => ((s.link l).rx.find? fun f => f.vc == vc) = some f ∧ f.dst = selfId s ∧ s.catching.caught = false ∧ (frameNear f = true ∨ f.type = 8 → sleeping s = false) ∧ (f.type = 1 → passHeld s f = false)) ({ fabric with net.links := [(23, { rx := [{ type := 2, dst := 1, vc := 1 }] })] }) (23) (1) ({ type := 2, dst := 1, vc := 1 })) ∧
    ((fun (s : State) (l : Nat) (vc : Nat) (out : Nat) (f : Frame) => s.tablesOk ∧ ((s.link l).rx.find? fun f => f.vc == vc) = some f ∧ f.dst ≠ selfId s ∧ transitLink s f = some out ∧ out ≠ l ∧ canLeave (s.link out) f = true ∧ (s.link out).waking = false ∧ ((s.link out).tx.all fun x => x.frame.vc != f.vc) = true) ({ routed with net.links := [(23, { rx := [{ type := 2, dst := 9, vc := 1 }] })] }) (23) (1) (22) ({ type := 2, dst := 9, vc := 1 })) := by
  refine ⟨?_, ?_, ?_, ?_, ?_, ?_, ?_, ?_, ?_, ?_, ?_, ?_, ?_⟩ <;> dsimp only <;> decide +kernel

theorem witness_Doorbells :
    ((fun (s : State) (h : PortHead) (n : Nat) (q : Nat) => s.regsOk ∧ s.tablesOk ∧ s.portTakes 4 h = true ∧ n < 4096 ∧ producerOk s n q = true ∧ ringParting s n = false) (ringC) (hdEnc) (4095) (2)) ∧
    ((fun (s : State) (h : PortHead) (n : Nat) (q : Nat) => s.regsOk ∧ s.portTakes 4 h = true ∧ n < 4096 ∧ producerOk s n q = false) (ringC) (hdEnc) (4095) (1)) ∧
    ((fun (s : State) (h : PortHead) (n : Nat) (q : Nat) => s.regsOk ∧ s.tablesOk ∧ s.portTakes 4 h = true ∧ n < 4096 ∧ consumerOk s n q = true ∧ ringParting s n = false) (ringT) (hdEnc) (4095) (1)) ∧
    ((fun (s : State) (n : Nat) => n < 4096 ∧ ringLive s n 2 = true ∧ portUp s = true ∧ diff32 (s.ring n).prod (s.ring n).fetched ≠ 0 ∧ (s.port.reads.all fun x => x.why != .commands n) = true) (ringC) (4095)) ∧
    ((fun (s : State) (h : PortHead) (tag : Nat) (n : Nat) (bs : List Byte) (x : HostRead) => s.tablesOk ∧ s.portTakes 3 h = true ∧ (s.port.reads.find? fun x => x.tag == tag && x.len == bs.length) = some x ∧ x.why = .commands n) ({ ringC with port.reads := [{ tag := 6, why := .commands 4095, addr := 0, len := 64 }] }) (hdEnc) (6) (4095) (List.replicate 64 3) ({ tag := 6, why := .commands 4095, addr := 0, len := 64 })) ∧
    ((fun (s : State) (tag : Nat) (x : HostRead) => (s.port.reads.find? fun x => x.tag == tag) = some x ∧ x.again = false) ({ ringC with port.reads := [{ tag := 6, why := .commands 4095, addr := 0, len := 64 }] }) (6) ({ tag := 6, why := .commands 4095, addr := 0, len := 64 })) ∧
    ((fun (s : State) (tag : Nat) (x : HostRead) => s.tablesOk ∧ (s.port.reads.find? fun x => x.tag == tag) = some x ∧ x.again = true) ({ ringC with port.reads := [{ tag := 6, why := .commands 4095, addr := 0, len := 64, again := true }] }) (6) ({ tag := 6, why := .commands 4095, addr := 0, len := 64, again := true })) ∧
    ((fun (s : State) (n : Nat) => s.tablesOk ∧ n < 4096 ∧ (ringLive s n 1 = true ∨ ringLive s n 3 = true) ∧ portUp s = true ∧ diff32 (s.ring n).prod (s.ring n).sent ≠ 0) (ringT) (4095)) ∧
    ((fun (s : State) (n : Nat) (rec : List Byte) (rest : List (List Byte)) => s.tablesOk ∧ n < 4096 ∧ s.belt.store = [] ∧ (s.ring n).pend = rec :: rest ∧ ringFree s n = 1 ∧ (s.ring n).prod < 2 ^ 32 ∧ (s.ring n).cons < 2 ^ 32) ({ put portKey [(ringReg Reg.RING_CFG 4095, 0x10001)] with serving.rings := [(4095, { prod := 31, pend := [List.replicate 32 7] })] }) (4095) (List.replicate 32 7) ([])) := by
  refine ⟨?_, ?_, ?_, ?_, ?_, ?_, ?_, ?_, ?_⟩ <;> dsimp only <;> decide +kernel

theorem witness_RequestCommands :
    ((fun (s : State) (q : Nat) (j : Nat) (c : List Byte) (f : Family) => s.regsOk ∧ s.tablesOk ∧ s.command q 1 c = true ∧ cmdByte c 0x0A 1 < 64 ∧ heldModel s (cmdByte c 0x0A 1) (if cmdByte c 0x0C 2 = 0xFFFF then none else some (cmdByte c 0x0C 2)) = false ∧ admitRefuse s q c (cmdByte c 8 2 % 4096) (cmdByte c 0x0A 1) (cmdByte c 0x0C 2) (cmdByte c 0x0B 1) (cmdByte c 0x0E 2) = none ∧ famAt s (cmdByte c 0x0E 2) = some f ∧ freeListRun s f.pool f.h = some j) (queued (serving) 0 (leBytes 64 (ent [(0, 1), (16, 4), (32, 9), (64, 1), (80, 5), (88, 255), (96, 65535), (112, 3), (128, 4), (160, 8), (224, 60)]))) (0) (0) (leBytes 64 (ent [(0, 1), (16, 4), (32, 9), (64, 1), (80, 5), (88, 255), (96, 65535), (112, 3), (128, 4), (160, 8), (224, 60)])) (aFamily)) ∧
    ((fun (s : State) (q : Nat) (c : List Byte) => s.tablesOk ∧ s.command q 1 c = true ∧ cmdByte c 0x0A 1 < 64 ∧ heldModel s (cmdByte c 0x0A 1) (if cmdByte c 0x0C 2 = 0xFFFF then none else some (cmdByte c 0x0C 2)) = true) (queued (put serving [(blkKey Reg.BLK_STATE 5, 1)]) 0 (leBytes 64 (ent [(0, 1), (16, 4), (32, 9), (64, 1), (80, 5), (88, 255), (96, 65535), (112, 3), (128, 4), (160, 8), (224, 60)]))) (0) (leBytes 64 (ent [(0, 1), (16, 4), (32, 9), (64, 1), (80, 5), (88, 255), (96, 65535), (112, 3), (128, 4), (160, 8), (224, 60)]))) ∧
    ((fun (s : State) (q : Nat) (c : List Byte) => s.queueHeld q = true ∧ s.commandWaits q 1 c = true) (put (queued (serving) 0 (leBytes 64 1)) [(memPage 0 + Reg.MEM_MODE, 0xFF00), (memPage 0 + Reg.MEM_CH_STATE, 0xFFFF)]) (0) (leBytes 64 1)) ∧
    ((fun (s : State) (q : Nat) (c : List Byte) => s.queueHeld q = true ∧ s.commandWaits q 2 c = true) (put (queued (serving) 0 (leBytes 64 2)) [(memPage 0 + Reg.MEM_MODE, 0xFF00), (memPage 0 + Reg.MEM_CH_STATE, 0xFFFF)]) (0) (leBytes 64 2)) ∧
    ((fun (s : State) (q : Nat) (c : List Byte) => s.queueHeld q = true ∧ s.commandWaits q 3 c = true) (put (queued (serving) 0 (leBytes 64 3)) [(memPage 0 + Reg.MEM_MODE, 0xFF00), (memPage 0 + Reg.MEM_CH_STATE, 0xFFFF)]) (0) (leBytes 64 3)) ∧
    ((fun (s : State) (q : Nat) (c : List Byte) => s.queueHeld q = true ∧ s.commandWaits q 4 c = true) (put (queued (serving) 0 (leBytes 64 4)) [(memPage 0 + Reg.MEM_MODE, 0xFF00), (memPage 0 + Reg.MEM_CH_STATE, 0xFFFF)]) (0) (leBytes 64 4)) ∧
    ((fun (s : State) (q : Nat) (c : List Byte) => s.queueHeld q = true ∧ s.commandWaits q 5 c = true) (put (queued (serving) 0 (leBytes 64 5)) [(memPage 0 + Reg.MEM_MODE, 0xFF00), (memPage 0 + Reg.MEM_CH_STATE, 0xFFFF)]) (0) (leBytes 64 5)) ∧
    ((fun (s : State) (q : Nat) (c : List Byte) => s.queueHeld q = true ∧ s.commandWaits q 6 c = true) (put (queued (serving) 0 (leBytes 64 6)) [(memPage 0 + Reg.MEM_MODE, 0xFF00), (memPage 0 + Reg.MEM_CH_STATE, 0xFFFF)]) (0) (leBytes 64 6)) ∧
    ((fun (s : State) (q : Nat) (c : List Byte) => s.queueHeld q = true ∧ s.commandWaits q 7 c = true) (put (queued (serving) 0 (leBytes 64 7)) [(memPage 0 + Reg.MEM_MODE, 0xFF00), (memPage 0 + Reg.MEM_CH_STATE, 0xFFFF)]) (0) (leBytes 64 7)) ∧
    ((fun (s : State) (q : Nat) (c : List Byte) => s.queueHeld q = true ∧ s.commandWaits q 8 c = true) (put (queued (serving) 0 (leBytes 64 8)) [(memPage 0 + Reg.MEM_MODE, 0xFF00), (memPage 0 + Reg.MEM_CH_STATE, 0xFFFF)]) (0) (leBytes 64 8)) ∧
    ((fun (s : State) (q : Nat) (c : List Byte) => s.queueHeld q = true ∧ s.commandWaits q 9 c = true) (put (queued (serving) 0 (leBytes 64 9)) [(memPage 0 + Reg.MEM_MODE, 0xFF00), (memPage 0 + Reg.MEM_CH_STATE, 0xFFFF)]) (0) (leBytes 64 9)) ∧
    ((fun (s : State) (q : Nat) (st : Nat) (c : List Byte) => s.command q 1 c = true ∧ (cmdByte c 0x0A 1 < 64 → heldModel s (cmdByte c 0x0A 1) (if cmdByte c 0x0C 2 = 0xFFFF then none else some (cmdByte c 0x0C 2)) = false) ∧ admitRefuse s q c (cmdByte c 8 2 % 4096) (cmdByte c 0x0A 1) (cmdByte c 0x0C 2) (cmdByte c 0x0B 1) (cmdByte c 0x0E 2) = some st) (queued (put serving [(blkKey Reg.BLK_CFG 5, 0)]) 0 (leBytes 64 (ent [(0, 1), (16, 4), (32, 9), (64, 1), (80, 5), (88, 255), (96, 65535), (112, 3), (128, 4), (160, 8), (224, 60)]))) (0) (Cmd.outsidePartition) (leBytes 64 (ent [(0, 1), (16, 4), (32, 9), (64, 1), (80, 5), (88, 255), (96, 65535), (112, 3), (128, 4), (160, 8), (224, 60)]))) ∧
    ((fun (s : State) (q : Nat) (st : Nat) (res : Nat) => let ev := ringPair s q; s.regsOk ∧ s.tablesOk ∧ st < 256 ∧ res < 2 ^ 32 ∧ ev ≠ q) (eventful) (0) (7) (3)) ∧
    ((fun (s : State) (st : Nat) (res : Nat) => s.regsOk ∧ s.tablesOk ∧ st < 256 ∧ res < 2 ^ 32 ∧ 1 < st) (eventful) (7) (3)) ∧
    ((fun (s : State) (q : Nat) (st : Nat) (res : Nat) => let ev := ringPair s q; s.regsOk ∧ s.tablesOk ∧ st < 256 ∧ res < 2 ^ 32 ∧ ev ≠ q ∧ ringKind s ev = 3 ∧ (s.ring ev).pend = [] ∧ 0 < ringFree s ev) (eventful) (0) (7) (3)) ∧
    ((fun (s : State) (q : Nat) (c : List Byte) (r : Request) => s.tablesOk ∧ s.command q 2 c = true ∧ reqOf s (cmdByte c 4 4) = some r ∧ r.id = cmdByte c 4 4 ∧ ringParts s r.ring = ringParts s q ∧ r.cancel = none ∧ (r.st = .ready ∨ (r.st = .prefill ∧ reqBusy s r = false) ∨ (r.st = .decode ∧ inOpenStep s r = false) ∨ r.st = .parked)) (queued ({ serving with serving.reqs := [aRequest] }) 0 (leBytes 64 (ent [(0, 2), (16, 4), (32, 9)]))) (0) (leBytes 64 (ent [(0, 2), (16, 4), (32, 9)])) (aRequest)) ∧
    ((fun (s : State) (q : Nat) (c : List Byte) (r : Request) => s.tablesOk ∧ s.command q 2 c = true ∧ reqOf s (cmdByte c 4 4) = some r ∧ ringParts s r.ring = ringParts s q ∧ r.cancel = none ∧ (inOpenStep s r = true ∨ (r.st = .prefill ∧ reqBusy s r = true) ∨ r.st = .parking ∨ r.st = .restoring)) (queued ({ serving with serving.fams := [(3, some { aFamily with opened := true })], serving.reqs := [{ aRequest with st := .decode }] }) 0 (leBytes 64 (ent [(0, 2), (16, 4), (32, 9)]))) (0) (leBytes 64 (ent [(0, 2), (16, 4), (32, 9)])) ({ aRequest with st := .decode })) ∧
    ((fun (s : State) (q : Nat) (c : List Byte) (r : Request) => s.tablesOk ∧ s.command q 3 c = true ∧ reqOf s (cmdByte c 4 4) = some r ∧ 1 ≤ cmdByte c 0x1C 4 ∧ cmdByte c 0x1C 4 ≤ 86400 ∧ ringParts s r.ring = ringParts s q ∧ r.pause = none ∧ r.cancel = none ∧ inOpenStep s r = true) (queued ({ serving with serving.fams := [(3, some { aFamily with opened := true })], serving.reqs := [{ aRequest with st := .decode }] }) 0 (leBytes 64 (ent [(0, 3), (16, 4), (32, 9), (224, 86400)]))) (0) (leBytes 64 (ent [(0, 3), (16, 4), (32, 9), (224, 86400)])) ({ aRequest with st := .decode })) ∧
    ((fun (s : State) (q : Nat) (c : List Byte) (r : Request) => s.tablesOk ∧ s.command q 3 c = true ∧ reqOf s (cmdByte c 4 4) = some r ∧ 1 ≤ cmdByte c 0x1C 4 ∧ cmdByte c 0x1C 4 ≤ 86400 ∧ ringParts s r.ring = ringParts s q ∧ r.pause = none ∧ r.cancel = none ∧ (r.st = .ready ∨ r.st = .decode) ∧ inOpenStep s r = false) (queued ({ serving with serving.reqs := [{ aRequest with st := .decode }] }) 0 (leBytes 64 (ent [(0, 3), (16, 4), (32, 9), (224, 86400)]))) (0) (leBytes 64 (ent [(0, 3), (16, 4), (32, 9), (224, 86400)])) ({ aRequest with st := .decode })) ∧
    ((fun (s : State) (r : Request) => s.regsOk ∧ s.tablesOk ∧ reqOf s r.id = some r ∧ (reqBusy s r = true ∨ poolHeld s r.pool = true)) ({ serving with serving.reqs := [aRequest], seq.flights := [theFlight 7 (.attn {} [(0, 0)])] }) (aRequest)) ∧
    ((fun (s : State) (r : Request) (e : Nat) (a : Nat) (serial : Nat) (s1 : State) (x : Request) => s.regsOk ∧ s.tablesOk ∧ reqOf s r.id = some r ∧ reqBusy s r = false ∧ poolHeld s r.pool = false ∧ parkPlace s r (1 + 16 * ((List.range r.h).map fun x => (chain s r.pool (listHead s r.pool (r.list + x)).own).length).foldl (· + ·) 0) = .ok (e, a) ∧ takeSerial s (kvpSlot s r.pool) = some (s1, serial) ∧ x.id = r.id ∧ x ∈ (pauseReq s r).serving.reqs) (put ({ serving with serving.reqs := [{ aRequest with st := .decode }] }) [(kvpReg Reg.FAR_EXTENTS 0, 64)]) ({ aRequest with st := .decode }) (0) (0) (0) (put (put ({ serving with serving.reqs := [{ aRequest with st := .decode }] }) [(kvpReg Reg.FAR_EXTENTS 0, 64)]) [(slotKey Reg.SLOT_SERIAL_LO 0, 1)]) ((pauseReq (put ({ serving with serving.reqs := [{ aRequest with st := .decode }] }) [(kvpReg Reg.FAR_EXTENTS 0, 64)]) { aRequest with st := .decode }).serving.reqs.headD aRequest)) ∧
    ((fun (s : State) (r : Request) (e : Nat) (a : Nat) (serial : Nat) (s1 : State) => s.regsOk ∧ s.tablesOk ∧ reqOf s r.id = some r ∧ reqBusy s r = false ∧ poolHeld s r.pool = false ∧ parkPlace s r (1 + 16 * ((List.range r.h).map fun x => (chain s r.pool (listHead s r.pool (r.list + x)).own).length).foldl (· + ·) 0) = .ok (e, a) ∧ takeSerial s (kvpSlot s r.pool) = some (s1, serial)) (put ({ serving with serving.reqs := [{ aRequest with st := .decode }] }) [(kvpReg Reg.FAR_EXTENTS 0, 64)]) ({ aRequest with st := .decode }) (0) (0) (0) (put (put ({ serving with serving.reqs := [{ aRequest with st := .decode }] }) [(kvpReg Reg.FAR_EXTENTS 0, 64)]) [(slotKey Reg.SLOT_SERIAL_LO 0, 1)])) ∧
    ((fun (s : State) (r : Request) (st : Nat) => s.regsOk ∧ s.tablesOk ∧ reqOf s r.id = some r ∧ reqBusy s r = false ∧ poolHeld s r.pool = false ∧ parkPlace s r (1 + 16 * ((List.range r.h).map fun x => (chain s r.pool (listHead s r.pool (r.list + x)).own).length).foldl (· + ·) 0) = .error st) ({ serving with serving.reqs := [{ aRequest with st := .decode }] }) ({ aRequest with st := .decode }) (Cmd.farFull)) ∧
    ((fun (s : State) (r : Request) (st : Nat) (x : Request) => s.regsOk ∧ s.tablesOk ∧ reqOf s r.id = some r ∧ reqBusy s r = false ∧ poolHeld s r.pool = false ∧ parkPlace s r (1 + 16 * ((List.range r.h).map fun x => (chain s r.pool (listHead s r.pool (r.list + x)).own).length).foldl (· + ·) 0) = .error st ∧ x.id = r.id ∧ x ∈ (pauseReq s r).serving.reqs) ({ serving with serving.reqs := [{ aRequest with st := .decode }] }) ({ aRequest with st := .decode }) (Cmd.farFull) ((pauseReq ({ serving with serving.reqs := [{ aRequest with st := .decode }] }) { aRequest with st := .decode }).serving.reqs.headD aRequest)) ∧
    ((fun (s : State) (e : Nat) (p : Parked) (r : Request) => s.tablesOk ∧ parkedAt s e = some p ∧ reqOf s p.req = some r ∧ p.st = 1 ∧ reqBusy s r = false ∧ copyHeld s p.pool = true) ({ serving with serving.reqs := [{ aRequest with st := .parking }], serving.parked := [(7, some { aParked with st := 1 })] }) (7) ({ aParked with st := 1 }) ({ aRequest with st := .parking })) ∧
    ((fun (s : State) (e : Nat) (p : Parked) (r : Request) => s.tablesOk ∧ parkedAt s e = some p ∧ reqOf s p.req = some r ∧ p.st = 1 ∧ reqBusy s r = false ∧ copyHeld s p.pool = false ∧ r.cancel = none) ({ put ({ serving with serving.reqs := [{ aRequest with st := .parking }], serving.parked := [(7, some { aParked with st := 1 })] }) [(linkReg 0 Reg.LINK_STATE, 0xFF12), (linkReg 0 Reg.LINK_CTRL, 0xFF02), (hPage 4 + Reg.PART_OWN, 1)] with storage.targets := [(0, some { record := leBytes 64 0 })] }) (7) ({ aParked with st := 1 }) ({ aRequest with st := .parking })) := 
  ⟨by dsimp only; decide +kernel, by dsimp only; decide +kernel, by dsimp only; decide +kernel, by dsimp only; decide +kernel, by dsimp only; decide +kernel, by dsimp only; decide +kernel, by dsimp only; decide +kernel, by dsimp only; decide +kernel, by dsimp only; decide +kernel, by dsimp only; decide +kernel, by dsimp only; decide +kernel, by dsimp only; decide +kernel, by dsimp only; decide +kernel, by dsimp only; decide +kernel, by dsimp only; decide +kernel, by dsimp only; decide +kernel, by dsimp only; decide +kernel, by dsimp only; decide +kernel, by dsimp only; decide +kernel, by dsimp only; decide +kernel, by
    dsimp only
    exact ⟨by decide +kernel, by decide +kernel, by decide +kernel, by decide +kernel, by decide +kernel, ok_of (by decide +kernel), by decide +kernel, by decide +kernel, by decide +kernel⟩, by
    dsimp only
    exact ⟨by decide +kernel, by decide +kernel, by decide +kernel, by decide +kernel, by decide +kernel, ok_of (by decide +kernel), by decide +kernel⟩, by
    dsimp only
    exact ⟨by decide +kernel, by decide +kernel, by decide +kernel, by decide +kernel, by decide +kernel, error_of (by decide +kernel)⟩, by
    dsimp only
    exact ⟨by decide +kernel, by decide +kernel, by decide +kernel, by decide +kernel, by decide +kernel, error_of (by decide +kernel), by decide +kernel, by decide +kernel⟩, by dsimp only; decide +kernel, by dsimp only; decide +kernel⟩

theorem witness_ParkedCommands :
    ((fun (s : State) (q : Nat) (e : Nat) (c : List Byte) (p : Parked) (r : Request) (f : Family) => s.tablesOk ∧ s.command q 4 c = true ∧ cmdByte c 0x30 4 = e ∧ parkedAt s e = some p ∧ reqOf s p.req = some r ∧ r.id = p.req ∧ famAt s (cmdByte c 0x0E 2) = some f ∧ p.req = cmdByte c 4 4 ∧ ringParts s p.ring = ringParts s q ∧ f.model = p.model ∧ f.pool = p.pool ∧ f.h = p.counts.length ∧ p.st = 2 ∧ r.resume = none ∧ freeListRun s p.pool f.h = none) (queued (put ({ serving with serving.reqs := [{ aRequest with st := .parked }], serving.parked := [(7, some aParked)] }) [(kvpReg Reg.KVP_LISTS 0, 0)]) 0 (leBytes 64 (ent [(0, 4), (16, 4), (32, 9), (112, 3), (384, 7)]))) (0) (7) (leBytes 64 (ent [(0, 4), (16, 4), (32, 9), (112, 3), (384, 7)])) (aParked) ({ aRequest with st := .parked }) (aFamily)) ∧
    ((fun (s : State) (q : Nat) (e : Nat) (c : List Byte) (p : Parked) (r : Request) (f : Family) => s.tablesOk ∧ s.command q 4 c = true ∧ cmdByte c 0x30 4 = e ∧ parkedAt s e = some p ∧ reqOf s p.req = some r ∧ r.id = p.req ∧ famAt s (cmdByte c 0x0E 2) = some f ∧ p.req = cmdByte c 4 4 ∧ ringParts s p.ring = ringParts s q ∧ f.model = p.model ∧ f.pool = p.pool ∧ f.h = p.counts.length ∧ p.st = 2 ∧ r.resume = none ∧ p.evict = true ∧ freeListRun s p.pool f.h ≠ none ∧ r.cancel = none) (queued ({ serving with serving.reqs := [{ aRequest with st := .parked }], serving.parked := [(7, some { aParked with evict := true })] }) 0 (leBytes 64 (ent [(0, 4), (16, 4), (32, 9), (112, 3), (384, 7)]))) (0) (7) (leBytes 64 (ent [(0, 4), (16, 4), (32, 9), (112, 3), (384, 7)])) ({ aParked with evict := true }) ({ aRequest with st := .parked }) (aFamily)) ∧
    ((fun (s : State) (q : Nat) (e : Nat) (c : List Byte) (p : Parked) (r : Request) (f : Family) => s.tablesOk ∧ s.command q 4 c = true ∧ cmdByte c 0x30 4 = e ∧ parkedAt s e = some p ∧ reqOf s p.req = some r ∧ r.id = p.req ∧ famAt s (cmdByte c 0x0E 2) = some f ∧ p.req = cmdByte c 4 4 ∧ ringParts s p.ring = ringParts s q ∧ f.model = p.model ∧ f.pool = p.pool ∧ f.h = p.counts.length ∧ p.st = 2 ∧ r.resume = none ∧ p.evict = false ∧ parkedPages p ≤ reachable s p.pool ∧ freeListRun s p.pool f.h ≠ none) (queued ({ serving with serving.reqs := [{ aRequest with st := .parked }], serving.parked := [(7, some aParked)] }) 0 (leBytes 64 (ent [(0, 4), (16, 4), (32, 9), (112, 3), (384, 7)]))) (0) (7) (leBytes 64 (ent [(0, 4), (16, 4), (32, 9), (112, 3), (384, 7)])) (aParked) ({ aRequest with st := .parked }) (aFamily)) ∧
    ((fun (s : State) (e : Nat) (p : Parked) (r : Request) => s.tablesOk ∧ parkedAt s e = some p ∧ reqOf s p.req = some r ∧ p.st = 3 ∧ p.copying = false ∧ r.st = .restoring ∧ poolHeld s p.pool = false ∧ freeListRun s p.pool p.counts.length ≠ none ∧ p.evict = true ∧ r.cancel = none) ({ serving with serving.reqs := [{ aRequest with st := .restoring }], serving.parked := [(7, some { aParked with st := 3, evict := true })] }) (7) ({ aParked with st := 3, evict := true }) ({ aRequest with st := .restoring })) ∧
    ((fun (s : State) (e : Nat) (p : Parked) (r : Request) => s.tablesOk ∧ parkedAt s e = some p ∧ reqOf s p.req = some r ∧ p.st = 3 ∧ p.copying = false ∧ r.st = .restoring ∧ poolHeld s p.pool = false ∧ freeListRun s p.pool p.counts.length ≠ none ∧ p.evict = false ∧ parkedPages p ≤ reachable s p.pool) ({ serving with serving.reqs := [{ aRequest with st := .restoring }], serving.parked := [(7, some { aParked with st := 3 })] }) (7) ({ aParked with st := 3 }) ({ aRequest with st := .restoring })) ∧
    ((fun (s : State) (e : Nat) (p : Parked) (r : Request) => s.tablesOk ∧ parkedAt s e = some p ∧ reqOf s p.req = some r ∧ p.st = 3 ∧ p.copying = true ∧ copyHeld s p.pool = true) ({ serving with serving.reqs := [{ aRequest with st := .restoring }], serving.parked := [(7, some { aParked with st := 3, copying := true })] }) (7) ({ aParked with st := 3, copying := true }) ({ aRequest with st := .restoring })) ∧
    ((fun (s : State) (e : Nat) (p : Parked) (r : Request) (bs : List Byte) => s.tablesOk ∧ parkedAt s e = some p ∧ reqOf s p.req = some r ∧ p.st = 3 ∧ p.copying = true ∧ copyHeld s p.pool = false ∧ r.cancel = none ∧ bs.take 4096 = imageHeader p) ({ put ({ serving with serving.reqs := [{ aRequest with st := .restoring }], serving.parked := [(7, some { aParked with st := 3, copying := true })] }) [(linkReg 0 Reg.LINK_STATE, 0xFF12), (linkReg 0 Reg.LINK_CTRL, 0xFF02), (hPage 4 + Reg.PART_OWN, 1)] with storage.targets := [(0, some { record := leBytes 64 0 })] }) (7) ({ aParked with st := 3, copying := true }) ({ aRequest with st := .restoring }) (imageHeader ({ aParked with st := 3, copying := true }))) ∧
    ((fun (s : State) (e : Nat) (p : Parked) (r : Request) (bs : List Byte) => s.tablesOk ∧ parkedAt s e = some p ∧ reqOf s p.req = some r ∧ p.st = 3 ∧ p.copying = true ∧ copyHeld s p.pool = false ∧ r.cancel = none ∧ bs.take 4096 ≠ imageHeader p) ({ put ({ serving with serving.reqs := [{ aRequest with st := .restoring }], serving.parked := [(7, some { aParked with st := 3, copying := true })] }) [(linkReg 0 Reg.LINK_STATE, 0xFF12), (linkReg 0 Reg.LINK_CTRL, 0xFF02), (hPage 4 + Reg.PART_OWN, 1)] with storage.targets := [(0, some { record := leBytes 64 0 })] }) (7) ({ aParked with st := 3, copying := true }) ({ aRequest with st := .restoring }) ([])) ∧
    ((fun (s : State) (e : Nat) (p : Parked) (r : Request) => s.tablesOk ∧ parkedAt s e = some p ∧ reqOf s p.req = some r ∧ p.st = 3 ∧ p.copying = true ∧ copyHeld s p.pool = false ∧ r.cancel = none) ({ put ({ serving with serving.reqs := [{ aRequest with st := .restoring }], serving.parked := [(7, some { aParked with st := 3, copying := true })] }) [(linkReg 0 Reg.LINK_STATE, 0xFF12), (linkReg 0 Reg.LINK_CTRL, 0xFF02), (hPage 4 + Reg.PART_OWN, 1)] with storage.targets := [(0, some { record := leBytes 64 0 })] }) (7) ({ aParked with st := 3, copying := true }) ({ aRequest with st := .restoring })) ∧
    ((fun (s : State) (q : Nat) (e : Nat) (c : List Byte) (p : Parked) => s.tablesOk ∧ s.command q 5 c = true ∧ cmdByte c 0x30 4 = e ∧ parkedAt s e = some p ∧ ringParts s p.ring = ringParts s q ∧ p.st = 2) (queued ({ serving with serving.reqs := [{ aRequest with st := .parked }], serving.parked := [(7, some aParked)] }) 0 (leBytes 64 (ent [(0, 5), (16, 4), (384, 7)]))) (0) (7) (leBytes 64 (ent [(0, 5), (16, 4), (384, 7)])) (aParked)) ∧
    ((fun (s : State) (e : Nat) (p : Parked) => s.tablesOk ∧ parkedAt s e = some p ∧ p.st = 2 ∧ p.expiry ≤ s.turn ∧ poolHeld s p.pool = false) ({ serving with serving.reqs := [{ aRequest with st := .parked }], serving.parked := [(7, some aParked)] }) (7) (aParked)) ∧
    ((fun (s : State) (q : Nat) (p : Nat) (c : List Byte) (f : Family) => s.tablesOk ∧ s.command q 6 c = true ∧ cmdByte c 0x0B 1 = p ∧ p ≠ 255 ∧ famAt s (cmdByte c 0x0E 2) = some f ∧ cmdByte c 0x30 4 < 2 ^ 30 ∧ f.pool = handlePool (cmdByte c 0x30 4) ∧ poolOfQueue s q f.pool = true ∧ prefixAt s p = none ∧ (∀ x < f.h, listOk s f.pool (handleIdx (cmdByte c 0x30 4) + x) = true ∧ listBusy s f.pool (handleIdx (cmdByte c 0x30 4) + x) = false ∧ (let hd := listHead s f.pool (handleIdx (cmdByte c 0x30 4) + x); hd.bad = false ∧ hd.isPrefix = false ∧ hd.pfx = noFrame ∧ hd.ownPos % max 1 (nPos hd.d hd.fmt hd.blk) = 0))) (queued ({ gddr16 serving with mem.gddr := [(0, 0xFF), (1, 0xFF), (2, 0x7F), (23, 1), (32, 0xFF), (33, 0xFF), (34, 0x7F), (55, 1)] }) 0 (leBytes 64 (ent [(0, 6), (16, 4), (88, 254), (112, 3), (384, 0)]))) (0) (254) (leBytes 64 (ent [(0, 6), (16, 4), (88, 254), (112, 3), (384, 0)])) (aFamily)) ∧
    ((fun (s : State) (q : Nat) (p : Nat) (c : List Byte) (x : Prefix) => s.tablesOk ∧ s.command q 7 c = true ∧ cmdByte c 0x0B 1 = p ∧ prefixAt s p = some x ∧ poolOfQueue s q x.pool = true) (queued ({ serving with serving.pfxs := [(254, some { pool := 0, list := 0, h := 2 })] }) 0 (leBytes 64 (ent [(0, 7), (16, 4), (88, 254)]))) (0) (254) (leBytes 64 (ent [(0, 7), (16, 4), (88, 254)])) ({ pool := 0, list := 0, h := 2 })) ∧
    ((fun (s : State) (q : Nat) (c : List Byte) => let fi := cmdByte c 0x0E 2; let w := cmdByte c 0x30 4; let m := cmdByte c 0x0A 1; let table := cmdByte c 0x1C 4 + 2 ^ 32 * cmdByte c 0x34 1; s.tablesOk ∧ s.command q 8 c = true ∧ bf w 15 8 ≠ 0 ∧ bf w 25 16 ≠ 0 ∧ bf w 25 16 ≤ 1022 ∧ bf w 7 4 = 0 ∧ bf w 31 26 = 0 ∧ m ≤ 63 ∧ cmdByte c 0x34 1 ≤ 15 ∧ table % 256 = 0 ∧ bf table 29 26 ≤ 8 ∧ bf table 35 30 ≤ 47 ∧ poolOfQueue s q (bf w 3 0) = true ∧ bit (s.reg (blkKey Reg.BLK_CFG m)) 0 = 1 ∧ bf (s.reg (blkKey Reg.BLK_CFG m)) 23 16 = ringParts s q ∧ bit (ringParts s q) (partOf (nsCluster table)) = 1 ∧ famAt s fi = none) (queued (serving) 0 (leBytes 64 (ent [(0, 8), (16, 4), (80, 5), (112, 4), (384, 2 ^ 8 + 2 * 2 ^ 16)]))) (0) (leBytes 64 (ent [(0, 8), (16, 4), (80, 5), (112, 4), (384, 2 ^ 8 + 2 * 2 ^ 16)]))) ∧
    ((fun (s : State) (q : Nat) (c : List Byte) (f : Family) => s.tablesOk ∧ s.command q 9 c = true ∧ famAt s (cmdByte c 0x0E 2) = some f ∧ poolOfQueue s q f.pool = true ∧ f.opened = false ∧ (f.members.all fun m => ((m.bind (reqOf s)).all fun r => r.st != .decode)) = true) (queued (serving) 0 (leBytes 64 (ent [(0, 9), (16, 4), (112, 3)]))) (0) (leBytes 64 (ent [(0, 9), (16, 4), (112, 3)])) (aFamily)) := 
  ⟨by dsimp only; decide +kernel, by dsimp only; decide +kernel, by dsimp only; decide +kernel, by dsimp only; decide +kernel, by dsimp only; decide +kernel, by dsimp only; decide +kernel, by
    dsimp only
    exact ⟨by decide +kernel, by decide +kernel, by decide +kernel, by decide +kernel, by decide +kernel, by decide +kernel, by decide +kernel, List.take_of_length_le (by decide +kernel)⟩, by dsimp only; decide +kernel, by dsimp only; decide +kernel, by dsimp only; decide +kernel, by dsimp only; decide +kernel, by dsimp only; decide +kernel, by dsimp only; decide +kernel, by dsimp only; decide +kernel, by dsimp only; decide +kernel⟩

theorem witness_StorageTargets :
    ((fun (s : State) (h : PortHead) (n : Nat) (rec : List Byte) => s.tablesOk ∧ s.mailOpen h = true ∧ n < 256 ∧ recordOk rec = true) (portKey) (hdEnc) (255) (leBytes 64 23)) ∧
    ((fun (s : State) (h : PortHead) (n : Nat) (rec : List Byte) => s.tablesOk ∧ s.mailOpen h = true ∧ (256 ≤ n ∨ recordOk rec = false)) (portKey) (hdEnc) (256) (leBytes 64 24)) ∧
    ((fun (s : State) (h : PortHead) (n : Nat) => s.tablesOk ∧ s.mailOpen h = true ∧ n < 256 ∧ targetBusy s n = false) (portKey) (hdEnc) (255)) ∧
    ((fun (s : State) (h : PortHead) (n : Nat) => s.tablesOk ∧ s.mailOpen h = true ∧ n < 256 ∧ targetBusy s n = true) ({ portKey with storage.far := [{ id := 7, put := true, target := 255, gaddr := 7 * 2 ^ 36, raddr := 0, rkey := 0, exts := 1, slot := none, serial := 0 }] }) (hdEnc) (255)) ∧
    ((fun (s : State) (l : Nat) => s.regsOk ∧ s.tablesOk ∧ storageUp s l = true) (storageLink) (23)) ∧
    ((fun (s : State) (n : Nat) (x : Target) => s.tablesOk ∧ s.target n = some x) ({ State.reset with storage.targets := [(255, some aTarget)], time.now := 2 ^ 20 }) (255) (aTarget)) ∧
    ((fun (s : State) (n : Nat) (x : Target) => s.tablesOk ∧ s.target n = some x ∧ ticks50us ≤ s.time.now - x.quiet) ({ State.reset with storage.targets := [(255, some aTarget)], time.now := 2 ^ 20 }) (255) (aTarget)) ∧
    ((fun (s : State) (l : Nat) (prio : Nat) => s.tablesOk ∧ storageUp s l = true ∧ bit (ethCfg s l) 3 = 1 ∧ bf (ethCfg s l) 2 0 = prio) (put storageLink [(linkReg 23 Reg.ETH_CFG, 0xB)]) (23) (3)) ∧
    ((fun (s : State) (l : Nat) => s.tablesOk ∧ (s.link l).paused = true) ({ storageLink with net.links := [(23, { paused := true })] }) (23)) := by
  refine ⟨?_, ?_, ?_, ?_, ?_, ?_, ?_, ?_, ?_⟩ <;> dsimp only <;> decide +kernel

theorem witness_StorageTransfers :
    ((fun (s : State) (h : PortHead) (list : Nat) (n : Nat) => s.mailOpen h = true ∧ list < 2 ^ 39 ∧ ready s = true ∧ list % 2 ^ 36 + 32 * n ≤ gCatch s (gWindow list) ∧ gCatch s (gWindow list) ≤ gSize s (gWindow list) ∧ regionsOver s list (32 * n) = []) (put gates [(bootReg Reg.BOOT_STEP, 10)]) (hdEnc) (7 * 2 ^ 36) (2)) ∧
    ((fun (s : State) (n : Nat) (off : Nat) (l : Load) (d : LoadDesc) (x : Extent) => loadOf s n = some l ∧ l.id = n ∧ l.desc = some d ∧ (l.exts.find? fun e => e.off == off) = some x ∧ gHeld s (d.dst + 4096 * off) 4096 = true) ({ put gates [(memPage 7 + Reg.MEM_MODE, 0xFF00), (memPage 7 + Reg.MEM_CH_STATE, 0xFFFF)] with storage.loads := [{ id := 7, list := 0, n := 1, desc := some { raddr := 0, rkey := 0, target := 255, dst := 7 * 2 ^ 36, exts := 2, links := 0 }, exts := [{ off := 1, link := 23, fails := 6 }] }] }) (7) (1) ({ id := 7, list := 0, n := 1, desc := some { raddr := 0, rkey := 0, target := 255, dst := 7 * 2 ^ 36, exts := 2, links := 0 }, exts := [{ off := 1, link := 23, fails := 6 }] }) ({ raddr := 0, rkey := 0, target := 255, dst := 7 * 2 ^ 36, exts := 2, links := 0 }) ({ off := 1, link := 23, fails := 6 })) ∧
    ((fun (s : State) (n : Nat) (off : Nat) (l : Load) (d : LoadDesc) (x : Extent) (bs : List Byte) => loadOf s n = some l ∧ l.id = n ∧ l.desc = some d ∧ (l.exts.find? fun e => e.off == off) = some x ∧ gHeld s (d.dst + 4096 * off) 4096 = false ∧ sanding s (d.dst + 4096 * off) 4096 = false ∧ bs.length ≤ 4096) ({ gates with storage.loads := [{ id := 7, list := 0, n := 1, desc := some { raddr := 0, rkey := 0, target := 255, dst := 7 * 2 ^ 36, exts := 2, links := 0 }, exts := [{ off := 1, link := 23, fails := 6 }] }] }) (7) (1) ({ id := 7, list := 0, n := 1, desc := some { raddr := 0, rkey := 0, target := 255, dst := 7 * 2 ^ 36, exts := 2, links := 0 }, exts := [{ off := 1, link := 23, fails := 6 }] }) ({ raddr := 0, rkey := 0, target := 255, dst := 7 * 2 ^ 36, exts := 2, links := 0 }) ({ off := 1, link := 23, fails := 6 }) ([1, 2])) ∧
    ((fun (s : State) (n : Nat) (off : Nat) (l : Load) (d : LoadDesc) (x : Extent) => loadOf s n = some l ∧ l.id = n ∧ l.desc = some d ∧ (l.exts.find? fun e => e.off == off) = some x ∧ x.fails + 1 < 8) ({ gates with storage.loads := [{ id := 7, list := 0, n := 1, desc := some { raddr := 0, rkey := 0, target := 255, dst := 7 * 2 ^ 36, exts := 2, links := 0 }, exts := [{ off := 1, link := 23, fails := 6 }] }] }) (7) (1) ({ id := 7, list := 0, n := 1, desc := some { raddr := 0, rkey := 0, target := 255, dst := 7 * 2 ^ 36, exts := 2, links := 0 }, exts := [{ off := 1, link := 23, fails := 6 }] }) ({ raddr := 0, rkey := 0, target := 255, dst := 7 * 2 ^ 36, exts := 2, links := 0 }) ({ off := 1, link := 23, fails := 6 })) ∧
    ((fun (s : State) (n : Nat) (off : Nat) (l : Load) (d : LoadDesc) (x : Extent) => loadOf s n = some l ∧ l.id = n ∧ l.desc = some d ∧ (l.exts.find? fun e => e.off == off) = some x) ({ gates with storage.loads := [{ id := 7, list := 0, n := 1, desc := some { raddr := 0, rkey := 0, target := 255, dst := 7 * 2 ^ 36, exts := 2, links := 0 }, exts := [{ off := 1, link := 23, fails := 6 }] }] }) (7) (1) ({ id := 7, list := 0, n := 1, desc := some { raddr := 0, rkey := 0, target := 255, dst := 7 * 2 ^ 36, exts := 2, links := 0 }, exts := [{ off := 1, link := 23, fails := 6 }] }) ({ raddr := 0, rkey := 0, target := 255, dst := 7 * 2 ^ 36, exts := 2, links := 0 }) ({ off := 1, link := 23, fails := 6 })) ∧
    ((fun (s : State) (h : PortHead) (target : Nat) (a : Nat) (raddr : Nat) (exts : Nat) (x : Target) => s.mailOpen h = true ∧ farFields s target a raddr exts = some x ∧ regionsOver s a (4096 * exts) = [] ∧ farRefuse s x a (4096 * exts) false = none) (gates) (hdEnc) (255) (7 * 2 ^ 36) (0) (16) (aTarget)) ∧
    ((fun (s : State) (h : PortHead) (target : Nat) (a : Nat) (raddr : Nat) (exts : Nat) (serial : Nat) (k : Nat) (x : Target) (r : Region) => s.mailOpen h = true ∧ farFields s target a raddr exts = some x ∧ farRegion s a (4096 * exts) = some r ∧ r.slot = k ∧ admitted s = true ∧ farRefuse s x a (4096 * exts) true = none ∧ serial < serialNow s k) (gatesTenant) (hdEnc) (255) (7 * 2 ^ 36) (0) (16) (4) (63) (aTarget) ({ base := 0, size := 1, enable := true, slot := 63 })) ∧
    ((fun (s : State) (h : PortHead) (target : Nat) (a : Nat) (raddr : Nat) (exts : Nat) (serial : Nat) (k : Nat) (x : Target) (r : Region) => s.mailOpen h = true ∧ farFields s target a raddr exts = some x ∧ farRegion s a (4096 * exts) = some r ∧ r.slot = k ∧ admitted s = true ∧ farRefuse s x a (4096 * exts) true = none ∧ serialNow s k ≤ serial) (gatesTenant) (hdEnc) (255) (7 * 2 ^ 36) (0) (16) (5) (63) (aTarget) ({ base := 0, size := 1, enable := true, slot := 63 })) ∧
    ((fun (s : State) (n : Nat) (x : FarXfer) => (s.storage.far.find? fun x => x.id == n) = some x ∧ (gHeld s x.gaddr (4096 * x.exts) = true ∨ targetPaused s x.target = true)) ({ put gates [(memPage 7 + Reg.MEM_MODE, 0xFF00), (memPage 7 + Reg.MEM_CH_STATE, 0xFFFF)] with storage.far := [{ id := 7, put := true, target := 255, gaddr := 7 * 2 ^ 36, raddr := 0, rkey := 0, exts := 1, slot := none, serial := 0 }] }) (7) ({ id := 7, put := true, target := 255, gaddr := 7 * 2 ^ 36, raddr := 0, rkey := 0, exts := 1, slot := none, serial := 0 })) ∧
    ((fun (s : State) (n : Nat) (x : FarXfer) => (s.storage.far.find? fun x => x.id == n) = some x ∧ x.put = true ∧ gHeld s x.gaddr (4096 * x.exts) = false ∧ targetPaused s x.target = false) ({ gates with storage.far := [{ id := 7, put := true, target := 255, gaddr := 7 * 2 ^ 36, raddr := 0, rkey := 0, exts := 1, slot := none, serial := 0 }] }) (7) ({ id := 7, put := true, target := 255, gaddr := 7 * 2 ^ 36, raddr := 0, rkey := 0, exts := 1, slot := none, serial := 0 })) ∧
    ((fun (s : State) (n : Nat) (bs : List Byte) (x : FarXfer) => (s.storage.far.find? fun x => x.id == n) = some x ∧ x.put = false ∧ x.exts = 1 ∧ gHeld s x.gaddr 4096 = false ∧ targetPaused s x.target = false ∧ sanding s x.gaddr 4096 = false ∧ bs.length ≤ 4096) ({ gates with storage.far := [{ id := 7, put := false, target := 255, gaddr := 7 * 2 ^ 36, raddr := 0, rkey := 0, exts := 1, slot := none, serial := 0 }] }) (7) ([1]) ({ id := 7, put := false, target := 255, gaddr := 7 * 2 ^ 36, raddr := 0, rkey := 0, exts := 1, slot := none, serial := 0 })) ∧
    ((fun (s : State) (n : Nat) (x : FarXfer) (k : Nat) => (s.storage.far.find? fun x => x.id == n) = some x ∧ x.put = false ∧ x.exts = 1 ∧ gHeld s x.gaddr 4096 = false ∧ targetPaused s x.target = false ∧ x.slot = some k) ({ gates with storage.far := [{ id := 7, put := false, target := 255, gaddr := 7 * 2 ^ 36, raddr := 0, rkey := 0, exts := 1, slot := some 63, serial := 0 }] }) (7) ({ id := 7, put := false, target := 255, gaddr := 7 * 2 ^ 36, raddr := 0, rkey := 0, exts := 1, slot := some 63, serial := 0 }) (63)) ∧
    ((fun (s : State) (h : PortHead) (tag : Nat) (bs : List Byte) (x : HostRead) (y : HostXfer) (id : Nat) => s.portTakes 3 h = true ∧ (s.port.reads.find? fun x => x.tag == tag && x.len == bs.length) = some x ∧ x.why = .store id ∧ (s.storage.host.find? fun t => t.id == id) = some y ∧ sanding s (y.gaddr + y.done) bs.length = false) ({ portKey with port.reads := [{ tag := 6, why := .store 7, addr := 0, len := 32 }], storage.host := [{ id := 7, store := true, gaddr := 7 * 2 ^ 36, caddr := 0, len := 32, slot := none }] }) (hdEnc) (6) (List.replicate 32 5) ({ tag := 6, why := .store 7, addr := 0, len := 32 }) ({ id := 7, store := true, gaddr := 7 * 2 ^ 36, caddr := 0, len := 32, slot := none }) (7)) ∧
    ((fun (s : State) (h : PortHead) (a : Nat) (n : Nat) (slot : Nat) => s.mailOpen h = true ∧ a < 2 ^ 39 ∧ n % 32 = 0 ∧ (slot < 64 ∨ slot = 0xFF) ∧ (slot < 64 → admitted s = true) ∧ 0 < n ∧ hostRefuse s (if slot = 0xFF then none else some slot) a n true = none) (gates) (hdEnc) (7 * 2 ^ 36) (64) (0xFF)) ∧
    ((fun (s : State) (h : PortHead) (a : Nat) (n : Nat) (slot : Nat) => s.mailOpen h = true ∧ a < 2 ^ 39 ∧ n % 32 = 0 ∧ (slot < 64 ∨ slot = 0xFF) ∧ (slot < 64 → admitted s = true) ∧ hostRefuse s (if slot = 0xFF then none else some slot) a n false = none ∧ gHeld s a n = true) (put gates [(memPage 7 + Reg.MEM_MODE, 0xFF00), (memPage 7 + Reg.MEM_CH_STATE, 0xFFFF)]) (hdEnc) (7 * 2 ^ 36) (64) (0xFF)) ∧
    ((fun (s : State) (h : PortHead) (a : Nat) (n : Nat) (slot : Nat) => s.mailOpen h = true ∧ a < 2 ^ 39 ∧ n % 32 = 0 ∧ (slot < 64 ∨ slot = 0xFF) ∧ (slot < 64 → admitted s = true) ∧ hostRefuse s (if slot = 0xFF then none else some slot) a n false = none ∧ gHeld s a n = false) (gates) (hdEnc) (7 * 2 ^ 36) (64) (0xFF)) ∧
    ((fun (s : State) (n : Nat) (x : HostXfer) => x.len ≤ x.done ∧ gHeld s x.gaddr x.len = false ∧ (s.storage.host.find? fun y => y.id == n && y.store == true) = some x) ({ State.reset with storage.host := [{ id := 7, store := true, gaddr := 0, caddr := 0, len := 32, slot := none, done := 32 }] }) (7) ({ id := 7, store := true, gaddr := 0, caddr := 0, len := 32, slot := none, done := 32 })) ∧
    ((fun (s : State) (n : Nat) (x : HostXfer) => x.len ≤ x.done ∧ gHeld s x.gaddr x.len = false ∧ (s.storage.host.find? fun y => y.id == n && y.store == false) = some x) ({ State.reset with storage.host := [{ id := 7, store := false, gaddr := 0, caddr := 0, len := 32, slot := none, done := 32 }] }) (7) ({ id := 7, store := false, gaddr := 0, caddr := 0, len := 32, slot := none, done := 32 })) := by
  refine ⟨?_, ?_, ?_, ?_, ?_, ?_, ?_, ?_, ?_, ?_, ?_, ?_, ?_, ?_, ?_, ?_, ?_, ?_⟩ <;> dsimp only <;> decide +kernel

theorem witness_TablesInvariant : State.reset.tablesOk ∧
    step (withCommand (.turnBoundary 0 [])) = .next (after (.turnBoundary 0 []) State.reset) :=
  ⟨by decide +kernel, exec_after (.turnBoundary 0 []) State.reset (by decide +kernel)⟩

theorem witness_CommitAtBoundary :
    ((fun (s : State) (c : Instr) (page : Nat) => s.commitOfRow c = some page ∧ s.commitComes page = true) (enabling) (.programEnable 431) (clPage 0x12 431)) ∧
    ((fun (s : State) (c : Instr) (page : Nat) => s.commitOfRow c = some page ∧ s.commitComes page = false) ({ enabling with time.now := 0 }) (.programEnable 431) (clPage 0x12 431)) ∧
    ((fun (s : State) (c : Instr) (page : Nat) (k : Commit) => s.regsOk ∧ s.tablesOk ∧ s.commitOfRow c = some page ∧ s.comes page = true ∧ commitOf s page = some k) (enabling) (.programEnable 431) (clPage 0x12 431) ({ page := clPage 0x12 431, turn := none })) ∧
    ((fun (s : State) (c : Instr) (page : Nat) (r : Refuse) => s.regsOk ∧ s.tablesOk ∧ s.commitOfRow c = some page ∧ s.aloneDue page = true ∧ judge (s.atStrobe page) page = some r) (refusedRole) (.roleChange) (hPage 3) ({ cause := Cause.reservedEncoding })) ∧
    ((fun (s : State) (c : Instr) => s.commitOfRow c = none) (State.reset) (.roleChange)) := by
  refine ⟨?_, ?_, ?_, ?_, ?_⟩ <;> dsimp only <;> decide +kernel

theorem witness_CommitEffects :
    ((fun (s : State) (cl : Nat) (p : Nat) => s.regsOk ∧ s.tablesOk ∧ cl < 432 ∧ p < 8 ∧ s.comes (clPage 0x12 cl) = true ∧ progEnabled s cl p = false ∧ bit (s.shd (progReg cl p)) 31 = 1) (enabling) (431) (7)) ∧
    ((fun (s : State) (cl : Nat) (p : Nat) => s.regsOk ∧ s.tablesOk ∧ cl < 432 ∧ p < 8 ∧ s.comes (clPage 0x12 cl) = true ∧ progEnabled s cl p = true ∧ bit (s.shd (progReg cl p)) 31 = 0) (go (put State.reset [(progReg 431 7, 2 ^ 31)]) (clPage 0x12 431) [(progReg 431 7, 0)]) (431) (7)) ∧
    ((fun (s : State) (cl : Nat) (c : TableCopy) => s.regsOk ∧ s.tablesOk ∧ cl < 432 ∧ s.comes (clPage 0x12 cl) = true ∧ copyAsked s cl = some c ∧ gRefuse s (actingSlot s cl) (groupParts s (partOf cl)) c.src (32 * c.count) false = none ∧ (∀ k, actingSlot s cl = some k → slotParting s k = false)) (go (put State.reset [(memPage 7 + Reg.MEM_DATA_SIZE, 1800), (memPage 7 + Reg.MEM_CATCH_BASE, 1736)]) (clPage 0x12 431) [(seqReg 431 Reg.TBL_CTRL, 2 ^ 31 + 2047), (seqReg 431 Reg.TBL_SRC_HI, 112)]) (431) ({ cl := 431, dst := 2047, count := 1, src := 7 * 2 ^ 36 })) ∧
    ((fun (s : State) (cl : Nat) (c : TableCopy) => s.regsOk ∧ s.tablesOk ∧ cl < 432 ∧ (s.seq.copies.find? fun x => x.cl == cl) = some c ∧ gWindow c.src < 8 ∧ gHeld s c.src (32 * c.count) = true) ({ go (put (put State.reset [(memPage 7 + Reg.MEM_DATA_SIZE, 1800), (memPage 7 + Reg.MEM_CATCH_BASE, 1736)]) [(memPage 7 + Reg.MEM_MODE, 0xFF00), (memPage 7 + Reg.MEM_CH_STATE, 0xFFFF)]) (clPage 0x12 431) [] with seq.copies := [{ cl := 431, dst := 2047, count := 1, src := 7 * 2 ^ 36 }] }) (431) ({ cl := 431, dst := 2047, count := 1, src := 7 * 2 ^ 36 })) ∧
    ((fun (s : State) (cl : Nat) (c : TableCopy) => s.regsOk ∧ s.tablesOk ∧ cl < 432 ∧ (s.seq.copies.find? fun x => x.cl == cl) = some c ∧ gWindow c.src < 8 ∧ gHeld s c.src (32 * c.count) = false) ({ go (put State.reset [(memPage 7 + Reg.MEM_DATA_SIZE, 1800), (memPage 7 + Reg.MEM_CATCH_BASE, 1736)]) (clPage 0x12 431) [] with seq.copies := [{ cl := 431, dst := 2047, count := 1, src := 7 * 2 ^ 36 }] }) (431) ({ cl := 431, dst := 2047, count := 1, src := 7 * 2 ^ 36 })) ∧
    ((fun (s : State) => s.regsOk ∧ s.tablesOk ∧ s.comes (hPage 4) = true ∧ ((List.range 8).any fun p => ownMoved s p) = true) (go State.reset (hPage 4) [(hPage 4 + Reg.PART_OWN, 2)])) ∧
    ((fun (s : State) => s.regsOk ∧ s.tablesOk ∧ s.comes (hPage 3) = true ∧ moved s (ftReg Reg.FT_ROLE) = true) (go State.reset (hPage 3) [(ftReg Reg.FT_ROLE, 256)])) ∧
    ((fun (s : State) (cl : Nat) => s.regsOk ∧ s.tablesOk ∧ cl < 432 ∧ s.comes (clPage 0x15 cl) = true ∧ bit (s.shd (lsReg cl Reg.LS_CTRL)) 1 = 1) (go State.reset (clPage 0x15 431) [(lsReg 431 Reg.LS_CTRL, 2), (lsReg 431 Reg.LS_LIMITS, 0x01007F80 - 0x3FC0), (lsReg 431 Reg.LS_LOAD, 3)]) (431)) ∧
    ((fun (s : State) (w : Nat) => s.regsOk ∧ s.tablesOk ∧ w < 8 ∧ s.comes (memPage w) = true ∧ bit (s.shd (memPage w + Reg.SAND_CTRL)) 31 = 1 ∧ catchFullShd s w = catchFull s w) (go (put State.reset [(memPage 7 + Reg.MEM_DATA_SIZE, 1800), (memPage 7 + Reg.MEM_CATCH_BASE, 1736)]) (memPage 7) [(memPage 7 + Reg.SAND_CTRL, 2 ^ 31), (memPage 7 + Reg.SAND_BASE, 1799)]) (7)) ∧
    ((fun (s : State) (w : Nat) => s.regsOk ∧ s.tablesOk ∧ w < 8 ∧ s.comes (memPage w) = true ∧ catchFullShd s w ≠ catchFull s w) (go (put State.reset [(memPage 7 + Reg.MEM_DATA_SIZE, 1800), (memPage 7 + Reg.MEM_CATCH_BASE, 1736)]) (memPage 7) [(memPage 7 + Reg.MEM_CATCH, 1)]) (7)) := by
  refine ⟨?_, ?_, ?_, ?_, ?_, ?_, ?_, ?_, ?_, ?_⟩ <;> dsimp only <;> decide +kernel

theorem witness_CommitEffectsLater :
    ((fun (s : State) (m : Nat) => s.regsOk ∧ s.tablesOk ∧ m < 64 ∧ s.comes blkPage = true ∧ bit (s.shd (blkKey Reg.BLK_CTRL m)) 0 = 1 ∧ (∀ p < 8, moved s (jobPinKey p) = false ∧ moved s (jobPinKey p + 4) = false ∧ moved s (jobFpinKey p) = false) ∧ bit (s.shd (blkKey Reg.BLK_CFG m)) 0 = 1 ∧ s.reg (blkKey Reg.BLK_PREV m) = 0 ∧ s.shd (blkKey Reg.BLK_PUB_VER m) % 2 ^ 32 = successor (s.reg (blkKey Reg.BLK_CUR m))) (go (put State.reset [(blkKey Reg.BLK_CUR 63, 1048575)]) blkPage [(blkKey Reg.BLK_CTRL 63, 1), (blkKey Reg.BLK_CFG 63, 1), (blkKey Reg.BLK_PUB_VER 63, 1)]) (63)) ∧
    ((fun (s : State) (m : Nat) => s.regsOk ∧ s.tablesOk ∧ m < 64 ∧ s.comes blkPage = true ∧ bit (s.shd (blkKey Reg.BLK_CTRL m)) 0 = 1 ∧ (∀ p < 8, moved s (jobPinKey p) = false ∧ moved s (jobPinKey p + 4) = false ∧ moved s (jobFpinKey p) = false) ∧ s.reg (blkKey Reg.BLK_PREV m) ≠ 0 ∧ s.reg (blkKey Reg.BLK_PINS_PREV m) ≠ 0) (go (put State.reset [(blkKey Reg.BLK_PREV 63, 4), (blkKey Reg.BLK_PINS_PREV 63, 1)]) blkPage [(blkKey Reg.BLK_CTRL 63, 1)]) (63)) ∧
    ((fun (s : State) (m : Nat) (a : Nat) => s.regsOk ∧ s.tablesOk ∧ m < 64 ∧ a < 4096 ∧ s.comes blkPage = true ∧ s.shd (adpBits Reg.BLK_CTRL m a) = 2 ∧ (∀ p < 8, moved s (jobPinKey p) = false ∧ moved s (jobPinKey p + 4) = false ∧ moved s (jobFpinKey p) = false) ∧ bit (s.shd (blkKey Reg.BLK_CFG m)) 0 = 1 ∧ s.reg (adpKey Reg.ADP_PREV m a) = 0 ∧ s.shd (adpKey Reg.ADP_PUB_VER m a) % 2 ^ 32 = successor (s.reg (adpKey Reg.ADP_CUR m a))) (go (put State.reset [(adpKey Reg.ADP_CUR 63 4095, 0)]) blkPage [(adpBits Reg.BLK_CTRL 63 4095, 2), (blkKey Reg.BLK_CFG 63, 3), (adpKey Reg.ADP_PUB_VER 63 4095, 1)]) (63) (4095)) ∧
    ((fun (s : State) (w : Nat) => s.regsOk ∧ s.tablesOk ∧ w < 8 ∧ s.comes (swPage w) = true ∧ bit (s.shd (swReg w Reg.SW_CTRL)) 0 = 1) (go (put State.reset [(hPage 4 + Reg.PART_OWN + 28, 2)]) (swPage 7) [(swReg 7 Reg.SW_CTRL, 1), (swReg 7 Reg.SW_PLAN_HI, 112)]) (7)) ∧
    ((fun (s : State) (l : Nat) => s.regsOk ∧ s.tablesOk ∧ l < 24 ∧ s.comes (linkPage l) = true ∧ bf (s.shd (linkReg l Reg.LINK_CTRL)) 1 0 ≠ bf (s.reg (linkReg l Reg.LINK_CTRL)) 1 0) (go State.reset (linkPage 23) [(linkReg 23 Reg.LINK_CTRL, 1)]) (23)) ∧
    ((fun (s : State) (l : Nat) => s.regsOk ∧ s.tablesOk ∧ l < 24 ∧ s.comes (linkPage l) = true ∧ bit (s.shd (linkReg l Reg.LINK_CTRL)) 4 = 1 ∧ bf (s.shd (linkReg l Reg.LINK_CTRL)) 1 0 = bf (s.reg (linkReg l Reg.LINK_CTRL)) 1 0) (go (put State.reset [(linkReg 23 Reg.LINK_CTRL, 1)]) (linkPage 23) [(linkReg 23 Reg.LINK_CTRL, 17)]) (23)) ∧
    ((fun (s : State) => s.regsOk ∧ s.tablesOk ∧ s.comes (hPage 0x0A) = true ∧ bit (s.shd (psReg Reg.PS_CTRL)) 31 = 1 ∧ bf (s.shd (psReg Reg.PS_CTRL)) 1 0 ≠ 0) (go State.reset (hPage 0x0A) [(psReg Reg.PS_CTRL, 2 ^ 31 + 3)])) ∧
    ((fun (s : State) => s.regsOk ∧ s.tablesOk ∧ s.comes (hPage 0x0A) = true ∧ bit (s.shd (psReg Reg.PS_CTRL)) 31 = 1 ∧ bf (s.shd (psReg Reg.PS_CTRL)) 1 0 = 0 ∧ s.time.alarm = none) (go State.reset (hPage 0x0A) [(psReg Reg.PS_CTRL, 2 ^ 31)])) ∧
    ((fun (s : State) (k : Nat) => s.regsOk ∧ s.tablesOk ∧ k < 64 ∧ s.comes (hPage 8) = true ∧ bit (s.shd (slotKey Reg.SLOT_CFG k)) 0 = 1 ∧ bf (s.reg (slotKey Reg.SLOT_CFG k)) 1 0 = 0 ∧ rclState s ≠ 4) (go State.reset (hPage 8) [(slotKey Reg.SLOT_CFG 63, 0x0101)]) (63)) ∧
    ((fun (s : State) (k : Nat) => s.regsOk ∧ s.tablesOk ∧ k < 64 ∧ s.comes (hPage 8) = true ∧ bit (s.shd (slotKey Reg.SLOT_CFG k)) 1 = 1 ∧ bf (s.reg (slotKey Reg.SLOT_CFG k)) 1 0 = 0) (go (put State.reset [(slotKey Reg.SLOT_STATE 63, 1)]) (hPage 8) [(slotKey Reg.SLOT_CFG 63, 2)]) (63)) := by
  refine ⟨?_, ?_, ?_, ?_, ?_, ?_, ?_, ?_, ?_, ?_⟩ <;> dsimp only <;> decide +kernel

theorem witness_MemoryHappenings :
    ((fun (s : State) (a : Nat) (n : Nat) (k : Nat) => s.regsOk ∧ s.tablesOk ∧ gWindow a < 8 ∧ a % 256 + n ≤ 256 ∧ gChannel s a < 8 ∧ chState s (gWindow a) (gChannel s a) = 0 ∧ 1 ≤ k ∧ k < 5) (put State.reset [(memPage 7 + Reg.MEM_MODE, 0xFF00), (memPage 7 + Reg.MEM_DATA_SIZE, 16), (memPage 7 + Reg.MEM_CATCH_BASE, 16)]) (7 * 2 ^ 36 + 0x700) (32) (4)) ∧
    ((fun (s : State) (a : Nat) (n : Nat) (k : Nat) => s.regsOk ∧ s.tablesOk ∧ gWindow a < 8 ∧ a % 256 + n ≤ 256 ∧ gChannel s a < 8 ∧ chState s (gWindow a) (gChannel s a) = 0 ∧ k = 5) (put State.reset [(memPage 7 + Reg.MEM_MODE, 0xFF00), (memPage 7 + Reg.MEM_DATA_SIZE, 16), (memPage 7 + Reg.MEM_CATCH_BASE, 16)]) (7 * 2 ^ 36 + 0x700) (32) (5)) ∧
    ((fun (s : State) (w : Nat) (k : Nat) (ok : Bool) => let s' := setChState s w k (if ok then 0 else 2); s.regsOk ∧ s.tablesOk ∧ w < 8 ∧ k < 8 ∧ chState s w k = 3) (put State.reset [(memPage 7 + Reg.MEM_CH_STATE, 3 * 2 ^ 14)]) (7) (7) (true)) ∧
    ((fun (s : State) (w : Nat) (k : Nat) (ok : Bool) (j : Nat) => let s' := setChState s w k (if ok then 0 else 2); s.regsOk ∧ s.tablesOk ∧ w < 8 ∧ k < 8 ∧ chState s w k = 3 ∧ j ≠ k ∧ j < 8) (put State.reset [(memPage 7 + Reg.MEM_CH_STATE, 3 * 2 ^ 14)]) (7) (7) (true) (0)) ∧
    ((fun (s : State) (x : HeldWrite) => s.mem.waiting = [x] ∧ gHeld s x.addr x.bytes.length = false ∧ x.ctx.entry = none) ({ State.reset with mem.waiting := [{ ctx := swCtx State.reset 7, addr := 7 * 2 ^ 36, bytes := [5] }] }) ({ ctx := swCtx State.reset 7, addr := 7 * 2 ^ 36, bytes := [5] })) ∧
    ((fun (s : State) (x : HeldWrite) (k : Nat) => s.mem.waiting = [x] ∧ gHeld s x.addr x.bytes.length = false ∧ x.ctx.entry = none ∧ x.ctx.slot = some k ∧ slotParting s k = true ∧ s.regsOk ∧ k < 64) ({ put State.reset [(slotKey Reg.SLOT_STATE 63, 2)] with mem.waiting := [{ ctx := { swCtx State.reset 7 with slot := some 63 }, addr := 7 * 2 ^ 36, bytes := [5] }] }) ({ ctx := { swCtx State.reset 7 with slot := some 63 }, addr := 7 * 2 ^ 36, bytes := [5] }) (63)) ∧
    ((fun (s : State) (a : Nat) => s.regsOk ∧ s.tablesOk ∧ sget zeroAt s.mem.nsErr (a / 32) = 1) ({ State.reset with mem.nsErr := [(1, 1)] }) (32)) ∧
    ((fun (w : Nat) => w < 8) (7)) ∧
    ((fun (s : State) (w : Nat) => let due := sget zeroAt s.mem.sandAged w + bf (s.reg (memPage w + Reg.SAND_AGE)) 15 0; s.regsOk ∧ s.tablesOk ∧ w < 8 ∧ sandRanges s w ≠ [] ∧ due ≤ s.turn) ({ put State.reset [(memPage 7 + Reg.MEM_MODE, 0xFF00), (memPage 7 + Reg.MEM_DATA_SIZE, 16), (memPage 7 + Reg.MEM_CATCH_BASE, 16)] with mem.sand := [(7, [{ base := 0, size := 1, left := 1, urgent := false, parting := none }])], time.now := 1024 * 65536 }) (7)) ∧
    ((fun (s : State) (w : Nat) => let due := sget zeroAt s.mem.sandAged w + bf (s.reg (memPage w + Reg.SAND_AGE)) 15 0; s.regsOk ∧ s.tablesOk ∧ w < 8 ∧ sandRanges s w ≠ [] ∧ s.turn < due) ({ put (put State.reset [(memPage 7 + Reg.MEM_MODE, 0xFF00), (memPage 7 + Reg.MEM_DATA_SIZE, 16), (memPage 7 + Reg.MEM_CATCH_BASE, 16)]) [(memPage 7 + Reg.SAND_AGE, 9)] with mem.sand := [(7, [{ base := 0, size := 1, left := 1, urgent := false, parting := none }])] }) (7)) ∧
    ((fun (s : State) (w : Nat) (r : SandRange) (rest : List SandRange) => s.regsOk ∧ s.tablesOk ∧ s.memoryOk ∧ w < 8 ∧ s.stopped = false ∧ sandRanges s w = r :: rest) ({ put State.reset [(memPage 7 + Reg.MEM_MODE, 0xFF00), (memPage 7 + Reg.MEM_DATA_SIZE, 16), (memPage 7 + Reg.MEM_CATCH_BASE, 16)] with mem.sand := [(7, [{ base := 0, size := 2, left := 2, urgent := false, parting := none }])] }) (7) ({ base := 0, size := 2, left := 2, urgent := false, parting := none }) ([])) ∧
    ((fun (s : State) (d : Nat) (k : Nat) => s.regsOk ∧ s.tablesOk ∧ d < 48 ∧ k < 64 ∧ sget (fun _ => false) s.tenant.sweeps (sweepKey k d) = true) ({ State.reset with tenant.sweeps := [(64 * 63 + 47, true)] }) (47) (63)) := by
  refine ⟨?_, ?_, ?_, ?_, ?_, ?_, ?_, ?_, ?_, ?_, ?_, ?_⟩ <;> dsimp only <;> decide +kernel

theorem witness_PowerController :
    ((fun (s : State) => (s.power.replanDue = true ∨ (s.reg (pwrReg Reg.AGE_PERIOD) ≠ 0 ∧ s.reg (pwrReg Reg.AGE_PERIOD) ≤ ageHours s)) ∧ s.power.replan = none) ({ put State.reset [(pwrReg Reg.AGE_PERIOD, 1)] with power.ageLoops := 3600000 })) ∧
    ((fun (s : State) (r : LoopReadings) (ps : List Nat) => s.regsOk ∧ s.tablesOk ∧ s.boot.pwrgood = true ∧ s.boot.inReset = false ∧ 4 ≤ bf (s.reg (hPage 0x0B + Reg.BOOT_STEP)) 3 0 ∧ r.rails = ps.map some) (booting 4) ({ rails := [some 1, some 2], railEst := [], partEst := [], partDyn := [], tj := [], mem := [], margin := [], osc := [], sense := [], diode := 0 }) ([1, 2])) ∧
    ((fun (s : State) (i : Nat) => s.regsOk ∧ s.tablesOk ∧ 3 ≤ silentLoops s i ∧ i ∉ s.power.lostRails) ({ State.reset with power.silent := [(8, 3)] }) (8)) ∧
    ((fun (s : State) => s.regsOk ∧ s.tablesOk ∧ 1000 ≤ s.power.disagree ∧ pwrBit s 1 = false) ({ State.reset with power.disagree := 1000 })) ∧
    ((fun (s : State) (d : Nat) => s.regsOk ∧ s.tablesOk ∧ d < 48 ∧ s.stopped = false) (State.reset) (47)) ∧
    ((fun (s : State) (d : Nat) => s.regsOk ∧ s.tablesOk ∧ d ∈ s.power.stretched) ({ State.reset with power.stretched := [47] }) (47)) ∧
    ((fun (s : State) (p : Nat) => (s.power.steps.any fun e => e.1 == p) = false) (State.reset) (7)) ∧
    ((fun (s : State) (p : Nat) (c : Nat) => s.regsOk ∧ s.tablesOk ∧ p < 8 ∧ (s.power.steps.find? fun e => e.1 == p) = some (p, c)) ({ State.reset with power.steps := [(7, 99)] }) (7) (99)) ∧
    ((fun (s : State) (p : Nat) => s.regsOk ∧ s.tablesOk ∧ (s.power.steps.any fun e => e.1 == p) = true ∧ p ∉ s.power.late) ({ booting 10 with power.steps := [(7, 99)] }) (7)) ∧
    ((fun (s : State) (p : Nat) => ((s.power.steps.any fun e => e.1 == p) = false ∨ p ∈ s.power.late)) (State.reset) (7)) ∧
    ((fun (s : State) => s.regsOk ∧ s.tablesOk ∧ s.boot.pwrgood = true ∧ s.power.tripped = false) (State.reset)) := by
  refine ⟨?_, ?_, ?_, ?_, ?_, ?_, ?_, ?_, ?_, ?_, ?_⟩ <;> dsimp only <;> decide +kernel

theorem witness_TenantSlots :
    ((fun (s : State) (k : Nat) => s.regsOk ∧ s.tablesOk ∧ k < 64 ∧ slotState s k = 2 ∧ slotQuiet s k = true ∧ partingTurn s k < s.turn) ({ put State.reset [(slotKey Reg.SLOT_STATE 63, 2), (slotKey Reg.SLOT_CFG 63, 0x0100)] with tenant.parting := [(63, 5)], time.now := 1024 * 6 }) (63)) ∧
    ((fun (s : State) (k : Nat) => s.regsOk ∧ s.tablesOk ∧ k < 64 ∧ slotState s k = 2 ∧ slotQuiet s k = false ∧ partingTurn s k + 16 ≤ s.turn) ({ put State.reset [(slotKey Reg.SLOT_STATE 63, 2), (slotKey Reg.SLOT_CFG 63, 0x0100)] with tenant.parting := [(63, 5)], time.now := 1024 * 21, seq.flights := [theFlight 3 (.data [])] }) (63)) ∧
    ((fun (s : State) (k : Nat) => s.regsOk ∧ s.tablesOk ∧ k < 64 ∧ slotState s k = 2 ∧ slotQuiet s k = false ∧ s.turn < partingTurn s k + 16) ({ put State.reset [(slotKey Reg.SLOT_STATE 63, 2), (slotKey Reg.SLOT_CFG 63, 0x0100)] with tenant.parting := [(63, 5)], time.now := 1024 * 20, seq.flights := [theFlight 3 (.data [])] }) (63)) ∧
    ((fun (s : State) (k : Nat) => s.regsOk ∧ s.tablesOk ∧ k < 64 ∧ slotState s k = 3 ∧ partingLeft s k = true) ({ put State.reset [(slotKey Reg.SLOT_STATE 63, 3), (slotKey Reg.SLOT_CFG 63, 0x0100)] with mem.partList := [(7, [{ base := 0, size := 1, left := 1, urgent := true, parting := some (63, 0) }])] }) (63)) ∧
    ((fun (s : State) (k : Nat) => s.regsOk ∧ s.tablesOk ∧ k < 64 ∧ slotState s k = 3 ∧ partingLeft s k = false) (put State.reset [(slotKey Reg.SLOT_STATE 63, 3), (slotKey Reg.SLOT_CFG 63, 0x0100)]) (63)) ∧
    ((fun (s : State) (h : PortHead) (slot : Nat) (conf : Nat) (parts : Nat) (key : List Byte) => s.regsOk ∧ s.tablesOk ∧ s.mailOpen h = true ∧ slot < 64 ∧ conf < 2 ∧ parts < 256 ∧ key.length = 32 ∧ admitted s = false) (portKey) (hdEnc) (63) (1) (255) (leBytes 32 5)) ∧
    ((fun (s : State) (h : PortHead) (slot : Nat) (conf : Nat) (parts : Nat) (key : List Byte) => s.regsOk ∧ s.tablesOk ∧ s.mailOpen h = true ∧ slot < 64 ∧ conf < 2 ∧ parts < 256 ∧ key.length = 32 ∧ admitted s = true ∧ commitOf s (hPage 8) = none) (put portKey [(hPage 7 + Reg.ATT_STATE, 4)]) (hdEnc) (63) (1) (255) (leBytes 32 5)) ∧
    ((fun (s : State) (h : PortHead) (slot : Nat) (conf : Nat) (parts : Nat) (key : List Byte) => s.regsOk ∧ s.tablesOk ∧ s.mailOpen h = true ∧ slot < 64 ∧ conf < 2 ∧ parts < 256 ∧ key.length = 32 ∧ admitted s = true ∧ commitOf s (hPage 8) ≠ none) ({ put portKey [(hPage 7 + Reg.ATT_STATE, 4)] with regs.commits := [{ page := hPage 8, turn := none }] }) (hdEnc) (63) (1) (255) (leBytes 32 5)) ∧
    ((fun (s : State) (h : PortHead) (slot : Nat) (turn : Nat) => s.regsOk ∧ s.tablesOk ∧ s.mailOpen h = true ∧ slot < 64 ∧ turn < 2 ^ 54 ∧ admitted s = true ∧ slotState s slot = 1 ∧ commitOf s (hPage 8) = none) (put portKey [(hPage 7 + Reg.ATT_STATE, 4), (slotKey Reg.SLOT_STATE 63, 1)]) (hdEnc) (63) (2 ^ 54 - 1)) ∧
    ((fun (s : State) (h : PortHead) (slot : Nat) (turn : Nat) => s.regsOk ∧ s.tablesOk ∧ s.mailOpen h = true ∧ slot < 64 ∧ turn < 2 ^ 54 ∧ admitted s = true ∧ slotState s slot ≠ 1) (put portKey [(hPage 7 + Reg.ATT_STATE, 4), (slotKey Reg.SLOT_STATE 63, 3)]) (hdEnc) (63) (0)) := by
  refine ⟨?_, ?_, ?_, ?_, ?_, ?_, ?_, ?_, ?_, ?_⟩ <;> dsimp only <;> decide +kernel

theorem witness_TrustedDomain :
    ((fun (s : State) (h : PortHead) => s.regsOk ∧ s.tablesOk ∧ s.portTakes 0xA h = true ∧ portKeyed s = false ∧ attBit s 0 = true) (put portKey [(portReg Reg.PORT_STATE, 2), (hPage 7 + Reg.ATT_STATE, 1)]) (hd)) ∧
    ((fun (s : State) (h : PortHead) (ct : List Byte) (x : Exchange) => s.regsOk ∧ s.tablesOk ∧ s.portTakes 9 h = true ∧ portKeyed s = false ∧ s.port.exchange = some x ∧ ct.length = 1088) ({ put portKey [(portReg Reg.PORT_STATE, 2), (hPage 7 + Reg.ATT_STATE, 1)] with port.exchange := some { tag := 4, quote := [1], ek := [2] } }) (hd) (List.replicate 1088 3) ({ tag := 4, quote := [1], ek := [2] })) ∧
    ((fun (s : State) (h : PortHead) (ct : List Byte) (x : Exchange) => s.regsOk ∧ s.tablesOk ∧ s.portTakes 9 h = true ∧ portKeyed s = false ∧ s.port.exchange = some x ∧ ct.length ≠ 1088) ({ put portKey [(portReg Reg.PORT_STATE, 2), (hPage 7 + Reg.ATT_STATE, 1)] with port.exchange := some { tag := 4, quote := [1], ek := [2] } }) (hd) (List.replicate 1087 3) ({ tag := 4, quote := [1], ek := [2] })) ∧
    ((fun (s : State) (h : PortHead) => s.regsOk ∧ s.tablesOk ∧ s.mailOpen h = true ∧ attBit s 0 = true) (put portKey [(hPage 7 + Reg.ATT_STATE, 1)]) (hdEnc)) ∧
    ((fun (s : State) (h : PortHead) => s.mailOpen h = true) (portKey) (hdEnc)) ∧
    ((fun (s : State) (h : PortHead) (r : Nat) (bytes : List Byte) => s.regsOk ∧ s.tablesOk ∧ s.mailOpen h = true ∧ bytes.length = 32 ∧ 5 ≤ r ∧ r ≤ 7) (portKey) (hdEnc) (7) (leBytes 32 5)) ∧
    ((fun (s : State) (h : PortHead) (r : Nat) (bytes : List Byte) => s.regsOk ∧ s.tablesOk ∧ s.mailOpen h = true ∧ bytes.length = 32 ∧ (r < 5 ∨ 7 < r)) (portKey) (hdEnc) (8) (leBytes 32 5)) ∧
    ((fun (s : State) (h : PortHead) => s.regsOk ∧ s.tablesOk ∧ s.mailOpen h = true) (put portKey [(hPage 7 + Reg.ATT_STATE, 1)]) (hdEnc)) ∧
    ((fun (s : State) (h : PortHead) => s.regsOk ∧ s.tablesOk ∧ s.mailOpen h = true ∧ attBit s 0 = true) (put portKey [(hPage 7 + Reg.ATT_STATE, 1)]) (hdEnc)) ∧
    ((fun (s : State) (h : PortHead) => s.regsOk ∧ s.tablesOk ∧ s.mailOpen h = true ∧ attBit s 0 = false) (portKey) (hdEnc)) := by
  refine ⟨?_, ?_, ?_, ?_, ?_, ?_, ?_, ?_, ?_, ?_⟩ <;> dsimp only <;> decide +kernel

theorem witness_ReclaimStages :
    ((fun (s : State) (h : PortHead) (mask : Nat) (deadline : Nat) => s.regsOk ∧ s.tablesOk ∧ s.mailOpen h = true ∧ rclRunning s = false ∧ s.turn < deadline ∧ deadline ≤ s.turn + 58593750 ∧ deadline < 2 ^ 54 ∧ mask < 256 ∧ wholeJobGroup s mask = true ∧ (partsSlot s mask).isSome = true ∧ admitted s = false) (put portKey [(hPage 4 + Reg.PART_OWN, 2), (slotKey Reg.SLOT_STATE 63, 1), (slotKey Reg.SLOT_CFG 63, 0x0100)]) (hdEnc) (1) (58593750)) ∧
    ((fun (s : State) (h : PortHead) (mask : Nat) (deadline : Nat) => s.regsOk ∧ s.tablesOk ∧ s.mailOpen h = true ∧ rclRunning s = false ∧ s.turn < deadline ∧ deadline ≤ s.turn + 58593750 ∧ deadline < 2 ^ 54 ∧ mask < 256 ∧ wholeJobGroup s mask = true ∧ ((partsSlot s mask).isSome = true → admitted s = true)) (put portKey [(hPage 4 + Reg.PART_OWN, 2)]) (hdEnc) (1) (58593750)) ∧
    ((fun (s : State) (h : PortHead) (mask : Nat) (deadline : Nat) => s.regsOk ∧ s.tablesOk ∧ s.mailOpen h = true ∧ rclRunning s = false ∧ s.turn < deadline ∧ deadline ≤ s.turn + 58593750 ∧ deadline < 2 ^ 54 ∧ (256 ≤ mask ∨ wholeJobGroup s mask = false)) (portKey) (hdEnc) (256) (1)) ∧
    ((fun (s : State) (turn : Nat) => s.regsOk ∧ s.tablesOk ∧ turn ≤ s.reclaim.accepted) ({ put portKey [(rclReg Reg.RCL_STATE, 0x101), (rclReg Reg.RCL_DL_LO, 2000000), (hPage 4 + Reg.PART_OWN, 2)] with reclaim := { accepted := 5, stopping := [47] } }) (5)) ∧
    ((fun (s : State) (turn : Nat) => s.regsOk ∧ s.tablesOk ∧ s.reclaim.accepted < turn) ({ put portKey [(rclReg Reg.RCL_STATE, 0x101), (rclReg Reg.RCL_DL_LO, 2000000), (hPage 4 + Reg.PART_OWN, 2)] with reclaim := { accepted := 5, stopping := [47] } }) (6)) ∧
    ((fun (s : State) (turn : Nat) => s.regsOk ∧ s.tablesOk ∧ s.reclaim.accepted < turn ∧ rclState s = 1) ({ put portKey [(rclReg Reg.RCL_STATE, 0x101), (rclReg Reg.RCL_DL_LO, 2000000), (hPage 4 + Reg.PART_OWN, 2)] with reclaim := { accepted := 5, stopping := [47] } }) (6)) ∧
    ((fun (s : State) (turn : Nat) (reached : Nat → Bool) (d : Nat) (j : Nat) => s.regsOk ∧ s.tablesOk ∧ s.reclaim.accepted < turn ∧ d ∈ s.reclaim.stopping ∧ reached d = true ∧ d < 48 ∧ j < 9) ({ put portKey [(rclReg Reg.RCL_STATE, 0x101), (rclReg Reg.RCL_DL_LO, 2000000), (hPage 4 + Reg.PART_OWN, 2)] with reclaim := { accepted := 5, stopping := [47] } }) (6) (fun _ => true) (47) (8)) ∧
    ((fun (s : State) => s.regsOk ∧ s.tablesOk ∧ rclState s = 2 ∧ groupQuiet s (rclMask s) = false) ({ put portKey [(rclReg Reg.RCL_STATE, 0x102), (rclReg Reg.RCL_DL_LO, 2000000), (hPage 4 + Reg.PART_OWN, 2)] with seq.flights := [theFlight 3 (.data [])] })) ∧
    ((fun (s : State) => s.regsOk ∧ s.tablesOk ∧ rclState s = 2 ∧ groupQuiet s (rclMask s) = true) (put portKey [(rclReg Reg.RCL_STATE, 0x102), (rclReg Reg.RCL_DL_LO, 2000000), (hPage 4 + Reg.PART_OWN, 2)])) ∧
    ((fun (s : State) (h : PortHead) => s.regsOk ∧ s.tablesOk ∧ s.mailOpen h = true ∧ rclState s = 3) (put portKey [(rclReg Reg.RCL_STATE, 0x103), (rclReg Reg.RCL_DL_LO, 2000000), (hPage 4 + Reg.PART_OWN, 2)]) (hdEnc)) ∧
    ((fun (s : State) (h : PortHead) => s.regsOk ∧ s.tablesOk ∧ s.mailOpen h = true ∧ rclState s ≠ 3) (portKey) (hdEnc)) ∧
    ((fun (s : State) => s.regsOk ∧ s.tablesOk ∧ 1 ≤ rclState s ∧ rclState s ≤ 3 ∧ rclDeadline s ≤ s.turn + 1953125 ∧ (rclState s = 3 ∨ groupQuiet s (rclMask s) = false)) (put portKey [(rclReg Reg.RCL_STATE, 0x103), (rclReg Reg.RCL_DL_LO, 1953125), (hPage 4 + Reg.PART_OWN, 2)])) ∧
    ((fun (s : State) => rclRunning s = true ∧ rclDeadline s ≤ s.turn ∧ s.reclaim.late = false) (put portKey [(rclReg Reg.RCL_STATE, 0x102), (rclReg Reg.RCL_DL_LO, 0), (hPage 4 + Reg.PART_OWN, 2)])) ∧
    ((fun (s : State) => s.regsOk ∧ s.tablesOk ∧ rclState s = 5 ∧ s.reclaim.parted < s.turn ∧ s.catching.caught = true) ({ put portKey [(rclReg Reg.RCL_STATE, 0x105), (rclReg Reg.RCL_DL_LO, 0), (hPage 4 + Reg.PART_OWN, 2)] with time.now := 1024, catching.caught := true })) ∧
    ((fun (s : State) => s.regsOk ∧ s.tablesOk ∧ rclState s = 5 ∧ s.reclaim.parted < s.turn ∧ s.catching.caught = false ∧ ((setBits (rclMask s) 8).all fun p => partQuiet s p) = true) ({ put portKey [(rclReg Reg.RCL_STATE, 0x105), (rclReg Reg.RCL_DL_LO, 0), (hPage 4 + Reg.PART_OWN, 2)] with time.now := 1024 })) ∧
    ((fun (s : State) => s.regsOk ∧ s.tablesOk ∧ rclState s = 5 ∧ s.reclaim.parted < s.turn ∧ s.catching.caught = false ∧ ((setBits (rclMask s) 8).all fun p => partQuiet s p) = false ∧ s.reclaim.busy = true) ({ put (put portKey [(rclReg Reg.RCL_STATE, 0x105), (rclReg Reg.RCL_DL_LO, 0), (hPage 4 + Reg.PART_OWN, 2)]) [(progReg 0 0, 2 ^ 31)] with time.now := 1024, reclaim.busy := true })) ∧
    ((fun (s : State) => s.regsOk ∧ s.tablesOk ∧ rclState s = 5 ∧ s.reclaim.parted < s.turn ∧ s.catching.caught = false ∧ ((setBits (rclMask s) 8).all fun p => partQuiet s p) = false ∧ s.reclaim.busy = false) ({ put (put portKey [(rclReg Reg.RCL_STATE, 0x105), (rclReg Reg.RCL_DL_LO, 0), (hPage 4 + Reg.PART_OWN, 2)]) [(progReg 0 0, 2 ^ 31)] with time.now := 1024, reclaim.busy := false })) := by
  refine ⟨?_, ?_, ?_, ?_, ?_, ?_, ?_, ?_, ?_, ?_, ?_, ?_, ?_, ?_, ?_, ?_, ?_⟩ <;> dsimp only <;> decide +kernel

theorem witness_CatchAndBelt :
    ((fun (s : State) => s.regsOk ∧ s.tablesOk ∧ s.stopped = false ∧ s.catching.caught = true) ({ State.reset with catching.caught := true })) ∧
    ((fun (s : State) => s.regsOk ∧ s.tablesOk ∧ s.stopped = false ∧ s.catching.caught = false) (State.reset)) ∧
    ((fun (s : State) (t0 : Nat) (cause : Nat) (die : Nat) (flash : Bool) => s.regsOk ∧ s.tablesOk ∧ s.catching.dump = some (t0, cause, die, flash)) ({ State.reset with catching.dump := some (0, 1, 62, true) }) (0) (1) (62) (true)) ∧
    ((fun (s : State) (d : Nat) => s.regsOk ∧ s.tablesOk ∧ d < 63 ∧ s.stopped = false ∧ 4 ≤ sget zeroAt s.time.missed d ∧ d ∉ s.catching.lone) ({ State.reset with time.missed := [(62, 4)] }) (62)) ∧
    ((fun (s : State) (h : PortHead) => s.mailOpen h = true) (portKey) (hdEnc)) ∧
    ((fun (s : State) (h : PortHead) => s.regsOk ∧ s.tablesOk ∧ s.mailOpen h = true ∧ s.catching.dump ≠ none) ({ portKey with catching.dump := some (0, 1, 62, true) }) (hdEnc)) ∧
    ((fun (s : State) (h : PortHead) => s.regsOk ∧ s.tablesOk ∧ s.mailOpen h = true ∧ s.catching.dump = none) (portKey) (hdEnc)) ∧
    ((fun (s : State) (d : Nat) (attempt : Nat) => s.regsOk ∧ s.tablesOk ∧ d < 63 ∧ beltRuns s d = true ∧ attempt ≤ 3 ∧ (attempt = 1 ∨ attempt = beltTries s d + 1)) ({ State.reset with belt.tries := [(62, 2)] }) (62) (3)) ∧
    ((fun (s : State) (d : Nat) (attempt : Nat) => s.regsOk ∧ s.tablesOk ∧ d < 63 ∧ beltRuns s d = true ∧ attempt ≤ 3 ∧ attempt ≠ 1 ∧ attempt ≠ beltTries s d + 1) (State.reset) (62) (3)) ∧
    ((fun (s : State) (d : Nat) => s.regsOk ∧ s.tablesOk ∧ d < 63 ∧ beltRuns s d = true ∧ beltTries s d = 3) ({ State.reset with belt.tries := [(62, 3)] }) (62)) ∧
    ((fun (s : State) (d : Nat) (e : Event) (rest : List Event) => s.regsOk ∧ s.tablesOk ∧ beltRuns s d = true ∧ sget nilAt s.belt.queues d = e :: rest ∧ eventQueue s e.partition = none ∧ s.belt.store.length < 4096) (withEvent) (62) (anEvent) ([])) ∧
    ((fun (s : State) (d : Nat) (e : Event) (rest : List Event) => s.regsOk ∧ s.tablesOk ∧ beltRuns s d = true ∧ sget nilAt s.belt.queues d = e :: rest ∧ eventQueue s e.partition = none ∧ 4096 ≤ s.belt.store.length) ({ withEvent with belt.store := List.replicate 4096 anEvent }) (62) (anEvent) ([])) ∧
    ((fun (s : State) (d : Nat) => s.regsOk ∧ s.tablesOk ∧ d < 64 ∧ sget zeroAt s.belt.lost d ≠ 0 ∧ (sget nilAt s.belt.queues d).length < 256) ({ State.reset with belt.lost := [(63, 1)] }) (63)) ∧
    ((fun (s : State) => s.regsOk ∧ s.tablesOk ∧ s.belt.storeLost ≠ 0 ∧ s.belt.store.length < 4096 ∧ (sget nilAt s.belt.queues 63).length < 256) ({ State.reset with belt.storeLost := 1 })) := by
  refine ⟨?_, ?_, ?_, ?_, ?_, ?_, ?_, ?_, ?_, ?_, ?_, ?_, ?_, ?_⟩ <;> dsimp only <;> decide +kernel

theorem witness_PowerStates :
    ((fun (s : State) => s.regsOk ∧ s.tablesOk ∧ s.stopped = false ∧ psEntering s = true) ({ put State.reset [(psReg Reg.PS_STATE, 16)] with wake.target := 2 })) ∧
    ((fun (s : State) => s.regsOk ∧ s.tablesOk ∧ s.stopped = false ∧ s.wakesBy 3 = true) (asleep (State.reset) 3)) ∧
    ((fun (s : State) (l : Nat) => s.regsOk ∧ s.tablesOk ∧ s.stopped = false ∧ l ≤ 24 ∧ detecting s = true ∧ s.wakesBy (if l = 24 then 1 else 0) = true) (asleep (State.reset) 3) (24)) ∧
    ((fun (s : State) (h : PortHead) => s.regsOk ∧ s.tablesOk ∧ s.portTakes 0xC h = true ∧ psState s ≠ 3 ∧ s.wakesBy 1 = true) (asleep (portOpen) 1) (hd)) ∧
    ((fun (s : State) (page : Nat) (cl : Nat) (a : Nat) => s.regsOk ∧ s.tablesOk ∧ s.stopped = false ∧ cl < 432 ∧ page = clPage 0x12 cl ∧ enables s cl = true ∧ commitOf s page = some { page := page, turn := some a } ∧ a ≤ s.turn + wakeTurns (psState s) ∧ s.wakesBy 5 = true) ({ asleep (shade State.reset [(progReg 431 7, 2 ^ 31)]) 2 with regs.commits := [{ page := clPage 0x12 431, turn := some 49 }] }) (clPage 0x12 431) (431) (49)) ∧
    ((fun (s : State) => s.regsOk ∧ s.tablesOk ∧ s.stopped = false ∧ psEntering s = true ∧ bit (s.reg (psReg Reg.PS_WAKE_EN)) 3 = 1) ({ asleep (State.reset) 16 with wake.target := 3 })) ∧
    ((fun (s : State) => s.regsOk ∧ s.tablesOk) (asleep (State.reset) 3)) ∧
    ((fun (s : State) => s.regsOk ∧ s.tablesOk ∧ s.stopped = false ∧ psWaking s = true ∧ nextStage (psState s) (psStage s) ≠ 0) ({ put State.reset [(psReg Reg.PS_STATE, 0x123)] with wake.attempts := 1 })) ∧
    ((fun (s : State) => s.regsOk ∧ s.tablesOk ∧ s.stopped = false ∧ psWaking s = true ∧ nextStage (psState s) (psStage s) = 0) ({ put State.reset [(psReg Reg.PS_STATE, 0x423)] with wake.attempts := 1 })) ∧
    ((fun (s : State) => s.regsOk ∧ s.tablesOk ∧ s.stopped = false ∧ psWaking s = true ∧ s.wake.attempts = 1) ({ put State.reset [(psReg Reg.PS_STATE, 0x123)] with wake.attempts := 1 })) ∧
    ((fun (s : State) => s.regsOk ∧ s.tablesOk ∧ s.stopped = false ∧ psWaking s = true ∧ s.wake.attempts = 2 ∧ s.catching.caught = false) ({ put State.reset [(psReg Reg.PS_STATE, 0x123)] with wake.attempts := 2 })) ∧
    ((fun (s : State) => s.regsOk ∧ s.tablesOk ∧ (pairState s = 2 ∨ pairState s = 3) ∧ pairUp s ≠ []) (put fabric [(pairReg Reg.PAIR_STATE, 2), (pairReg Reg.PAIR_LINKS, 23 * 257)])) ∧
    ((fun (s : State) => s.regsOk ∧ s.tablesOk ∧ pairState s = 1) (put fabric [(pairReg Reg.PAIR_STATE, 1)])) := by
  refine ⟨?_, ?_, ?_, ?_, ?_, ?_, ?_, ?_, ?_, ?_, ?_, ?_, ?_⟩ <;> dsimp only <;> decide +kernel

theorem witness_BringUp :
    ((fun (s : State) => s.regsOk ∧ s.tablesOk ∧ s.boot.pwrgood = false) ({ State.reset with boot.pwrgood := false })) ∧
    ((fun (s : State) => s.regsOk ∧ s.tablesOk ∧ s.boot.pwrgood = true) (State.reset)) ∧
    ((fun (s : State) => s.regsOk ∧ s.tablesOk ∧ s.boot.pwrgood = true ∧ s.boot.inReset = false) (State.reset)) ∧
    ((fun (s : State) => s.regsOk ∧ s.tablesOk ∧ s.boot.pwrgood = true ∧ s.boot.inReset = true) ({ State.reset with boot.inReset := true })) ∧
    ((fun (s : State) => s.regsOk ∧ s.tablesOk ∧ s.bringsUp 2 = true) (booting 2)) ∧
    ((fun (s : State) => s.regsOk ∧ s.tablesOk ∧ s.bringsUp 3 = true) (booting 3)) ∧
    ((fun (s : State) => s.regsOk ∧ s.tablesOk ∧ s.bringsUp 4 = true) (booting 4)) ∧
    ((fun (s : State) (x : StepEnd) => s.regsOk ∧ s.tablesOk ∧ s.bringsUp 5 = true ∧ s.time.refclk = true ∧ x.failed = []) (booting 5) ({})) ∧
    ((fun (s : State) => s.regsOk ∧ s.tablesOk ∧ s.bringsUp 5 = true ∧ s.time.refclk = false) ({ booting 5 with time.refclk := false })) ∧
    ((fun (s : State) (x : StepEnd) (d : Nat) => s.regsOk ∧ s.tablesOk ∧ s.bringsUp 6 = true ∧ x.failed = [] ∧ x.edges = [d] ∧ bf (s.reg (bootReg Reg.BOOT_FAIL)) 7 0 = 0 ∧ d < 48) (booting 6) ({ edges := [47] }) (47)) ∧
    ((fun (s : State) (x : StepEnd) => s.regsOk ∧ s.tablesOk ∧ s.bringsUp 6 = true ∧ x.failed = [] ∧ x.edges = []) (booting 6) ({})) ∧
    ((fun (s : State) => s.regsOk ∧ s.tablesOk ∧ s.bringsUp 7 = true) (booting 7)) ∧
    ((fun (s : State) => s.regsOk ∧ s.tablesOk ∧ s.bringsUp 8 = true) (booting 8)) ∧
    ((fun (s : State) => s.regsOk ∧ s.tablesOk ∧ s.stopped = false ∧ s.catching.caught = false ∧ bootStep s = 9 ∧ ftFlag s 0 = true ∧ (∀ w < 8, sandRanges s w = [])) (put (booting 9) [(ftReg Reg.FT_STATUS, 1)])) ∧
    ((fun (s : State) (h : PortHead) (off : Nat) (total : Nat) (got : Nat) (whole : Nat) (bytes : List Byte) => s.regsOk ∧ s.tablesOk ∧ s.portTakes 0xB h = true ∧ s.boot.recovery = some (got, whole) ∧ off = got ∧ 0 < bytes.length ∧ bytes.length ≤ 4096 ∧ total ≤ fwMax ∧ off + bytes.length ≤ total ∧ (bytes.length = 4096 ∨ off + bytes.length = total) ∧ (got = 0 ∨ total = whole)) ({ portRec with boot.recovery := some (4096, 4100) }) (hd) (4096) (4100) (4096) (4100) ([1, 2, 3, 4])) ∧
    ((fun (s : State) (h : PortHead) (off : Nat) (got : Nat) (whole : Nat) => s.regsOk ∧ s.tablesOk ∧ s.portTakes 0xB h = true ∧ s.boot.recovery = some (got, whole) ∧ off ≠ got) ({ portRec with boot.recovery := some (4096, 5000) }) (hd) (0) (4096) (5000)) ∧
    ((fun (s : State) (h : PortHead) (got : Nat) (whole : Nat) => s.regsOk ∧ s.tablesOk ∧ s.portTakes 0xB h = true ∧ s.boot.recovery = some (got, whole) ∧ got ≠ 0 ∧ got = whole) ({ portRec with boot.recovery := some (5000, 5000) }) (hd) (5000) (5000)) ∧
    ((fun (s : State) (h : PortHead) (got : Nat) (whole : Nat) => s.regsOk ∧ s.tablesOk ∧ s.portTakes 0xB h = true ∧ s.boot.recovery = some (got, whole)) ({ portRec with boot.recovery := some (4096, 5000) }) (hd) (4096) (5000)) ∧
    ((fun (s : State) (dark : Nat) => s.regsOk ∧ s.tablesOk ∧ s.stopped = false ∧ bf (s.reg (portReg Reg.PORT_STATE)) 1 0 = 1 ∧ dark < 4) (put State.reset [(portReg Reg.PORT_STATE, 1)]) (3)) ∧
    ((fun (s : State) => portUp s = true) (portOpen)) ∧
    ((fun (s : State) => s.regsOk ∧ s.tablesOk ∧ portUp s = true) ({ portOpen with port.tx := [{ type := 7, seq := 4095 }, { type := 7, seq := 0 }], port.nextSeq := 1 })) := by
  refine ⟨?_, ?_, ?_, ?_, ?_, ?_, ?_, ?_, ?_, ?_, ?_, ?_, ?_, ?_, ?_, ?_, ?_, ?_, ?_, ?_, ?_⟩ <;> dsimp only <;> decide +kernel

theorem witness_BoardAndMailbox :
    ((fun (s : State) => s.regsOk ∧ s.tablesOk ∧ sbRuns s = true ∧ s.boot.inReset = false ∧ s.wakesBy 2 = true) (asleep (State.reset) 1)) ∧
    ((fun (s : State) => s.regsOk ∧ s.tablesOk ∧ sbRuns s = true ∧ s.boot.inReset = false) (State.reset)) ∧
    ((fun (s : State) => sbRuns s = true) (State.reset)) ∧
    ((fun (s : State) => s.sideband.highZ = true) ({ State.reset with sideband.highZ := true })) ∧
    ((fun (s : State) => s.boot.pwrgood = true) (State.reset)) ∧
    ((fun (s : State) => s.boot.pwrgood = true ∧ s.boot.inReset = true) ({ State.reset with boot.inReset := true })) ∧
    ((fun (s : State) (pins : Nat) (c : Instr) => s.boot.pwrgood = true ∧ s.boot.inReset = false ∧ c ∈ [Instr.extest pins, .extestPulse pins, .extestTrain pins, .clamp, .highz]) (State.reset) (5) (Instr.extest 5)) ∧
    ((fun (s : State) (h : PortHead) (addr : Nat) (n : Nat) => s.mailOpen h = true ∧ 1 ≤ n ∧ n ≤ 16 ∧ addr % 4 = 0) (portKey) (hdEnc) (hPage 3 + Reg.FT_ASYM) (16)) ∧
    ((fun (s : State) (h : PortHead) (addr : Nat) (ws : List Nat) => s.mailOpen h = true ∧ ws ≠ [] ∧ ws.length ≤ 16 ∧ addr % 4 = 0) (portKey) (hdEnc) (hPage 3 + Reg.FT_ASYM) ([5])) ∧
    ((fun (s : State) (h : PortHead) (turn : Nat) (a : Nat) => s.regsOk ∧ s.tablesOk ∧ s.mailOpen h = true ∧ turn < 2 ^ 54 ∧ isShadow a = true ∧ writeStatus s .mailbox a = 0 ∧ commitOf s (addrPage a) = none) (portKey) (hdEnc) (2 ^ 54 - 1) (ftReg Reg.FT_ROLE)) ∧
    ((fun (s : State) (h : PortHead) (partner : Nat) (l0 : Nat) (l1 : Nat) (base : Nat) (size : Nat) (slot : Nat) => s.regsOk ∧ s.tablesOk ∧ s.mailOpen h = true ∧ s.mayCommit pairPage 0 = true ∧ partner < 1024 ∧ admitted s = true ∧ l0 < 24 ∧ l1 < 24 ∧ base < 2 ^ 39 ∧ base % mib2 = 0 ∧ 1 ≤ size ∧ size ≤ 65536 ∧ slot < 64) (put portKey [(hPage 7 + Reg.ATT_STATE, 4)]) (hdEnc) (1023) (23) (22) (2 ^ 39 - 2 ^ 21) (65536) (63)) ∧
    ((fun (s : State) (h : PortHead) (partner : Nat) (base : Nat) (size : Nat) (slot : Nat) => s.regsOk ∧ s.tablesOk ∧ s.mailOpen h = true ∧ s.mayCommit pairPage 0 = true ∧ admitted s = true ∧ (1024 ≤ partner ∨ 2 ^ 39 ≤ base ∨ size = 0 ∨ 65536 < size ∨ 64 ≤ slot)) (put portKey [(hPage 7 + Reg.ATT_STATE, 4)]) (hdEnc) (1024) (0) (0) (0)) ∧
    ((fun (s : State) (h : PortHead) => s.regsOk ∧ s.tablesOk ∧ s.mailOpen h = true ∧ s.mayCommit pairPage 0 = true ∧ admitted s = false) (portKey) (hdEnc)) ∧
    ((fun (s : State) (h : PortHead) => s.regsOk ∧ s.tablesOk ∧ s.mailOpen h = true ∧ s.mayCommit pairPage 0 = true ∧ s.net.mirror = [] ∧ s.net.unacked = []) (portKey) (hdEnc)) ∧
    ((fun (s : State) (h : PortHead) => s.regsOk ∧ s.tablesOk ∧ s.mailOpen h = true ∧ s.mayCommit pairPage 0 = true) (portKey) (hdEnc)) ∧
    ((fun (s : State) (h : PortHead) (turn : Nat) => s.regsOk ∧ s.tablesOk ∧ s.mailOpen h = true ∧ s.mayCommit (hPage 9) turn = true) (portKey) (hdEnc) (2 ^ 54 - 1)) ∧
    ((fun (s : State) (h : PortHead) (turn : Nat) (shares : List Nat) => s.regsOk ∧ s.tablesOk ∧ s.mailOpen h = true ∧ s.mayCommit (hPage 9) turn = true ∧ shares.length = 8) (portKey) (hdEnc) (2 ^ 54 - 1) (List.replicate 8 5)) ∧
    ((fun (s : State) (h : PortHead) (turn : Nat) (point : Nat) => s.regsOk ∧ s.tablesOk ∧ s.mailOpen h = true ∧ s.mayCommit (hPage 9) turn = true ∧ point ≤ 11) (portKey) (hdEnc) (2 ^ 54 - 1) (11)) ∧
    ((fun (s : State) (h : PortHead) (turn : Nat) => s.regsOk ∧ s.tablesOk ∧ s.mailOpen h = true ∧ turn < 2 ^ 54 ∧ writeStatus s .mailbox (hPage 9 + 0x100) ≠ 0) (put portKey [(hPage 9 + Reg.F_CTRL, 1)]) (hdEnc) (2 ^ 54 - 1)) ∧
    ((fun (s : State) (h : PortHead) (point : Nat) => s.regsOk ∧ s.tablesOk ∧ s.mailOpen h = true ∧ 11 < point ∧ point ≠ 255) (portKey) (hdEnc) (12)) ∧
    ((fun (s : State) (h : PortHead) (turn : Nat) (k : Nat) => s.regsOk ∧ s.tablesOk ∧ s.mailOpen h = true ∧ 1 ≤ k ∧ k ≤ 3 ∧ s.mayCommit (hPage 0x0A) turn = true) (portKey) (hdEnc) (2 ^ 54 - 1) (3)) ∧
    ((fun (s : State) (h : PortHead) => s.regsOk ∧ s.tablesOk ∧ s.mailOpen h = true ∧ psState s ≠ 3 ∧ s.wakesBy 6 = true) (asleep (portKey) 1) (hdEnc)) ∧
    ((fun (s : State) (h : PortHead) => s.regsOk ∧ s.tablesOk ∧ s.mailOpen h = true) (portKey) (hdEnc)) ∧
    ((fun (s : State) (h : PortHead) (turn : Nat) => s.regsOk ∧ s.tablesOk ∧ s.mailOpen h = true ∧ turn < 2 ^ 54 ∧ s.power.replan = none) (portKey) (hdEnc) (2 ^ 54 - 1)) ∧
    ((fun (s : State) (h : PortHead) (mask : Nat) => s.regsOk ∧ s.tablesOk ∧ s.mailOpen h = true ∧ mask < 2 ^ 24) (portKey) (hdEnc) (2 ^ 24 - 1)) := by
  refine ⟨?_, ?_, ?_, ?_, ?_, ?_, ?_, ?_, ?_, ?_, ?_, ?_, ?_, ?_, ?_, ?_, ?_, ?_, ?_, ?_, ?_, ?_, ?_, ?_, ?_⟩ <;> dsimp only <;> decide +kernel

end Sys2Proof.Tests
end

section
/-! PROOFS. The issue of a control entry: what the shared operations of the sequencer (stopping a program, posting an
event, noting an issue) change and leave, and the HINT that is built of them (O28). -/

namespace Sys2Proof.Machine

/-! ### Fields of a word of 32 bits -/

/-- A word cut to n bits keeps every field below bit n. -/
theorem bf_mod_two_pow (e hi lo n : Nat) (h : hi < n) : bf (e % 2 ^ n) hi lo = bf e hi lo := by
  apply Nat.eq_of_testBit_eq
  intro i
  rw [testBit_bf, testBit_bf, Nat.testBit_mod_two_pow]
  by_cases hi' : i < hi + 1 - lo
  · simp [show lo + i < n by omega]
  · simp [hi']

/-- A field that a write of a register replaces reads as it was written. -/
theorem bf_setField_reg_self {s : State} (hok : s.regs.ok) (k hi lo v : Nat) (hlo : lo ≤ hi) (hhi : hi < 32) :
    bf ((setField s k hi lo v).reg k) hi lo = v % 2 ^ (hi + 1 - lo) := by
  rw [setField, setReg_reg_self _ _ _ hok.live, bf_mod_two_pow _ _ _ _ hhi, bf_setBf_self _ _ _ _ hlo]

theorem setField_reg_ne (s : State) (k j hi lo v : Nat) (h : j ≠ k) : (setField s k hi lo v).reg j = s.reg j :=
  setReg_reg_ne _ _ _ _ h

theorem setFieldBoth_reg_ne (s : State) (k j hi lo v : Nat) (h : j ≠ k) : (setFieldBoth s k hi lo v).reg j = s.reg j :=
  setReg_reg_ne _ _ _ _ h

/-- A field written in effect and in the shadow reads as written in both. -/
theorem bf_setFieldBoth_reg_self {s : State} (hok : s.regs.ok) (k hi lo v : Nat) (hlo : lo ≤ hi) (hhi : hi < 32) :
    bf ((setFieldBoth s k hi lo v).reg k) hi lo = v % 2 ^ (hi + 1 - lo) :=
  bf_setField_reg_self hok k hi lo v hlo hhi

theorem bf_setFieldBoth_shd_self {s : State} (hok : s.regs.ok) (k hi lo v : Nat) (hlo : lo ≤ hi) (hhi : hi < 32) :
    bf ((setFieldBoth s k hi lo v).shd k) hi lo = v % 2 ^ (hi + 1 - lo) := by
  rw [setFieldBoth, setShd_shd_self _ _ _ (setReg_regsOk _ _ _ hok).shadow, bf_mod_two_pow _ _ _ _ hhi,
    bf_setBf_self _ _ _ _ hlo]

/-! ### Counters -/

theorem incReg_one_reg_self {s : State} (hok : s.regs.ok) (k : Nat) :
    (incReg s k 1).reg k = satAdd 32 (s.reg k) 1 % 2 ^ 32 := setReg_reg_self _ _ _ hok.live

theorem incReg_reg_ne (s : State) (k n j : Nat) (h : j ≠ k) : (incReg s k n).reg j = s.reg j := by
  unfold incReg
  split
  · rfl
  · exact setReg_reg_ne _ _ _ _ h

@[simp] theorem incReg_shd (s : State) (k n j : Nat) : (incReg s k n).shd j = s.shd j := by
  unfold incReg
  split <;> rfl

/-! ### Keys of the sequencer page and of the headstock -/

/-- Distinct registers of a cluster's sequencer page have distinct keys. -/
theorem seqReg_inj (cl a b : Nat) : seqReg cl a = seqReg cl b ↔ a = b := Nat.add_left_cancel_iff

theorem seqReg_ISSUED_HI (cl : Nat) : seqReg cl Reg.ISSUED_HI = seqReg cl Reg.ISSUED_LO + 4 :=
  (Nat.add_assoc (clPage 0x12 cl) 0x1B0 4).symm

/-- The registers of a cluster's sequencer page stand below every register of the headstock. -/
theorem seqReg_lt_headstock (cl off : Nat) (hcl : cl < 432) (hoff : off < 0x1000) : seqReg cl off < hPage 1 := by
  simp only [seqReg, clPage, pageAt, dieBase, hPage]
  omega

/-- The PC of a program stands in the words 0x190 to 0x1AC of the page. -/
theorem pcKey_ne (cl p off : Nat) (hp : p < 8) (hoff : off < 0x190 ∨ 0x1B0 ≤ off) :
    seqReg cl (Reg.PC + 4 * p) ≠ seqReg cl off :=
  mt (seqReg_inj cl (0x190 + 4 * p) off).1 (by omega)

/-- The PROG register of a program stands in the words 0x100 to 0x11C of the page. -/
theorem progReg_ne (cl p off : Nat) (hp : p < 8) (hoff : off < 0x100 ∨ 0x120 ≤ off) : progReg cl p ≠ seqReg cl off :=
  mt (seqReg_inj cl (0x100 + 4 * p) off).1 (by omega)

/-- The offset of a program's PC lies within the page. -/
theorem pcOff_lt (p : Nat) (hp : p < 8) : Reg.PC + 4 * p < 0x1000 := by
  simp only [Reg.PC]
  omega

/-- The offset of a program's PROG register lies within the page. -/
theorem progOff_lt (p : Nat) (hp : p < 8) : Reg.PROG + 4 * p < 0x1000 := by
  simp only [Reg.PROG]
  omega

theorem addrDie_seqPage (cl : Nat) (hcl : cl < 432) : addrDie (clPage 0x12 cl) = cl / 9 := by
  simp only [addrDie, keyAddr, clPage, pageAt, dieBase]
  omega

/-! ### Events -/

@[simp] theorem noteError_belt (s : State) (page : Nat) : (noteError s page).belt = s.belt :=
  (congrArg State.belt (noteError_frame { regs := true } s page rfl) :)

@[simp] theorem postCtx_seq (s : State) (c : Ctx) (cause op1 : Nat) : (postCtx s c cause op1).seq = s.seq :=
  (congrArg State.seq (postCtx_frame { regs := true, belt := true } s c cause op1 rfl rfl) :)

/-- Of the registers, an error noted on a page changes EVENT and ERR_COUNT of the page and the die's summary bit. -/
theorem noteError_reg_of_ne (s : State) (page k : Nat) (hevent : k ≠ page + Reg.F_EVENT) (hcount : k ≠ page + Reg.F_ERR_COUNT)
    (hsum : k ≠ hPage 2 + Reg.SUM_ALERT_LO + 4 * (addrDie page / 32)) : (noteError s page).reg k = s.reg k := by
  unfold noteError setEvent
  dsimp only
  split
  · rw [setAlert, setReg_reg_ne _ _ _ _ hsum, setReg_reg_ne _ _ _ _ hevent, incReg_reg_ne _ _ _ _ hcount]
  · rw [setReg_reg_ne _ _ _ _ hevent, incReg_reg_ne _ _ _ _ hcount]

/-- Of the registers, an event posted changes EVENT and ERR_COUNT of its page and the die's summary bit at most. -/
theorem post_reg_of_ne (s : State) (page k : Nat) (e : Event) (hevent : k ≠ page + Reg.F_EVENT)
    (hcount : k ≠ page + Reg.F_ERR_COUNT) (hsum : k ≠ hPage 2 + Reg.SUM_ALERT_LO + 4 * (addrDie page / 32)) :
    (post s page e).reg k = s.reg k := by
  have hnoted : ∀ b : Prop, [Decidable b] → (if b then noteError s page else s).reg k = s.reg k := by
    intro b _
    split
    · exact noteError_reg_of_ne s page k hevent hcount hsum
    · rfl
  unfold post
  dsimp only
  split
  · exact hnoted _
  · exact hnoted _

/-- An event posted is queued at its die, unless the queue was full. -/
theorem mem_queue_post (s : State) (page : Nat) (e : Event)
    (hroom : (sget nilAt (post s page e).belt.queues (addrDie page)).length < 256) :
    e ∈ sget nilAt (post s page e).belt.queues (addrDie page) := by
  have hbelt : ∀ b : Prop, [Decidable b] → (if b then noteError s page else s).belt = s.belt := by
    intro b _
    split
    · exact noteError_belt s page
    · rfl
  unfold post at hroom ⊢
  dsimp only at hroom ⊢
  split at hroom
  · rename_i hfull
    have : 256 ≤ (sget nilAt s.belt.queues (addrDie page)).length := of_decide_eq_true hfull
    simp only [hbelt] at hroom
    omega
  · rename_i hfull
    rw [if_neg hfull]
    simp only [hbelt]
    rw [sget_sset_listed _ _ _ _ (by simp [nilAt])]
    simp

/-! ### Program slots -/

@[simp] theorem setProg_reg (s : State) (cl p : Nat) (v : Prog) (k : Nat) : (setProg s cl p v).reg k = s.reg k := rfl

/-- What a state's sequencers hold decides what its program slots read. -/
theorem prog_congr {s t : State} (h : t.seq = s.seq) (cl p : Nat) : t.prog cl p = s.prog cl p := by
  unfold State.prog
  rw [h]

theorem setProg_prog_rising {s : State} (h : rising s.seq.progs) (cl p : Nat) (v : Prog) : (setProg s cl p v).prog cl p = v :=
  sget_sset_rising _ h _ _

/-- PROG_STATE of a program reads as it was written. -/
theorem progState_setProgState {s : State} (hok : s.regs.ok) (cl p v : Nat) (hp : p < 8) (hv : v < 16) :
    progState (setProgState s cl p v) cl p = v := by
  rw [progState, setProgState, bf_setField_reg_self hok _ _ _ _ (by omega) (by omega), show 4 * p + 3 + 1 - 4 * p = 4 by omega]
  exact Nat.mod_eq_of_lt hv

/-- The PC of a program reads as it was written. -/
theorem progPC_setPC {s : State} (hok : s.regs.ok) (cl p n : Nat) (hn : n < 2 ^ 32) : progPC (setPC s cl p n) cl p = n :=
  (setReg_reg_self s _ n hok.live).trans (Nat.mod_eq_of_lt hn)

/-! ### A program stops (R50, R57) -/

/-- Of the registers, a program that stops changes its PROG, PROG_STATE and HALT. -/
theorem stopProg_reg_of_ne (s : State) (cl p code k : Nat) (hprog : k ≠ progReg cl p)
    (hstate : k ≠ seqReg cl Reg.PROG_STATE) (hhalt : k ≠ seqReg cl Reg.HALT) : (stopProg s cl p code).reg k = s.reg k := by
  rw [stopProg, setProg_reg, setField_reg_ne _ _ _ _ _ _ hhalt, setProgState, setField_reg_ne _ _ _ _ _ _ hstate,
    setFieldBoth_reg_ne _ _ _ _ _ _ hprog]

@[simp] theorem stopProg_flights (s : State) (cl p code : Nat) : (stopProg s cl p code).seq.flights = s.seq.flights := rfl

@[simp] theorem stopProg_belt (s : State) (cl p code : Nat) : (stopProg s cl p code).belt = s.belt :=
  (congrArg State.belt (stopProg_frame { regs := true, seq := true } s cl p code rfl rfl) :)

/-- The slot of a program that has stopped: no wait, no base turn, the effective priority at base. -/
theorem stopProg_prog {s : State} (h : rising s.seq.progs) (cl p code : Nat) :
    (stopProg s cl p code).prog cl p =
      { s.prog cl p with wait := .none, base := none, age := 0, prio := (s.prog cl p).low } :=
  setProg_prog_rising (s := setField (setProgState (setFieldBoth s (progReg cl p) 31 31 0) cl p code) _ _ _ _) h _ _ _

/-- A program that stops has stopped. -/
theorem stopped_stopProg {s : State} (hok : s.regs.ok) (hrise : rising s.seq.progs) (cl p code : Nat) (hp : p < 8)
    (hcode : code < 16) : Stopped (stopProg s cl p code) cl p code := by
  have hok1 : (setFieldBoth s (progReg cl p) 31 31 0).regs.ok := setFieldBoth_regsOk _ _ _ _ _ hok
  have hreg : (stopProg s cl p code).reg (progReg cl p) = (setFieldBoth s (progReg cl p) 31 31 0).reg (progReg cl p) := by
    rw [stopProg, setProg_reg, setField_reg_ne _ _ _ _ _ _ (progReg_ne cl p Reg.HALT hp (by decide)), setProgState,
      setField_reg_ne _ _ _ _ _ _ (progReg_ne cl p Reg.PROG_STATE hp (by decide))]
  refine ⟨?_, ?_, ?_, ?_, ?_⟩
  · rw [progEnabled, hreg, bit_eq_bf, bf_setFieldBoth_reg_self hok _ _ _ _ (Nat.le_refl _) (by omega)]
    rfl
  · rw [bit_eq_bf]
    exact bf_setFieldBoth_shd_self hok (progReg cl p) 31 31 0 (Nat.le_refl _) (by omega)
  · have hstate : (stopProg s cl p code).reg (seqReg cl Reg.PROG_STATE) =
        (setProgState (setFieldBoth s (progReg cl p) 31 31 0) cl p code).reg (seqReg cl Reg.PROG_STATE) := by
      rw [stopProg, setProg_reg, setField_reg_ne _ _ _ _ _ _ (mt (seqReg_inj _ _ _).1 (by decide))]
    rw [progState, hstate]
    exact progState_setProgState hok1 cl p code hp hcode
  · rw [stopProg_prog hrise]
  · rw [stopProg_prog hrise]

/-! ### The issue of an entry (R54, R56) -/

/-- What every issue does before the program moves: ISSUED and the program's count advance, ageing restarts, and
PROG_STATE shows a program that runs. -/
def countIssue (s : State) (cl p : Nat) : State :=
  let s := setReg64 s (seqReg cl Reg.ISSUED_LO) ((s.reg64 (seqReg cl Reg.ISSUED_LO) + 1) % 2 ^ 64)
  let s := setProg s cl p { s.prog cl p with issued := (s.prog cl p).issued + 1, age := 0 }
  setProgState s cl p 1

/-- An issue within the table takes the program to the next entry. -/
theorem noteIssue_none_of_ne (s : State) (cl p i : Nat) (hi : i ≠ 2047) :
    noteIssue s cl p i none = setPC (countIssue s cl p) cl p (i + 1) := if_neg hi

/-- An issue at the end of the table halts the program in state 9, with the event. -/
theorem noteIssue_none_last (s : State) (cl p : Nat) :
    noteIssue s cl p 2047 none =
      stopProg (postCtx (setPC (countIssue s cl p) cl p 2047) (entryCtx (countIssue s cl p) cl p 2047 0) Cause.ranOffTable
        (tblAddr cl 2047)) cl p 9 := rfl

theorem countIssue_regsOk {s : State} (hok : s.regs.ok) (cl p : Nat) : (countIssue s cl p).regs.ok :=
  setProgState_regsOk _ _ _ _ (setProg_regsOk _ _ _ _ (setReg64_regsOk _ _ _ hok))

theorem countIssue_progs_rising {s : State} (h : rising s.seq.progs) (cl p : Nat) : rising (countIssue s cl p).seq.progs :=
  sset_rising _ h _ _

theorem countIssue_issued (s : State) (cl p : Nat) :
    ((countIssue s cl p).prog cl p).issued = (s.prog cl p).issued + 1 := by
  have hlisted := setProg_prog_listed (setReg64 s (seqReg cl Reg.ISSUED_LO) ((s.reg64 (seqReg cl Reg.ISSUED_LO) + 1) % 2 ^ 64))
    cl p { s.prog cl p with issued := (s.prog cl p).issued + 1, age := 0 } (by simp [Prog.mk.injEq])
  exact congrArg Prog.issued hlisted

/-- Of the registers, the count of an issue changes ISSUED and PROG_STATE. -/
theorem countIssue_reg_of_ne (s : State) (cl p k : Nat) (hlow : k ≠ seqReg cl Reg.ISSUED_LO)
    (hhigh : k ≠ seqReg cl Reg.ISSUED_HI) (hstate : k ≠ seqReg cl Reg.PROG_STATE) :
    (countIssue s cl p).reg k = s.reg k := by
  rw [countIssue, setProgState, setField_reg_ne _ _ _ _ _ _ hstate, setProg_reg, setReg64,
    setReg_reg_ne _ _ _ _ (seqReg_ISSUED_HI cl ▸ hhigh), setReg_reg_ne _ _ _ _ hlow]

/-- A program that has issued, and moved, runs. -/
theorem progState_setPC_countIssue {s : State} (hok : s.regs.ok) (cl p n : Nat) (hp : p < 8) :
    progState (setPC (countIssue s cl p) cl p n) cl p = 1 := by
  rw [progState, setPC, setReg_reg_ne _ _ _ _ (pcKey_ne cl p Reg.PROG_STATE hp (by decide)).symm]
  exact progState_setProgState (setProg_regsOk _ _ _ _ (setReg64_regsOk _ _ _ hok)) cl p 1 hp (by omega)

/-- Of the registers, an event of an entry changes EVENT and ERR_COUNT of its sequencer page and the die's summary bit at
most. -/
theorem postCtx_entryCtx_reg_of_ne (s u : State) (cl p i core cause op1 k : Nat) (hevent : k ≠ seqReg cl Reg.F_EVENT)
    (hcount : k ≠ seqReg cl Reg.F_ERR_COUNT)
    (hsum : k ≠ hPage 2 + Reg.SUM_ALERT_LO + 4 * (addrDie (clPage 0x12 cl) / 32)) :
    (postCtx s (entryCtx u cl p i core) cause op1).reg k = s.reg k := post_reg_of_ne _ _ _ _ hevent hcount hsum

/-- The event at the end of the table leaves the program's PC. -/
theorem postCtx_entryCtx_progPC (s u : State) (cl p q i core cause op1 : Nat) (hcl : cl < 432) (hp : p < 8) :
    progPC (postCtx s (entryCtx u cl q i core) cause op1) cl p = progPC s cl p := by
  have hlt := seqReg_lt_headstock cl (Reg.PC + 4 * p) hcl (pcOff_lt p hp)
  refine postCtx_entryCtx_reg_of_ne _ _ _ _ _ _ _ _ _ (pcKey_ne cl p Reg.F_EVENT hp (by decide))
    (pcKey_ne cl p Reg.F_ERR_COUNT hp (by decide)) ?_
  simp only [hPage, pageAt, dieBase] at hlt ⊢
  omega

/-- An entry that has issued and neither ended nor redirected its program leaves it where R56 has it. -/
theorem goesOn_noteIssue {s : State} (hok : s.regs.ok) (hrise : rising s.seq.progs) (cl p i : Nat) (hcl : cl < 432)
    (hp : p < 8) : GoesOn s (noteIssue s cl p i none) cl p i := by
  have hcount := countIssue_regsOk hok cl p
  refine ⟨fun hi => ?_, fun hi => ?_⟩
  · rw [noteIssue_none_of_ne s cl p i (by omega)]
    exact ⟨progPC_setPC hcount cl p _ (by omega), progState_setPC_countIssue hok cl p _ hp⟩
  · subst hi
    rw [noteIssue_none_last]
    refine ⟨?_, stopped_stopProg (by simp [hcount]) ?_ cl p 9 hp (by omega), ?_⟩
    · have hprog : seqReg cl (Reg.PC + 4 * p) ≠ progReg cl p :=
        (progReg_ne cl p _ hp (.inr (Nat.le_add_right_of_le (by decide)))).symm
      rw [progPC, stopProg_reg_of_ne _ _ _ _ _ hprog (pcKey_ne cl p Reg.PROG_STATE hp (by decide))
          (pcKey_ne cl p Reg.HALT hp (by decide)), ← progPC,
        postCtx_entryCtx_progPC _ _ _ _ _ _ _ _ _ hcl hp]
      exact progPC_setPC hcount cl p 2047 (by decide)
    · rw [postCtx_seq]
      exact countIssue_progs_rising hrise cl p
    · rw [PostedIn, stopProg_belt, ← addrDie_seqPage cl hcl]
      intro hroom
      exact ⟨_, mem_queue_post _ _ _ hroom, rfl, rfl, (addrDie_seqPage cl hcl).symm, rfl⟩

/-- The program's count of entries issued advances by one, wherever the entry stands. -/
theorem noteIssue_none_issued {s : State} (hrise : rising s.seq.progs) (cl p i : Nat) :
    ((noteIssue s cl p i none).prog cl p).issued = (s.prog cl p).issued + 1 := by
  by_cases hi : i = 2047
  · subst hi
    have hseq := postCtx_seq (setPC (countIssue s cl p) cl p 2047) (entryCtx (countIssue s cl p) cl p 2047 0) Cause.ranOffTable
      (tblAddr cl 2047)
    rw [noteIssue_none_last, stopProg_prog (by rw [hseq]; exact countIssue_progs_rising hrise cl p), prog_congr hseq]
    exact countIssue_issued s cl p
  · rw [noteIssue_none_of_ne s cl p i hi]
    exact countIssue_issued s cl p

theorem noteIssue_none_flights (s : State) (cl p i : Nat) : (noteIssue s cl p i none).seq.flights = s.seq.flights := by
  by_cases hi : i = 2047
  · subst hi
    rw [noteIssue_none_last, stopProg_flights, postCtx_seq]
    rfl
  · rw [noteIssue_none_of_ne s cl p i hi]
    rfl

theorem noteIssue_none_belt (s : State) (cl p i : Nat) (hi : i ≠ 2047) : (noteIssue s cl p i none).belt = s.belt := by
  rw [noteIssue_none_of_ne s cl p i hi]
  rfl

@[simp] theorem noteIssue_power (s : State) (cl p i : Nat) (next : Option Nat) : (noteIssue s cl p i next).power = s.power :=
  (congrArg State.power (noteIssue_frame { regs := true, seq := true, belt := true } s cl p i next rfl rfl rfl) :)

/-- An issue leaves the registers of the headstock above its summary page. -/
theorem noteIssue_none_reg_headstock (s : State) (cl p i k : Nat) (hcl : cl < 432) (hp : p < 8) (hk : hPage 3 ≤ k) :
    (noteIssue s cl p i none).reg k = s.reg k := by
  have hseq : ∀ off, off < 0x1000 → k ≠ seqReg cl off := by
    intro off hoff
    have := seqReg_lt_headstock cl off hcl hoff
    simp only [hPage, pageAt, dieBase] at this hk
    omega
  have hmoved : ∀ n, (setPC (countIssue s cl p) cl p n).reg k = s.reg k := by
    intro n
    rw [setPC, setReg_reg_ne _ _ _ _ (hseq _ (pcOff_lt p hp)),
      countIssue_reg_of_ne _ _ _ _ (hseq _ (by decide)) (hseq Reg.ISSUED_HI (by decide)) (hseq _ (by decide))]
  by_cases hi : i = 2047
  · subst hi
    have hsum : k ≠ hPage 2 + Reg.SUM_ALERT_LO + 4 * (addrDie (clPage 0x12 cl) / 32) := by
      rw [addrDie_seqPage cl hcl]
      simp only [hPage, pageAt, dieBase, Reg.SUM_ALERT_LO] at hk ⊢
      omega
    rw [noteIssue_none_last, stopProg_reg_of_ne _ _ _ _ _ (hseq _ (progOff_lt p hp)) (hseq _ (by decide)) (hseq _ (by decide)),
      postCtx_entryCtx_reg_of_ne _ _ _ _ _ _ _ _ _ (hseq _ (by decide)) (hseq _ (by decide)) hsum, hmoved]
  · rw [noteIssue_none_of_ne s cl p i hi, hmoved]

/-- Where a program stands is read from its sequencer page, its slot and its die's queue alone. -/
theorem GoesOn.congr {s t u : State} {cl p i : Nat} (h : GoesOn s t cl p i) (hp : p < 8)
    (hreg : ∀ off < 0x1000, u.reg (seqReg cl off) = t.reg (seqReg cl off)) (hshd : ∀ k, u.shd k = t.shd k)
    (hseq : u.seq = t.seq) (hbelt : u.belt = t.belt) : GoesOn s u cl p i := by
  have hpc : progPC u cl p = progPC t cl p := hreg _ (pcOff_lt p hp)
  have hstate : progState u cl p = progState t cl p := by rw [progState, hreg _ (by decide), progState]
  have henabled : progEnabled u cl p = progEnabled t cl p := by
    rw [progEnabled, progReg, hreg _ (progOff_lt p hp), progEnabled, progReg]
  unfold GoesOn Stopped PostedIn at h ⊢
  rw [hpc, hstate, henabled, hshd, prog_congr hseq, hbelt]
  exact h

/-! ### The HINT (R72, R470) -/

/-- A control entry of its row that may issue at once does what its row says. -/
theorem withControl_of_before {s : State} {cl p i e t : Nat} (k : Nat → Nat → State) (h : s.before cl p i e [] 0 = true)
    (ht : Ent.type e = t) : withControl s cl p t k = k i e := by
  simp only [State.before, Bool.and_eq_true, Bool.not_eq_true', beq_iff_eq, bne_iff_ne] at h
  obtain ⟨⟨⟨⟨⟨⟨⟨hrun, rfl⟩, hbusy⟩, herr⟩, rfl⟩, hrow⟩, hbad⟩, hready⟩ := h
  simp [withControl, withEntry, hrun, hbusy, herr, hrow, hbad, hready, ht]

/-- A program that may issue is one of the eight of a cluster of the package. -/
theorem bounds_of_before {s : State} {cl p i e cores : Nat} {units : List UnitId} (h : s.before cl p i e units cores = true) :
    cl < 432 ∧ p < 8 := by
  simp only [State.before, runnable, Bool.and_eq_true, decide_eq_true_eq] at h
  obtain ⟨⟨⟨⟨⟨⟨⟨⟨⟨⟨⟨-, hcl⟩, hp⟩, -⟩, -⟩, -⟩, -⟩, -⟩, -⟩, -⟩, -⟩, -⟩ := h
  exact ⟨hcl, hp⟩

/-- A HINT's lead lies in the range of R72. -/
def hintLeads (s : State) (cl p e : Nat) : Bool :=
  decide (s.dieTurn (cl / 9) + 49 ≤ namedTurn s cl p e) && decide (namedTurn s cl p e ≤ s.dieTurn (cl / 9) + 488)

/-- The power controller with a HINT that pre-arms partition q until a turn. -/
def prearm (w : PowerState) (q stop level : Nat) : PowerState :=
  { w with varm := sset zeroAt w.varm q (max (sget zeroAt w.varm q) stop), hints := w.hints ++ [(q, stop, level)] }

/-- What a HINT that issues leaves (R72, R470): by its lead it is counted as a hint that pre-arms, or as a marker. -/
def hinted (s : State) (cl p i e : Nat) : State :=
  if hintLeads s cl p e = true then
    incReg { noteIssue s cl p i none with
      power := prearm s.power (partOf cl) (namedTurn s cl p e + Ent.hintDur e) (Ent.hintLevel e) } (hPage 9 + Reg.PWR_HINTS) 1
  else incReg (noteIssue s cl p i none) (hPage 9 + Reg.PWR_MARKS) 1

/-- A HINT that may issue leaves what its lead has it leave. -/
theorem exec_hint_of_before {s : State} {cl p i e : Nat} (h : s.before cl p i e [] 0 = true) (ht : Ent.type e = 0x0C) :
    exec (.hint cl p) s = .next (hinted s cl p i e) := by
  show execHint cl p s = _
  rw [execHint, withControl_of_before _ h ht]
  simp only [hinted, hintLeads, Bool.and_eq_true, decide_eq_true_eq, prearm, noteIssue_power]

/-- What a command leaves outside the registers, the sequencers, the belt and power stands as it was. -/
theorem eq_of_outside {s t : State}
    (h : t.outside { regs := true, seq := true, belt := true, power := true } =
      s.outside { regs := true, seq := true, belt := true, power := true }) :
    t = { s with regs := t.regs, seq := t.seq, belt := t.belt, power := t.power } := by
  obtain ⟨⟩ := s
  obtain ⟨⟩ := t
  exact (State.mk.injEq ..).mpr ⟨(congrArg State.pending h :), (congrArg State.freeCount h :), rfl, (congrArg State.time h :), rfl,
    (congrArg State.mem h :), rfl, (congrArg State.tenant h :), (congrArg State.net h :), (congrArg State.storage h :),
    (congrArg State.port h :), (congrArg State.serving h :), rfl, (congrArg State.wake h :), (congrArg State.boot h :),
    (congrArg State.catching h :), (congrArg State.reclaim h :), (congrArg State.sideband h :), (congrArg State.board h :)⟩

theorem hinted_frame {s : State} {cl p i e : Nat} (h : s.before cl p i e [] 0 = true) (ht : Ent.type e = 0x0C) :
    hinted s cl p i e = { s with regs := (hinted s cl p i e).regs, seq := (hinted s cl p i e).seq,
                                 belt := (hinted s cl p i e).belt, power := (hinted s cl p i e).power } := by
  have hframe := execHint_frame { regs := true, seq := true, belt := true, power := true } cl p s rfl rfl rfl rfl
  have hexec : execHint cl p s = .next (hinted s cl p i e) := exec_hint_of_before h ht
  rw [hexec] at hframe
  exact eq_of_outside hframe

/-- From s to t, entry i of program p has issued to no unit and its program goes on, with no event but at the end of the
table: what every HINT does, whatever its lead. -/
def HintIssued (s t : State) (cl p i : Nat) : Prop :=
  (t.prog cl p).issued = (s.prog cl p).issued + 1 ∧ t.seq.flights = s.seq.flights ∧ GoesOn s t cl p i ∧
    (i < 2047 → t.belt = s.belt)

/-- A counter of the headstock that advances after an issue, with power changed or not, leaves what the issue did. -/
theorem hintIssued_incReg {s : State} (hok : s.regs.ok) (hrise : rising s.seq.progs) (cl p i k n : Nat) (w : PowerState)
    (hcl : cl < 432) (hp : p < 8) (hk : hPage 1 ≤ k) :
    HintIssued s (incReg { noteIssue s cl p i none with power := w } k n) cl p i := by
  have hframe := incReg_frame { regs := true } { noteIssue s cl p i none with power := w } k n rfl
  have hseq : (incReg { noteIssue s cl p i none with power := w } k n).seq = (noteIssue s cl p i none).seq :=
    (congrArg State.seq hframe :)
  have hbelt : (incReg { noteIssue s cl p i none with power := w } k n).belt = (noteIssue s cl p i none).belt :=
    (congrArg State.belt hframe :)
  refine ⟨?_, ?_, ?_, fun hi => ?_⟩
  · rw [prog_congr hseq, noteIssue_none_issued hrise]
  · rw [hseq, noteIssue_none_flights]
  · refine (goesOn_noteIssue hok hrise cl p i hcl hp).congr hp (fun off hoff => ?_) (fun _ => incReg_shd _ _ _ _) hseq hbelt
    have hbelow := seqReg_lt_headstock cl off hcl hoff
    exact incReg_reg_ne _ _ _ _ (by omega)
  · rw [hbelt, noteIssue_none_belt s cl p i (by omega)]

theorem hintIssued_hinted {s : State} (hok : s.regs.ok) (hrise : rising s.seq.progs) (cl p i e : Nat) (hcl : cl < 432)
    (hp : p < 8) : HintIssued s (hinted s cl p i e) cl p i := by
  unfold hinted
  split
  · exact hintIssued_incReg hok hrise cl p i _ 1 _ hcl hp (by decide)
  · exact hintIssued_incReg hok hrise cl p i _ 1 (noteIssue s cl p i none).power hcl hp (by decide)

/-- A HINT whose lead is in range raises its partition's VARM until the turn it names, stands in force, and is counted in
PWR_HINTS alone. -/
theorem hinted_of_leads {s : State} (hok : s.regs.ok) (hrise : rising s.power.varm) (cl p i e : Nat) (hcl : cl < 432)
    (hp : p < 8) (hlead : hintLeads s cl p e = true) :
    let t := hinted s cl p i e
    let stop := namedTurn s cl p e + Ent.hintDur e
    sget zeroAt t.power.varm (partOf cl) = max (sget zeroAt s.power.varm (partOf cl)) stop ∧
    (∀ q, q ≠ partOf cl → sget zeroAt t.power.varm q = sget zeroAt s.power.varm q) ∧
    t.power.hints = s.power.hints ++ [(partOf cl, stop, Ent.hintLevel e)] ∧
    t.reg (hPage 9 + Reg.PWR_HINTS) = satAdd 32 (s.reg (hPage 9 + Reg.PWR_HINTS)) 1 % 2 ^ 32 ∧
    t.reg (hPage 9 + Reg.PWR_MARKS) = s.reg (hPage 9 + Reg.PWR_MARKS) := by
  have hissue : ∀ k, hPage 3 ≤ k → (noteIssue s cl p i none).reg k = s.reg k :=
    fun k hk => noteIssue_none_reg_headstock s cl p i k hcl hp hk
  simp only [hinted, if_pos hlead]
  refine ⟨sget_sset_rising _ hrise _ _, fun q hq => sget_sset_ne _ _ _ _ _ hq, rfl, ?_, ?_⟩
  · rw [← hissue (hPage 9 + Reg.PWR_HINTS) (by decide)]
    exact incReg_one_reg_self (noteIssue_regsOk _ _ _ _ _ hok :) _
  · rw [← hissue (hPage 9 + Reg.PWR_MARKS) (by decide)]
    exact incReg_reg_ne _ _ _ _ (by decide)

/-- Any other HINT is a marker: PWR_MARKS counts it, and power is as it was. -/
theorem hinted_of_not_leads {s : State} (hok : s.regs.ok) (cl p i e : Nat) (hcl : cl < 432) (hp : p < 8)
    (hlead : hintLeads s cl p e = false) :
    let t := hinted s cl p i e
    t.power = s.power ∧
    t.reg (hPage 9 + Reg.PWR_MARKS) = satAdd 32 (s.reg (hPage 9 + Reg.PWR_MARKS)) 1 % 2 ^ 32 ∧
    t.reg (hPage 9 + Reg.PWR_HINTS) = s.reg (hPage 9 + Reg.PWR_HINTS) := by
  have hissue : ∀ k, hPage 3 ≤ k → (noteIssue s cl p i none).reg k = s.reg k :=
    fun k hk => noteIssue_none_reg_headstock s cl p i k hcl hp hk
  simp only [hinted, hlead, Bool.false_eq_true, if_false]
  refine ⟨noteIssue_power s cl p i none, ?_, ?_⟩
  · rw [incReg_one_reg_self (noteIssue_regsOk _ _ _ _ _ hok), hissue _ (by decide)]
  · rw [incReg_reg_ne _ _ _ _ (by decide), hissue _ (by decide)]

end Sys2Proof.Machine

open Sys2Proof Sys2Proof.Machine

/-- Settles O28: the issue moves the program as every issue does, and the lead alone decides between the pre-arming and the
marker. -/
theorem hintPrearms : Obligations.HintPrearms := by
  unfold Obligations.HintPrearms
  intro s cl p i e hregs htables hbefore htype lead
  obtain ⟨hcl, hp⟩ := bounds_of_before hbefore
  obtain ⟨hlive, hshadow, -⟩ := hregs
  have hok : s.regs.ok := ⟨hlive, hshadow⟩
  obtain ⟨-, ⟨hprogs, -⟩, -, -, ⟨-, -, hvarm, -⟩, -⟩ := htables
  obtain ⟨hissued, hflights, hgoes, hbelt⟩ := hintIssued_hinted hok hprogs cl p i e hcl hp
  exact ⟨hinted s cl p i e, exec_hint_of_before hbefore htype, hissued, hflights, hgoes, hbelt,
    hinted_of_leads hok hvarm cl p i e hcl hp, hinted_of_not_leads hok cl p i e hcl hp, hinted_frame hbefore htype⟩

end

section
/-! PROOFS. FW_ONLY of a faceplate (O31): the belt STATUS that it gives the mailbox, what a write of CTRL leaves of it, and
the key-slot and attestation pages, where it stands at 1. -/

namespace Sys2Proof.Machine

/-! ### Writes through the hub -/

theorem exec_registerWrite (s : State) (m : Master) (a v : Nat) :
    exec (.registerWrite m a v) s = .next (written s m a v) := rfl

theorem eq_written_of_exec {s t : State} {m : Master} {a v : Nat} (h : exec (.registerWrite m a v) s = .next t) :
    t = written s m a v := by
  rw [exec_registerWrite] at h
  injection h with h
  exact h.symm

theorem hubWrite_of_refused {s : State} {m : Master} {a : Nat} (v : Nat) (h : writeStatus s m a ≠ 0) :
    hubWrite s m a v = (s, writeStatus s m a) := if_pos h

theorem hubWrite_of_performed {s : State} {m : Master} {a ty inst : Nat} (v : Nat) (hstatus : writeStatus s m a = 0)
    (hheard : s.hubIgnored m a = false) (hpage : pageType (addrDie a) (addrPageIdx a) = some (ty, inst)) :
    hubWrite s m a v = (pageWrite s ty inst (addrPage a) (addrOff a) v, 0) := by
  have hheard' : ¬ (m = .mailbox ∧ confPresent s = true ∧
      (pageType (addrDie a) (addrPageIdx a)).any (fun x => x.1 == 0x16) = true) := by
    simpa [State.hubIgnored] using hheard
  rw [hubWrite, if_neg (fun h => h hstatus), if_neg hheard', hpage]

/-- Outside the random stream page no write is ignored. -/
theorem hubIgnored_of_type {s : State} {m : Master} {a ty inst : Nat}
    (hpage : pageType (addrDie a) (addrPageIdx a) = some (ty, inst)) (hty : ty ≠ 0x16) : s.hubIgnored m a = false := by
  simp [State.hubIgnored, hpage, hty]

/-- Where a write has changed nothing, no commit was withdrawn. -/
@[simp] theorem answerWithdrawn_self (s : State) (page : Nat) : answerWithdrawn s s page = s := by
  unfold answerWithdrawn
  cases commitOf s page <;> rfl

theorem answerWithdrawn_reg (s t : State) (page k : Nat) : (answerWithdrawn s t page).reg k = t.reg k :=
  (congrArg (State.reg · k) (answerWithdrawn_frame { port := true } s t page rfl) :)

theorem written_of_refused {s : State} {m : Master} {a : Nat} (v : Nat) (h : writeStatus s m a ≠ 0) :
    written s m a v = s := by
  rw [written, hubWrite_of_refused v h, answerWithdrawn_self]

theorem written_reg (s : State) (m : Master) (a v k : Nat) : (written s m a v).reg k = (hubWrite s m a v).1.reg k :=
  answerWithdrawn_reg _ _ _ _

/-! ### The mailbox and a page with FW_ONLY set -/

/-- With FW_ONLY set the mailbox is refused every word of an existing page, whatever else would refuse it (R535). -/
theorem writeStatus_mailbox_of_fwOnly {s : State} {a : Nat} (ha : a < 0x4000000)
    (hpage : pageType (addrDie a) (addrPageIdx a) ≠ none) (hfw : bit (s.reg (addrPage a + Reg.F_CTRL)) 0 = 1) :
    writeStatus s .mailbox a = 2 := by
  obtain ⟨⟨ty, inst⟩, hty⟩ := Option.ne_none_iff_exists'.1 hpage
  simp [writeStatus, Nat.not_le.2 ha, hty, hfw]

/-- A key-slot or attestation page refuses the mailbox's reads (R407, R535). -/
theorem hubRead_mailbox_of_trusted (s : State) {a ty inst : Nat} (ha : a < 0x4000000)
    (hpage : pageType (addrDie a) (addrPageIdx a) = some (ty, inst)) (hty : ty = 7 ∨ ty = 8) :
    hubRead s .mailbox a = (s, 2, 0) := by
  simp [hubRead, Nat.not_le.2 ha, hpage, hty]

/-! ### Writes of CTRL -/

/-- A write of CTRL leaves FW_ONLY as bit 0 says, but at 1 on the key-slot and attestation pages. -/
theorem actWrite_ctrl_reg {s t : State} (hok : s.regs.ok) {ty inst page v : Nat}
    (h : actWrite s ty inst page Reg.F_CTRL v = some t) :
    t.reg (page + Reg.F_CTRL) = (if ty = 7 ∨ ty = 8 then 1 else bit v 0) % 2 ^ 32 := by
  have hself : ∀ w, (setReg s (page + Reg.F_CTRL) w).reg (page + Reg.F_CTRL) = w % 2 ^ 32 :=
    fun w => setReg_reg_self _ _ _ hok.live
  have hne : page + Reg.F_CTRL ≠ page + Reg.F_ERR_COUNT := mt Nat.add_left_cancel (by decide)
  obtain rfl := Option.some.inj h
  split
  · rw [setReg_reg_ne _ _ _ _ hne, hself]
  · exact hself _

theorem pageWrite_ctrl_reg_of_trusted {s : State} (hok : s.regs.ok) {ty : Nat} (hty : ty = 7 ∨ ty = 8) (inst page v : Nat) :
    (pageWrite s ty inst page Reg.F_CTRL v).reg (page + Reg.F_CTRL) = 1 := by
  obtain ⟨r, hr⟩ : ∃ r, regRow ty Reg.F_CTRL = some r := ⟨_, rfl⟩
  obtain ⟨t, ht⟩ : ∃ t, actWrite s ty inst page Reg.F_CTRL (v &&& r.mask Reg.F_CTRL) = some t := ⟨_, rfl⟩
  simp only [pageWrite, hr, ht]
  have hone : t.reg (page + Reg.F_CTRL) = 1 % 2 ^ 32 := by rw [actWrite_ctrl_reg hok ht, if_pos hty]
  exact hone

/-- No write of CTRL clears FW_ONLY of a key-slot or attestation page. -/
theorem written_ctrl_keeps_fwOnly {s : State} (hok : s.regs.ok) (m : Master) {a ty inst : Nat} (v : Nat)
    (hpage : pageType (addrDie a) (addrPageIdx a) = some (ty, inst)) (hty : ty = 7 ∨ ty = 8) (hoff : addrOff a = Reg.F_CTRL)
    (hfw : bit (s.reg (addrPage a + Reg.F_CTRL)) 0 = 1) :
    bit ((written s m a v).reg (addrPage a + Reg.F_CTRL)) 0 = 1 := by
  by_cases hstatus : writeStatus s m a = 0
  · have hheard : s.hubIgnored m a = false := hubIgnored_of_type hpage (by omega)
    rw [written_reg, hubWrite_of_performed v hstatus hheard hpage, hoff, pageWrite_ctrl_reg_of_trusted hok hty]
    rfl
  · rwa [written_of_refused v hstatus]

/-! ### Addresses of the headstock -/

theorem headstock_lt (ty off : Nat) (hty : ty ≤ 15) (hoff : off < 0x1000) : hPage ty + off < 0x4000000 := by
  simp only [hPage, pageAt, dieBase]
  omega

theorem addrPage_headstock (ty off : Nat) (hty : ty ≤ 15) (hoff : off < 0x1000) : addrPage (hPage ty + off) = hPage ty := by
  simp only [addrPage, keyAddr, hPage, pageAt, dieBase]
  omega

theorem addrOff_headstock (ty off : Nat) (hoff : off < 0x1000) : addrOff (hPage ty + off) = off := by
  simp only [addrOff, hPage, pageAt, dieBase]
  omega

theorem pageType_headstock (ty off : Nat) (hpos : 1 ≤ ty) (hty : ty ≤ 15) (hoff : off < 0x1000) :
    pageType (addrDie (hPage ty + off)) (addrPageIdx (hPage ty + off)) = some (ty, 0) := by
  have hdie : addrDie (hPage ty + off) = 63 := by
    simp only [addrDie, keyAddr, hPage, pageAt, dieBase]
    omega
  have hidx : addrPageIdx (hPage ty + off) = ty - 1 := by
    simp only [addrPageIdx, keyAddr, hPage, pageAt, dieBase]
    omega
  rw [hdie, hidx]
  simp [pageType, show ty - 1 < 15 by omega, Nat.sub_add_cancel hpos]

/-- The key-slot and attestation pages by their type codes. -/
theorem type_of_trustedPage {page : Nat} (h : page ∈ [hPage 7, hPage 8]) : ∃ ty, (ty = 7 ∨ ty = 8) ∧ page = hPage ty := by
  simpa using h

/-- At reset FW_ONLY is set on the key-slot and attestation pages (R535, R545). -/
theorem reset_fwOnly_of_trusted {ty : Nat} (hty : ty = 7 ∨ ty = 8) :
    bit (State.reset.reg (hPage ty + Reg.F_CTRL)) 0 = 1 := by
  obtain rfl | rfl := hty <;> rfl

end Sys2Proof.Machine

open Sys2Proof Sys2Proof.Machine

/-- Settles O31: FW_ONLY alone makes the mailbox's write refused, so that what clears the bit is firmware's; on the two
pages of the trusted domain the value that CTRL takes is 1 whoever writes it. -/
theorem firmwareOnly : Obligations.FirmwareOnly := by
  unfold Obligations.FirmwareOnly
  refine ⟨?refused, ?cleared, ?trusted, ?reads⟩
  case refused =>
    intro s a v ha hpage hfw
    have hstatus : writeStatus s .mailbox a = 2 := writeStatus_mailbox_of_fwOnly ha hpage hfw
    have hrefused : writeStatus s .mailbox a ≠ 0 := by omega
    exact ⟨by rw [hubWrite_of_refused v hrefused, hstatus], by rw [exec_registerWrite, written_of_refused v hrefused]⟩
  case cleared =>
    intro s t m a v _ ha hpage _ hexec hset hclear
    cases m with
    | firmware => rfl
    | mailbox =>
      have hstatus : writeStatus s .mailbox a = 2 := writeStatus_mailbox_of_fwOnly ha hpage hset
      have hrefused : writeStatus s .mailbox a ≠ 0 := by omega
      rw [eq_written_of_exec hexec, written_of_refused v hrefused, hset] at hclear
      contradiction
  case trusted =>
    intro page hmem
    obtain ⟨ty, hty, rfl⟩ := type_of_trustedPage hmem
    refine ⟨reset_fwOnly_of_trusted hty, fun s t m v hregs hset hexec => ?_⟩
    have hoff : Reg.F_CTRL < 0x1000 := by decide
    have haddr : addrPage (hPage ty + Reg.F_CTRL) = hPage ty := addrPage_headstock ty _ (by omega) hoff
    obtain ⟨hlive, hshadow, -⟩ := hregs
    have hkept := written_ctrl_keeps_fwOnly ⟨hlive, hshadow⟩ m v (pageType_headstock ty _ (by omega) (by omega) hoff) hty
      (addrOff_headstock ty _ hoff) (by rwa [haddr])
    rwa [haddr, ← eq_written_of_exec hexec] at hkept
  case reads =>
    intro s page hmem off hoff
    obtain ⟨ty, hty, rfl⟩ := type_of_trustedPage hmem
    exact hubRead_mailbox_of_trusted s (headstock_lt ty off (by omega) hoff)
      (pageType_headstock ty off (by omega) (by omega) hoff) hty

end
